-- ==== Sys2Proof/Word.lean ====
section
/-! DEFINITION. The words of the machine (00 R3 to R5): bytes, 32-bit and 64-bit words, lane masks, and one value per lane of a group. -/

namespace Sys2Proof

/-- A byte. -/
abbrev Byte := BitVec 8

/-- A 32-bit word: one lane of a vector register, a scalar register, an instruction word. -/
abbrev Word := BitVec 32

/-- A 64-bit word: a register pair, an address before translation, a device register. -/
abbrev DWord := BitVec 64

/-- A mask with one bit per lane of a group, lane 0 in bit 0 (00 R5). -/
abbrev LaneMask := BitVec 32

/-- A lane of a group. -/
abbrev Lane := Fin 32

/-- One value for each of the 32 lanes of a group. -/
abbrev Lanes (α : Type) := Vector α 32

/-- The status flags an operation raises, at their places in FSTAT (08 Table 4): NX 0, UF 1, OF 2, DZ 3, NV 4, SAT 5. -/
abbrev Flags := BitVec 6

end Sys2Proof
end

