-- ==== Sys2Proof/Config.lean ====
section
/-! DEFINITION. What an implementation or a board fixes, and the values the spec leaves open. None has a body, so nothing can be proved of their values. -/

namespace Sys2Proof.Config

open Sys2Proof

/-- A value the spec leaves undefined (R9): the counter makes each use a value of its own. -/
opaque freeWord : Nat → DWord

/-- Whether a read within the hazard window of R212 returns the older value: counter, register, lane. -/
opaque hazardOld : Nat → Nat → Nat → Bool

/-- The interleave hash (R31): for a number of live slices and a granule, an index below that number. -/
opaque interleave : Nat → Nat → Nat

/-- The spill bucket of a doubleword address (R101). -/
opaque spillBucket : Nat → Nat

/-- The special functions where their result is only bounded (R258): opcode and source bits. -/
opaque special : Nat → Word → Word

/-- The context number that Linium gives a group that has been placed (R100); its low 20 bits. -/
opaque context : Nat → Nat

/-- The set in which a home slice keeps a line, and the choice of a line to replace in L1 or in a slice (R42, R44): counter, line. -/
opaque homeSet : Nat → Nat
opaque victim : Nat → Nat → Nat

/-- A byte of memory that had been at or above a lowered MEMCAP, by where that memory ended and by its address (R146). -/
opaque lostByte : Nat → Nat → BitVec 8

/-- What the other side of a peer window or an aperture answers a read of a unit that reads at once: 0 the data, otherwise PROTECTION, CAPACITY or poison
(R24, R25, R389); and the data: counter, address. -/
opaque farAnswer : Nat → Nat → Nat
opaque farWord : Nat → Nat → DWord

/-- Where a machine-check message is placed in the firmware range (R344). -/
opaque mchkAddr : Nat → Nat

/-- Where in the header page of a save area mdrain puts the row of a queued mwr (13 Table 6): core, record. -/
opaque rowData : Nat → Nat → Nat

/-- The cluster of the steward (R154, R396). -/
opaque steward : Nat

/-- The base of a shard's mailbox, as Linium's boot table publishes it (R361, R383). -/
opaque mailbox : Nat → Nat

/-- The physical address of the control cores' device tree (R384). -/
opaque deviceTree : DWord

/-- The answer of a register whose unit another document describes (R386, R388, R391, R392): counter, offset. -/
opaque foreignReg : Nat → Nat → DWord

/-- The rights EX, WR and RD that a rights argument of MEM_PROTECT names (R350): the spec gives no encoding. -/
opaque rightsOf : Word → BitVec 3

/-- The unit whose non-volatile count a word of the store holds (R374), by the MMIO offset of its bucket. -/
opaque nvUnit : Nat → Nat

/-- Whether a matrix load pipe serves a read from a line that it staged earlier (R303): counter, line. -/
opaque stagedRead : Nat → Nat → Bool

/-- The strap that makes root port 0 an endpoint (R388). -/
opaque endpoint : Bool

/-- What a write to a unit that another document describes leaves in the bridge windows, the flow tables, the hash tables and the shards of the
queue sets (R27, R392): counter. -/
opaque bridges : Nat → List (Nat × List (Nat × Nat))
opaque flowTables : Nat → List (Nat × List (Nat × Nat))
opaque hashTables : Nat → List (Nat × Nat)
opaque queueShards : Nat → List (Nat × Nat)

/-- The board position strap (01 Table 6). -/
opaque boardPos : BitVec 3

/-- The interrupt file, as 9 · hart + file, whose page is at a page of the interrupt-file block (R386, 01 Table 7); 144 or more where there is none. -/
opaque imsicFile : Nat → Nat

/-- SHA-512 of a string of bytes, given as a number and its length (R380 to R382). -/
opaque sha512 : Nat → Nat → BitVec 512

/-- The device's signature under its identity key (R382). -/
opaque sign : BitVec 512 → BitVec 1056

/-- An image slot of the flash (R381): whether it has a valid header, its key's hash, whether its signature verifies, its SVN, its entry and
its bytes as a number with their count. -/
opaque imageHeader : Nat → Bool
opaque imageKey : Nat → BitVec 512
opaque imageSigned : Nat → Bool
opaque imageSvn : Nat → Nat
opaque imageEntry : Nat → DWord
opaque imageBytes : Nat → Nat
opaque imageSize : Nat → Nat

/-- The fuses (R381): the key-hash slots, their revoke fuses, and the anti-rollback counter. -/
opaque fuseKey : Nat → BitVec 512
opaque fuseRevoked : Nat → Bool
opaque fuseSvn : Nat

/-- The base of the frame-owner table in the firmware range, as Linium's boot table publishes it (R383, R396). -/
opaque frameOwners : Nat

/-- Where Linium has put the checkpoint area of a paired team (R367): a number for each team. -/
opaque ckptArea : Nat → Nat

end Sys2Proof.Config
end

