-- ==== Sys2Proof/Machine/Float.lean ====
section
/-! DEFINITION. Floating-point numbers (file 08): the formats, the exact values, the one rounding, the clamps, and the flags. -/

namespace Sys2Proof

/-- Inexact. -/
def flagNX : Flags := 0x01
/-- Underflow. -/
def flagUF : Flags := 0x02
/-- Overflow. -/
def flagOF : Flags := 0x04
/-- An exact infinite result from finite sources. -/
def flagDZ : Flags := 0x08
/-- Invalid. -/
def flagNV : Flags := 0x10
/-- A clamp or a saturation. -/
def flagSAT : Flags := 0x20

/-- The flag if the condition holds, else none. -/
def flagIf (b : Bool) (f : Flags) : Flags := if b then f else 0

/-- The floating-point formats (08 Table 1). -/
inductive FFmt
  | f64
  | f32
  | f16
  | bf16
  | f8
deriving DecidableEq, Repr

/-- Width in bits. -/
def FFmt.width : FFmt → Nat
  | .f64 => 64
  | .f32 => 32
  | .f16 | .bf16 => 16
  | .f8 => 8

/-- Bits of the fraction. -/
def FFmt.frac : FFmt → Nat
  | .f64 => 52
  | .f32 => 23
  | .f16 => 10
  | .bf16 => 7
  | .f8 => 3

/-- Bits of the exponent field. -/
def FFmt.expBits (f : FFmt) : Nat := f.width - 1 - f.frac

/-- The exponent bias. -/
def FFmt.bias : FFmt → Nat
  | .f64 => 1023
  | .f32 | .bf16 => 127
  | .f16 => 15
  | .f8 => 7

/-- The exponent of the smallest normal. -/
def FFmt.emin (f : FFmt) : Int := 1 - (f.bias : Int)

/-- The canonical NaN (08 Table 1). -/
def FFmt.nan : FFmt → Nat
  | .f64 => 0x7FF8000000000000
  | .f32 => 0x7FC00000
  | .f16 => 0x7E00
  | .bf16 => 0x7FC0
  | .f8 => 0x7F

/-- The encoding of the largest finite magnitude. -/
def FFmt.maxFin : FFmt → Nat
  | .f64 => 0x7FEFFFFFFFFFFFFF
  | .f32 => 0x7F7FFFFF
  | .f16 => 0x7BFF
  | .bf16 => 0x7F7F
  | .f8 => 0x7E

/-- The sign bit of a format, as a value. -/
def FFmt.signBit (f : FFmt) : Nat := 2 ^ (f.width - 1)

/-- An exact value: a NaN, an infinity, or `(-1)^neg · m · 2^e`; a zero keeps its sign. -/
inductive FVal
  | nan (signalling : Bool)
  | inf (neg : Bool)
  | fin (neg : Bool) (m : Nat) (e : Int)
deriving DecidableEq, Repr

/-- The value of an encoding (R182, R183). -/
def FFmt.value (f : FFmt) (x : Nat) : FVal :=
  let neg := x / f.signBit % 2 == 1
  let fr := x % 2 ^ f.frac
  let ex := x / 2 ^ f.frac % 2 ^ f.expBits
  let top := 2 ^ f.expBits - 1
  if f = .f8 then
    if ex = 15 ∧ fr = 7 then .nan false
    else if ex = 0 then .fin neg fr (f.emin - 3)
    else .fin neg (fr + 8) ((ex : Int) - 7 - 3)
  else if ex = top then
    if fr = 0 then .inf neg else .nan (fr / 2 ^ (f.frac - 1) == 0)
  else if ex = 0 then .fin neg fr (f.emin - f.frac)
  else .fin neg (fr + 2 ^ f.frac) ((ex : Int) - f.bias - f.frac)

/-- The rounding modes (08 Table 2). -/
inductive RMode
  | rne
  | rtz
  | rup
  | rdn
deriving DecidableEq, Repr

/-- The rounding mode of an RND or FMODE.RM value. -/
def RMode.ofBits (b : BitVec 2) : RMode :=
  if b = 0 then .rne else if b = 1 then .rtz else if b = 2 then .rup else .rdn

/-- Whether a magnitude is rounded up to the next unit: `low` is its lowest kept bit, `rem` of `2^shift` is what is cut off. -/
def RMode.up (r : RMode) (neg : Bool) (odd : Bool) (rem half : Nat) : Bool :=
  match r with
  | .rne => decide (rem > half) || (decide (rem = half) && odd)
  | .rtz => false
  | .rup => !neg && decide (rem ≠ 0)
  | .rdn => neg && decide (rem ≠ 0)

/-- A magnitude `m · 2^e` rounded to a multiple of `2^q`: the multiple, and whether something was cut off. -/
def roundAt (r : RMode) (neg : Bool) (m : Nat) (e q : Int) : Nat × Bool :=
  if q ≤ e then (m * 2 ^ (e - q).toNat, false)
  else
    let sh := (q - e).toNat
    let k := m / 2 ^ sh
    let rem := m % 2 ^ sh
    let half := 2 ^ (sh - 1)
    (if r.up neg (k % 2 == 1) rem half then k + 1 else k, decide (rem ≠ 0))

/-- The exponent of the leading bit of `m · 2^e`. -/
def topExp (m : Nat) (e : Int) : Int := e + (Nat.log2 m : Int)

/-- The encoding of `(-1)^neg · k · 2^q` where `k` fits the format's significand. -/
def FFmt.pack (f : FFmt) (neg : Bool) (k : Nat) (q : Int) : Nat :=
  (if neg then f.signBit else 0) +
    (if k < 2 ^ f.frac then k
     else
       let t := topExp k q
       ((t + f.bias).toNat) * 2 ^ f.frac + (k * 2 ^ f.frac / 2 ^ Nat.log2 k - 2 ^ f.frac))

/-- An encoding and the flags its forming raised. -/
structure FRes where
  bits : Nat
  flags : Flags
deriving DecidableEq, Repr

/-- The encoding of an infinity; an .f8 infinity saturates, or is a NaN of its sign under .nsat (R183 step 4). -/
def FFmt.infinity (f : FFmt) (neg nsat : Bool) : Nat :=
  (if neg then f.signBit else 0) +
    (if f = .f8 then (if nsat then 0x7F else 0x7E) else (2 ^ f.expBits - 1) * 2 ^ f.frac)

/-- The result of an overflow (R183, R186). -/
def FFmt.overflow (f : FFmt) (r : RMode) (neg nsat : Bool) : FRes :=
  if f = .f8 then
    if nsat then ⟨(if neg then f.signBit else 0) + 0x7F, flagOF ||| flagNX⟩
    else ⟨(if neg then f.signBit else 0) + 0x7E, flagOF ||| flagSAT ||| flagNX⟩
  else
    let toInf := match r with
      | .rne => true
      | .rtz => false
      | .rup => !neg
      | .rdn => neg
    ⟨if toInf then f.infinity neg false else (if neg then f.signBit else 0) + f.maxFin, flagOF ||| flagNX⟩

/-- The exponent of the unit in which a magnitude is held. -/
def FFmt.quantum (f : FFmt) (m : Nat) (e : Int) : Int := max (topExp m e) f.emin - f.frac

/-- The rounded magnitude exceeds the largest finite value. -/
def FFmt.tooBig (f : FFmt) (k : Nat) (q : Int) : Bool :=
  let t := topExp k q
  let emax := if f = .f8 then (8 : Int) else f.bias
  if t > emax then true
  else f = .f8 && t == 8 && decide (k * 8 / 2 ^ Nat.log2 k = 15)

/-- The one rounding of an exact finite value (R185, R186). -/
def FFmt.round (f : FFmt) (r : RMode) (nsat neg : Bool) (m : Nat) (e : Int) : FRes :=
  if m = 0 then ⟨if neg then f.signBit else 0, 0⟩
  else
    let q := f.quantum m e
    let (k, nx) := roundAt r neg m e q
    if k = 0 then ⟨if neg then f.signBit else 0, flagNX⟩
    else if f.tooBig k q then f.overflow r neg nsat
    else
      ⟨f.pack neg k q, flagIf nx flagNX ||| flagIf (nx && decide (topExp k q < f.emin)) flagUF⟩

/-- The order of two exact finite values, as integers over a common unit. -/
def finInt (neg : Bool) (m : Nat) (e q : Int) : Int :=
  let k : Int := ((m * 2 ^ (e - q).toNat : Nat) : Int)
  if neg then -k else k

/-- The clamps of a float result (08 Table 3). -/
def FFmt.clamp (f : FFmt) (c : BitVec 2) (x : Nat) : FRes :=
  let one := f.bias * 2 ^ f.frac
  let keep : FRes := ⟨x, 0⟩
  let pin (y : Nat) : FRes := ⟨y, flagIf (decide (y ≠ x)) flagSAT⟩
  match c.toNat with
  | 0 => keep
  | 1 =>
    match f.value x with
    | .nan _ => pin 0
    | .inf neg => pin (if neg then 0 else one)
    | .fin neg _ _ => if neg then pin 0 else if x > one then pin one else keep
  | 2 =>
    match f.value x with
    | .nan _ => pin 0
    | .inf neg => pin ((if neg then f.signBit else 0) + one)
    | .fin neg _ _ => if x % f.signBit > one then pin ((if neg then f.signBit else 0) + one) else keep
  | _ =>
    match f.value x with
    | .inf neg => pin ((if neg then f.signBit else 0) + f.maxFin)
    | _ => keep

/-- An exact result of an operation before rounding, with what the operation itself raises. -/
structure Exact where
  val : FVal
  flags : Flags
deriving DecidableEq, Repr

/-- The options of fp_result: mode, DSCALE, CLAMP and .nsat. -/
structure FOpts where
  mode : RMode
  scale : Int
  clamp : BitVec 2
  nsat : Bool
deriving DecidableEq, Repr

/-- fp_result from the exact value on (R187): NaN, scale, round, clamp. -/
def FFmt.result (f : FFmt) (o : FOpts) (x : Exact) : FRes :=
  let r : FRes :=
    match x.val with
    | .nan _ => ⟨f.nan, 0⟩
    | .inf neg => ⟨f.infinity neg o.nsat, 0⟩
    | .fin neg m e => f.round o.mode o.nsat neg m (e + o.scale)
  let c := f.clamp o.clamp r.bits
  ⟨c.bits, x.flags ||| r.flags ||| c.flags⟩

/-- NV for a signalling NaN among the sources (R184). -/
def FVal.sig : FVal → Flags
  | .nan s => flagIf s flagNV
  | _ => 0

/-- The exact sum of two finite values; a zero sum of opposite signs takes its sign from the mode (R185). -/
def finAdd (r : RMode) (n1 : Bool) (m1 : Nat) (e1 : Int) (n2 : Bool) (m2 : Nat) (e2 : Int) : FVal :=
  let q := min e1 e2
  let s := finInt n1 m1 e1 q + finInt n2 m2 e2 q
  if s = 0 then .fin (if n1 = n2 then n1 else r = .rdn) 0 0
  else .fin (decide (s < 0)) s.natAbs q

/-- The sum of two values; the NaN of a quiet source raises nothing and the invalid sum raises NV (R253). -/
def FVal.add (r : RMode) (a b : FVal) : Exact :=
  match a, b with
  | .nan _, _ | _, .nan _ => ⟨.nan false, a.sig ||| b.sig⟩
  | .inf n1, .inf n2 => if n1 = n2 then ⟨.inf n1, 0⟩ else ⟨.nan false, flagNV⟩
  | .inf n, .fin _ _ _ | .fin _ _ _, .inf n => ⟨.inf n, 0⟩
  | .fin n1 m1 e1, .fin n2 m2 e2 => ⟨finAdd r n1 m1 e1 n2 m2 e2, 0⟩

/-- The product of two values (R253). -/
def FVal.mul (a b : FVal) : Exact :=
  match a, b with
  | .nan _, _ | _, .nan _ => ⟨.nan false, a.sig ||| b.sig⟩
  | .inf n1, .inf n2 => ⟨.inf (n1 != n2), 0⟩
  | .inf n1, .fin n2 m _ | .fin n2 m _, .inf n1 => if m = 0 then ⟨.nan false, flagNV⟩ else ⟨.inf (n1 != n2), 0⟩
  | .fin n1 m1 e1, .fin n2 m2 e2 => ⟨.fin (n1 != n2) (m1 * m2) (e1 + e2), 0⟩

/-- `a · b + c`, exact; an invalid product is invalid whatever `c` is (R253). -/
def FVal.fma (r : RMode) (a b c : FVal) : Exact :=
  let p := a.mul b
  let s := p.val.add r c
  ⟨s.val, p.flags ||| s.flags⟩

/-- Square root of `n` by bits: the greatest `k` below `2^i` with `k² ≤ n`, `acc` already found. -/
def isqrtBits (n : Nat) : Nat → Nat → Nat
  | 0, acc => acc
  | i + 1, acc =>
    let t := acc + 2 ^ i
    isqrtBits n i (if t * t ≤ n then t else acc)

/-- The integer square root. -/
def isqrt (n : Nat) : Nat := isqrtBits n (Nat.log2 n / 2 + 1) 0

/-- A quotient with enough bits to be rounded once: twice the quotient, plus 1 if something remains. -/
def divSticky (a b : Nat) (bits : Nat) : Nat × Int :=
  let q := a * 2 ^ bits / b
  let r := a * 2 ^ bits % b
  (2 * q + (if r = 0 then 0 else 1), -(bits : Int) - 1)

/-- 1/x before rounding (R258, R259). -/
def FVal.recip : FVal → Exact
  | .nan s => ⟨.nan false, flagIf s flagNV⟩
  | .inf n => ⟨.fin n 0 0, 0⟩
  | .fin n m e =>
    if m = 0 then ⟨.inf n, flagDZ⟩
    else
      let (k, q) := divSticky 1 m (80 + Nat.log2 m)
      ⟨.fin n k (q - e), 0⟩

/-- The square root before rounding (R258, R259). -/
def FVal.sqrt : FVal → Exact
  | .nan s => ⟨.nan false, flagIf s flagNV⟩
  | .inf n => if n then ⟨.nan false, flagNV⟩ else ⟨.inf false, 0⟩
  | .fin n m e =>
    if m = 0 then ⟨.fin n 0 0, 0⟩
    else if n then ⟨.nan false, flagNV⟩
    else
      let m' := if e % 2 = 0 then m else 2 * m
      let e' := if e % 2 = 0 then e else e - 1
      let w := m' * 2 ^ 128
      let k := isqrt w
      ⟨.fin false (2 * k + (if k * k = w then 0 else 1)) (e' / 2 - 64 - 1), 0⟩

/-- A value is NaN. -/
def FVal.isNan : FVal → Bool
  | .nan _ => true
  | _ => false

/-- The order of two numbers: negative if the first is below, zero if equal as numbers (−0 = +0); NaN is not given. -/
def FVal.cmp (a b : FVal) : Int :=
  let rank : FVal → Int
    | .inf n => if n then -1 else 1
    | _ => 0
  match a, b with
  | .fin n1 m1 e1, .fin n2 m2 e2 =>
    let q := min e1 e2
    (finInt n1 m1 e1 q - finInt n2 m2 e2 q).sign
  | _, _ => (rank a - rank b).sign

/-- The value carries a negative sign. -/
def FVal.neg : FVal → Bool
  | .nan _ => false
  | .inf n => n
  | .fin n _ _ => n

/-- fmin or fmax of two encodings (R255): one of the sources, −0 below +0. -/
def FFmt.minMax (f : FFmt) (isMax : Bool) (a b : Nat) : FRes :=
  let x := f.value a
  let y := f.value b
  let fl := x.sig ||| y.sig
  if x.isNan && y.isNan then ⟨f.nan, fl⟩
  else if x.isNan then ⟨b, fl⟩
  else if y.isNan then ⟨a, fl⟩
  else
    let c := x.cmp y
    let aLess := decide (c < 0) || (decide (c = 0) && x.neg && !y.neg)
    ⟨if aLess != isMax then a else b, fl⟩

/-- The class mask of an encoding (R257). -/
def FFmt.classMask (f : FFmt) (x : Nat) : Nat :=
  match f.value x with
  | .nan s => if s then 2 ^ 8 else 2 ^ 9
  | .inf n => if n then 2 ^ 0 else 2 ^ 7
  | .fin n _ _ =>
    let mag := x % f.signBit
    if mag = 0 then (if n then 2 ^ 3 else 2 ^ 4)
    else if mag < 2 ^ f.frac then (if n then 2 ^ 2 else 2 ^ 5)
    else (if n then 2 ^ 1 else 2 ^ 6)

/-- A number rounded to an integral value of its own format (R260). -/
def FFmt.integral (f : FFmt) (r : RMode) (x : Nat) : FRes :=
  match f.value x with
  | .nan s => ⟨f.nan, flagIf s flagNV⟩
  | .inf _ => ⟨x, 0⟩
  | .fin n m e =>
    if m = 0 then ⟨x, 0⟩
    else
      let (k, nx) := roundAt r n m e 0
      let y := f.round .rtz false n k 0
      ⟨y.bits, flagIf nx flagNX⟩

/-- A float as an integer between two bounds (R190). -/
def FVal.toInt (v : FVal) (r : RMode) (lo hi : Int) : Int × Flags :=
  match v with
  | .nan _ => (0, flagNV)
  | .inf n => (if n then lo else hi, flagNV)
  | .fin n m e =>
    let (k, nx) := roundAt r n m e 0
    let z : Int := if n then -(k : Int) else k
    if z < lo then (lo, flagNV) else if hi < z then (hi, flagNV) else (z, flagIf nx flagNX)

/-- An integer as an exact value; zero is +0. -/
def FVal.ofInt (z : Int) : FVal := .fin (decide (z < 0)) z.natAbs 0

end Sys2Proof
end

