-- ==== Sys2Proof/Syntax.lean ====
section
/-! DEFINITION. The instructions and events of the part: the fields of an Oropra encoding (09 R201 to R210) and the one inductive `Instr`, a constructor for each row of the table of operations. -/

namespace Sys2Proof

/-- The form of an instruction, LEN of word 0 (09 Table 1). -/
inductive Form
  | base
  | baseLit
  | ext
  | extLit
deriving DecidableEq, Repr

/-- An operand as its code names it (09 Tables 3 and 5). -/
inductive Opnd
  | v (n : BitVec 8)
  | s (n : BitVec 10)
  | q (n : BitVec 3)
  | l0
  | l1
  | lit
  | zero
  | lane
  | one
  | imm (m : BitVec 10)
deriving DecidableEq, Repr

/-- The fields of an Oropra encoding other than OP (09 Tables 2 and 4). A base form carries the values
that R203 gives the fields it lacks; `lit` is zero in a form without a literal. -/
structure Enc where
  form : Form
  sw : Bool
  d : Opnd
  a : Opnd
  b : Opnd
  c : Opnd
  lit : DWord
  negA : Bool
  absA : Bool
  negB : Bool
  absB : Bool
  negC : Bool
  absC : Bool
  ord : BitVec 2
  rnden : Bool
  rnd : BitVec 2
  func : BitVec 8
  ty : BitVec 4
  pen : Bool
  pinv : Bool
  pred : BitVec 3
  dscale : BitVec 4
  clamp : BitVec 2
deriving DecidableEq, Repr

/-- A privilege mode of a RISC-V hart (R342, R384). -/
inductive Mode
  | machine
  | supervisor
  | user
deriving DecidableEq, Repr

/-- A RISC-V hart that makes an access: a service core or a control core, in a mode. -/
inductive Agent
  | service (c : Nat) (m : Mode)
  | control (h : Nat) (m : Mode)
deriving DecidableEq, Repr

/-- A hart by its number: a service core or a control core. -/
inductive HartName
  | service (c : Nat)
  | control (h : Nat)
deriving DecidableEq, Repr

/-- A hart in a mode. -/
def HartName.agent (m : Mode) : HartName → Agent
  | .service c => .service c m
  | .control h => .control h m

/-- A PCIe function: its root port and its requester ID. -/
structure PcieFunction where
  port : Nat
  rid : Nat
deriving DecidableEq, Repr

/-- The kind of a hart's access. -/
inductive HartOp
  | load
  | store
  | amo
deriving DecidableEq, Repr

/-- A load, store or AMO of a hart at a physical address: bytes, data, and for an AMO the operation and type of 12 Table 3; `cached` says
that a load leaves a copy in the hart's cache. -/
structure HartReq where
  agent : Agent
  pa : Nat
  n : Nat
  data : DWord := 0
  op : Nat := 0
  ty : BitVec 4 := 0
  cached : Bool := false
deriving DecidableEq, Repr

/-- A request at its home slice or target: a merged request of a group's access, or a request of a hart. -/
inductive HomeReq
  | piece (acc i : Nat)
  | hart (r : HartReq)
deriving DecidableEq, Repr

/-- A register as a hart writes it: an offset of the MMIO space with 4 or 8 bytes, or a CSR of a service core. -/
inductive RegAddr
  | mmio (off n : Nat)
  | csr (n : Nat)
deriving DecidableEq, Repr

/-- What a link receiver finds in a flit (R375). -/
inductive FlitCheck
  | good
  | corrected
  | bad
deriving DecidableEq, Repr

/-- What a flit answers: nothing of this package, or a request on its way to a peer, with data and outcome: 0 done, 1 PROTECTION,
2 CAPACITY, 3 poisoned (R24, R25); the kind is a hart's. -/
inductive FlitLoad
  | nothing
  | answer (q : HomeReq) (k : HartOp) (data : DWord) (st : Nat)
deriving DecidableEq, Repr

/-- The operations and events of the part, one constructor for each row of the table of operations.
The rows with a source form are the instructions of Oropra and carry their decoded fields; the others
are the indivisible steps of the other agents (95) and carry what the outside or the agenda supplies. -/
inductive Instr
  /-- `nop` (R231). -/
  | nop (f : Enc)
  /-- `bra` (R227). -/
  | bra (f : Enc)
  /-- `bru` (R227). -/
  | bru (f : Enc)
  /-- `brx` (R228). -/
  | brx (f : Enc)
  /-- `call` (R227). -/
  | call (f : Enc)
  /-- `callx` (R227). -/
  | callx (f : Enc)
  /-- `ret` (R227). -/
  | ret (f : Enc)
  /-- `exit` (R230). -/
  | exit (f : Enc)
  /-- `yield` (R231). -/
  | yield (f : Enc)
  /-- `vote.mask` (R232). -/
  | voteMask (f : Enc)
  /-- `vote.some` (R232). -/
  | voteSome (f : Enc)
  /-- `vote.every` (R232). -/
  | voteEvery (f : Enc)
  /-- `vote.same` (R232). -/
  | voteSame (f : Enc)
  /-- `vote.count` (R232). -/
  | voteCount (f : Enc)
  /-- `shfl.lane` (R232). -/
  | shflLane (f : Enc)
  /-- `shfl.back` (R232). -/
  | shflBack (f : Enc)
  /-- `shfl.fwd` (R232). -/
  | shflFwd (f : Enc)
  /-- `shfl.mix` (R232). -/
  | shflMix (f : Enc)
  /-- `shfl.rot` (R232). -/
  | shflRot (f : Enc)
  /-- `elect` (R232). -/
  | elect (f : Enc)
  /-- `elect.hi` (R232). -/
  | electHi (f : Enc)
  /-- `match.peers` (R232). -/
  | matchPeers (f : Enc)
  /-- `match.uniform` (R232). -/
  | matchUniform (f : Enc)
  /-- `cvset` (R235). -/
  | cvset (f : Enc)
  /-- `sign` (R236). -/
  | sign (f : Enc)
  /-- `cvwait` (R238). -/
  | cvwait (f : Enc)
  /-- `iadd` (R243). -/
  | iadd (f : Enc)
  /-- `isub` (R243). -/
  | isub (f : Enc)
  /-- `iadd3` (R243). -/
  | iadd3 (f : Enc)
  /-- `imul` (R243). -/
  | imul (f : Enc)
  /-- `imulh` (R243). -/
  | imulh (f : Enc)
  /-- `imad` (R243). -/
  | imad (f : Enc)
  /-- `imad.wide` (R243). -/
  | imadWide (f : Enc)
  /-- `lea` (R242). -/
  | lea (f : Enc)
  /-- `imin` (R243). -/
  | imin (f : Enc)
  /-- `imax` (R243). -/
  | imax (f : Enc)
  /-- `iabsd` (R243). -/
  | iabsd (f : Enc)
  /-- `and` (R244). -/
  | and (f : Enc)
  /-- `or` (R244). -/
  | or (f : Enc)
  /-- `xor` (R244). -/
  | xor (f : Enc)
  /-- `not` (R244). -/
  | not (f : Enc)
  /-- `shl` (R244). -/
  | shl (f : Enc)
  /-- `shr` (R244). -/
  | shr (f : Enc)
  /-- `sar` (R244). -/
  | sar (f : Enc)
  /-- `rot` (R244). -/
  | rot (f : Enc)
  /-- `popc` (R244). -/
  | popc (f : Enc)
  /-- `clz` (R244). -/
  | clz (f : Enc)
  /-- `bfe` (R245). -/
  | bfe (f : Enc)
  /-- `bfi` (R245). -/
  | bfi (f : Enc)
  /-- `prmt` (R245). -/
  | prmt (f : Enc)
  /-- `isetp` (R246). -/
  | isetp (f : Enc)
  /-- `sel` (R247). -/
  | sel (f : Enc)
  /-- `mov` (R248). -/
  | mov (f : Enc)
  /-- `movs` (R248). -/
  | movs (f : Enc)
  /-- `bcast` (R248). -/
  | bcast (f : Enc)
  /-- `srd` (R249). -/
  | srd (f : Enc)
  /-- `swr` (R249). -/
  | swr (f : Enc)
  /-- `fadd` (R253). -/
  | fadd (f : Enc)
  /-- `fmul` (R253). -/
  | fmul (f : Enc)
  /-- `ffma` (R253). -/
  | ffma (f : Enc)
  /-- `fmin` (R255). -/
  | fmin (f : Enc)
  /-- `fmax` (R255). -/
  | fmax (f : Enc)
  /-- `fsetp` (R256). -/
  | fsetp (f : Enc)
  /-- `fclass` (R257). -/
  | fclass (f : Enc)
  /-- `frcp` (R258). -/
  | frcp (f : Enc)
  /-- `frsq` (R258). -/
  | frsq (f : Enc)
  /-- `fsqrt` (R258). -/
  | fsqrt (f : Enc)
  /-- `fexp2` (R258). -/
  | fexp2 (f : Enc)
  /-- `flog2` (R258). -/
  | flog2 (f : Enc)
  /-- `fsin` (R258). -/
  | fsin (f : Enc)
  /-- `fcos` (R258). -/
  | fcos (f : Enc)
  /-- `dadd` (R254). -/
  | dadd (f : Enc)
  /-- `dmul` (R254). -/
  | dmul (f : Enc)
  /-- `dfma` (R254). -/
  | dfma (f : Enc)
  /-- `hadd2` (R254). -/
  | hadd2 (f : Enc)
  /-- `hmul2` (R254). -/
  | hmul2 (f : Enc)
  /-- `hfma2` (R254). -/
  | hfma2 (f : Enc)
  /-- `fcvt` (R260). -/
  | fcvt (f : Enc)
  /-- `icvt` (R261). -/
  | icvt (f : Enc)
  /-- `qunpk` (R267). -/
  | qunpk (f : Enc)
  /-- `f8pk` (R263). -/
  | f8pk (f : Enc)
  /-- `pack` (R264). -/
  | pack (f : Enc)
  /-- `ld` (R273). -/
  | ld (f : Enc)
  /-- `st` (R273). -/
  | st (f : Enc)
  /-- `lds` (R273). -/
  | lds (f : Enc)
  /-- `sts` (R273). -/
  | sts (f : Enc)
  /-- `ldc` (R274). -/
  | ldc (f : Enc)
  /-- `prefetch` (R275). -/
  | prefetch (f : Enc)
  /-- `cctl` (R276). -/
  | cctl (f : Enc)
  /-- `atom` (R278). -/
  | atom (f : Enc)
  /-- `atom.cas` (R278). -/
  | atomCas (f : Enc)
  /-- `atoms` (R278). -/
  | atoms (f : Enc)
  /-- `red` (R278). -/
  | red (f : Enc)
  /-- `atomf` (R279). -/
  | atomf (f : Enc)
  /-- `acp` (R281). -/
  | acp (f : Enc)
  /-- `acopy` (R282). -/
  | acopy (f : Enc)
  /-- `twaitany` (R284). -/
  | twaitany (f : Enc)
  /-- `twaitall` (R284). -/
  | twaitall (f : Enc)
  /-- `tffs` (R284). -/
  | tffs (f : Enc)
  /-- `fissue` (R79). -/
  | fissue (f : Enc)
  /-- `fwait` (R79). -/
  | fwait (f : Enc)
  /-- `fence` (R79). -/
  | fence (f : Enc)
  /-- `bar` (R287). -/
  | bar (f : Enc)
  /-- `bar.g` (R287). -/
  | barG (f : Enc)
  /-- `bar` (R288). -/
  | barNamed (f : Enc)
  /-- `barrive` (R288). -/
  | barrive (f : Enc)
  /-- `barwait` (R288). -/
  | barwait (f : Enc)
  /-- `arrive` (R289). -/
  | arrive (f : Enc)
  /-- `wait` (R291). -/
  | wait (f : Enc)
  /-- `nsleep` (R292). -/
  | nsleep (f : Enc)
  /-- `mma` (R301). -/
  | mma (f : Enc)
  /-- `mzero` (R309). -/
  | mzero (f : Enc)
  /-- `mld` (R309). -/
  | mld (f : Enc)
  /-- `mst` (R309). -/
  | mst (f : Enc)
  /-- `mrd` (R309). -/
  | mrd (f : Enc)
  /-- `mwr` (R309). -/
  | mwr (f : Enc)
  /-- `mcvt` (R309). -/
  | mcvt (f : Enc)
  /-- `mofence` (R304). -/
  | mofence (f : Enc)
  /-- `mwait` (R305). -/
  | mwait (f : Enc)
  /-- `mdrain` (R310). -/
  | mdrain (f : Enc)
  /-- `mfill` (R311). -/
  | mfill (f : Enc)
  /-- `mresume` (R311). -/
  | mresume (f : Enc)
  /-- `tspawn` (R321). -/
  | tspawn (f : Enc)
  /-- `tarm` (R322). -/
  | tarm (f : Enc)
  /-- `tdec` (R323). -/
  | tdec (f : Enc)
  /-- `tdone` (R324). -/
  | tdone (f : Enc)
  /-- `tlaunch` (R328). -/
  | tlaunch (f : Enc)
  /-- `tget` (R325). -/
  | tget (f : Enc)
  /-- `scall` (R329). -/
  | scall (f : Enc)
  /-- `trap` (R330). -/
  | trap (f : Enc)
  /-- `bkpt` (R330). -/
  | bkpt (f : Enc)
  /-- `uiret` (R332). -/
  | uiret (f : Enc)
  /-- `uimask` (R333). -/
  | uimask (f : Enc)
  /-- `npbegin` (R175). -/
  | npbegin (f : Enc)
  /-- `npend` (R175). -/
  | npend (f : Enc)
  /-- `grow` (R336). -/
  | grow (f : Enc)
  /-- `carve` (R337). -/
  | carve (f : Enc)
  /-- `ckpt` (R338). -/
  | ckpt (f : Enc)
  /-- `tstampr` (R339). -/
  | tstampr (f : Enc)
  /-- `gsave` (R340). -/
  | gsave (f : Enc)
  /-- `grest` (R340). -/
  | grest (f : Enc)
  /-- ZMSG_LAUNCH (R385). -/
  | zmsgLaunch (h shard pa : Nat)
  /-- REGISTER_WRITE (R7). -/
  | registerWrite (a : Agent) (r : RegAddr) (v : DWord)
  /-- HOME_READ (R61). -/
  | homeRead (q : HomeReq)
  /-- HOME_WRITE (R57). -/
  | homeWrite (q : HomeReq)
  /-- HOME_ATOMIC (R73). -/
  | homeAtomic (q : HomeReq)
  /-- RING_STALL_RELEASE (R102). -/
  | ringStallRelease (home : Nat)
  /-- HOME_LINE_FILL (R44). -/
  | homeLineFill (pa bank : Nat) (e : FlitCheck)
  /-- LEAKY_BUCKET_LEAK (R373). -/
  | leakyBucketLeak
  /-- LOAD_RESPONSE (R43). -/
  | loadResponse (acc : Nat)
  /-- SCRATCHPAD_ARBITRATION (R39). -/
  | scratchpadArbitration (core corr : Nat) (errs : List (Nat × Nat × Nat))
  /-- FWIN_DROP_COMPLETE (R50). -/
  | fwinDropComplete (n : Nat)
  /-- WAIT_CHECK (R93). -/
  | waitCheck (slot : Nat)
  /-- WAKE_ARRIVAL (R108). -/
  | wakeArrival (i : Nat)
  /-- MONITOR_TIMEOUT (R98). -/
  | monitorTimeout (sp : Bool) (home i : Nat)
  /-- WAIT_WITHDRAW (R109). -/
  | waitWithdraw (slot : Nat)
  /-- NSLEEP_EXPIRY (R111). -/
  | nsleepExpiry (slot : Nat)
  /-- CLOCK_GATE (R112). -/
  | clockGate (core : Nat)
  /-- SERVICE_ARM_CHECK (R115). -/
  | serviceArmCheck (i : Nat)
  /-- MISS_MERGE_ADMIT (R123). -/
  | missMergeAdmit (cl : Nat)
  /-- WALK_STEP (R124). -/
  | walkStep (cl asid page : Nat)
  /-- FIRST_TOUCH_CAS_RESULT (R128). -/
  | firstTouchCasResult (cl asid page : Nat)
  /-- SHADOW_ADD (R127). -/
  | shadowAdd (i : Nat)
  /-- SHOOTDOWN_COMPLETE (R132). -/
  | shootdownComplete (c t : Nat)
  /-- FAULT_QUEUE_ADMIT (R135). -/
  | faultQueueAdmit (cl : Nat)
  /-- FLTACK_RETRY (R136). -/
  | fltackRetry (a : Agent) (r : RegAddr) (v : DWord)
  /-- FLTACK_DELIVER (R136). -/
  | fltackDeliver (a : Agent) (r : RegAddr) (v : DWord)
  /-- MEMCAP_LOWER_SETTLE (R139). -/
  | memcapLowerSettle
  /-- MPHASE_GO (R141). -/
  | mphaseGo (a : Agent) (r : RegAddr) (v : DWord)
  /-- MIGRATION_ENTER_DONE (R147). -/
  | migrationEnterDone
  /-- MIGRATE_GRANULE (R150). -/
  | migrateGranule
  /-- GRANULE_DRAINED (R150). -/
  | granuleDrained (failed : List Nat)
  /-- GRANULE_HANDOVER (R150). -/
  | granuleHandover
  /-- MIGRATION_IDLE_EXPIRY (R142). -/
  | migrationIdleExpiry
  /-- MIGRATION_CLOSE_DONE (R147). -/
  | migrationCloseDone
  /-- MOVED_REPLAY (R149). -/
  | movedReplay (acc i : Nat)
  /-- ISSUE_SELECT (R163). -/
  | issueSelect (p : Nat)
  /-- RUN_END (R161). -/
  | runEnd (slot : Nat)
  /-- RUNMAX_MARKER (R161). -/
  | runmaxMarker (slot : Nat)
  /-- RESULTS_DRAINED (R162). -/
  | resultsDrained (slot : Nat)
  /-- SAVE_ROUTINE_START (R176). -/
  | saveRoutineStart (slot : Nat)
  /-- TEAM_PLACE (R170). -/
  | teamPlace (restore : Bool) (id : Nat)
  /-- LAUNCH_RESERVE (R171). -/
  | launchReserve (la : Nat)
  /-- TEAM_RETIRE (R172). -/
  | teamRetire (tm : Nat)
  /-- TASK_SERVER_REQUEST (R173). -/
  | taskServerRequest (cl rcb : Nat)
  /-- NOPREEMPT_OVERRUN (R175). -/
  | nopreemptOverrun (slot : Nat)
  /-- GROW_GRANT (R179). -/
  | growGrant (core : Nat)
  /-- GROW_TIMEOUT (R179). -/
  | growTimeout (slot : Nat)
  /-- CV_TIMEOUT (R240). -/
  | cvTimeout (tm n : Nat)
  /-- COPY_PIECE (R81). -/
  | copyPiece (id i : Nat) (data : BitVec 128) (st : Nat)
  /-- COPY_COMPLETE (R280). -/
  | copyComplete (id : Nat)
  /-- ATOMF_FORWARD (R279). -/
  | atomfForward (acc : Nat) (l : Lane)
  /-- FENCE_TOKEN_COMPLETE (R79). -/
  | fenceTokenComplete (slot tok : Nat)
  /-- MATRIX_OP_START (R295). -/
  | matrixOpStart (core : Nat)
  /-- MMA_ROW (R302). -/
  | mmaRow (core : Nat)
  /-- TILE_OP_COMPLETE (R309). -/
  | tileOpComplete (core id : Nat)
  /-- COUNTER_ARM (R318). -/
  | counterArm (id : Nat)
  /-- COUNTER_DECREMENT (R318). -/
  | counterDecrement (id : Nat)
  /-- LAUNCH_PORT_LAUNCH (R358). -/
  | launchPortLaunch (a : Agent) (r : RegAddr) (v : DWord)
  /-- PREQ_WRITE (R359). -/
  | preqWrite (a : Agent) (r : RegAddr) (v : DWord)
  /-- CALL_SLOT_ASSIGN (R346). -/
  | callSlotAssign (cl : Nat)
  /-- CALL_REPLY_RESUME (R348). -/
  | callReplyResume (cl k : Nat)
  /-- MEM_ALLOC (R351). -/
  | memAlloc (cl k : Nat) (l : Lane) (base : Nat)
  /-- MEM_INFO (R350). -/
  | memInfo (cl k : Nat) (l : Lane)
  /-- MAILBOX_SEND (R361). -/
  | mailboxSend (sender shard ty sq : Nat) (body : List DWord)
  /-- MAILBOX_RECEIVE (R361). -/
  | mailboxReceive (shard : Nat)
  /-- PAIR_SCB_COMPARE (R365). -/
  | pairScbCompare (tm gidx : Nat)
  /-- PAIR_SIDE_EFFECT (R366). -/
  | pairSideEffect (tm gidx : Nat)
  /-- TEAM_CHECKPOINT (R367). -/
  | teamCheckpoint (tm : Nat)
  /-- PAIR_MISMATCH (R368). -/
  | pairMismatch (tm : Nat)
  /-- PAIRINJ_ARM (R369). -/
  | pairinjArm (a : Agent) (r : RegAddr) (v : DWord)
  /-- CONTAINED_DISCARD (R372). -/
  | containedDiscard (tm : Nat)
  /-- HEARTBEAT_SEND (R377). -/
  | heartbeatSend
  /-- HEARTBEAT_TIMEOUT (R377). -/
  | heartbeatTimeout (k : Nat)
  /-- DOORBELL_DELIVER (R387). -/
  | doorbellDeliver (c : Nat)
  /-- REGION_TIMER_FIRE (R395). -/
  | regionTimerFire (rcb idx : Nat)
  /-- DOMAIN_RESET_COMPLETE (R398). -/
  | domainResetComplete (d : Nat)
  /-- PACKAGE_RESET (R380). -/
  | packageReset
  /-- HBM_TRAINING_COMPLETE (R380). -/
  | hbmTrainingComplete (k : Nat) (ok : Bool)
  /-- BOOTSTAT_STAGE_WRITE (R381). -/
  | bootstatStageWrite (a : Agent) (r : RegAddr) (v : DWord)
  /-- BOOTSTAT_OK_WRITE (R381). -/
  | bootstatOkWrite (a : Agent) (r : RegAddr) (v : DWord)
  /-- MEASURE (R382). -/
  | measure (h : BitVec 512)
  /-- ATTEST (R382). -/
  | attest (nonce : BitVec 512)
  /-- CCBOOT_RUN (R384). -/
  | ccbootRun (a : Agent) (r : RegAddr) (v : DWord)
  /-- ZMSG_MSG_SEND (R385). -/
  | zmsgMsgSend (h shard pa : Nat)
  /-- PARITY_ROW_RECOMPUTE (R41). -/
  | parityRowRecompute (core tm row g : Nat)
  /-- FWIN_ENABLE (R48). -/
  | fwinEnable (a : Agent) (r : RegAddr) (v : DWord)
  /-- FWIN_DISABLE (R50). -/
  | fwinDisable (a : Agent) (r : RegAddr) (v : DWord)
  /-- PEER_REQUEST (R24). -/
  | peerRequest (p : Nat) (k : HartOp) (pa n : Nat) (data : DWord) (op : Nat) (ty : BitVec 4)
  /-- GRPTR_HEAD_WRITE (R102). -/
  | grptrHeadWrite (a : Agent) (r : RegAddr) (v : DWord)
  /-- GLCMD_WAKE (R103). -/
  | glcmdWake (a : Agent) (r : RegAddr) (v : DWord)
  /-- GLCMD_TIMEOUT (R103). -/
  | glcmdTimeout (a : Agent) (r : RegAddr) (v : DWord)
  /-- GLCMD_RESTART (R103). -/
  | glcmdRestart (a : Agent) (r : RegAddr) (v : DWord)
  /-- MONARM_ARM (R115). -/
  | monarmArm (a : Agent) (r : RegAddr) (v : DWord)
  /-- MONARM_DISARM (R115). -/
  | monarmDisarm (a : Agent) (r : RegAddr) (v : DWord)
  /-- TLBINV_ALL (R131). -/
  | tlbinvAll (a : Agent) (r : RegAddr) (v : DWord)
  /-- TLBINV_ASID (R131). -/
  | tlbinvAsid (a : Agent) (r : RegAddr) (v : DWord)
  /-- TLBINV_PAGE (R131). -/
  | tlbinvPage (a : Agent) (r : RegAddr) (v : DWord)
  /-- FLTACK_END_DOMAIN (R136). -/
  | fltackEndDomain (a : Agent) (r : RegAddr) (v : DWord)
  /-- FQPTR_HEAD_WRITE (R136). -/
  | fqptrHeadWrite (a : Agent) (r : RegAddr) (v : DWord)
  /-- MEMCAP_RAISE (R139). -/
  | memcapRaise (a : Agent) (r : RegAddr) (v : DWord)
  /-- MEMCAP_LOWER (R139). -/
  | memcapLower (a : Agent) (r : RegAddr) (v : DWord)
  /-- STACKMAP_RETIRE_WRITE (R140). -/
  | stackmapRetireWrite (a : Agent) (r : RegAddr) (v : DWord)
  /-- MIGWORD_WRITE (R143). -/
  | migwordWrite (a : Agent) (r : RegAddr) (v : DWord)
  /-- STACK_DEAD (R154). -/
  | stackDead (k : Nat)
  /-- LAUNCH_PORT_RESTORE (R358). -/
  | launchPortRestore (a : Agent) (r : RegAddr) (v : DWord)
  /-- UISEND_WRITE (R360). -/
  | uisendWrite (a : Agent) (r : RegAddr) (v : DWord)
  /-- MCHK_READ (R344). -/
  | mchkRead (h : HartName) (m : Mode) (n : Nat)
  /-- CONTEXT_WINDOW_ACCESS (R357). -/
  | contextWindowAccess (c : Nat) (k : HartOp) (r : HartReq)
  /-- CALL_PAGE_ACCESS (R345). -/
  | callPageAccess (k : HartOp) (r : HartReq)
  /-- CALL_STATUS (R355). -/
  | callStatus (cl k : Nat) (l : Lane) (oldest : Nat)
  /-- MEM_FREE (R350). -/
  | memFree (cl k : Nat) (l : Lane)
  /-- MEM_PROTECT (R350). -/
  | memProtect (cl k : Nat) (l : Lane) (st : Nat)
  /-- FILE_READ (R350). -/
  | fileRead (cl k : Nat) (l : Lane) (st : Nat) (data : List Byte)
  /-- FILE_WRITE (R350). -/
  | fileWrite (cl k : Nat) (l : Lane) (st n : Nat)
  /-- FILE_SYNC (R350). -/
  | fileSync (cl k : Nat) (l : Lane) (st : Nat)
  /-- UDP_SEND (R350). -/
  | udpSend (cl k : Nat) (l : Lane) (st n : Nat)
  /-- UDP_RECV (R350). -/
  | udpRecv (cl k : Nat) (l : Lane) (st : Nat) (data : List Byte)
  /-- RDG_SEND (R350). -/
  | rdgSend (cl k : Nat) (l : Lane) (st n : Nat)
  /-- RDG_RECV (R350). -/
  | rdgRecv (cl k : Nat) (l : Lane) (st : Nat) (data : List Byte)
  /-- CTRL_NOTIFY (R350). -/
  | ctrlNotify (cl k : Nat) (l : Lane) (st : Nat)
  /-- UI_SEND (R360). -/
  | uiSend (cl k : Nat) (l : Lane)
  /-- HANDLE_INFO (R350). -/
  | handleInfo (cl k : Nat) (l : Lane) (st : Nat) (data : List Byte)
  /-- SVCQ_RESUME (R352). -/
  | svcqResume (cl k l : Nat)
  /-- SHARD_RESTART (R354). -/
  | shardRestart (cl : Nat)
  /-- LINK_FLIT_RECEIVE (R375). -/
  | linkFlitReceive (k lane seq : Nat) (c : FlitCheck) (f : FlitLoad)
  /-- LINK_RETRAIN (R376). -/
  | linkRetrain (k : Nat) (rs : List Nat)
  /-- LINK_RETRAIN_DONE (R376). -/
  | linkRetrainDone (k : Nat) (ok : Bool) (rs : List Nat)
  /-- HEARTBEAT_RECEIVE (R377). -/
  | heartbeatReceive (p pos : Nat)
  /-- PEERWIN_FENCED_CLEAR (R377). -/
  | peerwinFencedClear (a : Agent) (r : RegAddr) (v : DWord)
  /-- MSI_DOORBELL (R387). -/
  | msiDoorbell (c : Nat) (x : Word)
  /-- PCIE_COMPLETION (R389). -/
  | pcieCompletion (q : HomeReq) (k : HartOp) (data : Option DWord)
  /-- PCIE_COMPLETION_TIMEOUT (R389). -/
  | pcieCompletionTimeout (q : HomeReq) (k : HartOp)
  /-- PCIE_INBOUND_WRITE (R390). -/
  | pcieInboundWrite (f : PcieFunction) (pa : Nat) (data : List Byte) (fault : Bool)
  /-- PCIE_INBOUND_READ (R390). -/
  | pcieInboundRead (port pa n : Nat) (fault : Bool)
  /-- NVME_COMPLETION (R391). -/
  | nvmeCompletion (q pa n : Nat)
  /-- ETH_FRAME_RECEIVE (R392). -/
  | ethFrameReceive (port tuple hash pa : Nat) (data : List Byte) (cw : Nat)
  /-- PMSG_SEND (R394). -/
  | pmsgSend (a : Agent) (r : RegAddr) (v : DWord)
  /-- PEER_MESSAGE_RECEIVE (R394). -/
  | peerMessageReceive (p shard src pos : Nat) (w0 : DWord) (body : List DWord)
  /-- PMSG_ACK (R394). -/
  | pmsgAck (p : Nat)
  /-- TMRSYNC_LOAD (R395). -/
  | tmrsyncLoad (a : Agent) (r : RegAddr) (v : DWord)
  /-- DOMAIN_RESET (R398). -/
  | domainReset (a : Agent) (r : RegAddr) (v : DWord)
  /-- THROTTLE_STEP (R400). -/
  | throttleStep (power : Nat) (temps : List (BitVec 16))
  /-- THERMAL_SHUTDOWN (R400). -/
  | thermalShutdown (d : Nat) (temp : BitVec 16)
  /-- CLPWR_WRITE (R401). -/
  | clpwrWrite (a : Agent) (r : RegAddr) (v : DWord)
  /-- LINK_TRAINED (R377). -/
  | linkTrained (k : Nat)
  /-- APLIC_WIRED_SOURCE (R386). -/
  | aplicWiredSource (source : Nat) (level : Bool) (file id : Nat)
  /-- IN_FIELD_TEST (R378). -/
  | inFieldTest (cl w : Nat)
deriving DecidableEq, Repr

end Sys2Proof
end

