-- ==== Sys2Proof/Machine/State.lean ====
section
/-! DEFINITION. The state of the package, as plain data: everything the spec gives the machine, with the value each part has after package reset. INVENTORY.md lists the parts with their rules. -/

namespace Sys2Proof.Machine

open Sys2Proof

/-- A finite map from numbers, in ascending order of the keys; an absent key reads as a default that the reader names. -/
abbrev SMap (α : Type) := List (Nat × α)

/-- The same value in every lane. -/
abbrev lanesOf {α : Type} (a : α) : Lanes α := Vector.replicate 32 a

/-! ### Groups -/

/-- A destination of a result that returns later: its operand, the width in bits of the value as it is written, the lanes that it
takes, and the group's instruction count at issue (R212, R214). -/
structure Dest where
  opnd : Opnd
  width : Nat
  lanes : LaneMask
  seq : Nat
deriving DecidableEq, Repr

/-- What a parked group waits for (07 Table 2). Each entry that writes a register carries its destination. -/
inductive Block
  /-- a WAIT, until its reply (R291) -/
  | wait
  /-- NSLEEP, until the time in nanoseconds (R111) -/
  | nsleep (until_ : Nat)
  /-- FWAIT or FENCE on a token; 16 stands for all sixteen (R79) -/
  | fence (tok : Nat)
  /-- TWAITANY on a tag mask (R284) -/
  | tagAny (mask : BitVec 16) (clr : Bool) (d : Dest)
  /-- TWAITALL on a tag mask (R284) -/
  | tagAll (mask : BitVec 16) (d : Dest)
  /-- the team barrier (R287) -/
  | bar
  /-- a named barrier, until the phase has completed (R288) -/
  | barNamed (n : Nat) (phase : Nat)
  /-- a held arrival at a named barrier (R288) -/
  | heldBar (n : Nat)
  /-- a held sign on a convergence register (R236) -/
  | heldSign (n : Nat)
  /-- CARVE (R178) -/
  | carve (d : Dest)
  /-- CVWAIT for a generation (R238) -/
  | cvwait (n : Nat) (gen : BitVec 16) (d : Dest)
  /-- MWAIT on a token (R305) -/
  | mwait (tok : Word) (d : Dest)
  /-- TGET, since the time in cycles (R325) -/
  | tget (d : Dest) (since : Nat)
  /-- TSTAMPR.S, until the group's earlier accesses are performed (R339) -/
  | tstamp (d : Dest)
  /-- SCALL with every non-exited lane call-parked (R329) -/
  | scall
  /-- GROW, since the time in cycles (R179) -/
  | grow (v s : Nat) (d : Dest) (since : Nat)
  /-- a fault, until its record is answered (R135) -/
  | fault
  /-- CKPT of a pair (R338) -/
  | ckpt
  /-- the access of an answered fault that is performed again alone (R412) -/
  | redo (acc : Nat)
  /-- a trailing group at an instruction in which its leader has parked, until the values come through the load value queue: the
  instruction's place in the program (R363, R366) -/
  | lvq (seq : Nat)
deriving DecidableEq, Repr

/-- The state of a group slot (07 Table 2). -/
inductive SlotState
  | empty
  | ready
  | issuing
  | draining
  | blocked
  | saving
deriving DecidableEq, Repr

/-- What a register, predicate or flag held before a write of the current run (R212). -/
structure HazRec where
  /-- the register: 0 to 255 v, 256 to 263 q, 264 predicate words, 265 FSTAT, 1024 and up s -/
  reg : Nat
  /-- the old value in each lane; a scalar register holds it in lane 0 -/
  old : Lanes Word
  /-- the lanes written -/
  mask : LaneMask := 0
  /-- the bits written: one predicate of the predicate word, the flags raised in FSTAT, otherwise all -/
  bits : Word := ~~~ 0
  /-- the group's instruction count when the producer issued -/
  seq : Nat
  /-- the producer is of the fixed-latency class (R211) -/
  fixed : Bool
  /-- the producer is an swr, which every later srd sees (R214) -/
  bySwr : Bool := false
deriving DecidableEq, Repr

/-- One entry of the last-result file (R32). -/
structure LEntry where
  val : Lanes DWord
  /-- lanes in which the entry is defined -/
  valid : LaneMask
  /-- the access whose result it awaits (R213) -/
  pend : Option Nat
  /-- the result has 64 bits; otherwise bits [63:32] of a lane are free -/
  wide : Bool
deriving DecidableEq, Repr

/-- An entry whose every lane is undefined. -/
def LEntry.undef : LEntry := ⟨lanesOf 0, 0, none, false⟩

/-- What a synchronous delivery or a precise fault in mid-run keeps of the run (R34). -/
structure RunSave where
  l0 : LEntry
  l1 : LEntry
  q : SMap (Lanes Word)
  batch : LaneMask
  count : Nat
deriving DecidableEq, Repr

/-- A copy tag (R280). -/
structure Tag where
  pend : Nat := 0
  done : Bool := false
  psn : Bool := false
deriving DecidableEq, Repr

/-- The interleave descriptor of a routing point: the migration phase and the copy of NEXT (R144). -/
structure RouteDesc where
  phase : Word := 0
  next : Nat := 0
deriving DecidableEq, Repr

/-- A WAIT of a group, from its issue to its reply (R291). -/
structure WaitReq where
  pc : DWord
  /-- the addressed space is scratchpad -/
  sp : Bool
  /-- physical or scratchpad address -/
  addr : Nat
  /-- device virtual or scratchpad address as the program gave it -/
  ea : DWord
  w64 : Bool
  cmp : BitVec 3
  acq : Bool
  opnd : DWord
  deadline : DWord
  d : Dest
  lanes : LaneMask
  /-- accesses of the group that are performed before the check, and waits of the group that end before it (R58, R64, R65) -/
  after : List Nat := []
  behind : List Block := []
  /-- the waiter's region, its spill slot or 0, and the spill-only mark (R93, R100, R167) -/
  rcb : Nat := 0
  slotpa : Nat := 0
  mark : Bool := false
  /-- the cycle of its issue (R39), and MEMCAP when it was routed (R23, R139) -/
  cycle : Nat := 0
  cap : Nat := 0
  /-- PHASE and NEXT under which it was routed (R141, R144) -/
  route : RouteDesc := {}
  /-- a shootdown has removed its translation: its check is translated again (R132, R412) -/
  stale : Bool := false
deriving DecidableEq, Repr

/-- What an outstanding fence token still waits for (R78, R79). -/
inductive FenceItem
  /-- an access, until it is performed -/
  | acc (id : Nat)
  /-- the scratchpad part of an atomf, until its arrivals are granted (R279) -/
  | fwd (id : Nat)
  /-- a copy, until its tag is set -/
  | copy (id : Nat)
  /-- a matrix operation -/
  | op (id : Nat)
  /-- the MMA of a generation of a convergence register -/
  | mma (n : Nat) (gen : BitVec 16)
deriving DecidableEq, Repr

/-- What the answers of R136 do to the group of a record. -/
inductive FaultMode
  /-- a precise fault: ACT 0 issues the instruction again, ACT 1 returns to it (R136, R331) -/
  | retry
  /-- ACT 0 continues the lanes that many bytes on, ACT 1 returns there (R330, R326, R175) -/
  | skip (len : Nat)
  /-- a record of the sync unit: ACT 0 continues the lanes of the instruction that it names after it, ACT 1 returns there (R413) -/
  | after (lanes : LaneMask) (next : DWord)
  /-- consumed poison or a malformed block: ACT 0 performs the access again alone (R412) -/
  | redo (acc : Nat)
  /-- a WAIT on a poisoned word: ACT 0 makes its check again (R412) -/
  | rewait
  /-- the record of a matrix operation: no group is parked (R306) -/
  | matrix (core op : Nat)
  /-- the record of a counter underflow of a copy: no group is parked (R326) -/
  | free
  /-- PAIRED_RETRY_EXHAUSTED: ACT 0 and 2 end the domain, ACT 1 restores the pair and delivers to both copies (R368) -/
  | pair
deriving DecidableEq, Repr

/-- A fault of a group that is raised only at its marker (R412, R413, R326, R306, R175). -/
structure LateFault where
  cls : BitVec 8
  kind : Nat
  space : Nat
  addr : DWord
  pc : DWord
  lanes : LaneMask
  aux : Word
  /-- what the answers do: the group continues where it stands, or its access is made again -/
  mode : FaultMode := .skip 0
deriving DecidableEq, Repr

/-- A ready task (R316, R319). -/
structure Task where
  addr : DWord
  entry : DWord
  prio : Nat
  succA : Word
  succB : Word
  rcb : Nat
  asid : Nat
  cwaddr : DWord
  /-- cycle of arrival at the task unit; among the tasks of one cycle, counters first, by index, then spawns by slot (R319) -/
  since : Nat
  spawned : Bool
  rank : Nat
  /-- TSTAMP when it became ready (R173) -/
  readyAt : Nat := 0
  /-- accesses that a release of the maker orders before the dispatch (R321) -/
  after : List Nat := []
deriving DecidableEq, Repr

/-- A register write of an instruction of a leading group, forwarded to its trailing group (R363). -/
structure LvqWrite where
  dest : Dest
  vals : Lanes (BitVec 128)
deriving DecidableEq, Repr

/-- An entry of the load value queue: the instruction, by its place in the leading group's program, and what it returned (R363, R366). -/
structure LvqEntry where
  seq : Nat
  instr : Instr
  lanes : LaneMask
  writes : List LvqWrite := []
  flags : Flags := 0
  /-- a task that the instruction received, and TASKRET -/
  task : Option (Task × DWord) := none
  /-- the copy that it issued, and whether that copy ended with poison -/
  copy : Option Nat := none
  copyPsn : Bool := false
deriving DecidableEq, Repr

/-- A side effect at which a group of a pair stands: the instruction, its active lanes, and its operands' values (R366). -/
structure PairOps where
  instr : Instr
  lanes : LaneMask
  vals : List DWord
deriving DecidableEq, Repr

/-- What a pair has agreed on at a side effect (R366). -/
inductive PairGo
  | no
  /-- the leading copy performs it -/
  | perform
  /-- it was performed before a rollback, with this result -/
  | take (e : LvqEntry)
deriving DecidableEq, Repr

/-- A delivery made to a leading group, to be made to its trailing group at the same place of the program. -/
structure PairTrap where
  seq : Nat
  sync : Bool
  cls : BitVec 8
  addr : DWord
  pend : Word
  /-- lanes that return to an instruction that was withdrawn (R109) -/
  back : LaneMask
  pc : DWord
deriving DecidableEq, Repr

/-- The operand values of an mma sign: A quad, B quad, C (R301). -/
structure MmaOps where
  a : BitVec 128
  b : BitVec 128
  c : Word
deriving DecidableEq, Repr

/-- A group in its slot (07 R158 to R162, 14 R341). A field without a stated value at placement is logged in entries 2 and 8. -/
structure Group where
  st : SlotState := .empty
  /-- team and index of the group in it -/
  team : Nat := 0
  gidx : Nat := 0
  /-- a number that no other placement of a group has, so that a late result finds only its own group -/
  uid : Nat := 0
  /-- vector and scalar blocks held (R35) -/
  vblk : Nat := 0
  sblk : Nat := 0
  /-- scalar blocks held, numbered within the team's share of the core; four make a chunk (R35, R179) -/
  sids : List Nat := []
  v : SMap (Lanes Word) := []
  s : SMap Word := []
  q : SMap (Lanes Word) := []
  pc : Lanes DWord := lanesOf 0
  /-- predicate words; p7 is read as 1 wherever a word is read (R159) -/
  pw : Lanes Byte := lanesOf 0
  exited : LaneMask := 0
  callParked : LaneMask := 0
  /-- runs of the group so far, and for each lane the run in which it last issued (R160) -/
  runs : Nat := 0
  lastRun : Lanes Nat := lanesOf 0
  /-- the issuing batch, and instructions issued in the run (R160, R161) -/
  batch : LaneMask := 0
  count : Nat := 0
  /-- an instruction that ends the run has issued; RUN_END is due (R161) -/
  ended : Bool := false
  /-- all instructions issued by the group (R212) -/
  seq : Nat := 0
  haz : List HazRec := []
  fstat : Flags := 0
  /-- the instruction-cache lines, or all, that a cctl of the run named: the next marker invalidates them (R215, R276) -/
  icInv : List Nat := []
  icAll : Bool := false
  /-- the count at the group's latest swr of FSTAT (R192) -/
  fstatSeq : Nat := 0
  fmode : BitVec 2 := 0
  wakewhy : Word := 0
  trapvec : DWord := 0
  uivec : DWord := 0
  trapret : Lanes DWord := lanesOf 0
  /-- TRAPINFO: INH, SYNC, CLASS (14 Table 8) -/
  inh : Bool := false
  sync : Bool := false
  trapClass : BitVec 8 := 0
  trapaddr : DWord := 0
  traplanes : LaneMask := 0
  uimask : Word := 0
  uipend : Word := 0
  ckptcnt : Word := 0
  taskrec : DWord := 0
  taskret : DWord := 0
  /-- the captured fields of the current task (R316) -/
  task : Option Task := none
  savearea : DWord := 0
  grpstate : Word := 0
  /-- the outstanding ones of fence tokens 0 to 15, and what each waits for (R79) -/
  ftok : SMap (List FenceItem) := []
  tags : SMap Tag := []
  /-- no-preempt depth, and the cycle of the outermost npbegin (R175) -/
  npdepth : Nat := 0
  npsince : Nat := 0
  npover : Bool := false
  blocks : List Block := []
  wait : Option WaitReq := none
  /-- the wake accepted while the group was being saved, or recorded in its save area: status and value (R108) -/
  recWake : Option (Nat × DWord) := none
  /-- l0, l1 and q0 to q7 of a synchronous delivery (R34) -/
  trapSave : Option RunSave := none
  /-- the run that a precise fault interrupted (R34, R136) -/
  midRun : Option RunSave := none
  late : List LateFault := []
  /-- faults, by class and ADDR, to be delivered at the group's next marker (R306, R326) -/
  trapPend : List (BitVec 8 × DWord) := []
  /-- cycle at which the wake of the present park arrived, until the first issue (R114) -/
  wokeAt : Option Nat := none
  /-- cycle at which the group last entered READY (R163) -/
  readySince : Nat := 0
  /-- the effective PRIO and NPMAX of its region when it was placed or last took a task (R167) -/
  prio : Nat := 0
  npLimit : Nat := 0
  /-- context number (R249), given by Linium; the address space and the region control block (07 R165, R249) -/
  ctx : Nat := 0
  asid : Nat := 0
  rcb : Nat := 0
  /-- the slot runs the save or restore routine, which uses the partition's routine register file (R176) -/
  routine : Bool := false
  /-- the group has been placed from a save area, and its restore routine has not ended (R177) -/
  restoring : Bool := false
  /-- the latest cvwait of the group on each register that parked it: its address, and that of the instruction after it (R413) -/
  cvAt : SMap (DWord × DWord) := []
  /-- tokens of the MMAs that the group has signed and not waited for, with the tile (8 · core + tile) and the operands (R83, R295) -/
  mmaOut : List (Word × Nat × MmaOps) := []
  /-- the entries of the load value queue that a leading group has and its trailing group has not taken (R363) -/
  lvq : List LvqEntry := []
  /-- the group of a pair stands at a side effect, and the pair has agreed on it (R366) -/
  pairAt : Option PairOps := none
  pairGo : PairGo := .no
  /-- side effects since the last checkpoint (R366) -/
  sides : Nat := 0
  /-- the leading copy's stall at the present instruction has been counted in SLACK (R406) -/
  slacked : Bool := false
  /-- the leading group's fault is of an instruction that its trailing group does not perform -/
  pairFlt : Bool := false
  /-- a delivery of the leading group that this trailing one has still to take -/
  pairTrap : Option PairTrap := none
deriving DecidableEq, Repr

/-! ### Memory requests -/

/-- The address space of a request. -/
inductive Space
  | global
  | spad
deriving DecidableEq, Repr

/-- What a request does. -/
inductive AccKind
  | load
  | store
  /-- an atomic or reduction, with FUNC [3:0] and TYPE (12 Table 3) -/
  | atomic (op : Nat) (ty : BitVec 4)
  /-- the decode of one Q4X block (R267) -/
  | qunpk
  /-- a prefetch, which returns nothing and is ordered against nothing (R275) -/
  | prefetch
deriving DecidableEq, Repr

/-- The part of one lane in a merged request of one word (R59): its lane, its first byte in the unit, its bytes, and their place
in the lane's value. -/
structure LanePart where
  lane : Nat
  off : Nat
  n : Nat
  voff : Nat
deriving DecidableEq, Repr

/-- One merged request: the accesses of one instruction to one unit of 4 or 8 bytes (R59, R72). -/
structure Piece where
  /-- address of the unit: physical, or in the team's scratchpad -/
  addr : Nat
  size : Nat
  parts : List LanePart
  done : Bool := false
  /-- for a bf16x2 atomic, the low pass has been made (R74) -/
  low : Bool := false
  /-- the home slice that the routing point sent it to, and the PHASE under which it was routed (R144) -/
  home : Nat := 0
  phase : Word := 0
  /-- NEXT under which it was routed (R144) -/
  next : Nat := 0
  /-- it was refused with MOVED and waits for its replay, or is being sent again (R149) -/
  moved : Bool := false
  replay : Bool := false
  /-- it stalls on a sealed granule (R148) -/
  stalled : Bool := false
  /-- its home refused it (R23, R49): nothing of it has been performed -/
  refused : Bool := false
  /-- MEMCAP when the request was routed (R23, R139) -/
  cap : Nat := 0
deriving DecidableEq, Repr

/-- A word of an L1 line (R42, R53). -/
structure L1Word where
  data : Word := 0
  valid : Bool := false
  /-- the core's own store to the word is on its way to the home -/
  own : Bool := false
  /-- POISON and PCAUSE of the line that it came from (R53, R54) -/
  psn : Bool := false
  pcause : Nat := 0
deriving DecidableEq, Repr

/-- A memory access of an instruction, from its issue until it is performed and its result has returned. -/
structure Access where
  slot : Nat
  uid : Nat
  pc : DWord
  space : Space
  kind : AccKind
  lanes : LaneMask
  /-- a scalar instruction's: one request serves all its lanes (R208, R273) -/
  once : Bool := false
  ord : BitVec 2
  /-- privileged in origin (R22) -/
  priv : Bool
  /-- a load that may be served from and filled into L1 (R42, R61) -/
  cached : Bool
  /-- bits of an element, and whether a narrow one is sign-extended (R180) -/
  bits : Nat
  signed : Bool
  pieces : List Piece
  /-- store data or operand per lane -/
  data : Lanes (BitVec 128)
  /-- the new value of a compare-and-swap per lane -/
  data2 : Lanes DWord := lanesOf 0
  /-- the bytes or old values that have come back per lane -/
  ret : Lanes (BitVec 128) := lanesOf 0
  dest : Option Dest
  /-- it counts as an outstanding result although it writes no register (R324) -/
  waits : Bool := false
  /-- accesses that must be performed first (R63 to R65), and waits of the group's run that must end first (R64, R68) -/
  after : List Nat
  behind : List Block := []
  /-- it issued behind an acquire or such a wait, so that L1 neither served it nor took its bytes at issue -/
  held : Bool := false
  /-- what lanes met when they were performed: poison, a malformed block, a refusal, each a fault class with its lanes (R25, R49, R54, R412) -/
  found : List (BitVec 8 × LaneMask) := []
  /-- the memory window of a peer or a root port holds no data here: the value or completion comes with an event -/
  remote : Bool := false
  /-- addresses as the program gave them -/
  ea : Lanes DWord
  /-- the batch and the run of the group in which it issued, and the cycle -/
  run : Nat
  cycle : Nat
  /-- it is performed again alone under ACT 0 of R412 -/
  redo : Bool := false
  /-- its address space, and a shootdown has removed the translation of one that is to be performed again (R132) -/
  asid : Nat := 0
  stale : Bool := false
  /-- forwarding of an atomf: scratchpad addresses per lane and of the barrier word, and what of it has been granted (R279) -/
  fwd : Option (Lanes Word × Word) := none
  fwdDone : LaneMask := 0
  /-- lanes whose access is at the bank arbiter: whether the old value's write has been granted, and the cycle of that or of the request -/
  fwdAt : SMap (Bool × Nat) := []
  /-- the instruction's fields, where its result needs them (R267) -/
  enc : Option Enc := none
  mode : BitVec 2 := 0
  /-- the instruction's place in its group's program -/
  seq : Nat := 0
  /-- lines whose entries of the store compare buffer are not released (R363, R365), and it is the trailing copy's request -/
  scb : List Nat := []
  trail : Bool := false
  /-- TSTAMP at its issue (R389) -/
  sentAt : Nat := 0
  /-- lanes that access the operand memory of an MMA that the group has signed and not waited for: they return undefined values (R83) -/
  undef : LaneMask := 0
  /-- a load from the parameter window of its launch (R274) -/
  const : Bool := false
deriving DecidableEq, Repr

/-! ### Teams, launches, tasks -/

/-- STATE of a convergence register (10 Table 4). -/
inductive CvState
  | free
  | open
  | faulted
deriving DecidableEq, Repr

/-- State of a matrix operation in its queue (R295, R306, R311). -/
inductive OpState
  | queued
  | running
  | frozen
  | held
deriving DecidableEq, Repr

/-- A request at the bank arbiter of a core (R39): of an access, a WAIT of a group, the source or the destination of a copy's piece, a lane that an
atomf forwards, and sixteen bytes that the matrix unit of a core reads. -/
inductive SpadSrc
  | piece (acc i : Nat)
  | wait (slot uid : Nat)
  | copyRead (copy i : Nat)
  | copyWrite (copy i : Nat)
  | forward (acc lane : Nat)
  | matrix (core op addr : Nat)
deriving DecidableEq, Repr

/-- A matrix operation (R295, 13 Table 6). -/
structure MatOp where
  id : Nat
  team : Nat
  slot : Nat
  uid : Nat
  gidx : Nat
  /-- OP, FUNC, TYPE, mode, DSCALE, CLAMP -/
  op : Nat
  func : BitVec 8 := 0
  ty : BitVec 4 := 0
  mode : BitVec 2 := 0
  rnden : Bool := false
  dscale : BitVec 4 := 0
  clamp : BitVec 2 := 0
  tok : Word := 0
  hasTok : Bool := false
  /-- operands of an MMA -/
  mma : Option MmaOps := none
  addr : DWord := 0
  stride : Word := 0
  /-- C of mdrain and the record area -/
  addr2 : DWord := 0
  addr3 : DWord := 0
  /-- the tile row of mrd and mwr, and the pairs that mwr writes -/
  trow : Nat := 0
  vals : Lanes DWord := lanesOf 0
  lanes : LaneMask := 0
  dest : Option Dest := none
  pc : DWord
  /-- progress rows done -/
  rows : Nat := 0
  st : OpState := .queued
  /-- accesses that the signs release (R83) -/
  after : List Nat := []
  /-- the store accesses of mst, mcvt and mdrain -/
  stores : List Nat := []
  /-- the tile accesses have ended; the operation no longer takes an entry of the queue -/
  ended : Bool := false
  /-- the local team core of an mdrain's part -/
  part : Nat := 0
  /-- the instruction's place in its group's program -/
  seq : Nat := 0
  /-- the address space in which it reads and writes, and the descriptor's address (R303, R310) -/
  asid : Nat := 0
  desc : Nat := 0
  /-- the elements of A of a running MMA, which the unit keeps (R302) -/
  aVals : List FVal := []
  /-- the tiles, as 8 · core + tile, on which it has no defined order against an MMA (R295) -/
  undef : List Nat := []
  /-- it was abandoned by an answer (R306) -/
  abandoned : Bool := false
  /-- scratchpad places of sixteen bytes that its next step reads: those asked for, since a cycle, and those read, with their poison (R39, R303) -/
  wants : List Nat := []
  asked : Nat := 0
  got : SMap (Nat × Bool) := []
deriving DecidableEq, Repr

/-- A sign of lanes of one group by one instruction (R236, R301, R413). -/
structure Sign where
  gidx : Nat
  lanes : LaneMask
  /-- the operands of an mma sign -/
  ops : Option MmaOps := none
  /-- the address of the instruction, and of the one after it -/
  pc : DWord := 0
  next : DWord := 0
  /-- accesses that the sign orders before the operand reads (R83) -/
  after : List Nat := []
  /-- the cycle in which it counted -/
  cycle : Nat := 0
deriving DecidableEq, Repr

/-- A convergence register (10 Table 4, 13 R296). SIGNED and FIRST are what the signs say. -/
structure CvReg where
  st : CvState := .free
  members : Nat := 0
  first : Nat := 0
  groups : Nat := 0
  /-- the signs of the generation, in the order of the sync unit (R239) -/
  signs : List Sign := []
  /-- member lanes that exited after signing in the generation, per group index -/
  leaving : SMap LaneMask := []
  gen : BitVec 16 := 0
  /-- held signs, in the order of the sync unit (R236) -/
  held : List Sign := []
  opgen : BitVec 16 := 0xFFFF
  /-- status recorded with OPGEN: 0 DONE, 1 ABANDONED -/
  opst : Nat := 0
  /-- MMAs of completed generations that wait for an entry of the queue (R295) -/
  pend : List MatOp := []
  /-- the cycle of the latest completion, and of the latest cvset that changed the register (R239) -/
  doneAt : Option Nat := none
  setAt : Option Nat := none
deriving DecidableEq, Repr

/-- An arrival at a named barrier: the group, the count that it gave, and the scratchpad accesses that it orders (R75, R288). -/
structure BarArr where
  gidx : Nat
  cnt : Nat
  after : List Nat := []
deriving DecidableEq, Repr

/-- A named barrier (R286). -/
structure NamedBar where
  count : Nat := 0
  arrived : Nat := 0
  phase : BitVec 16 := 0
  /-- arrivals held for a later phase, in the order of the sync unit -/
  held : List BarArr := []
  /-- the phase recorded for each group that has arrived and not yet waited -/
  marks : SMap (BitVec 16) := []
  /-- scratchpad accesses that the arrivals of the phase order (R75) -/
  after : List Nat := []
  /-- completed phases whose arrivals' scratchpad accesses are not all performed -/
  closing : List (BitVec 16 × List Nat) := []
deriving DecidableEq, Repr

/-- The counters of the tile operations of a team on one of its cores (R296). -/
structure TileSeq where
  issue : BitVec 16 := 0
  done : BitVec 16 := 0
  abn : Option (BitVec 16) := none
  /-- operations that have finished before an earlier one that stays frozen: a drain (R310) -/
  early : List (BitVec 16) := []
deriving DecidableEq, Repr

/-- One copy's state of a pair, or a team's pre-emption. -/
inductive Preempt
  | none_
  /-- requested, with the save area (R359) -/
  | wanted (area : DWord)
  /-- the groups are being saved, as a saved team of a number -/
  | saving (area : DWord) (id : Nat)
deriving DecidableEq, Repr

/-- An entry of the effect log of a pair: the group, its number, the operands, and the result (R366). -/
structure Effect where
  gidx : Nat
  index : Nat
  ops : PairOps
  result : LvqEntry
deriving DecidableEq, Repr

/-- A placed team (07 R169). -/
structure Team where
  launch : Nat := 0
  /-- first core, cores, groups, blocks per group, scratchpad chunks per core, tiles per core -/
  core : Nat := 0
  cores : Nat := 1
  ngroups : Nat := 1
  vblk : Nat := 1
  sblk : Nat := 1
  chunks : Nat := 0
  acc : Nat := 0
  x : Word := 0
  y : Word := 0
  z : Word := 0
  /-- group index to slot -/
  slots : SMap Nat := []
  spad : SMap Byte := []
  /-- poisoned scratchpad words -/
  spadPsn : List Nat := []
  /-- rows of a parity group whose parity must be recomputed (R41): core, row, group -/
  badPar : List (Nat × Nat × Nat) := []
  cv : SMap CvReg := []
  /-- the effective CVTIMEOUT of the region when the team was placed (R167, R240) -/
  cvLimit : Nat := 0
  /-- groups that have arrived at the team barrier, and whether one arrived by bar.g (R287) -/
  barArr : List Nat := []
  barG : Bool := false
  /-- accesses that the arrivals at the team barrier order (R75, R76) -/
  barAfter : List Nat := []
  bars : SMap NamedBar := []
  /-- arrivals at CARVE, with the split each asked for, and the scratchpad accesses they order (R178) -/
  carve : List (Nat × (Nat × Nat × Nat)) := []
  carveAfter : List Nat := []
  tseq : SMap TileSeq := []
  pre : Preempt := .none_
  /-- the groups that have been saved -/
  saved : List Nat := []
  paired : Bool := false
  contained : Bool := false
  /-- held global bytes of a contained team (R370) -/
  commit : SMap Byte := []
  /-- an uncorrectable error or poison has reached the contained team (R370) -/
  struck : Bool := false
  effects : List Effect := []
  retries : Nat := 0
  relaunch : Nat := 0
  /-- restored rather than newly placed (R177), from the save area -/
  restored : Bool := false
  area : Nat := 0
  /-- the groups whose save routines have ended, each with the accesses of its routine that are not performed (R162, R176) -/
  saveAfter : SMap (List Nat) := []
  /-- the other copy of a pair, and this is the trailing one (R362) -/
  pair : Option Nat := none
  trail : Bool := false
  /-- a checkpoint is due: at placement, at a full log, before a pre-emption (R367) -/
  wantCkpt : Bool := false
  /-- a mismatch of the pair of this index has been found; the pair is parked by its fourth mismatch, and is to be restored with the fault
  delivered (R368) -/
  mism : Option Nat := none
  halted : Bool := false
  redeliver : Bool := false
deriving DecidableEq, Repr

/-- A launch from its submission to its completion (R327, R328). -/
structure Launch where
  /-- the captured words of the record -/
  words : List DWord := []
  /-- physical or device virtual address of the record -/
  addr : DWord := 0
  depth : Nat := 1
  rcb : Nat := 0
  desc : Nat := 0
  asid : Nat := 0
  ctx : Nat := 0
  next : Nat := 0
  live : List Nat := []
  since : Nat := 0
  reserved : Bool := false
  /-- clusters of the submission: the cluster, and whether a service core submitted it -/
  cluster : Nat := 0
  service : Bool := false
  /-- accesses that the submission as a release orders before any placement (R86) -/
  rel : List Nat := []
  /-- stores of its retired teams that are not performed (R172) -/
  stores : List Nat := []
deriving DecidableEq, Repr

/-- An arm request on its way to its counter (R322). -/
structure PendArm where
  slot : Nat
  uid : Nat
  rcb : Nat
  idx : Nat
  init : Int
  task : Task
  clr : Bool
  dest : Dest
  pc : DWord := 0
  after : List Nat
deriving DecidableEq, Repr

/-- Decrements of one counter by one instruction or copy on their way to it, merged over its lanes (R323, R326). -/
structure PendDec where
  slot : Nat
  uid : Nat
  rcb : Nat
  idx : Nat
  lanes : LaneMask
  pc : DWord
  aux : Word
  /-- the decrement of a copy with TDC, which parks no group -/
  copy : Bool
  /-- it is one decrement, not one for each lane -/
  once : Bool
  after : List Nat
  /-- it counts as an outstanding result of the group (R323) -/
  waits : Bool
deriving DecidableEq, Repr

/-! ### Cores, clusters -/

/-- An entry of a TLB (R122). -/
structure TlbEntry where
  asid : Nat
  /-- virtual address of the page, log2 of its size, physical address of the page -/
  va : Nat
  size : Nat
  frame : Nat
  /-- 1 memory, 2 register -/
  ty : Nat
  ex : Bool
  wr : Bool
  rd : Bool
  /-- the leaf's HSEED, and the hotness counter (R126) -/
  seed : Nat
  hot : Nat
deriving DecidableEq, Repr

/-- What a walk ended with other than a leaf: the class, the level and the entry (R120, R124, R128). -/
structure XFault where
  cls : BitVec 8
  level : Nat
  pte : DWord
deriving DecidableEq, Repr

/-- A first-touch CAS on its way: the entry's address, its old leaf, the frame, and MEMCAP, PHASE and NEXT when it was routed (R128, R139,
R141, R144). -/
structure CasReq where
  addr : Nat
  old : DWord
  frame : Nat
  cap : Nat
  route : RouteDesc
deriving DecidableEq, Repr

/-- A walk and the miss-merge entry it serves (R123, R124). -/
structure Walk where
  asid : Nat
  /-- virtual address of the 64 KiB page, and the descriptor address of the context that made the first miss -/
  page : Nat
  desc : Nat
  /-- requesters: slots of groups, or 2^20 + core for a matrix unit, 2^21 + copy for a copy, 2^22 for the context window -/
  req : List Nat
  /-- a walk slot has been taken -/
  running : Bool := false
  level : Nat := 1
  /-- physical address of the table of the level -/
  table : Nat := 0
  /-- the root has been taken from the descriptor -/
  rooted : Bool := false
  /-- a first-touch CAS is in flight (R128) -/
  cas : Option CasReq := none
  /-- the walk must be made again after a shootdown (R132) -/
  redo : Bool := false
deriving DecidableEq, Repr

/-- A descriptor cache entry (R118). -/
structure Desc where
  en : Bool
  root : Nat
  shadow : Nat
  shlimit : Nat
  addr : Nat
deriving DecidableEq, Repr

/-- A fault record in its place (R135), with what its answer does. -/
structure FaultRec where
  words : List DWord
  slot : Nat
  uid : Nat
  mode : FaultMode
  answered : Bool := false
  stale : Bool := false
deriving DecidableEq, Repr

/-- Sixteen bytes read at the source of a copy: the value, whether they carry poison with its cause, or are refused (R54, R81). -/
inductive CopyRead
  | ok (x : Nat)
  | poison (x cause : Nat)
  | refused
deriving DecidableEq, Repr

/-- A piece of a copy (R81): 16 bytes, from and to. -/
structure CopyPiece where
  src : Nat
  dst : Nat
  done : Bool := false
  /-- what has been read at the source, and the cycle since which its present end is asked for (R39) -/
  rd : Option CopyRead := none
  since : Nat := 0
deriving DecidableEq, Repr

/-- A copy in flight (R280 to R283). -/
structure Copy where
  slot : Nat
  uid : Nat
  team : Nat
  tag : Nat
  pc : DWord
  asid : Nat
  priv : Bool
  srcSp : Bool
  dstSp : Bool
  pieces : List CopyPiece
  /-- accesses that are performed first, and waits of the group's run that end first (R64, R68, R81) -/
  after : List Nat
  behind : List Block := []
  /-- barrier word of ARV, counter of TDC (R282) -/
  arv : Option Word := none
  tdc : Option Word := none
  psn : Bool := false
  lanes : LaneMask
  /-- the leading copy's copy whose completion is this one's (R366) -/
  mirror : Option Nat := none
deriving DecidableEq, Repr

/-- A core (02 R36, R42, R53, 04 R112, 05 R122, 09 R215, 13 R294, R295). -/
structure Core where
  l1 : SMap (SMap L1Word) := []
  utlb : List TlbEntry := []
  /-- instruction cache lines: physical line to its 32 words -/
  icache : SMap (List Word) := []
  gated : Bool := false
  mq : List MatOp := []
  /-- tile words: tile · 4096 + row · 64 + column -/
  tiles : SMap Word := []
  /-- tiles given to teams -/
  tileOwner : SMap Nat := []
  /-- lines staged by the matrix load pipes (R83, R303) -/
  staged : SMap (SMap Byte) := []
  /-- the cycle of the bank arbiter's last grants, and the banks that its writes hold for one more (R39) -/
  arbAt : Option Nat := none
  held : List Nat := []
  /-- requests that met an uncorrectable error, with the banks that gave it: only a rebuild can grant them (R41) -/
  rebuild : List (SpadSrc × List Nat) := []
deriving DecidableEq, Repr

/-- A fault that waits for a place in the queue. -/
structure PendFault where
  slot : Nat
  uid : Nat
  words : List DWord
  mode : FaultMode
deriving DecidableEq, Repr

/-- A call from its scall to the freeing of its slot (R329, R346). -/
structure Call where
  slot : Nat
  uid : Nat
  /-- lanes of the call, those that have not resumed, and ALL -/
  lanes : LaneMask
  left : LaneMask
  all : Bool
  pc : DWord
  /-- v8 to v14 of each lane -/
  args : SMap (Lanes Word)
  /-- accesses that the scall as a release follows (R329) -/
  after : List Nat
  /-- lanes whose done bit has changed from 0 to 1, and those of them whose entry has been stored to since (R349) -/
  due : LaneMask := 0
  dirty : LaneMask := 0
deriving DecidableEq, Repr

/-- A saved team: what the model keeps of it beside its save area, its groups by index, and the calls of its lanes with their records
(R174, R176, R356). -/
structure SavedTeam where
  team : Team := {}
  groups : SMap Group := []
  calls : List (Call × List DWord) := []
  /-- every group is saved and the header is written -/
  valid : Bool := false
  /-- its restore has been submitted: the number that orders it among launches (R171, R358) -/
  want : Option Nat := none
  /-- tiles and matrix operations by team core, of a checkpoint (R367) -/
  tiles : SMap (SMap Word) := []
  ops : List (Nat × MatOp) := []
deriving DecidableEq, Repr

/-- A cluster (02 to 05, 12 to 16). -/
structure Cluster where
  tlb : List TlbEntry := []
  desc : SMap Desc := []
  walks : List Walk := []
  missWait : List Walk := []
  /-- results of ended walks for requesters that have not replayed yet: requester, asid, page -/
  xres : List (Nat × Nat × Nat × XFault) := []
  shdrop : Nat := 0
  fq : SMap FaultRec := []
  fhead : Nat := 0
  ftail : Nat := 0
  fseq : Nat := 0
  fwait : List PendFault := []
  ready : List Task := []
  /-- the call page (R345), the calls in its slots, those that wait for a slot in scall issue order, and the records so far -/
  page : List Host.Cell := []
  calls : SMap Call := []
  callWait : List Call := []
  callSeq : Nat := 0
  /-- PAIRINJ: EN, DONE, XMASK, NTH, and the entries compared since EN was written (R369) -/
  injEn : Bool := false
  injDone : Bool := false
  injMask : Byte := 0
  injNth : Word := 0
  injCount : Nat := 0
  /-- SCBSTAT0 and SCBSTAT1 (R369) -/
  released : Nat := 0
  mismatch : Nat := 0
  rollback : Nat := 0
  once : Nat := 0
  slack : Nat := 0
  scbPeak : Nat := 0
  lvqPeak : Nat := 0
deriving DecidableEq, Repr

/-! ### Home slices -/

/-- A line's state at its home, and its poison (R44, R53). -/
structure Line where
  valid : Bool := false
  dirty : Bool := false
  psn : Bool := false
  pcause : Nat := 0
  dec : Bool := false
  win : Nat := 0
  side : BitVec 128 := 0
  hub : Bool := false
  svcv : Bool := false
  svcm : Bool := false
  svcid : Nat := 0
deriving DecidableEq, Repr

/-- A monitor table entry (04 Table 2), with the waiter's region (R93). -/
structure MonEntry where
  w64 : Bool
  cmp : BitVec 3
  acq : Bool
  addr : Nat
  opnd : DWord
  deadline : DWord
  ctx : Nat
  dom : Nat
  /-- cluster, core, partition and slot, as one slot number -/
  waiter : Nat
  rcb : Nat
  slotpa : Nat
deriving DecidableEq, Repr

/-- A condition of the service monitor array (R115). -/
structure SvcEntry where
  core : Nat
  idx : Nat
  w64 : Bool
  cmp : BitVec 3
  addr : Nat
  opnd : DWord
deriving DecidableEq, Repr

/-- A service-core arm on its way, with MEMCAP, PHASE and NEXT when it was routed (R115, R139, R141, R144). -/
structure ArmReq where
  entry : SvcEntry
  cap : Nat
  route : RouteDesc
deriving DecidableEq, Repr

/-- A write that waits on a full gleaning ring (R102): the access and piece, or a value written by another agent. -/
structure RingStall where
  acc : Nat
  piece : Nat
deriving DecidableEq, Repr

/-- A home slice (R44, R55, R99, R115). -/
structure Slice where
  gcore : Nat := 0
  spen : Bool := false
  greq : Bool := false
  en : Bool := false
  limit : Nat := 1024
  peak : Nat := 0
  gwake : Nat := 0
  grecs : Nat := 0
  spills : Nat := 0
  live : Nat := 0
  grsize : Nat := 0
  grbase : Nat := 0
  tail : Nat := 0
  head : Nat := 0
  glval : DWord := 0
  sphead : SMap Nat := []
  mon : List MonEntry := []
  svc : List SvcEntry := []
  stall : List RingStall := []
  /-- records, each its two words, that wait for a place in the ring (R102, R110) -/
  owed : List (Nat × Nat) := []
  /-- grants that each domain has left in the round of deficit round robin (R399) -/
  credit : SMap Nat := []
  /-- error counters: corrected, poisoned created, poisoned delivered; the first of each -/
  ecc : Nat := 0
  created : Nat := 0
  delivered : Nat := 0
  firstCreated : Option (Nat × Nat) := none
  firstDelivered : Option (Nat × Nat) := none
deriving DecidableEq, Repr

/-! ### The package -/

/-- A partition (07 R163, 02 R32, 07 R176). -/
structure Part where
  last : Nat := 0
  l0 : LEntry := LEntry.undef
  l1 : LEntry := LEntry.undef
  /-- the routine register file: v0 to v7, s0 to s31 -/
  rv : SMap (Lanes Word) := []
  rs : SMap Word := []
  /-- slot whose save or restore routine runs -/
  owner : Option Nat := none
deriving DecidableEq, Repr

/-- A die: first touch and its silo (05 Tables 6 to 9). -/
structure Die where
  low : Nat := 1024
  score : Nat := 0
  en : Bool := false
  base : Nat := 0
  tail : Nat := 0
  head : Nat := 0
  empty : Nat := 0
  discard : Nat := 0
  race : Nat := 0
  fills : Nat := 0
deriving DecidableEq, Repr

/-- A wake in flight to a slot (R95, R108): status of 04 Table 3, or poison. -/
structure Wake where
  waiter : Nat
  ctx : Nat
  status : Nat
  val : DWord
  psn : Bool
deriving DecidableEq, Repr

/-- A scratchpad watch table entry (R107). -/
structure Watch where
  slot : Nat
  uid : Nat
  team : Nat
  addr : Nat
  w64 : Bool
  cmp : BitVec 3
  opnd : DWord
  deadline : DWord
deriving DecidableEq, Repr

/-- A journal entry of a shard (R353). -/
structure JEntry where
  seq : Nat
  lane : Nat
  num : Nat
  value : DWord
  status : Nat
deriving DecidableEq, Repr

/-- A record that a shard has taken: SEQ, and the NUM of each lane (R355). -/
structure Taken where
  seq : Nat
  nums : SMap Nat
deriving DecidableEq, Repr

/-- An action of a call deferred by SVCQ: cluster, call slot, lowest lane, the millisecond in which it was deferred, and whether it may
proceed (R352). -/
structure Deferred where
  cl : Nat
  call : Nat
  lane : Nat
  ms : Nat
  go : Bool := false
deriving DecidableEq, Repr

/-- A block of a heap (R351). -/
structure HeapBlock where
  asid : Nat
  addr : Nat
  size : Nat
  rcb : Nat
deriving DecidableEq, Repr

/-- What a machine-check message names: the page of a poisoned line (R55), a failed launch by its record and fault class (R172), a bucket by its
register (R373), a stack that has died (R154), a peer window that was fenced (R377). -/
inductive MchkWhat
  | poison (page : Nat)
  | launch (record : DWord) (cls : BitVec 8)
  | bucket (off : Nat)
  | stack (k : Nat)
  | peer (k : Nat)
deriving DecidableEq, Repr

/-- A service core's registers that the spec gives (15 Table 2), and what stands behind them. -/
structure SvcCore where
  monarm : DWord := 0
  monopnd : DWord := 0
  monstat : Word := 0
  monval : SMap DWord := []
  tlbinv : DWord := 0
  tlbinvm : BitVec 128 := 0
  ctxwin : DWord := 0
  callpend : BitVec 28 := 0
  /-- LAUNCHST and PRSTAT: BUSY and the status or state -/
  launchBusy : Bool := false
  launchSt : Nat := 0
  prBusy : Bool := false
  prState : Nat := 0
  savepc : DWord := 0
  restpc : DWord := 0
  tsreq : DWord := 0
  /-- TLBSTAT: BUSY and DONE (R131) -/
  tlbBusy : BitVec 8 := 0
  tlbDone : BitVec 8 := 0
  /-- the hart runs; its pc, mode and a0 at its release (R380) -/
  running : Bool := false
  pc : DWord := 0
  mode : Mode := .machine
  a0 : DWord := 0
  /-- the crossings of R130 that have not been taken: interrupt 19 -/
  refill : Bool := false
  /-- sie and stimecmp (R342, R343) -/
  sie : DWord := 0
  stimecmp : DWord := 0
  /-- what the hart's last access returned, and its last exception: cause and stval (R344, R357) -/
  got : DWord := 0
  exc : Nat × DWord := (0, 0)
  /-- pending machine-check messages, oldest first, by their address in the firmware range (R344) -/
  mchk : List (Nat × MchkWhat) := []
  /-- the shard's journal, latest first, and the records that it has taken (R353, R355) -/
  journal : List JEntry := []
  taken : List Taken := []
deriving DecidableEq, Repr

/-- A format window (02 Table 5). -/
structure Fwin where
  fmt : Nat := 0
  busy : Bool := false
  bad : Bool := false
  en : Bool := false
  base : Nat := 0
  fin : Nat := 0
  sbase : Nat := 0
deriving DecidableEq, Repr

/-- A peer window (01 Table 5). -/
structure PeerWin where
  fenced : Bool := false
  port : Nat := 0
  en : Bool := false
deriving DecidableEq, Repr

/-- The hub's chip-wide block and migration engine (06 Tables 1 to 8, 02 Table 5, 01 Table 5). -/
structure Hub where
  memcap : Nat := 0
  dead : BitVec 8 := 0
  retire : BitVec 8 := 0
  live : BitVec 8 := 0
  /-- MPHASE: 0 STABLE, 1 ENTER, 2 COPY, 3 CLOSE -/
  mstate : Nat := 0
  phase : Word := 0
  mend : Nat := 0
  mnext : Nat := 0
  share : Nat := 25
  /-- SHARE as the granule on the move took it (R142) -/
  shareNow : Nat := 25
  poisong : Nat := 0
  moveds : Nat := 0
  mdone : Bool := false
  refused : Bool := false
  migword : Nat := 0
  /-- a lowered MEMCAP whose store has not completed (R139) -/
  lowering : Bool := false
  /-- the harts whose stores lowered it, and the end of what was memory before: data from MEMCAP on is lost (R139, R146) -/
  capHarts : List Agent := []
  lostTop : Nat := 0
  /-- the sealed granule; it has been copied; its lines that the move has poisoned; requests that stalled on it at the old home, then at the new; the engine idles
  since the cycle, for so many cycles (R142, R150) -/
  granule : Option Nat := none
  drained : Bool := false
  newPsn : List Nat := []
  stallOld : List (Nat × Nat) := []
  stallNew : List (Nat × Nat) := []
  idleUntil : Nat := 0
  sealedAt : Nat := 0
  /-- the live set of the previous hash, remembered by the home agents until the next GO (R144) -/
  prev : Option (BitVec 8) := none
  /-- descriptors of the routing points: clusters 0 to 127, the hub's ports 128, the peer ingress 129 -/
  route : SMap RouteDesc := []
  fwin : SMap Fwin := []
  peerwin : SMap PeerWin := []
  /-- bridge memory windows of each root port, as ranges of offsets: base and end (R27) -/
  bridge : SMap (List (Nat × Nat)) := []
  /-- stacks that have been retired since the package was reset (R147) -/
  parked : BitVec 8 := 0
deriving DecidableEq, Repr

/-- A shootdown in flight (R131, R132): its service core and token, what it removes, the clusters it names, and accesses, copies and
WAIT requests that used a removed translation. -/
structure Shootdown where
  core : Nat
  token : Nat
  scope : Nat
  asid : Nat
  va : Nat
  clusters : List Nat
  accs : List Nat
  copies : List Nat
  waits : List (Nat × Nat)
deriving DecidableEq, Repr

/-- A leaky bucket (R373). -/
structure Bucket where
  evt : Bool := false
  en : Bool := true
  mark : Nat := 1024
  leak : Nat := 16
  fill : Nat := 0
deriving DecidableEq, Repr

/-- A bridge link or a peer port (R375, R376): LNKSTAT, the next sequence the receiver takes, the replays of the millisecond, and a retraining.
What its replay buffer keeps is the requests in flight. -/
structure Link where
  up : Bool := false
  down : Bool := false
  rate : Nat := 0
  replays : Nat := 0
  retrains : Nat := 0
  expect : Nat := 0
  msReplays : Nat := 0
  training : Bool := false
deriving DecidableEq, Repr

/-- A message outbox of a peer port (R394). -/
structure Outbox where
  buf : List Host.Cell := []
  busy : Bool := false
  lost : Bool := false
  target : Nat := 0
  src : Nat := 0
deriving DecidableEq, Repr

/-- A message for a mailbox that the hub holds (R387, R394): the shard, word 0 and the body bytes 8 to 127. -/
structure HubMsg where
  shard : Nat
  word0 : DWord
  body : List DWord
  /-- the count on TAIL that has been claimed -/
  claim : Option Nat := none
deriving DecidableEq, Repr

/-- A timer in the hub timer unit (R395). -/
structure Timer where
  rcb : Nat
  idx : Nat
  deadline : Nat
  ctl : DWord
deriving DecidableEq, Repr

/-- A control core (R384). -/
structure Hart where
  entry : Nat := 0
  running : Bool := false
  mode : Mode := .machine
  pc : DWord := 0
  a0 : DWord := 0
  a1 : DWord := 0
  /-- stimecmp and vstimecmp (R384) -/
  stimecmp : DWord := 0
  vstimecmp : DWord := 0
  got : DWord := 0
  exc : Nat × DWord := (0, 0)
deriving DecidableEq, Repr

/-- A domain (17 Table 3). -/
structure Dom where
  en : Bool := false
  scrub : Bool := false
  busy : Bool := false
  harts : BitVec 16 := 0
  clmask : BitVec 128 := 0
  frames : Nat := 0
  qsets : BitVec 64 := 0
  weight : Nat := 1
  funclist : Nat := 0
  funcn : Nat := 0
deriving DecidableEq, Repr

/-- The security and boot block (R380 to R382): BOOTSTAT, MEAS and the measurement log. -/
structure Boot where
  code : Nat := 0
  slot : Nat := 0
  bslot : Bool := false
  stage : Nat := 0
  ok : Bool := false
  meas : BitVec 512 := 0
  log : List (BitVec 512) := []
  /-- the answers of ATTEST, latest first -/
  attest : List (BitVec 1056) := []
deriving DecidableEq, Repr

/-- THERM of a die (17 Table 5). -/
structure Therm where
  tthr : Nat := 105
  temp : BitVec 16 := 0
deriving DecidableEq, Repr

/-- The management block (R374, R400, R401). -/
structure Mgmt where
  capw : Nat := 3200
  fcur : Nat := 30
  thr : Bool := false
  therm : SMap Therm := []
  clpwr : BitVec 128 := 0
  /-- package power in watts, averaged over a millisecond -/
  power : Nat := 0
  /-- the non-volatile counts, by the unit that they count -/
  nv : SMap Nat := []
  /-- TSTAMP at the last step of the arithmetic clock -/
  stepped : Nat := 0
deriving DecidableEq, Repr

/-- What the device has answered last to an agent outside on a port: the bytes, and 0 done, 1 PROTECTION or UR, 2 CAPACITY, 3 poisoned or EP
(R24, R390). -/
structure Reply where
  data : List Byte
  st : Nat
deriving DecidableEq, Repr

/-- The hub's I/O (R375 to R377, R386 to R395). Links are numbered 8 · die + k; 64 to 66 are the peer ports. -/
structure HubIO where
  links : SMap Link := []
  /-- TSTAMP of the last heartbeat of each board position, and of each window's enabling -/
  heard : SMap Nat := []
  opened : SMap Nat := []
  /-- heartbeats sent: sequence and TSTAMP of the last -/
  hbSeq : Word := 0
  hbAt : Nat := 0
  outbox : SMap Outbox := []
  /-- messages held for full mailboxes, per doorbell and per peer port -/
  held : List HubMsg := []
  heldPeer : SMap (List HubMsg) := []
  /-- AER log of each root port: kind of each logged error, oldest first -/
  aer : SMap (List Nat) := []
  /-- the last answers to requests from outside: root ports 0 to 3, peer ports 16 to 18 -/
  replies : SMap Reply := []
  /-- completion counts of the NVMe queues and of the Ethernet queue sets (16 · port + set) -/
  nvme : SMap Nat := []
  eth : SMap Nat := []
  /-- flow table of each port: 5-tuple to queue set; hash table: 64 · port + entry; the shard of each queue set (16 · port + set), and the
  disabled ones (R392) -/
  flows : SMap (SMap Nat) := []
  hash : SMap Nat := []
  qshard : SMap Nat := []
  qoff : List Nat := []
  timers : List Timer := []
  tmrFull : Bool := false
  /-- levels of the APLIC's wired sources, and pending identities of each IMSIC file: 9 · hart + file -/
  wired : SMap Bool := []
  imsic : SMap (BitVec 256) := []
deriving DecidableEq, Repr

/-- What moves next: an event of the table, the issue stage of the current slot, time, or a replacement that is not architectural. -/
inductive Action
  | event (i : Instr)
  | issue (slot : Nat)
  | tick (cycles ns : Nat)
  /-- a home slice replaces a line (R44); a core's L1 replaces one; a word of L1 has a parity error (R42, R43) -/
  | evict (pa : Nat)
  | l1Evict (core pa : Nat)
  | l1Parity (core pa : Nat)
  /-- an uncorrectable error in an array that a contained team uses (R372) -/
  | arrayError (team : Nat)
deriving DecidableEq, Repr

/-- The package. -/
structure State where
  /-- cycles of the arithmetic clock, and TSTAMP in nanoseconds (00 R2, 01 R29) -/
  cycle : Nat := 0
  tstamp : DWord := 0
  /-- the model's own: the counter of free values, what moves next, the slot that issues, no clock is left -/
  freeCtr : Nat := 0
  agenda : List Action := []
  cur : Nat := 0
  stopped : Bool := false
  /-- HBM and the other byte stores of the physical space: no entry reads 0 -/
  mem : List Host.Cell := []
  lines : SMap Line := []
  slices : SMap Slice := []
  dies : SMap Die := []
  clusters : SMap Cluster := []
  svc : SMap SvcCore := []
  cores : SMap Core := []
  parts : SMap Part := []
  groups : SMap Group := []
  /-- the group whose slot a save or restore routine occupies, by slot (R176, R340) -/
  stash : SMap Group := []
  teams : SMap Team := []
  /-- saved teams, by a number that the header of the save area holds (R176) -/
  saved : SMap SavedTeam := []
  /-- the checkpoints of paired teams, by leading team (R367) -/
  ckpts : SMap SavedTeam := []
  launches : SMap Launch := []
  accs : SMap Access := []
  /-- accesses whose fault record waits for its answer (R412) -/
  redos : SMap Access := []
  copies : SMap Copy := []
  arms : SMap PendArm := []
  decs : SMap PendDec := []
  /-- the captured fields of the records bound to counters, by the address of the entry (R316, R318) -/
  bound : SMap Task := []
  /-- WAIT requests on their way to their arbiter: the slot and the group of each -/
  waits : List (Nat × Nat) := []
  /-- shadow adds on their way: cluster, SHADOWBASE, SHLIMIT, page number, count (R127) -/
  shadows : List (Nat × Nat × Nat × Nat × Nat) := []
  wakes : List Wake := []
  watch : List Watch := []
  /-- numbers of accesses, copies, teams, groups, launches, matrix operations: each is used once -/
  nextId : Nat := 1
  hub : Hub := {}
  io : HubIO := {}
  boot : Boot := {}
  mgmt : Mgmt := {}
  harts : SMap Hart := []
  doms : SMap Dom := []
  /-- leaky buckets by the MMIO offset of their register; the millisecond of the last leak -/
  buckets : SMap Bucket := []
  leakMs : Nat := 0
  shoots : List Shootdown := []
  /-- service-core arms on their way to their home slices (R115) -/
  armReqs : List ArmReq := []
  /-- service-core cycles used for each region in a millisecond of TSTAMP, deferred actions (R352), and the blocks of the heaps (R351) -/
  svcUse : SMap (Nat × Nat) := []
  deferred : List Deferred := []
  heap : List HeapBlock := []
deriving DecidableEq, Repr

/-- Why the machine stops. -/
inductive Fault
  /-- the package has no clock (17 R400). Raised by step. Safe. -/
  | stopped
deriving DecidableEq, Repr

/-- Why an instruction has no meaning. -/
inductive Refusal
  /-- not modelled yet, with the mnemonic; raised by an arm of exec. Safe. -/
  | notModelled (mnemonic : String)
deriving DecidableEq, Repr

/-- The package after package reset (17 R380): no hart runs, no group is placed, and every register holds its reset value. -/
def State.reset : State := {}

/-- The outcome of a step. -/
abbrev Out := Host.Outcome State Fault Refusal

end Sys2Proof.Machine
end

