-- ==== Sys2Proof/Machine/Map.lean ====
section
/-! DEFINITION. Finite maps: lists of pairs with ascending keys, read with a default, and byte stores in canonical form. -/

namespace Sys2Proof.Machine

open Sys2Proof

/-- The value at a key, or the default. -/
def SMap.get {α : Type} (m : SMap α) (k : Nat) (d : α) : α :=
  match m with
  | [] => d
  | p :: r => if p.1 = k then p.2 else SMap.get r k d

/-- The value at a key, if the key is present. -/
def SMap.find {α : Type} (m : SMap α) (k : Nat) : Option α :=
  match m with
  | [] => none
  | p :: r => if p.1 = k then some p.2 else SMap.find r k

/-- The map with a value placed in ascending order, before any entry of the same key. -/
def SMap.insert {α : Type} (m : SMap α) (k : Nat) (a : α) : SMap α :=
  match m with
  | [] => [(k, a)]
  | p :: r => if k ≤ p.1 then (k, a) :: p :: r else p :: SMap.insert r k a

/-- The map without a key. -/
def SMap.del {α : Type} (m : SMap α) (k : Nat) : SMap α := m.filter fun p => p.1 != k

/-- The map with the value at a key replaced. -/
def SMap.set {α : Type} (m : SMap α) (k : Nat) (a : α) : SMap α := SMap.insert (SMap.del m k) k a

/-- The map with the value at a key changed. -/
def SMap.upd {α : Type} (m : SMap α) (k : Nat) (d : α) (f : α → α) : SMap α := SMap.set m k (f (SMap.get m k d))

/-- The keys, ascending. -/
def SMap.keys {α : Type} (m : SMap α) : List Nat := m.map Prod.fst

/-- The values, in ascending order of their keys. -/
def SMap.vals {α : Type} (m : SMap α) : List α := m.map Prod.snd

/-! ### Byte stores -/

/-- A byte store: addresses strictly ascending, no entry 0; an unlisted address reads 0 (log 1). -/
abbrev Memory := List Host.Cell

/-- The byte at an address. -/
def Memory.byte (m : Memory) (a : Nat) : Byte := SMap.get m a 0

/-- One byte written. -/
def Memory.put (m : Memory) (a : Nat) (b : Byte) : Memory := if b = 0 then SMap.del m a else SMap.set m a b

/-- The first key of every entry is below those of all later entries, and no entry is 0. -/
def Memory.wf : Memory → Bool
  | [] => true
  | p :: r => p.2 != 0 && r.all (fun q => decide (p.1 < q.1)) && Memory.wf r

/-- `n` bytes from an address on, the lowest address the least significant (R4). -/
def Memory.read (m : Memory) (a : Nat) : Nat → Nat
  | 0 => 0
  | n + 1 => (m.byte a).toNat + 256 * Memory.read m (a + 1) n

/-- `n` bytes of a value written from an address on (R4). -/
def Memory.write (m : Memory) (a x : Nat) : Nat → Memory
  | 0 => m
  | n + 1 => Memory.write (m.put a (BitVec.ofNat 8 x)) (a + 1) (x / 256) n

/-- A 64-bit word of a byte store. -/
def Memory.dword (m : Memory) (a : Nat) : DWord := BitVec.ofNat 64 (m.read a 8)

/-- Two ranges have a byte in common. -/
def meets (a n b m : Nat) : Bool := decide (a < b + m ∧ b < a + n)

end Sys2Proof.Machine
end

