-- ==== Sys2Proof/Machine/Encoding.lean ====
section
/-! DEFINITION. What each encoding accepts: the operand codes of 09 Tables 3 and 5, the special register numbers, and for every instruction the row of its description that decoding checks (R203, R217 orders 1 to 9) and that execution checks again where it needs the group (orders 10 and 11). -/

namespace Sys2Proof

/-- The form a LEN value names (09 Table 1). -/
def Form.ofLen (n : BitVec 2) : Form :=
  if n = 0 then .base else if n = 1 then .baseLit else if n = 2 then .ext else .extLit

/-- The LEN value of a form. -/
def Form.len : Form → BitVec 2
  | .base => 0
  | .baseLit => 1
  | .ext => 2
  | .extLit => 3

/-- The form has words 1 and 2. -/
def Form.isExt : Form → Bool
  | .base | .baseLit => false
  | .ext | .extLit => true

/-- The form has a literal. -/
def Form.hasLit : Form → Bool
  | .base | .ext => false
  | .baseLit | .extLit => true

/-- The 32-bit words of a form (R201). -/
def Form.words : Form → Nat
  | .base => 1
  | .baseLit | .ext => 3
  | .extLit => 5

/-- The bytes of a form (R201). -/
def Form.bytes (f : Form) : Nat := 4 * f.words

/-- The operand of a base operand code (09 Table 3). -/
def Opnd.ofBase (k : BitVec 7) : Option Opnd :=
  let n := k.toNat
  if n < 0x60 then some (.v (BitVec.ofNat 8 n))
  else if n < 0x68 then some (.q (BitVec.ofNat 3 (n - 0x60)))
  else if n = 0x68 then some .l0
  else if n = 0x69 then some .l1
  else if n = 0x6A then some .lit
  else if n = 0x6B then some .zero
  else if n = 0x6C then some .lane
  else if n = 0x6D then some .one
  else if n < 0x70 then none
  else some (.s (BitVec.ofNat 10 (n - 0x70)))

/-- The base operand code of an operand, where it has one. -/
def Opnd.base : Opnd → Option (BitVec 7)
  | .v n => if n.toNat < 0x60 then some (BitVec.ofNat 7 n.toNat) else none
  | .q n => some (BitVec.ofNat 7 (0x60 + n.toNat))
  | .l0 => some 0x68
  | .l1 => some 0x69
  | .lit => some 0x6A
  | .zero => some 0x6B
  | .lane => some 0x6C
  | .one => some 0x6D
  | .s n => if n.toNat < 16 then some (BitVec.ofNat 7 (0x70 + n.toNat)) else none
  | .imm _ => none

/-- The operand of a full operand code (09 Table 5). -/
def Opnd.ofFull (k : BitVec 12) : Option Opnd :=
  let i := k.toNat % 1024
  match k.toNat / 1024 with
  | 0 => if i < 256 then some (.v (BitVec.ofNat 8 i)) else none
  | 1 => some (.s (BitVec.ofNat 10 i))
  | 2 =>
    if i = 0 then some .zero
    else if i = 1 then some .lane
    else if i = 2 then some .one
    else if i < 8 then none
    else if i < 16 then some (.q (BitVec.ofNat 3 (i - 8)))
    else if i = 16 then some .l0
    else if i = 17 then some .l1
    else none
  | _ => if i = 0 then some .lit else some (.imm (BitVec.ofNat 10 i))

/-- The full operand code of an operand (09 Table 5). -/
def Opnd.full : Opnd → BitVec 12
  | .v n => BitVec.ofNat 12 n.toNat
  | .s n => BitVec.ofNat 12 (1024 + n.toNat)
  | .zero => 0x800
  | .lane => 0x801
  | .one => 0x802
  | .q n => BitVec.ofNat 12 (0x808 + n.toNat)
  | .l0 => 0x810
  | .l1 => 0x811
  | .lit => 0xC00
  | .imm m => BitVec.ofNat 12 (0xC00 + m.toNat)

/-- The operand supplies one value per lane (09 Tables 3 and 5). -/
def Opnd.perLane : Opnd → Bool
  | .v _ | .q _ | .l0 | .l1 | .lane => true
  | .s _ | .lit | .zero | .one | .imm _ => false

/-- The width in bits of a TYPE code as an operand; the default of most opcodes is 32 bits (09 Tables 7 and 8). -/
def codeWidth (t : BitVec 8) : Nat :=
  match t.toNat with
  | 1 | 5 | 9 => 8
  | 2 | 6 | 10 | 11 => 16
  | 4 | 8 | 13 => 64
  | _ => 32

/-- TYPE is one of the listed codes. -/
def Enc.tyIn (e : Enc) (l : List Nat) : Bool := l.contains e.ty.toNat

/-- CLAMP is one of the listed values. -/
def Enc.clampIn (e : Enc) (l : List Nat) : Bool := l.contains e.clamp.toNat

/-- ORD is one of the listed values. -/
def Enc.ordIn (e : Enc) (l : List Nat) : Bool := l.contains e.ord.toNat

/-- The width that TYPE names. -/
def Enc.tyWidth (e : Enc) : Nat := codeWidth (e.ty.setWidth 8)

/-- The special register numbers that are assigned (10 Table 13, 12 Table 13, 13 Table 8, 14 Table 8). -/
def specialAssigned (f : BitVec 8) : Bool :=
  let n := f.toNat
  (0x01 ≤ n && n ≤ 0x13) || (0x18 ≤ n && n ≤ 0x1A) || (0x20 ≤ n && n ≤ 0x22) || (0x28 ≤ n && n ≤ 0x2A) ||
  (0x30 ≤ n && n ≤ 0x33) || (0x40 ≤ n && n ≤ 0x43) || (0x60 ≤ n && n ≤ 0x64) || (0x68 ≤ n && n ≤ 0x74)

/-- The special registers with a value per lane (10 Table 13, 14 Table 8). -/
def specialPerLane (f : BitVec 8) : Bool := f == 0x13 || f == 0x6E

/-- The width of a special register (the same tables). -/
def specialWidth (f : BitVec 8) : Nat :=
  if [0x20, 0x21, 0x22, 0x31, 0x32, 0x60, 0x68, 0x69, 0x6B, 0x6C, 0x6D, 0x6E, 0x70].contains f.toNat then 64 else 32

/-- FUNC [3:0] names an atomic operation and no other bit is set (12 Table 3). -/
def atomOp (f : BitVec 8) : Bool := decide (f.toNat < 10)

/-- The TYPE codes of an atomic operation (12 Table 3). -/
def atomTypes (f : BitVec 8) (t : BitVec 4) : Bool :=
  match f.toNat with
  | 0 | 1 | 2 => [3, 4, 7, 8].contains t.toNat
  | 3 | 4 | 5 | 6 | 7 => [7, 8].contains t.toNat
  | 8 => decide (t = 12)
  | 9 => decide (t = 14)
  | _ => false

/-- What an operand position is to an instruction. -/
inductive Role
  /-- must hold the zero operand (R205) -/
  | unused
  /-- a source, per lane or uniform -/
  | src
  /-- a source that must be uniform -/
  | srcU
  /-- a destination; an s register only for a scalar instruction (R208) -/
  | dst
  /-- a destination of a uniform result -/
  | dstU
  /-- a destination of a result that differs per lane: v or q (R233) -/
  | dstV
  /-- an s register or the zero operand -/
  | dstS
  /-- an s register -/
  | dstSr
  /-- a v register or the zero operand -/
  | dstVr
  /-- a predicate number in the D field (R224) -/
  | pred
deriving DecidableEq, Repr

/-- What the encoding of one instruction accepts, for the fields it carries. -/
structure OpSpec where
  /-- major opcode -/
  op : BitVec 8
  /-- FUNC is assigned to the instruction (R216) -/
  func : Bool
  /-- only LEN 10 and 11 are accepted (R203) -/
  extOnly : Bool := false
  /-- TYPE is accepted (R210) -/
  ty : Bool
  /-- PEN may be 1 (R209) -/
  pen : Bool := true
  /-- role of D -/
  d : Role := .unused
  /-- role of A -/
  a : Role := .unused
  /-- role of B -/
  b : Role := .unused
  /-- role of C -/
  c : Role := .unused
  /-- width of D in bits -/
  wd : Nat := 32
  /-- width of A in bits -/
  wa : Nat := 32
  /-- width of B in bits -/
  wb : Nat := 32
  /-- width of C in bits -/
  wc : Nat := 32
  /-- A may be negated and made absolute -/
  modA : Bool := false
  /-- B may be negated and made absolute -/
  modB : Bool := false
  /-- C may be negated and made absolute -/
  modC : Bool := false
  /-- RNDEN and RND are accepted (R186) -/
  rounds : Bool := false
  /-- DSCALE is accepted (R188) -/
  dscales : Bool := false
  /-- CLAMP is accepted (R181, R189) -/
  clamp : Bool
  /-- ORD is accepted (R62) -/
  ord : Bool
  /-- the opcode is privileged (R216) -/
  priv : Bool := false
  /-- the result of a lane comes from the lane's own predicate or register, whatever the sources are (R247, R249) -/
  own : Bool := false
deriving DecidableEq, Repr

/-- The position is a source. -/
def Role.isSrc : Role → Bool
  | .src | .srcU => true
  | _ => false

/-- An instruction is scalar if none of its operands names a per-lane operand (R208). One whose results differ per lane is a vector
instruction even where every operand is uniform (R233): a shfl or match.peers, a qunpk or mrd, a sel or srd that reads its lanes. -/
def OpSpec.scalar (p : OpSpec) (e : Enc) : Bool :=
  !(p.d == .dstV || p.d == .dstVr || (p.own && e.d.perLane) || (p.d.isSrc && e.d.perLane) || (p.a.isSrc && e.a.perLane) || (p.b.isSrc && e.b.perLane) || (p.c.isSrc && e.c.perLane))

/-- The fields of an Oropra instruction; none for an event of another agent. -/
def Instr.enc : Instr → Option Enc
  | .nop e => some e
  | .bra e => some e
  | .bru e => some e
  | .brx e => some e
  | .call e => some e
  | .callx e => some e
  | .ret e => some e
  | .exit e => some e
  | .yield e => some e
  | .voteMask e => some e
  | .voteSome e => some e
  | .voteEvery e => some e
  | .voteSame e => some e
  | .voteCount e => some e
  | .shflLane e => some e
  | .shflBack e => some e
  | .shflFwd e => some e
  | .shflMix e => some e
  | .shflRot e => some e
  | .elect e => some e
  | .electHi e => some e
  | .matchPeers e => some e
  | .matchUniform e => some e
  | .cvset e => some e
  | .sign e => some e
  | .cvwait e => some e
  | .iadd e => some e
  | .isub e => some e
  | .iadd3 e => some e
  | .imul e => some e
  | .imulh e => some e
  | .imad e => some e
  | .imadWide e => some e
  | .lea e => some e
  | .imin e => some e
  | .imax e => some e
  | .iabsd e => some e
  | .and e => some e
  | .or e => some e
  | .xor e => some e
  | .not e => some e
  | .shl e => some e
  | .shr e => some e
  | .sar e => some e
  | .rot e => some e
  | .popc e => some e
  | .clz e => some e
  | .bfe e => some e
  | .bfi e => some e
  | .prmt e => some e
  | .isetp e => some e
  | .sel e => some e
  | .mov e => some e
  | .movs e => some e
  | .bcast e => some e
  | .srd e => some e
  | .swr e => some e
  | .fadd e => some e
  | .fmul e => some e
  | .ffma e => some e
  | .fmin e => some e
  | .fmax e => some e
  | .fsetp e => some e
  | .fclass e => some e
  | .frcp e => some e
  | .frsq e => some e
  | .fsqrt e => some e
  | .fexp2 e => some e
  | .flog2 e => some e
  | .fsin e => some e
  | .fcos e => some e
  | .dadd e => some e
  | .dmul e => some e
  | .dfma e => some e
  | .hadd2 e => some e
  | .hmul2 e => some e
  | .hfma2 e => some e
  | .fcvt e => some e
  | .icvt e => some e
  | .qunpk e => some e
  | .f8pk e => some e
  | .pack e => some e
  | .ld e => some e
  | .st e => some e
  | .lds e => some e
  | .sts e => some e
  | .ldc e => some e
  | .prefetch e => some e
  | .cctl e => some e
  | .atom e => some e
  | .atomCas e => some e
  | .atoms e => some e
  | .red e => some e
  | .atomf e => some e
  | .acp e => some e
  | .acopy e => some e
  | .twaitany e => some e
  | .twaitall e => some e
  | .tffs e => some e
  | .fissue e => some e
  | .fwait e => some e
  | .fence e => some e
  | .bar e => some e
  | .barG e => some e
  | .barNamed e => some e
  | .barrive e => some e
  | .barwait e => some e
  | .arrive e => some e
  | .wait e => some e
  | .nsleep e => some e
  | .mma e => some e
  | .mzero e => some e
  | .mld e => some e
  | .mst e => some e
  | .mrd e => some e
  | .mwr e => some e
  | .mcvt e => some e
  | .mofence e => some e
  | .mwait e => some e
  | .mdrain e => some e
  | .mfill e => some e
  | .mresume e => some e
  | .tspawn e => some e
  | .tarm e => some e
  | .tdec e => some e
  | .tdone e => some e
  | .tlaunch e => some e
  | .tget e => some e
  | .scall e => some e
  | .trap e => some e
  | .bkpt e => some e
  | .uiret e => some e
  | .uimask e => some e
  | .npbegin e => some e
  | .npend e => some e
  | .grow e => some e
  | .carve e => some e
  | .ckpt e => some e
  | .tstampr e => some e
  | .gsave e => some e
  | .grest e => some e
  | _ => none

/-- What the encoding of an instruction accepts, row by row from files 10 to 14 (R223, R251, R268, R308, R314). -/
def Instr.spec : Instr → Option OpSpec
  | .nop e => some { op := 0x01, func := decide (e.func = 0), ty := e.tyIn [0], clamp := e.clampIn [0], ord := e.ordIn [0] }
  | .bra e => some { op := 0x02, func := decide (e.func = 0), ty := e.tyIn [0], a := .srcU, clamp := e.clampIn [0], ord := e.ordIn [0] }
  | .bru e => some { op := 0x03, func := decide (e.func < 32), ty := e.tyIn [0], pen := false, a := .srcU, clamp := e.clampIn [0], ord := e.ordIn [0] }
  | .brx e => some { op := 0x04, func := decide (e.func < 8), ty := e.tyIn [0], a := .src, b := .srcU, clamp := e.clampIn [0], ord := e.ordIn [0] }
  | .call e => some { op := 0x05, func := decide (e.func = 0), ty := e.tyIn [0], d := .dst, a := .srcU, wd := 64, clamp := e.clampIn [0], ord := e.ordIn [0] }
  | .callx e => some { op := 0x06, func := decide (e.func = 0), ty := e.tyIn [0], d := .dst, a := .src, wd := 64, wa := 64, clamp := e.clampIn [0], ord := e.ordIn [0] }
  | .ret e => some { op := 0x07, func := decide (e.func = 0), ty := e.tyIn [0], a := .src, wa := 64, clamp := e.clampIn [0], ord := e.ordIn [0] }
  | .exit e => some { op := 0x08, func := decide (e.func = 0), ty := e.tyIn [0], clamp := e.clampIn [0], ord := e.ordIn [0] }
  | .yield e => some { op := 0x09, func := decide (e.func = 0), ty := e.tyIn [0], pen := false, clamp := e.clampIn [0], ord := e.ordIn [0] }
  | .voteMask e => some { op := 0x0A, func := decide (e.func = 0), ty := e.tyIn [0, 7, 8], d := .dstU, a := .src, wa := e.tyWidth, clamp := e.clampIn [0], ord := e.ordIn [0] }
  | .voteSome e => some { op := 0x0A, func := decide (e.func = 1), ty := e.tyIn [0, 7, 8], d := .dstU, a := .src, wa := e.tyWidth, clamp := e.clampIn [0], ord := e.ordIn [0] }
  | .voteEvery e => some { op := 0x0A, func := decide (e.func = 2), ty := e.tyIn [0, 7, 8], d := .dstU, a := .src, wa := e.tyWidth, clamp := e.clampIn [0], ord := e.ordIn [0] }
  | .voteSame e => some { op := 0x0A, func := decide (e.func = 3), ty := e.tyIn [0, 7, 8], d := .dstU, a := .src, wa := e.tyWidth, clamp := e.clampIn [0], ord := e.ordIn [0] }
  | .voteCount e => some { op := 0x0A, func := decide (e.func = 4), ty := e.tyIn [0, 7, 8], d := .dstU, a := .src, wa := e.tyWidth, clamp := e.clampIn [0], ord := e.ordIn [0] }
  | .shflLane e => some { op := 0x0B, func := decide (e.func = 0), ty := e.tyIn [0, 7, 8], d := .dstV, a := .src, b := .src, wd := e.tyWidth, wa := e.tyWidth, clamp := e.clampIn [0], ord := e.ordIn [0] }
  | .shflBack e => some { op := 0x0B, func := decide (e.func = 1), ty := e.tyIn [0, 7, 8], d := .dstV, a := .src, b := .src, c := .src, wd := e.tyWidth, wa := e.tyWidth, wc := e.tyWidth, clamp := e.clampIn [0], ord := e.ordIn [0] }
  | .shflFwd e => some { op := 0x0B, func := decide (e.func = 2), ty := e.tyIn [0, 7, 8], d := .dstV, a := .src, b := .src, c := .src, wd := e.tyWidth, wa := e.tyWidth, wc := e.tyWidth, clamp := e.clampIn [0], ord := e.ordIn [0] }
  | .shflMix e => some { op := 0x0B, func := decide (e.func = 3), ty := e.tyIn [0, 7, 8], d := .dstV, a := .src, b := .src, wd := e.tyWidth, wa := e.tyWidth, clamp := e.clampIn [0], ord := e.ordIn [0] }
  | .shflRot e => some { op := 0x0B, func := decide (e.func = 4), ty := e.tyIn [0, 7, 8], d := .dstV, a := .src, b := .src, wd := e.tyWidth, wa := e.tyWidth, clamp := e.clampIn [0], ord := e.ordIn [0] }
  | .elect e => some { op := 0x0C, func := decide (e.func = 0), ty := e.tyIn [0], d := .pred, clamp := e.clampIn [0], ord := e.ordIn [0] }
  | .electHi e => some { op := 0x0C, func := decide (e.func = 1), ty := e.tyIn [0], d := .pred, clamp := e.clampIn [0], ord := e.ordIn [0] }
  | .matchPeers e => some { op := 0x0D, func := decide (e.func = 0), ty := e.tyIn [0, 7, 8], d := .dstV, a := .src, wa := e.tyWidth, clamp := e.clampIn [0], ord := e.ordIn [0] }
  | .matchUniform e => some { op := 0x0D, func := decide (e.func = 1), ty := e.tyIn [0, 7, 8], d := .dstU, a := .src, wa := e.tyWidth, clamp := e.clampIn [0], ord := e.ordIn [0] }
  | .cvset e => some { op := 0x0E, func := decide (e.func < 16), ty := e.tyIn [0], d := .dstU, a := .srcU, b := .srcU, clamp := e.clampIn [0], ord := e.ordIn [0] }
  | .sign e => some { op := 0x0F, func := decide (e.func < 16), ty := e.tyIn [0], clamp := e.clampIn [0], ord := e.ordIn [0] }
  | .cvwait e => some { op := 0x10, func := decide (e.func < 16), ty := e.tyIn [0], d := .dstU, clamp := e.clampIn [0], ord := e.ordIn [0] }
  | .iadd e => some { op := 0x20, func := decide (e.func = 0), ty := e.tyIn [0, 1, 2, 3, 4, 5, 6, 7, 8], d := .dst, a := .src, b := .src, wd := e.tyWidth, wa := e.tyWidth, wb := e.tyWidth, modA := true, modB := true, clamp := e.clampIn [0, 3], ord := e.ordIn [0] }
  | .isub e => some { op := 0x21, func := decide (e.func = 0), ty := e.tyIn [0, 1, 2, 3, 4, 5, 6, 7, 8], d := .dst, a := .src, b := .src, wd := e.tyWidth, wa := e.tyWidth, wb := e.tyWidth, modA := true, modB := true, clamp := e.clampIn [0, 3], ord := e.ordIn [0] }
  | .iadd3 e => some { op := 0x22, func := decide (e.func = 0), ty := e.tyIn [0, 1, 2, 3, 4, 5, 6, 7, 8], d := .dst, a := .src, b := .src, c := .src, wd := e.tyWidth, wa := e.tyWidth, wb := e.tyWidth, wc := e.tyWidth, modA := true, modB := true, modC := true, clamp := e.clampIn [0, 3], ord := e.ordIn [0] }
  | .imul e => some { op := 0x23, func := decide (e.func = 0), ty := e.tyIn [0, 1, 2, 3, 4, 5, 6, 7, 8], d := .dst, a := .src, b := .src, wd := e.tyWidth, wa := e.tyWidth, wb := e.tyWidth, modA := true, modB := true, clamp := e.clampIn [0, 3], ord := e.ordIn [0] }
  | .imulh e => some { op := 0x24, func := decide (e.func = 0), ty := e.tyIn [0, 3, 4, 7, 8], d := .dst, a := .src, b := .src, wd := e.tyWidth, wa := e.tyWidth, wb := e.tyWidth, clamp := e.clampIn [0], ord := e.ordIn [0] }
  | .imad e => some { op := 0x25, func := decide (e.func = 0), ty := e.tyIn [0, 1, 2, 3, 4, 5, 6, 7, 8], d := .dst, a := .src, b := .src, c := .src, wd := e.tyWidth, wa := e.tyWidth, wb := e.tyWidth, wc := e.tyWidth, modA := true, modB := true, modC := true, clamp := e.clampIn [0, 3], ord := e.ordIn [0] }
  | .imadWide e => some { op := 0x25, func := decide (e.func = 1), ty := e.tyIn [0, 3, 7], d := .dst, a := .src, b := .src, c := .src, wd := 64, wc := 64, modA := true, modB := true, modC := true, clamp := e.clampIn [0, 3], ord := e.ordIn [0] }
  | .lea e => some { op := 0x26, func := decide (e.func < 64), ty := e.tyIn [0, 3, 4, 7, 8], d := .dst, a := .src, b := .src, wd := e.tyWidth, wa := e.tyWidth, wb := e.tyWidth, clamp := e.clampIn [0], ord := e.ordIn [0] }
  | .imin e => some { op := 0x27, func := decide (e.func = 0), ty := e.tyIn [0, 1, 2, 3, 4, 5, 6, 7, 8], d := .dst, a := .src, b := .src, wd := e.tyWidth, wa := e.tyWidth, wb := e.tyWidth, modA := true, modB := true, clamp := e.clampIn [0], ord := e.ordIn [0] }
  | .imax e => some { op := 0x28, func := decide (e.func = 0), ty := e.tyIn [0, 1, 2, 3, 4, 5, 6, 7, 8], d := .dst, a := .src, b := .src, wd := e.tyWidth, wa := e.tyWidth, wb := e.tyWidth, modA := true, modB := true, clamp := e.clampIn [0], ord := e.ordIn [0] }
  | .iabsd e => some { op := 0x29, func := decide (e.func = 0), ty := e.tyIn [0, 1, 2, 3, 4, 5, 6, 7, 8], d := .dst, a := .src, b := .src, wd := e.tyWidth, wa := e.tyWidth, wb := e.tyWidth, clamp := e.clampIn [0, 3], ord := e.ordIn [0] }
  | .and e => some { op := 0x30, func := decide (e.func = 0), ty := e.tyIn [0, 7, 8], d := .dst, a := .src, b := .src, wd := e.tyWidth, wa := e.tyWidth, wb := e.tyWidth, clamp := e.clampIn [0], ord := e.ordIn [0] }
  | .or e => some { op := 0x31, func := decide (e.func = 0), ty := e.tyIn [0, 7, 8], d := .dst, a := .src, b := .src, wd := e.tyWidth, wa := e.tyWidth, wb := e.tyWidth, clamp := e.clampIn [0], ord := e.ordIn [0] }
  | .xor e => some { op := 0x32, func := decide (e.func = 0), ty := e.tyIn [0, 7, 8], d := .dst, a := .src, b := .src, wd := e.tyWidth, wa := e.tyWidth, wb := e.tyWidth, clamp := e.clampIn [0], ord := e.ordIn [0] }
  | .not e => some { op := 0x33, func := decide (e.func = 0), ty := e.tyIn [0, 7, 8], d := .dst, a := .src, wd := e.tyWidth, wa := e.tyWidth, clamp := e.clampIn [0], ord := e.ordIn [0] }
  | .shl e => some { op := 0x34, func := decide (e.func = 0), ty := e.tyIn [0, 7, 8], d := .dst, a := .src, b := .src, wd := e.tyWidth, wa := e.tyWidth, clamp := e.clampIn [0], ord := e.ordIn [0] }
  | .shr e => some { op := 0x35, func := decide (e.func = 0), ty := e.tyIn [0, 7, 8], d := .dst, a := .src, b := .src, wd := e.tyWidth, wa := e.tyWidth, clamp := e.clampIn [0], ord := e.ordIn [0] }
  | .sar e => some { op := 0x36, func := decide (e.func = 0), ty := e.tyIn [0, 7, 8], d := .dst, a := .src, b := .src, wd := e.tyWidth, wa := e.tyWidth, clamp := e.clampIn [0], ord := e.ordIn [0] }
  | .rot e => some { op := 0x37, func := decide (e.func = 0), ty := e.tyIn [0, 7, 8], d := .dst, a := .src, b := .src, wd := e.tyWidth, wa := e.tyWidth, clamp := e.clampIn [0], ord := e.ordIn [0] }
  | .popc e => some { op := 0x38, func := decide (e.func = 0), ty := e.tyIn [0, 7, 8], d := .dst, a := .src, wa := e.tyWidth, clamp := e.clampIn [0], ord := e.ordIn [0] }
  | .clz e => some { op := 0x39, func := decide (e.func = 0), ty := e.tyIn [0, 7, 8], d := .dst, a := .src, wa := e.tyWidth, clamp := e.clampIn [0], ord := e.ordIn [0] }
  | .bfe e => some { op := 0x3A, func := decide (e.func = 0), ty := e.tyIn [0, 3, 4, 7, 8], d := .dst, a := .src, b := .src, c := .src, wd := e.tyWidth, wa := e.tyWidth, clamp := e.clampIn [0], ord := e.ordIn [0] }
  | .bfi e => some { op := 0x3B, func := decide (e.func = 0), ty := e.tyIn [0, 7, 8], d := .dst, a := .src, b := .src, c := .src, wd := e.tyWidth, wa := e.tyWidth, wb := e.tyWidth, wc := 32, clamp := e.clampIn [0], ord := e.ordIn [0] }
  | .prmt e => some { op := 0x3C, func := decide (e.func = 0), ty := e.tyIn [0, 7], d := .dst, a := .src, b := .src, c := .src, wd := e.tyWidth, wa := e.tyWidth, wb := e.tyWidth, wc := e.tyWidth, clamp := e.clampIn [0], ord := e.ordIn [0] }
  | .isetp e => some { op := 0x3D, func := decide (e.func < 6), ty := e.tyIn [0, 1, 2, 3, 4, 5, 6, 7, 8], d := .pred, a := .src, b := .src, wa := e.tyWidth, wb := e.tyWidth, modA := true, modB := true, clamp := e.clampIn [0], ord := e.ordIn [0] }
  | .sel e => some { op := 0x3E, func := decide (e.func < 16), ty := e.tyIn [0, 3, 4, 7, 8, 12, 13, 14, 15], d := .dst, a := .src, b := .src, wd := e.tyWidth, wa := e.tyWidth, wb := e.tyWidth, clamp := e.clampIn [0], ord := e.ordIn [0], own := true }
  | .mov e => some { op := 0x48, func := decide (e.func = 0), ty := e.tyIn [0, 7, 8], d := .dst, a := .src, wd := e.tyWidth, wa := e.tyWidth, clamp := e.clampIn [0], ord := e.ordIn [0] }
  | .movs e => some { op := 0x49, func := decide (e.func = 0), ty := e.tyIn [0, 7, 8], d := .dstU, a := .src, wd := e.tyWidth, wa := e.tyWidth, clamp := e.clampIn [0], ord := e.ordIn [0] }
  | .bcast e => some { op := 0x4A, func := decide (e.func = 0), ty := e.tyIn [0, 7, 8], d := .dstU, a := .src, b := .srcU, wd := e.tyWidth, wa := e.tyWidth, clamp := e.clampIn [0], ord := e.ordIn [0] }
  | .srd e => some { op := 0x4B, func := specialAssigned e.func, ty := e.tyIn [0, 7, 8], d := .dstU, wd := specialWidth e.func, clamp := e.clampIn [0], ord := e.ordIn [0], own := specialPerLane e.func }
  | .swr e => some { op := 0x4C, func := specialAssigned e.func, ty := e.tyIn [0, 7, 8], a := .src, wa := specialWidth e.func, clamp := e.clampIn [0], ord := e.ordIn [0] }
  | .fadd e => some { op := 0x50, func := decide (e.func = 0), ty := e.tyIn [0, 10, 11, 12], d := .dst, a := .src, b := .src, wd := e.tyWidth, wa := e.tyWidth, wb := e.tyWidth, modA := true, modB := true, rounds := true, dscales := true, clamp := true, ord := e.ordIn [0] }
  | .fmul e => some { op := 0x51, func := decide (e.func = 0), ty := e.tyIn [0, 10, 11, 12], d := .dst, a := .src, b := .src, wd := e.tyWidth, wa := e.tyWidth, wb := e.tyWidth, modA := true, modB := true, rounds := true, dscales := true, clamp := true, ord := e.ordIn [0] }
  | .ffma e => some { op := 0x52, func := decide (e.func = 0), ty := e.tyIn [0, 10, 11, 12], d := .dst, a := .src, b := .src, c := .src, wd := e.tyWidth, wa := e.tyWidth, wb := e.tyWidth, wc := e.tyWidth, modA := true, modB := true, modC := true, rounds := true, dscales := true, clamp := true, ord := e.ordIn [0] }
  | .fmin e => some { op := 0x53, func := decide (e.func = 0), ty := e.tyIn [0, 10, 11, 12, 13], d := .dst, a := .src, b := .src, wd := e.tyWidth, wa := e.tyWidth, wb := e.tyWidth, modA := true, modB := true, clamp := true, ord := e.ordIn [0] }
  | .fmax e => some { op := 0x54, func := decide (e.func = 0), ty := e.tyIn [0, 10, 11, 12, 13], d := .dst, a := .src, b := .src, wd := e.tyWidth, wa := e.tyWidth, wb := e.tyWidth, modA := true, modB := true, clamp := true, ord := e.ordIn [0] }
  | .fsetp e => some { op := 0x55, func := decide (e.func < 16), ty := e.tyIn [0, 10, 11, 12, 13], d := .pred, a := .src, b := .src, wa := e.tyWidth, wb := e.tyWidth, modA := true, modB := true, clamp := e.clampIn [0], ord := e.ordIn [0] }
  | .fclass e => some { op := 0x56, func := decide (e.func = 0), ty := e.tyIn [0, 9, 10, 11, 12, 13], d := .dst, a := .src, wa := e.tyWidth, clamp := e.clampIn [0], ord := e.ordIn [0] }
  | .frcp e => some { op := 0x58, func := decide (e.func = 0), ty := e.tyIn [0, 12], d := .dst, a := .src, modA := true, rounds := true, dscales := true, clamp := true, ord := e.ordIn [0] }
  | .frsq e => some { op := 0x59, func := decide (e.func = 0), ty := e.tyIn [0, 12], d := .dst, a := .src, modA := true, clamp := true, ord := e.ordIn [0] }
  | .fsqrt e => some { op := 0x5A, func := decide (e.func = 0), ty := e.tyIn [0, 12], d := .dst, a := .src, modA := true, rounds := true, dscales := true, clamp := true, ord := e.ordIn [0] }
  | .fexp2 e => some { op := 0x5B, func := decide (e.func = 0), ty := e.tyIn [0, 12], d := .dst, a := .src, modA := true, clamp := true, ord := e.ordIn [0] }
  | .flog2 e => some { op := 0x5C, func := decide (e.func = 0), ty := e.tyIn [0, 12], d := .dst, a := .src, modA := true, clamp := true, ord := e.ordIn [0] }
  | .fsin e => some { op := 0x5D, func := decide (e.func = 0), ty := e.tyIn [0, 12], d := .dst, a := .src, modA := true, clamp := true, ord := e.ordIn [0] }
  | .fcos e => some { op := 0x5E, func := decide (e.func = 0), ty := e.tyIn [0, 12], d := .dst, a := .src, modA := true, clamp := true, ord := e.ordIn [0] }
  | .dadd e => some { op := 0x60, func := decide (e.func = 0), ty := e.tyIn [0, 13], d := .dst, a := .src, b := .src, wd := 64, wa := 64, wb := 64, modA := true, modB := true, rounds := true, dscales := true, clamp := true, ord := e.ordIn [0] }
  | .dmul e => some { op := 0x61, func := decide (e.func = 0), ty := e.tyIn [0, 13], d := .dst, a := .src, b := .src, wd := 64, wa := 64, wb := 64, modA := true, modB := true, rounds := true, dscales := true, clamp := true, ord := e.ordIn [0] }
  | .dfma e => some { op := 0x62, func := decide (e.func = 0), ty := e.tyIn [0, 13], d := .dst, a := .src, b := .src, c := .src, wd := 64, wa := 64, wb := 64, wc := 64, modA := true, modB := true, modC := true, rounds := true, dscales := true, clamp := true, ord := e.ordIn [0] }
  | .hadd2 e => some { op := 0x68, func := decide (e.func = 0), ty := e.tyIn [0, 14, 15], d := .dst, a := .src, b := .src, modA := true, modB := true, rounds := true, dscales := true, clamp := true, ord := e.ordIn [0] }
  | .hmul2 e => some { op := 0x69, func := decide (e.func = 0), ty := e.tyIn [0, 14, 15], d := .dst, a := .src, b := .src, modA := true, modB := true, rounds := true, dscales := true, clamp := true, ord := e.ordIn [0] }
  | .hfma2 e => some { op := 0x6A, func := decide (e.func = 0), ty := e.tyIn [0, 14, 15], d := .dst, a := .src, b := .src, c := .src, modA := true, modB := true, modC := true, rounds := true, dscales := true, clamp := true, ord := e.ordIn [0] }
  | .fcvt e => some { op := 0x80, func := true, extOnly := true, ty := e.tyIn [1, 2, 3, 4, 5, 6, 7, 8, 9, 10, 11, 12, 13], d := .dst, a := .src, wd := e.tyWidth, wa := codeWidth (e.func &&& 15), modA := decide (9 ≤ (e.func &&& 15).toNat), rounds := true, dscales := true, clamp := true, ord := e.ordIn [0] }
  | .icvt e => some { op := 0x81, func := decide (e.func < 64), extOnly := true, ty := e.tyIn [1, 2, 3, 4, 5, 6, 7, 8], d := .dst, a := .src, wd := e.tyWidth, wa := codeWidth (e.func &&& 15), clamp := e.clampIn [0, 3], ord := e.ordIn [0] }
  | .qunpk e => some { op := 0x82, func := decide (e.func < 2), extOnly := true, ty := e.tyIn [12, 14, 15], d := .dstVr, a := .srcU, b := .srcU, wd := if e.ty = 12 then 128 else 64, wa := if e.func.getLsbD 0 then 32 else 64, wb := if e.func.getLsbD 0 then 32 else 64, rounds := true, dscales := true, clamp := true, ord := e.ordIn [0, 1] }
  | .f8pk e => some { op := 0x83, func := decide (e.func < 4), ty := e.tyIn [0], d := .dst, a := .src, b := .src, c := .src, modA := true, modB := true, rounds := true, dscales := true, clamp := true, ord := e.ordIn [0] }
  | .pack e => some { op := 0x84, func := decide (e.func = 0), extOnly := true, ty := e.tyIn [6, 14, 15], d := .dst, a := .src, b := .src, modA := decide (e.ty ≠ 6), modB := decide (e.ty ≠ 6), rounds := decide (e.ty ≠ 6), dscales := decide (e.ty ≠ 6 ∨ e.dscale = 0), clamp := decide (e.ty ≠ 6 ∨ e.clamp = 0), ord := e.ordIn [0] }
  | .ld e => some { op := 0x90, func := decide (e.func < 8), ty := if e.func.getLsbD 0 then e.tyIn [0] else e.tyIn [0, 1, 2, 3, 4, 5, 6, 7, 8], d := .dst, a := .src, b := .src, c := .src, wd := if e.func.getLsbD 0 then 128 else e.tyWidth, wa := 64, clamp := e.clampIn [0], ord := e.ordIn [0, 1] }
  | .st e => some { op := 0x91, func := decide (e.func < 8), ty := if e.func.getLsbD 0 then e.tyIn [0] else e.tyIn [0, 1, 2, 3, 4, 5, 6, 7, 8], d := .src, a := .src, b := .src, c := .src, wd := if e.func.getLsbD 0 then 128 else e.tyWidth, wa := 64, clamp := e.clampIn [0], ord := e.ordIn [0, 2] }
  | .lds e => some { op := 0x92, func := decide (e.func < 8), ty := if e.func.getLsbD 0 then e.tyIn [0] else e.tyIn [0, 1, 2, 3, 4, 5, 6, 7, 8], d := .dst, a := .src, b := .src, c := .src, wd := if e.func.getLsbD 0 then 128 else e.tyWidth, wa := 32, clamp := e.clampIn [0], ord := e.ordIn [0, 1] }
  | .sts e => some { op := 0x93, func := decide (e.func < 8), ty := if e.func.getLsbD 0 then e.tyIn [0] else e.tyIn [0, 1, 2, 3, 4, 5, 6, 7, 8], d := .src, a := .src, b := .src, c := .src, wd := if e.func.getLsbD 0 then 128 else e.tyWidth, wa := 32, clamp := e.clampIn [0], ord := e.ordIn [0, 2] }
  | .ldc e => some { op := 0x94, func := decide (e.func < 8), ty := if e.func.getLsbD 0 then e.tyIn [0] else e.tyIn [0, 1, 2, 3, 4, 5, 6, 7, 8], d := .dst, a := .src, b := .src, c := .src, wd := if e.func.getLsbD 0 then 128 else e.tyWidth, wa := 32, clamp := e.clampIn [0], ord := e.ordIn [0, 1] }
  | .prefetch e => some { op := 0x95, func := decide (e.func < 8), ty := e.tyIn [0], a := .src, b := .src, c := .src, wa := 64, clamp := e.clampIn [0], ord := e.ordIn [0] }
  | .cctl e => some { op := 0x96, func := decide (e.func < 4), ty := e.tyIn [0], a := .src, c := .src, wa := 64, clamp := e.clampIn [0], ord := e.ordIn [0] }
  | .atom e => some { op := 0xA0, func := atomOp e.func && decide (e.func ≠ 7), ty := atomTypes e.func e.ty, d := .dst, a := .src, b := .src, wd := e.tyWidth, wa := 64, wb := e.tyWidth, clamp := e.clampIn [0], ord := true }
  | .atomCas e => some { op := 0xA0, func := decide (e.func = 7), ty := atomTypes e.func e.ty, d := .dst, a := .src, b := .src, c := .src, wd := e.tyWidth, wa := 64, wb := e.tyWidth, wc := e.tyWidth, clamp := e.clampIn [0], ord := true }
  | .atoms e => some { op := 0xA1, func := decide (atomOp e.func), ty := atomTypes e.func e.ty, d := .dst, a := .src, b := .src, c := if e.func = 7 then .src else .unused, wd := e.tyWidth, wb := e.tyWidth, wc := e.tyWidth, clamp := e.clampIn [0], ord := true }
  | .red e => some { op := 0xA2, func := atomOp (e.func &&& 15) && decide (e.func &&& 15 ≠ 6) && decide (e.func &&& 15 ≠ 7) && decide (e.func < 32), ty := atomTypes (e.func &&& 15) e.ty, a := .src, b := .src, wa := if e.func.getLsbD 4 then 32 else 64, wb := e.tyWidth, clamp := e.clampIn [0], ord := e.ordIn [0, 2] }
  | .atomf e => some { op := 0xA3, func := atomOp e.func && decide (e.func ≠ 7), ty := atomTypes e.func e.ty, d := .srcU, a := .src, b := .src, c := .src, wa := 64, wb := e.tyWidth, clamp := e.clampIn [0], ord := true }
  | .acp e => some { op := 0xB0, func := decide (e.func < 64), ty := e.tyIn [0], d := .src, a := .src, wd := if e.func.getLsbD 5 then 32 else 64, wa := if e.func.getLsbD 4 then 32 else 64, clamp := e.clampIn [0], ord := e.ordIn [0] }
  | .acopy e => some { op := 0xB1, func := decide (e.func < 64), ty := e.tyIn [0], d := .srcU, a := .srcU, b := .srcU, c := .srcU, wd := if e.func.getLsbD 5 then 32 else 64, wa := if e.func.getLsbD 4 then 32 else 64, wc := 64, clamp := e.clampIn [0], ord := e.ordIn [0] }
  | .twaitany e => some { op := 0xB2, func := decide (e.func < 2), ty := e.tyIn [0], d := .dstU, a := .src, clamp := e.clampIn [0], ord := e.ordIn [0] }
  | .twaitall e => some { op := 0xB3, func := decide (e.func = 0), ty := e.tyIn [0], d := .dstU, a := .src, clamp := e.clampIn [0], ord := e.ordIn [0] }
  | .tffs e => some { op := 0xB4, func := decide (e.func < 2), ty := e.tyIn [0], d := .dstU, a := .src, clamp := e.clampIn [0], ord := e.ordIn [0] }
  | .fissue e => some { op := 0xC0, func := decide (e.func = 0), ty := e.tyIn [0], d := .dstU, a := .srcU, clamp := e.clampIn [0], ord := e.ordIn [0] }
  | .fwait e => some { op := 0xC1, func := decide (e.func = 0), ty := e.tyIn [0], a := .srcU, clamp := e.clampIn [0], ord := e.ordIn [0] }
  | .fence e => some { op := 0xC2, func := decide (e.func = 0), ty := e.tyIn [0], a := .srcU, clamp := e.clampIn [0], ord := e.ordIn [0] }
  | .bar e => some { op := 0xC3, func := decide (e.func = 0), ty := e.tyIn [0], clamp := e.clampIn [0], ord := e.ordIn [0] }
  | .barG e => some { op := 0xC3, func := decide (e.func = 1), ty := e.tyIn [0], clamp := e.clampIn [0], ord := e.ordIn [0] }
  | .barNamed e => some { op := 0xC3, func := decide (e.func &&& 3 = 2) && decide (e.func < 64), ty := e.tyIn [0], a := .srcU, clamp := e.clampIn [0], ord := e.ordIn [0] }
  | .barrive e => some { op := 0xC4, func := decide (e.func < 16), ty := e.tyIn [0], a := .srcU, clamp := e.clampIn [0], ord := e.ordIn [0] }
  | .barwait e => some { op := 0xC5, func := decide (e.func < 16), ty := e.tyIn [0], clamp := e.clampIn [0], ord := e.ordIn [0] }
  | .arrive e => some { op := 0xC6, func := decide (e.func < 4), ty := e.tyIn [0], a := .srcU, b := if e.func.getLsbD 1 then .unused else .srcU, wa := if e.func.getLsbD 0 then 32 else 64, clamp := e.clampIn [0], ord := e.ordIn [0, 2] }
  | .wait e => some { op := 0xC7, func := decide (e.func < 32), ty := e.tyIn [0], d := .dstSr, a := .srcU, b := .srcU, c := .srcU, wd := if e.func.getLsbD 3 then 64 else 32, wa := if e.func.getLsbD 4 then 32 else 64, wb := if e.func.getLsbD 3 then 64 else 32, wc := 64, clamp := e.clampIn [0], ord := e.ordIn [0, 1] }
  | .nsleep e => some { op := 0xC8, func := decide (e.func = 0), ty := e.tyIn [0], a := .srcU, clamp := e.clampIn [0], ord := e.ordIn [0] }
  | .mma e => some { op := 0xD0, func := decide (e.func < 16), extOnly := true, ty := e.tyIn [0], d := .dstS, a := .srcU, b := .srcU, c := .srcU, wa := 128, wb := 128, clamp := e.clampIn [0], ord := e.ordIn [0] }
  | .mzero e => some { op := 0xD1, func := decide (e.func < 8), ty := e.tyIn [0], clamp := e.clampIn [0], ord := e.ordIn [0] }
  | .mld e => some { op := 0xD2, func := decide (e.func < 16), ty := e.tyIn [0], d := .dstS, a := .srcU, b := .srcU, wa := if e.func.getLsbD 3 then 32 else 64, clamp := e.clampIn [0], ord := e.ordIn [0] }
  | .mst e => some { op := 0xD3, func := decide (e.func < 16), ty := e.tyIn [0], d := .dstS, a := .srcU, b := .srcU, wa := if e.func.getLsbD 3 then 32 else 64, clamp := e.clampIn [0], ord := e.ordIn [0] }
  | .mrd e => some { op := 0xD4, func := decide (e.func < 8), ty := e.tyIn [0], d := .dstVr, a := .srcU, wd := 64, clamp := e.clampIn [0], ord := e.ordIn [0] }
  | .mwr e => some { op := 0xD5, func := decide (e.func < 8), ty := e.tyIn [0], d := .src, a := .srcU, wd := 64, clamp := e.clampIn [0], ord := e.ordIn [0] }
  | .mcvt e => some { op := 0xD6, func := decide (e.func < 32), ty := e.tyIn [9, 10, 11], d := .dstS, a := .srcU, b := .srcU, wa := if e.func.getLsbD 3 then 32 else 64, rounds := true, dscales := true, clamp := true, ord := e.ordIn [0] }
  | .mofence e => some { op := 0xD7, func := decide (e.func = 0), ty := e.tyIn [0], clamp := e.clampIn [0], ord := e.ordIn [0] }
  | .mwait e => some { op := 0xD8, func := decide (e.func = 0), ty := e.tyIn [0], d := .dstS, a := .srcU, clamp := e.clampIn [0], ord := e.ordIn [0] }
  | .mdrain e => some { op := 0xD9, func := decide (e.func = 0), ty := e.tyIn [0], d := .dstS, a := .srcU, b := .srcU, c := .srcU, wa := 64, wb := 64, wc := 64, clamp := e.clampIn [0], ord := e.ordIn [0] }
  | .mfill e => some { op := 0xDA, func := decide (e.func = 0), ty := e.tyIn [0], a := .srcU, b := .srcU, c := .srcU, wa := 64, wb := 64, wc := 64, clamp := e.clampIn [0], ord := e.ordIn [0], priv := true }
  | .mresume e => some { op := 0xDB, func := decide (e.func = 0), ty := e.tyIn [0], a := .srcU, clamp := e.clampIn [0], ord := e.ordIn [0], priv := true }
  | .tspawn e => some { op := 0xE0, func := decide (e.func = 0), ty := e.tyIn [0], d := .dstS, a := .srcU, wa := 64, clamp := e.clampIn [0], ord := e.ordIn [0] }
  | .tarm e => some { op := 0xE1, func := decide (e.func < 2), ty := e.tyIn [0], d := .dstS, a := .srcU, b := if e.func.getLsbD 0 then .unused else .srcU, c := if e.func.getLsbD 0 then .unused else .srcU, wc := 64, clamp := e.clampIn [0], ord := e.ordIn [0] }
  | .tdec e => some { op := 0xE2, func := decide (e.func = 0), ty := e.tyIn [0], a := .src, clamp := e.clampIn [0], ord := e.ordIn [0] }
  | .tdone e => some { op := 0xE3, func := decide (e.func = 0), ty := e.tyIn [0], pen := false, a := .srcU, clamp := e.clampIn [0], ord := e.ordIn [0] }
  | .tlaunch e => some { op := 0xE4, func := decide (e.func = 0), ty := e.tyIn [0], d := .dstS, a := .srcU, wa := 64, clamp := e.clampIn [0], ord := e.ordIn [0] }
  | .tget e => some { op := 0xE5, func := decide (e.func = 0), ty := e.tyIn [0], pen := false, d := .dstSr, wd := 64, clamp := e.clampIn [0], ord := e.ordIn [0] }
  | .scall e => some { op := 0xF0, func := decide (e.func < 2), ty := e.tyIn [0], clamp := e.clampIn [0], ord := e.ordIn [0] }
  | .trap e => some { op := 0xF1, func := decide (e.func = 0), ty := e.tyIn [0], a := .srcU, clamp := e.clampIn [0], ord := e.ordIn [0] }
  | .bkpt e => some { op := 0xF2, func := decide (e.func = 0), ty := e.tyIn [0], a := .srcU, clamp := e.clampIn [0], ord := e.ordIn [0] }
  | .uiret e => some { op := 0xF3, func := decide (e.func = 0), ty := e.tyIn [0], pen := false, clamp := e.clampIn [0], ord := e.ordIn [0] }
  | .uimask e => some { op := 0xF4, func := decide (e.func < 3), ty := e.tyIn [0], d := .dstS, a := .srcU, clamp := e.clampIn [0], ord := e.ordIn [0] }
  | .npbegin e => some { op := 0xF5, func := decide (e.func = 0), ty := e.tyIn [0], clamp := e.clampIn [0], ord := e.ordIn [0] }
  | .npend e => some { op := 0xF6, func := decide (e.func = 0), ty := e.tyIn [0], clamp := e.clampIn [0], ord := e.ordIn [0] }
  | .grow e => some { op := 0xF7, func := decide (e.func = 0), ty := e.tyIn [0], d := .dstS, a := .srcU, b := .srcU, clamp := e.clampIn [0], ord := e.ordIn [0] }
  | .carve e => some { op := 0xF8, func := decide (e.func = 0), ty := e.tyIn [0], d := .dstS, a := .srcU, b := .srcU, c := .srcU, clamp := e.clampIn [0], ord := e.ordIn [0] }
  | .ckpt e => some { op := 0xF9, func := decide (e.func = 0), ty := e.tyIn [0], pen := false, clamp := e.clampIn [0], ord := e.ordIn [0] }
  | .tstampr e => some { op := 0xFA, func := decide (e.func < 2), ty := e.tyIn [0], d := .dstU, wd := 64, clamp := e.clampIn [0], ord := e.ordIn [0] }
  | .gsave e => some { op := 0xFC, func := decide (e.func < 5), ty := e.tyIn [0], a := .srcU, wa := 64, clamp := e.clampIn [0], ord := e.ordIn [0], priv := true }
  | .grest e => some { op := 0xFD, func := decide (e.func < 5), ty := e.tyIn [0], a := .srcU, wa := 64, clamp := e.clampIn [0], ord := e.ordIn [0], priv := true }
  | _ => none

/-- The instruction that OP and FUNC name (09 Table 10); FUNC chooses among the instructions of one opcode. -/
def Instr.ofOp (op : Nat) (e : Enc) : Option Instr :=
  match op with
  | 0x01 => some (.nop e)
  | 0x02 => some (.bra e)
  | 0x03 => some (.bru e)
  | 0x04 => some (.brx e)
  | 0x05 => some (.call e)
  | 0x06 => some (.callx e)
  | 0x07 => some (.ret e)
  | 0x08 => some (.exit e)
  | 0x09 => some (.yield e)
  | 0x0A => if e.func = 0 then some (.voteMask e) else if e.func = 1 then some (.voteSome e) else if e.func = 2 then some (.voteEvery e) else if e.func = 3 then some (.voteSame e) else if e.func = 4 then some (.voteCount e) else none
  | 0x0B => if e.func = 0 then some (.shflLane e) else if e.func = 1 then some (.shflBack e) else if e.func = 2 then some (.shflFwd e) else if e.func = 3 then some (.shflMix e) else if e.func = 4 then some (.shflRot e) else none
  | 0x0C => if e.func = 0 then some (.elect e) else if e.func = 1 then some (.electHi e) else none
  | 0x0D => if e.func = 0 then some (.matchPeers e) else if e.func = 1 then some (.matchUniform e) else none
  | 0x0E => some (.cvset e)
  | 0x0F => some (.sign e)
  | 0x10 => some (.cvwait e)
  | 0x20 => some (.iadd e)
  | 0x21 => some (.isub e)
  | 0x22 => some (.iadd3 e)
  | 0x23 => some (.imul e)
  | 0x24 => some (.imulh e)
  | 0x25 => if e.func = 0 then some (.imad e) else if e.func = 1 then some (.imadWide e) else none
  | 0x26 => some (.lea e)
  | 0x27 => some (.imin e)
  | 0x28 => some (.imax e)
  | 0x29 => some (.iabsd e)
  | 0x30 => some (.and e)
  | 0x31 => some (.or e)
  | 0x32 => some (.xor e)
  | 0x33 => some (.not e)
  | 0x34 => some (.shl e)
  | 0x35 => some (.shr e)
  | 0x36 => some (.sar e)
  | 0x37 => some (.rot e)
  | 0x38 => some (.popc e)
  | 0x39 => some (.clz e)
  | 0x3A => some (.bfe e)
  | 0x3B => some (.bfi e)
  | 0x3C => some (.prmt e)
  | 0x3D => some (.isetp e)
  | 0x3E => some (.sel e)
  | 0x48 => some (.mov e)
  | 0x49 => some (.movs e)
  | 0x4A => some (.bcast e)
  | 0x4B => some (.srd e)
  | 0x4C => some (.swr e)
  | 0x50 => some (.fadd e)
  | 0x51 => some (.fmul e)
  | 0x52 => some (.ffma e)
  | 0x53 => some (.fmin e)
  | 0x54 => some (.fmax e)
  | 0x55 => some (.fsetp e)
  | 0x56 => some (.fclass e)
  | 0x58 => some (.frcp e)
  | 0x59 => some (.frsq e)
  | 0x5A => some (.fsqrt e)
  | 0x5B => some (.fexp2 e)
  | 0x5C => some (.flog2 e)
  | 0x5D => some (.fsin e)
  | 0x5E => some (.fcos e)
  | 0x60 => some (.dadd e)
  | 0x61 => some (.dmul e)
  | 0x62 => some (.dfma e)
  | 0x68 => some (.hadd2 e)
  | 0x69 => some (.hmul2 e)
  | 0x6A => some (.hfma2 e)
  | 0x80 => some (.fcvt e)
  | 0x81 => some (.icvt e)
  | 0x82 => some (.qunpk e)
  | 0x83 => some (.f8pk e)
  | 0x84 => some (.pack e)
  | 0x90 => some (.ld e)
  | 0x91 => some (.st e)
  | 0x92 => some (.lds e)
  | 0x93 => some (.sts e)
  | 0x94 => some (.ldc e)
  | 0x95 => some (.prefetch e)
  | 0x96 => some (.cctl e)
  | 0xA0 => some (if e.func = 7 then .atomCas e else .atom e)
  | 0xA1 => some (.atoms e)
  | 0xA2 => some (.red e)
  | 0xA3 => some (.atomf e)
  | 0xB0 => some (.acp e)
  | 0xB1 => some (.acopy e)
  | 0xB2 => some (.twaitany e)
  | 0xB3 => some (.twaitall e)
  | 0xB4 => some (.tffs e)
  | 0xC0 => some (.fissue e)
  | 0xC1 => some (.fwait e)
  | 0xC2 => some (.fence e)
  | 0xC3 => some (if e.func = 0 then .bar e else if e.func = 1 then .barG e else .barNamed e)
  | 0xC4 => some (.barrive e)
  | 0xC5 => some (.barwait e)
  | 0xC6 => some (.arrive e)
  | 0xC7 => some (.wait e)
  | 0xC8 => some (.nsleep e)
  | 0xD0 => some (.mma e)
  | 0xD1 => some (.mzero e)
  | 0xD2 => some (.mld e)
  | 0xD3 => some (.mst e)
  | 0xD4 => some (.mrd e)
  | 0xD5 => some (.mwr e)
  | 0xD6 => some (.mcvt e)
  | 0xD7 => some (.mofence e)
  | 0xD8 => some (.mwait e)
  | 0xD9 => some (.mdrain e)
  | 0xDA => some (.mfill e)
  | 0xDB => some (.mresume e)
  | 0xE0 => some (.tspawn e)
  | 0xE1 => some (.tarm e)
  | 0xE2 => some (.tdec e)
  | 0xE3 => some (.tdone e)
  | 0xE4 => some (.tlaunch e)
  | 0xE5 => some (.tget e)
  | 0xF0 => some (.scall e)
  | 0xF1 => some (.trap e)
  | 0xF2 => some (.bkpt e)
  | 0xF3 => some (.uiret e)
  | 0xF4 => some (.uimask e)
  | 0xF5 => some (.npbegin e)
  | 0xF6 => some (.npend e)
  | 0xF7 => some (.grow e)
  | 0xF8 => some (.carve e)
  | 0xF9 => some (.ckpt e)
  | 0xFA => some (.tstampr e)
  | 0xFC => some (.gsave e)
  | 0xFD => some (.grest e)
  | _ => none

end Sys2Proof
end

