-- ==== Sys2Proof/WellFormed.lean ====
section
/-! DEFINITION. Well-formed instructions: the conditions of R217 (09 Table 11) at orders 1 to 9, which the encoding alone decides. -/

namespace Sys2Proof

/-- The operand has a code in the form (09 Tables 3 and 5); the immediate 0 has none. -/
def Opnd.inForm (f : Form) (o : Opnd) : Bool :=
  if f.isExt then o != .imm 0 else o.base.isSome

/-- A base form carries the values R203 gives to the fields of words 1 and 2, and a form without a literal carries none. -/
def Enc.canonical (e : Enc) : Bool :=
  (e.form.isExt ||
    (e.c == .zero && !e.negA && !e.absA && !e.negB && !e.absB && !e.negC && !e.absC && e.ord == 0 && !e.rnden &&
     e.rnd == 0 && e.func == 0 && e.ty == 0 && !e.pen && !e.pinv && e.pred == 0 && e.dscale == 0 && e.clamp == 0)) &&
  (e.form.hasLit || e.lit == 0) &&
  e.d.inForm e.form && e.a.inForm e.form && e.b.inForm e.form && (e.c.inForm e.form || !e.form.isExt)

/-- Order 2: LEN is accepted (R203). -/
def Enc.lenOk (p : OpSpec) (e : Enc) : Bool := !p.extOnly || e.form.isExt

/-- Some operand position names the literal. -/
def Enc.usesLit (e : Enc) : Bool := e.d == .lit || e.a == .lit || e.b == .lit || e.c == .lit

/-- Order 5: the literal is named exactly when the form has one. -/
def Enc.litOk (e : Enc) : Bool := e.usesLit == e.form.hasLit

/-- Order 6: unused positions hold the zero operand and unused modifier bits are 0 (R205). -/
def Enc.unusedOk (p : OpSpec) (e : Enc) : Bool :=
  (p.d != .unused || e.d == .zero) && (p.a != .unused || e.a == .zero) && (p.b != .unused || e.b == .zero) &&
  (p.c != .unused || e.c == .zero) && (p.modA || (!e.negA && !e.absA)) && (p.modB || (!e.negB && !e.absB)) &&
  (p.modC || (!e.negC && !e.absC))

/-- Order 7: TYPE, CLAMP, DSCALE, RND and ORD are accepted (R62, R186, R188, R210). RND must be 0 where RNDEN does not select it: no field
of an encoding is ignored (R217; DEDUCED, log 20). -/
def Enc.fieldsOk (p : OpSpec) (e : Enc) : Bool :=
  p.ty && p.clamp && (p.dscales || e.dscale == 0) && (e.rnden || e.rnd == 0) && (p.rounds || !e.rnden) && p.ord

/-- Order 8: predication (R209). -/
def Enc.penOk (p : OpSpec) (e : Enc) : Bool :=
  if e.pen then p.pen else !e.pinv && e.pred == 0

/-- Order 9: the operand may stand in a position of the role (R208, R224, R233). -/
def Role.admits (r : Role) (scalar : Bool) : Opnd → Bool
  | .v n => r != .pred || decide (n.toNat < 8)
  | .q _ => r != .pred
  | .s _ => r.isSrc || r == .unused || r == .dstU || r == .dstS || r == .dstSr || (r == .dst && scalar)
  | .zero => r != .pred
  | .l0 | .l1 | .lit | .lane | .one | .imm _ => r.isSrc || r == .unused

/-- Order 12: the kind of destination that the description itself asks for: an s register or the zero operand for a status or a
token, an s register for wait and tget, a v register for qunpk and mrd; and a uniform source where it asks for one. -/
def Role.kindOk (r : Role) (o : Opnd) : Bool :=
  match r, o with
  | .dstS, .s _ | .dstS, .zero | .dstSr, .s _ | .dstVr, .v _ => true
  | .dstS, _ | .dstSr, _ | .dstVr, _ => false
  | .srcU, o => !o.perLane
  | _, _ => true

/-- The D position is writable (order 9). -/
def Enc.destOk (p : OpSpec) (e : Enc) : Bool := p.d.admits (p.scalar e) e.d

/-- The fields meet every condition of R217 at orders 2 to 9. -/
def Enc.legal (p : OpSpec) (e : Enc) : Bool :=
  e.lenOk p && e.litOk && e.unusedOk p && e.fieldsOk p && e.penOk p && e.destOk p

/-- The instruction meets every condition of R217 at orders 1 to 9; an event of another agent has no encoding to check. -/
def Instr.wf (i : Instr) : Bool :=
  match i.spec, i.enc with
  | some p, some e => p.func && e.canonical && e.legal p
  | _, _ => true

end Sys2Proof
end

