-- ==== Sys2Proof/Machine/Operands.lean ====
section
/-! DEFINITION. Operands: reading registers through the hazard rule (R212), the values of operands that are not registers (R207), the register allocation and pairing checks (R35, R180), and writing destinations (R208). -/

namespace Sys2Proof

open Machine

/-- Bit `l` of a lane mask. -/
def laneIn (m : LaneMask) (l : Lane) : Bool := m.getLsbD l.val

/-- The mask of the lanes that satisfy a condition. -/
def maskOf (f : Lane → Bool) : LaneMask :=
  BitVec.ofNat 32 ((List.finRange 32).foldl (fun n l => if f l then n + 2 ^ l.val else n) 0)

/-- The lanes of a mask, ascending. -/
def lanesIn (m : LaneMask) : List Lane := (List.finRange 32).filter (laneIn m)

/-- The lowest lane of a mask; lane 0 if it is empty. -/
def lowLane (m : LaneMask) : Lane := (lanesIn m).headD 0

/-- The highest lane of a mask; lane 0 if it is empty. -/
def highLane (m : LaneMask) : Lane := (lanesIn m).getLastD 0

/-- How an operand that is not a register supplies its value (09 Table 6). -/
inductive OpTy
  | int
  | float (f : FFmt)
  | pair (f : FFmt)
deriving DecidableEq, Repr

/-- The operand type of a TYPE code; `d` is the opcode's default for TYPE 0 (09 Tables 7 and 8). -/
def tyOf (d : OpTy) (t : BitVec 4) : OpTy :=
  match t.toNat with
  | 0 => d
  | 9 => .float .f8
  | 10 => .float .f16
  | 11 => .float .bf16
  | 12 => .float .f32
  | 13 => .float .f64
  | 14 => .pair .bf16
  | 15 => .pair .f16
  | _ => .int

/-- The number 1.0 of a format. -/
def FFmt.one (f : FFmt) : Nat := f.bias * 2 ^ f.frac

/-- An integer rounded to a format as an immediate is, with no flag (R207). -/
def FFmt.ofImm (f : FFmt) (z : Int) : Nat := (f.result ⟨.rne, 0, 0, false⟩ ⟨.ofInt z, 0⟩).bits

/-- The integer `z` as an operand of a type and width (09 Table 6). -/
def OpTy.number (t : OpTy) (n : Nat) (z : Int) : Nat :=
  match t with
  | .int => (z % (2 ^ n : Int)).toNat
  | .float f => f.ofImm z
  | .pair f => f.ofImm z + 2 ^ 16 * f.ofImm z

/-- The register number of the hazard list: v, q, predicates, FSTAT, s. -/
def regV (n : BitVec 8) : Nat := n.toNat
/-- Operand-file registers. -/
def regQ (n : BitVec 3) : Nat := 256 + n.toNat
/-- The predicate words. -/
def regP : Nat := 264
/-- FSTAT. -/
def regF : Nat := 265
/-- Scalar registers. -/
def regS (n : BitVec 10) : Nat := 1024 + n.toNat

/-- The stored word of a register in a lane, without the hazard rule; a scalar register has the same word in every lane. -/
def Machine.Group.raw (g : Group) (r : Nat) (l : Lane) : Word :=
  if r < 256 then (SMap.get g.v r (lanesOf 0))[l]
  else if r < 264 then (SMap.get g.q (r - 256) (lanesOf 0))[l]
  else if r = 264 then (g.pw[l]).setWidth 32
  else if r = 265 then g.fstat.setWidth 32
  else SMap.get g.s (r - 1024) 0

/-- The place of a lane in a hazard record: a scalar register and FSTAT keep their value in lane 0. -/
def hazLane (r : Nat) (l : Lane) : Lane := if r = 265 ∨ 1024 ≤ r then 0 else l

/-- A read of a register in the run that wrote it (R212): of the values that the lane held since the run began, newest first, a read
stops at one that it must see and otherwise chooses; a write of other lanes or of other bits than those read decides nothing. -/
def hazRead (ctr seq r key : Nat) (l : Lane) (want : Word) : List HazRec → Word → Word
  | [], cur => cur
  | h :: hs, cur =>
    if h.reg ≠ r ∨ laneIn h.mask (hazLane r l) = false ∨ h.bits &&& want = 0 then hazRead ctr seq r key l want hs cur
    else if h.fixed && decide (h.seq + 4 ≤ seq) then cur
    else if Config.hazardOld ctr (r + 2048 * h.seq) key then hazRead ctr seq r key l want hs h.old[hazLane r l]
    else cur

/-- The word a lane reads from a register (R212, R214). -/
def Machine.Group.word (g : Group) (ctr r : Nat) (l : Lane) : Word :=
  hazRead ctr g.seq r l.val l (~~~ 0) g.haz (g.raw r l)

/-- Two words as a 64-bit value, the low word first. -/
def pairOf (lo hi : Word) : DWord := hi ++ lo

/-- The value of an entry of the last-result file in a lane; an undefined one, and the high half of a narrower result, is free (R32). -/
def Machine.LEntry.read (x : LEntry) (ctr k : Nat) (l : Lane) : DWord :=
  let f := Config.freeWord (ctr * 4096 + 64 * k + l.val)
  if laneIn x.valid l then (if x.wide then x.val[l] else f.extractLsb' 32 32 ++ (x.val[l]).setWidth 32) else f

/-- A register operand of 64 bits or less in a lane, from register number `r` on. -/
def Machine.Group.reg (g : Group) (ctr r n : Nat) (l : Lane) : DWord :=
  if n ≤ 32 then (g.word ctr r l).setWidth 64 else pairOf (g.word ctr r l) (g.word ctr (r + 1) l)

/-- What reading operands needs: the group, the last-result entries, the counter of free values and the literal. -/
structure RCtx where
  g : Group
  l0 : LEntry
  l1 : LEntry
  ctr : Nat
  lit : DWord
deriving DecidableEq, Repr

/-- An operand of width `n ≤ 64` and of a type, in a lane, before its modifiers (R206, R207); the low `n` bits count. -/
def Opnd.val (o : Opnd) (c : RCtx) (t : OpTy) (n : Nat) (l : Lane) : DWord :=
  let x : DWord :=
    match o with
    | .v k => c.g.reg c.ctr (regV k) n l
    | .q k => c.g.reg c.ctr (regQ k) n l
    | .s k => c.g.reg c.ctr (regS k) n l
    | .l0 => c.l0.read c.ctr 1 l
    | .l1 => c.l1.read c.ctr 2 l
    | .lit => c.lit
    | .zero => 0
    | .lane => BitVec.ofNat 64 (t.number n l.val)
    | .one => BitVec.ofNat 64 (t.number n 1)
    | .imm m => BitVec.ofNat 64 (t.number n m.toInt)
  BitVec.ofNat 64 (x.toNat % 2 ^ n)

/-- A 128-bit operand in a lane: four registers from a multiple of 4, the typed one or zero (R180, R207). -/
def Opnd.val128 (o : Opnd) (c : RCtx) (l : Lane) : BitVec 128 :=
  let four (r : Nat) : BitVec 128 :=
    c.g.word c.ctr (r + 3) l ++ c.g.word c.ctr (r + 2) l ++ c.g.word c.ctr (r + 1) l ++ c.g.word c.ctr r l
  match o with
  | .v k => four (regV k)
  | .q k => four (regQ k)
  | .s k => four (regS k)
  | .one => 1
  | _ => 0

/-- A predicate bit of a lane as a read sees it; p7 is 1 (R159, R212). -/
def Machine.Group.predBit (g : Group) (ctr : Nat) (n : Nat) (l : Lane) : Bool :=
  if n = 7 then true
  else (hazRead ctr g.seq regP (8 * l.val + n) l (BitVec.ofNat 32 (2 ^ n)) g.haz (g.raw regP l)).getLsbD n

/-- The predicate word of a lane, p7 read as 1. -/
def Machine.Group.predWord (g : Group) (ctr : Nat) (l : Lane) : Byte :=
  (BitVec.ofNat 8 ((List.range 7).foldl (fun a n => if g.predBit ctr n l then a + 2 ^ n else a) 0)) ||| 0x80

/-- A register number of a width may be named by the group (R35, R180, R176): inside its blocks, and even or a multiple of 4. -/
def regOk (count r n : Nat) : Bool :=
  if n ≤ 32 then decide (r < count) else if n ≤ 64 then decide (r % 2 = 0 ∧ r < count) else decide (r % 4 = 0 ∧ r < count)

/-- Order 10: the operand is in the allocation and fits the width (R35, R180, R207). -/
def Opnd.allocOk (g : Group) (o : Opnd) (n : Nat) : Bool :=
  match o with
  | .v k => regOk (if g.routine then 8 else 32 * g.vblk) k.toNat n
  | .s k => regOk (if g.routine then 32 else 256 * g.sblk) k.toNat n
  | .q k => !g.routine && regOk 8 k.toNat n
  | .zero => true
  | .one => true
  | .l0 | .l1 | .lit | .lane | .imm _ => decide (n ≤ 64)

/-- The role names an operand. -/
def Role.used : Role → Bool
  | .unused | .pred => false
  | _ => true

/-- Order 10 for every position of an instruction. -/
def Enc.allocOk (g : Group) (p : OpSpec) (e : Enc) : Bool :=
  (!p.d.used || e.d.allocOk g p.wd) && (!p.a.used || e.a.allocOk g p.wa) && (!p.b.used || e.b.allocOk g p.wb) &&
  (!p.c.used || e.c.allocOk g p.wc)

/-- Order 12 for the kinds of operand that a description asks for. -/
def Enc.kindsOk (p : OpSpec) (e : Enc) : Bool := p.d.kindOk e.d && p.a.kindOk e.a && p.b.kindOk e.b && p.c.kindOk e.c

/-- The stored word of a register replaced in some lanes; a scalar register takes the value of the lowest. -/
def Machine.Group.setWord (g : Group) (r : Nat) (m : LaneMask) (x : Lane → Word) : Group :=
  let new : Lanes Word := Vector.ofFn fun l => if laneIn m l then x l else g.raw r l
  if r < 256 then { g with v := SMap.set g.v r new }
  else if r < 264 then { g with q := SMap.set g.q (r - 256) new }
  else if r = 264 then { g with pw := Vector.ofFn fun l => (new[l]).setWidth 8 }
  else if r = 265 then { g with fstat := (new[(0 : Lane)]).setWidth 6 }
  else if m = 0 then g
  else { g with s := SMap.set g.s (r - 1024) (x (lowLane m)) }

/-- The value a register had after the instruction counted `seq`, before those counted later (R214). -/
def hazPrior (seq r : Nat) : List HazRec → Lanes Word → Lanes Word
  | [], cur => cur
  | h :: hs, cur => if h.seq ≤ seq then cur else hazPrior seq r hs (if h.reg = r then h.old else cur)

/-- A write of the instruction counted `seq` placed among the writes of later instructions: the history, and the lanes that no later
one has written (R214). -/
def hazInsert (new : HazRec) (x : Lane → Word) : List HazRec → List HazRec × LaneMask
  | [] => ([new], new.mask)
  | h :: hs =>
    if h.seq ≤ new.seq then (new :: h :: hs, new.mask)
    else
      let (hs', m) := hazInsert new x hs
      if h.reg = new.reg then
        ({ h with old := Vector.ofFn fun l => if laneIn m l then x l else h.old[l] } :: hs', m &&& ~~~ h.mask)
      else (h :: hs', m)

/-- A scalar register and FSTAT hold one value: a write gives them that of the lowest lane of the mask. -/
def oneValue (r : Nat) : Bool := decide (1024 ≤ r ∨ r = 265)

/-- The lanes of a register that a write of a mask replaces. -/
def writeMask (r : Nat) (m : LaneMask) : LaneMask := if oneValue r && m != 0 then ~~~ 0 else m

/-- What a write puts into each lane. -/
def writeVal (r : Nat) (m : LaneMask) (x : Lane → Word) : Lane → Word := if oneValue r then fun _ => x (lowLane m) else x

/-- The word of a register, or the given bits of it, written in some lanes by the instruction that issues, counted `seq`; the old value is
kept for reads of the same run (R212). -/
def Machine.Group.putWord (g : Group) (r : Nat) (m : LaneMask) (x : Lane → Word) (seq : Nat) (fixed : Bool) (bits : Word := ~~~ 0) : Group :=
  { (g.setWord r (writeMask r m) (writeVal r m x)) with
    haz := { reg := r, old := Vector.ofFn fun l => g.raw r l, mask := writeMask r m, bits := bits, seq := seq, fixed := fixed } :: g.haz }

/-- The word of a register written by an earlier instruction, counted `seq`, whose result has returned: writes take effect in issue order
(R214). -/
def Machine.Group.lateWord (g : Group) (r : Nat) (m : LaneMask) (x : Lane → Word) (seq : Nat) : Group :=
  let (haz, left) := hazInsert
    { reg := r, old := hazPrior seq r g.haz (Vector.ofFn fun l => g.raw r l), mask := writeMask r m, seq := seq, fixed := false } (writeVal r m x) g.haz
  { (g.setWord r left (writeVal r m x)) with haz := haz }

/-- Word `k` of the value of each lane. -/
def wordAt (x : Lane → BitVec 128) (k : Nat) (l : Lane) : Word := (x l).extractLsb' (32 * k) 32

/-- Words `0 … k-1` of a value written to successive registers. -/
def Machine.Group.putWords (g : Group) (r : Nat) (m : LaneMask) (x : Lane → BitVec 128) (seq : Nat) (fixed : Bool) : Nat → Group
  | 0 => g
  | k + 1 => (g.putWords r m x seq fixed k).putWord (r + k) m (wordAt x k) seq fixed

/-- The same for a result that has returned. -/
def Machine.Group.lateWords (g : Group) (r : Nat) (m : LaneMask) (x : Lane → BitVec 128) (seq : Nat) : Nat → Group
  | 0 => g
  | k + 1 => (g.lateWords r m x seq k).lateWord (r + k) m (wordAt x k) seq

/-- The 32-bit words of a width. -/
def wordsOf (n : Nat) : Nat := if n ≤ 32 then 1 else if n ≤ 64 then 2 else 4

/-- The first register of a destination; none of the zero operand, which discards (R208). -/
def Opnd.firstReg (o : Opnd) : Option Nat :=
  match o with
  | .v k => some (regV k)
  | .q k => some (regQ k)
  | .s k => some (regS k)
  | _ => none

/-- A destination written in the lanes of a mask, an s register once, from its lowest lane; the zero operand discards (R208). -/
def Machine.Group.write (g : Group) (o : Opnd) (n : Nat) (m : LaneMask) (x : Lane → BitVec 128) (seq : Nat) (fixed : Bool) : Group :=
  match o.firstReg with
  | some r => g.putWords r m x seq fixed (wordsOf n)
  | none => g

/-- A value kept in the entry of the load value queue of the instruction that wrote it (R363). -/
def Machine.Group.note (g : Group) (d : Dest) (x : Lane → BitVec 128) : Group :=
  { g with lvq := g.lvq.map fun (e : LvqEntry) => if e.seq = d.seq then { e with writes := e.writes ++ [⟨d, Vector.ofFn x⟩] } else e }

/-- Flags kept in that entry. -/
def Machine.Group.noteFlags (g : Group) (seq : Nat) (fl : Flags) : Group :=
  { g with lvq := g.lvq.map fun (e : LvqEntry) => if e.seq = seq then { e with flags := e.flags ||| fl } else e }

/-- A result that returns later, written to its destination (R208, R212, R214). -/
def Machine.Group.writeDest (g : Group) (d : Dest) (x : Lane → BitVec 128) : Group :=
  (match d.opnd.firstReg with
    | some r => g.lateWords r d.lanes x d.seq (wordsOf d.width)
    | none => g).note d x

/-- Predicate N of the lanes of a mask; p7 has no effect (R159, R224). -/
def Machine.Group.writePred (g : Group) (n : Nat) (m : LaneMask) (x : Lane → Bool) (fixed : Bool) : Group :=
  if n = 7 then g
  else g.putWord regP m (fun l => let w := g.raw regP l; if x l then w ||| BitVec.ofNat 32 (2 ^ n) else w &&& ~~~ BitVec.ofNat 32 (2 ^ n)) g.seq fixed
    (BitVec.ofNat 32 (2 ^ n))

/-- Sources of 8 and 16 bits are extended when they are written to a register (R180): the low `bits`, signed or not, as 32 bits. -/
def extend32 (bits : Nat) (signed : Bool) (x : Nat) : Nat :=
  let y := x % 2 ^ bits
  if signed && decide (y / 2 ^ (bits - 1) = 1) then y + (2 ^ 32 - 2 ^ bits) else y

end Sys2Proof
end

