-- ==== Sys2Proof/Machine/Flags.lean ====
section
/-! DEFINITION. Source modifiers, the rounding mode and options of an instruction, integer types and saturation, and the flags they raise (R181 to R190). -/

namespace Sys2Proof

open Machine

/-- The types of an integer operation (R11): width and signedness; .b types read as unsigned. -/
structure IntTy where
  bits : Nat
  signed : Bool
deriving DecidableEq, Repr

/-- The integer type of a TYPE code (09 Table 7); TYPE 0 is .i32. -/
def IntTy.ofCode (t : Nat) : IntTy :=
  match t with
  | 1 => ⟨8, true⟩
  | 2 => ⟨16, true⟩
  | 3 => ⟨32, true⟩
  | 4 => ⟨64, true⟩
  | 5 => ⟨8, false⟩
  | 6 => ⟨16, false⟩
  | 7 => ⟨32, false⟩
  | 8 => ⟨64, false⟩
  | _ => ⟨32, true⟩

/-- The value of the low bits as an integer of the type. -/
def IntTy.value (t : IntTy) (x : Nat) : Int :=
  let y := x % 2 ^ t.bits
  if t.signed && decide (2 ^ (t.bits - 1) ≤ y) then (y : Int) - 2 ^ t.bits else y

/-- The least value. -/
def IntTy.lo (t : IntTy) : Int := if t.signed then -(2 ^ (t.bits - 1) : Int) else 0

/-- The greatest value. -/
def IntTy.hi (t : IntTy) : Int := if t.signed then 2 ^ (t.bits - 1) - 1 else 2 ^ t.bits - 1

/-- An exact result reduced modulo the width, or limited with CLAMP = 3 (R181, R243). -/
def IntTy.finish (t : IntTy) (sat : Bool) (x : Int) : Nat × Flags :=
  let m : Int := 2 ^ t.bits
  if sat then
    let r := min (max x t.lo) t.hi
    ((r % m).toNat, if r = x then 0 else 0x20)
  else ((x % m).toNat, 0)

/-- A result of the type as it is written to a register (R180). -/
def IntTy.reg (t : IntTy) (x : Nat) : BitVec 128 :=
  BitVec.ofNat 128 (if t.bits < 32 then extend32 t.bits t.signed x else x % 2 ^ t.bits)

/-- Integer modifiers (R181): the magnitude, then the two's complement, modulo the width. -/
def intMod (n : Nat) (neg abs : Bool) (x : Nat) : Nat :=
  let y := x % 2 ^ n
  let y := if abs && decide (2 ^ (n - 1) ≤ y) then (2 ^ n - y) % 2 ^ n else y
  if neg then (2 ^ n - y) % 2 ^ n else y

/-- Float modifiers act on the sign bit alone (R184). -/
def FFmt.mod (f : FFmt) (neg abs : Bool) (x : Nat) : Nat :=
  let y := x % 2 ^ f.width
  let y := if abs then y % f.signBit else y
  if neg then (if y < f.signBit then y + f.signBit else y - f.signBit) else y

/-- The rounding mode of an instruction (R186). -/
def Enc.mode (e : Enc) (fmode : BitVec 2) : RMode := RMode.ofBits (if e.rnden then e.rnd else fmode)

/-- The options of fp_result that the encoding carries (R187). -/
def Enc.fopts (e : Enc) (fmode : BitVec 2) (nsat : Bool) : FOpts :=
  { mode := e.mode fmode, scale := e.dscale.toInt, clamp := e.clamp, nsat := nsat }

/-- The float format of a TYPE code. -/
def FFmt.ofCode (t : Nat) : FFmt :=
  match t with
  | 9 => .f8
  | 10 => .f16
  | 11 => .bf16
  | 13 => .f64
  | _ => .f32

end Sys2Proof
end

