-- ==== Sys2Proof/Machine/Ops.lean ====
section
/-! DEFINITION. The named operations over the state: groups, cores and clusters by number, taking an exception (R133 to R136, R331) and returning from one (R332), and what every Oropra instruction does around its effect: the checks of R217 at orders 10 to 12, the interlock of R213, the last-result file (R32), the lane PCs and the batch (R160, R161). -/

namespace Sys2Proof.Machine

open Sys2Proof

/-! ### Parts by number: a slot is numbered 128 · core + 4 · partition + slot -/

/-- The core of a slot. -/
def slotCore (slot : Nat) : Nat := slot / 128
/-- The partition of a slot, numbered over the package. -/
def slotPart (slot : Nat) : Nat := slot / 4
/-- The cluster of a slot. -/
def slotCluster (slot : Nat) : Nat := slot / 1024
/-- The cluster of a core. -/
def coreCluster (core : Nat) : Nat := core / 8

/-- The group in a slot. -/
def State.group (s : State) (slot : Nat) : Group := SMap.get s.groups slot {}
/-- The group in a slot replaced. -/
def State.setGroup (s : State) (slot : Nat) (g : Group) : State := { s with groups := SMap.set s.groups slot g }
/-- The group in a slot changed. -/
def State.updGroup (s : State) (slot : Nat) (f : Group → Group) : State := s.setGroup slot (f (s.group slot))
/-- A partition. -/
def State.part (s : State) (p : Nat) : Part := SMap.get s.parts p {}
/-- A partition replaced. -/
def State.setPart (s : State) (p : Nat) (x : Part) : State := { s with parts := SMap.set s.parts p x }
/-- A core. -/
def State.core (s : State) (c : Nat) : Core := SMap.get s.cores c {}
/-- A core replaced. -/
def State.setCore (s : State) (c : Nat) (x : Core) : State := { s with cores := SMap.set s.cores c x }
/-- A cluster. -/
def State.cluster (s : State) (c : Nat) : Cluster := SMap.get s.clusters c {}
/-- A cluster replaced. -/
def State.setCluster (s : State) (c : Nat) (x : Cluster) : State := { s with clusters := SMap.set s.clusters c x }
/-- A team. -/
def State.team (s : State) (t : Nat) : Team := SMap.get s.teams t {}
/-- A team replaced. -/
def State.setTeam (s : State) (t : Nat) (x : Team) : State := { s with teams := SMap.set s.teams t x }
/-- A team changed. -/
def State.updTeam (s : State) (t : Nat) (f : Team → Team) : State := s.setTeam t (f (s.team t))
/-- A home slice; GCORE is j / 2 at reset (04 Table 4). -/
def State.slice (s : State) (k : Nat) : Slice := SMap.get s.slices k { gcore := k % 32 / 2 }
/-- A home slice replaced. -/
def State.setSlice (s : State) (k : Nat) (x : Slice) : State := { s with slices := SMap.set s.slices k x }
/-- A die. -/
def State.die (s : State) (d : Nat) : Die := SMap.get s.dies d {}
/-- A die replaced. -/
def State.setDie (s : State) (d : Nat) (x : Die) : State := { s with dies := SMap.set s.dies d x }

/-- The `k`-th free value of the step. -/
def State.free (s : State) (k : Nat) : DWord := Config.freeWord (s.freeCtr * 4096 + k)

/-- The free values of the step are used up. -/
def State.bump (s : State) : State := { s with freeCtr := s.freeCtr + 1 }

/-- A number that has not been used. -/
def State.fresh (s : State) : Nat × State := (s.nextId, { s with nextId := s.nextId + 1 })

/-! ### Fault classes (05 Table 12) -/

def clsPage : BitVec 8 := 0x01
def clsProtection : BitVec 8 := 0x02
def clsAlignment : BitVec 8 := 0x03
def clsOpcode : BitVec 8 := 0x04
def clsEncoding : BitVec 8 := 0x05
def clsPrivilege : BitVec 8 := 0x06
def clsCvTimeout : BitVec 8 := 0x07
def clsPoison : BitVec 8 := 0x08
def clsCapacity : BitVec 8 := 0x09
def clsQ4x : BitVec 8 := 0x0A
def clsUnderflow : BitVec 8 := 0x0B
def clsNpOverrun : BitVec 8 := 0x0C
def clsPair : BitVec 8 := 0x0D
def clsWindow : BitVec 8 := 0x0E
def clsSilo : BitVec 8 := 0x0F
def clsMismatch : BitVec 8 := 0x10
def clsBreakpoint : BitVec 8 := 0x11
def clsTrap : BitVec 8 := 0x12

/-- The classes in their priority order (05 Table 12). -/
def classOrder : List (BitVec 8) :=
  [clsOpcode, clsEncoding, clsPrivilege, clsAlignment, clsPage, clsProtection, clsCapacity, clsWindow, clsSilo, clsQ4x, clsPoison,
   clsMismatch, clsCvTimeout, clsUnderflow, clsNpOverrun, clsPair, clsBreakpoint, clsTrap]

/-- What a fault record says beside its group and time (05 Table 13). -/
structure FaultInfo where
  cls : BitVec 8
  lanes : LaneMask
  kind : Nat := 7
  /-- 0 device virtual, 1 scratchpad, 2 physical, 3 none -/
  space : Nat := 3
  addr : DWord := 0
  noncan : Bool := false
  level : Nat := 0
  pte : DWord := 0
  rows : Nat := 0
  aux : Word := 0
  pc : DWord
deriving DecidableEq, Repr

/-- Words W0 to W6 of a record (05 Table 13); W7 is the sequence number given when it is written. -/
def faultWords (s : State) (slot : Nat) (g : Group) (f : FaultInfo) : List DWord :=
  [BitVec.ofNat 64 (f.lanes.toNat * 2 ^ 32 + f.kind * 2 ^ 28 + f.space * 2 ^ 26 + (if f.noncan then 2 ^ 25 else 0) +
     f.level * 2 ^ 23 + f.cls.toNat),
   f.addr, f.pc,
   BitVec.ofNat 64 (g.asid % 2 ^ 16 * 2 ^ 48 + g.ctx % 2 ^ 20 * 2 ^ 28 + slotCluster slot * 2 ^ 21 + slotCore slot % 8 * 2 ^ 18 +
     slotPart slot % 32 * 2 ^ 13 + slot % 4 * 2 ^ 11),
   BitVec.ofNat 64 (f.aux.toNat * 2 ^ 32 + f.rows), f.pte, s.tstamp]

/-- The fault queue of a cluster is full (R135). -/
def Cluster.fqFull (c : Cluster) : Bool := decide ((c.ftail + 1) % 64 = c.fhead)

/-- A record is written into the next place of the queue (R135). -/
def Cluster.putFault (c : Cluster) (f : PendFault) : Cluster :=
  { c with
    fq := SMap.set c.fq c.ftail { words := f.words ++ [BitVec.ofNat 64 c.fseq], slot := f.slot, uid := f.uid, mode := f.mode }
    page := (f.words ++ [BitVec.ofNat 64 c.fseq]).zipIdx.foldl (fun p w => Memory.write p (64 * c.ftail + 8 * w.2) w.1.toNat 8) c.page
    ftail := (c.ftail + 1) % 64
    fseq := c.fseq + 1 }

/-- A record becomes stale (R137): STALE is bit 31 of its W0. -/
def Cluster.stale (c : Cluster) (i : Nat) : Cluster :=
  match SMap.find c.fq i with
  | none => c
  | some r =>
    if r.stale then c
    else
      let b := (Memory.byte c.page (64 * i + 3)).toNat
      { c with
        fq := SMap.set c.fq i { r with stale := true }
        page := Memory.write c.page (64 * i + 3) (if b < 128 then b + 128 else b) 1 }

/-- The launch of a team asked for a contained one (14 Table 7). -/
def State.containedLaunch (s : State) (tm : Nat) : Bool := ((SMap.get s.launches (s.team tm).launch {}).words.getD 4 0).getLsbD 25

/-- An uncorrectable error or poison reaches a team of a contained launch (R372). -/
def State.strike (s : State) (tm : Nat) : State := if s.containedLaunch tm then s.updTeam tm fun t => { t with struck := true } else s

/-- A record against a group in a slot is written, or waits while the queue is full; no fault is lost (R135). -/
def State.postFaultFor (s : State) (slot : Nat) (g : Group) (mode : FaultMode) (f : FaultInfo) : State :=
  let c := s.cluster (slotCluster slot)
  let p : PendFault := { slot := slot, uid := g.uid, words := faultWords s slot g f, mode := mode }
  let s := if f.cls = clsPoison then s.strike g.team else s
  s.setCluster (slotCluster slot) (if c.fqFull || !c.fwait.isEmpty then { c with fwait := c.fwait ++ [p] } else c.putFault p)

/-- The same against the group in the slot. -/
def State.postFault (s : State) (slot : Nat) (mode : FaultMode) (f : FaultInfo) : State := s.postFaultFor slot (s.group slot) mode f

/-- The run of a slot as a precise fault leaves it: what its partition holds for it is kept (R34). -/
def State.saveRun (s : State) (slot : Nat) : RunSave :=
  let g := s.group slot
  let p := s.part (slotPart slot)
  { l0 := p.l0, l1 := p.l1, q := g.q, batch := g.batch, count := g.count }

/-- What a delivery to the group's handler carries (R331). -/
structure Delivery where
  sync : Bool
  cls : BitVec 8
  addr : DWord
  /-- the return PC of each lane -/
  ret : Lanes DWord
deriving DecidableEq, Repr

/-- The vector of a delivery, if it can be made: a handler is named and none runs (R331). -/
def Group.canDeliver (g : Group) (sync : Bool) : Bool := !g.inh && (if sync then g.trapvec else g.uivec) != 0

/-- DELIVERY of a fault or a user interrupt to the group's own handler (R331). -/
def Group.deliver (g : Group) (keep : Option RunSave) (d : Delivery) : Group :=
  let vec := if d.sync then g.trapvec else g.uivec
  let m := ~~~ (g.exited ||| g.callParked)
  { g with
    inh := true, sync := d.sync, trapClass := d.cls, trapaddr := d.addr, traplanes := m,
    trapret := Vector.ofFn fun l => if laneIn m l then d.ret[l] else g.trapret[l],
    pc := Vector.ofFn fun l => if laneIn m l then vec else g.pc[l],
    trapSave := if d.sync then keep else g.trapSave,
    haz := [] }

/-- Lanes leave TRAPLANES, by uiret or by exit; when none is left INH clears and a synchronous delivery's operand file comes back (R332). -/
def Group.leaveTrap (g : Group) (m : LaneMask) : Group :=
  let left := g.traplanes &&& ~~~ m
  let h := { g with traplanes := left }
  if !g.inh || left != 0 then h
  else
    match g.sync, g.trapSave with
    | true, some k => { h with inh := false, q := k.q, midRun := some { k with batch := 0, count := 0 }, trapSave := none }
    | _, _ => { h with inh := false, trapSave := none }

/-! ### Around every instruction -/

/-- What an instruction sees when it issues. -/
structure Ctx where
  slot : Nat
  g : Group
  p : OpSpec
  e : Enc
  /-- lanes active for it (R159, R209) -/
  act : LaneMask
  pc : DWord
  len : Nat
  scalar : Bool
  rc : RCtx
deriving DecidableEq, Repr

/-- The core of the issuing group. -/
def Ctx.core (c : Ctx) : Nat := slotCore c.slot
/-- The cluster of the issuing group. -/
def Ctx.cluster (c : Ctx) : Nat := slotCluster c.slot

/-- Source A in a lane at a type, without modifiers. -/
def Ctx.a (c : Ctx) (t : OpTy) (l : Lane) : DWord := c.e.a.val c.rc t c.p.wa l
/-- Source B in a lane. -/
def Ctx.b (c : Ctx) (t : OpTy) (l : Lane) : DWord := c.e.b.val c.rc t c.p.wb l
/-- Source C in a lane. -/
def Ctx.c (c : Ctx) (t : OpTy) (l : Lane) : DWord := c.e.c.val c.rc t c.p.wc l
/-- The D field as a source in a lane (R269). -/
def Ctx.d (c : Ctx) (t : OpTy) (l : Lane) : DWord := c.e.d.val c.rc t c.p.wd l
/-- The lowest active lane. -/
def Ctx.low (c : Ctx) : Lane := lowLane c.act
/-- A uniform source A. -/
def Ctx.ua (c : Ctx) : DWord := c.a .int c.low
/-- A uniform source B. -/
def Ctx.ub (c : Ctx) : DWord := c.b .int c.low
/-- A uniform source C. -/
def Ctx.uc (c : Ctx) : DWord := c.c .int c.low
/-- The group runs in ASID 0 (R18, R22). -/
def Ctx.priv (c : Ctx) : Bool := c.g.asid == 0

/-- The PC of a batch: that of its lowest lane. -/
def Group.batchPc (g : Group) : DWord := g.pc[lowLane g.batch]

/-- The lanes of a batch for which the predicate of an instruction holds (R209). -/
def activeLanes (g : Group) (ctr : Nat) (e : Enc) : LaneMask :=
  if e.pen then maskOf fun l => laneIn g.batch l && (g.predBit ctr e.pred.toNat l != e.pinv) else g.batch

/-- The context of an instruction that issues from a slot. -/
def mkCtx (s : State) (slot : Nat) (p : OpSpec) (e : Enc) : Ctx :=
  let g := s.group slot
  let pt := s.part (slotPart slot)
  { slot := slot, g := g, p := p, e := e, act := activeLanes g s.freeCtr e, pc := g.batchPc, len := e.form.bytes,
    scalar := p.scalar e, rc := { g := g, l0 := pt.l0, l1 := pt.l1, ctr := s.freeCtr, lit := e.lit } }

/-- A source position names an entry of the last-result file whose result has not returned (R213). -/
def Ctx.interlocked (c : Ctx) : Bool :=
  let names (o : Opnd) : Bool :=
    c.e.a == o && c.p.a.isSrc || c.e.b == o && c.p.b.isSrc || c.e.c == o && c.p.c.isSrc || c.e.d == o && c.p.d.isSrc
  names .l0 && c.rc.l0.pend.isSome || names .l1 && c.rc.l1.pend.isSome

/-- The group of a slot can issue an instruction: it is issuing, its run has not ended and its batch holds a lane. -/
def Group.canIssue (g : Group) : Bool := g.st == .issuing && !g.ended && decide (g.count < 1024) && g.batch != 0

/-- No condition of its own. -/
def noOwn : Ctx → State → Option (BitVec 8) := fun _ _ => none

/-- The encoding fault if a condition of the description fails. -/
def encIf (bad : Bool) : Option (BitVec 8) := if bad then some clsEncoding else none

/-- The batch after an instruction: the lanes at the lowest PC among those of the batch, joined by the lanes that stand there
(R160); none is left when all have exited or are call-parked. -/
def Group.rebatch (g : Group) : Group :=
  let live := ~~~ (g.exited ||| g.callParked)
  match lanesIn (g.batch &&& live) with
  | [] => { g with batch := 0, ended := true }
  | l :: ls =>
    let p := ls.foldl (fun p l => if (g.pc[l]).toNat < p.toNat then g.pc[l] else p) g.pc[l]
    { g with batch := maskOf fun l => laneIn live l && g.pc[l] == p }

/-- The last-result file after an instruction (R32). -/
def Part.push (p : Part) (x : LEntry) : Part := { p with l0 := x, l1 := p.l0 }

/-- What every issued instruction leaves: its place in the run, the new lane PCs, the batch, the last-result file (R32, R160, R161). -/
def retire (c : Ctx) (x : LEntry) (pcs : Lanes DWord) (s : State) : State :=
  let p := s.part (slotPart c.slot)
  let s := s.setPart (slotPart c.slot) (p.push x)
  let s := s.updGroup c.slot fun g =>
    { g with
      pc := Vector.ofFn fun l => if laneIn c.g.batch l then pcs[l] else g.pc[l]
      lastRun := Vector.ofFn fun l => if laneIn c.g.batch l then g.runs else g.lastRun[l]
      seq := g.seq + 1
      count := g.count + 1
      ended := g.ended || c.e.sw }.rebatch
  s.bump

/-- The next instruction's address. -/
def Ctx.next (c : Ctx) : DWord := c.pc + BitVec.ofNat 64 c.len

/-- The PCs of an instruction that does not branch. -/
def Ctx.nextPcs (c : Ctx) : Lanes DWord := lanesOf (c.pc + BitVec.ofNat 64 c.len)

/-- The instruction is issued and has no result. -/
def done (c : Ctx) (s : State) : State := retire c LEntry.undef c.nextPcs s

/-- The entry of the last-result file for a result (R32). -/
def Ctx.entry (c : Ctx) (x : Lane → BitVec 128) : LEntry :=
  let all := c.scalar || (match c.e.d with | .s _ => true | _ => false)
  if c.act = 0 then LEntry.undef
  else
    { val := Vector.ofFn fun l => if laneIn c.act l then (x l).setWidth 64 else (x c.low).setWidth 64
      valid := if all then ~~~ 0 else c.act
      pend := none
      wide := decide (32 < c.p.wd) }

/-- Flags ORed into FSTAT, with the old flags kept for reads of the run (R191, R192). -/
def Group.orFlags (g : Group) (f : Flags) : Group :=
  if f = 0 then g else g.putWord regF 1 (fun _ => (g.fstat ||| f).setWidth 32) g.seq false (f.setWidth 32)

/-- The OR over the active lanes. -/
def orLanes (m : LaneMask) (f : Lane → Flags) : Flags := (lanesIn m).foldl (fun a l => a ||| f l) 0

/-- The result of an instruction written to its destination in the active lanes, its flags raised, and the instruction issued. -/
def result (c : Ctx) (fixed : Bool) (x : Lane → BitVec 128) (fl : Lane → Flags) (s : State) : State :=
  let s := s.updGroup c.slot fun g =>
    (((g.write c.e.d c.p.wd c.act x g.seq fixed).orFlags (orLanes c.act fl)).note ⟨c.e.d, c.p.wd, c.act, g.seq⟩ x).noteFlags g.seq
      (orLanes c.act fl)
  retire c (c.entry x) c.nextPcs s

/-- A result without flags. -/
def noFlags : Lane → Flags := fun _ => 0

/-- A uniform 32-bit or 64-bit value as the result of every lane. -/
def uniform (x : DWord) : Lane → BitVec 128 := fun _ => x.setWidth 128

end Sys2Proof.Machine
end

