-- ==== Sys2Proof/Machine/Memory.lean ====
section
/-! DEFINITION. The physical address map (01 Table 4), and the region control blocks with their effective values (R165 to R167). -/

namespace Sys2Proof.Machine

open Sys2Proof

/-! ### The physical address map -/

/-- What a physical address belongs to (01 Table 4). -/
inductive PRange
  /-- HBM or unbacked, below 2^43 -/
  | hbm
  /-- peer window `k`, at an offset -/
  | peer (k off : Nat)
  /-- PCI Express aperture of root port `k`, at an offset -/
  | pcie (k off : Nat)
  /-- the MMIO register space, at an offset -/
  | mmio (off : Nat)
  | reserved
deriving DecidableEq, Repr

/-- The range of a physical address (R21). -/
def pRange (pa : Nat) : PRange :=
  if pa < 2 ^ 43 then .hbm
  else if pa < 2 ^ 44 then .peer ((pa - 2 ^ 43) / 2 ^ 40) (pa % 2 ^ 40)
  else if pa < 0xC00000000000 then .reserved
  else if pa < 0xD00000000000 then .pcie ((pa - 0xC00000000000) / 2 ^ 42) (pa % 2 ^ 42)
  else if pa < 0xF00000000000 then .reserved
  else if pa < 2 ^ 48 then .mmio (pa - 0xF00000000000)
  else .reserved

/-- The firmware range (R22). -/
def isFirmware (pa : Nat) : Bool := decide (pa < 2 ^ 32)

/-- The line of an address. -/
def lineOf (pa : Nat) : Nat := pa / 128 * 128

/-- A word of HBM. -/
def State.dword (s : State) (pa : Nat) : DWord := Memory.dword s.mem pa
/-- A half-word of 32 bits of HBM. -/
def State.word (s : State) (pa : Nat) : Word := BitVec.ofNat 32 (Memory.read s.mem pa 4)
/-- Bytes of HBM written. -/
def State.poke (s : State) (pa x n : Nat) : State := { s with mem := Memory.write s.mem pa x n }

/-! ### The interleave -/

/-- The stacks of a set, ascending. -/
def stacksOf (m : BitVec 8) : List Nat := (List.range 8).filter m.getLsbD

/-- The home slice of a physical address under the hash of a set of stacks (R31). -/
def homeUnder (m : BitVec 8) (pa : Nat) : Nat :=
  let l := stacksOf m
  let n := 32 * l.length
  let i := Config.interleave n (pa / 2 ^ 16) % n
  32 * l.getD (i / 32) 0 + i % 32

/-- The 64 KiB granule of a physical address. -/
def granuleOf (pa : Nat) : Nat := pa / 2 ^ 16

/-- The stacks of the new hash while PHASE is odd. -/
def Hub.newLive (h : Hub) : BitVec 8 := h.live &&& ~~~ h.retire

/-- PHASE is odd: a granule move is under way (R144). -/
def Hub.odd (h : Hub) : Bool := h.phase.getLsbD 0

/-- The slice that is the home of a word now (R31, R144). -/
def State.homeNow (s : State) (pa : Nat) : Nat :=
  if s.hub.odd && decide (granuleOf pa < s.hub.mnext) then homeUnder s.hub.newLive pa else homeUnder s.hub.live pa

/-- The slices that hold the monitor entries of a word: both its homes while its granule is sealed (R152). -/
def State.homesOf (s : State) (pa : Nat) : List Nat :=
  if s.hub.granule = some (granuleOf pa) then [homeUnder s.hub.live pa, homeUnder s.hub.newLive pa] else [s.homeNow pa]

/-! ### Region control blocks -/

/-- Word `i` of a region control block (07 Table 5). -/
def State.rcbW (s : State) (rcb i : Nat) : DWord := s.dword (rcb + 8 * i)

/-- Bits `hi` to `lo` of a word. -/
def bits (x : DWord) (hi lo : Nat) : Nat := x.toNat / 2 ^ lo % 2 ^ (hi + 1 - lo)

/-- The region sets field `i` of R166 itself. -/
def State.rcbOvr (s : State) (rcb i : Nat) : Bool := (s.rcbW rcb 0).getLsbD i

/-- The parent of a region; 0 for a root. -/
def State.rcbParent (s : State) (rcb : Nat) : Nat := bits (s.rcbW rcb 1) 51 8 * 256

/-- The most levels of the region tree that a search follows. -/
def regionDepth : Nat := 64

/-- The nearest ancestor-or-self that satisfies a condition, or the root. -/
def State.regionUp (s : State) (f : Nat → Bool) : Nat → Nat → Nat
  | 0, r => r
  | k + 1, r => if f r || decide (s.rcbParent r = 0) then r else s.regionUp f k (s.rcbParent r)

/-- The region that sets field `i` for a region (R166). -/
def State.regionSets (s : State) (rcb i : Nat) : Nat := s.regionUp (fun r => s.rcbOvr r i) regionDepth rcb

/-- A region and all its ancestors. -/
def State.regionChain (s : State) : Nat → Nat → List Nat
  | 0, r => [r]
  | k + 1, r => if s.rcbParent r = 0 then [r] else r :: s.regionChain k (s.rcbParent r)

/-- The effective priority of a region (R167). -/
def State.regionPrio (s : State) (rcb : Nat) : Nat :=
  let ps := ((s.regionChain regionDepth rcb).filter fun r => s.rcbOvr r 6 || decide (s.rcbParent r = 0)).map fun r => bits (s.rcbW r 0) 31 28
  ps.foldl min 15

/-- The effective cluster mask of a region (R167). -/
def State.regionMask (s : State) (rcb : Nat) : BitVec 128 :=
  let ms := ((s.regionChain regionDepth rcb).filter fun r => s.rcbOvr r 0 || decide (s.rcbParent r = 0)).map fun r => s.rcbW r 3 ++ s.rcbW r 2
  ms.foldl (fun a b => a &&& b) (~~~ 0)

/-- The effective CVTIMEOUT, NPMAX and DEPTH (R166). -/
def State.cvTimeout (s : State) (rcb : Nat) : Nat := bits (s.rcbW (s.regionSets rcb 9) 7) 63 32
/-- The effective NPMAX. -/
def State.npMax (s : State) (rcb : Nat) : Nat := bits (s.rcbW (s.regionSets rcb 8) 7) 31 0
/-- The effective nesting limit. -/
def State.regionDepthLimit (s : State) (rcb : Nat) : Nat := bits (s.rcbW (s.regionSets rcb 7) 6) 21 16

/-- A region's usage field: its word and whether it is the high half (R165). -/
structure Usage where
  ovr : Nat
  word : Nat
  high : Bool
deriving DecidableEq, Repr

/-- MONUSED against MONQ. -/
def useMon : Usage := ⟨2, 15, true⟩
/-- TLIVE against TASKQ. -/
def useTask : Usage := ⟨3, 14, false⟩
/-- LPEND against LPOOL. -/
def useLaunch : Usage := ⟨4, 14, true⟩
/-- FRUSED against FRAMES. -/
def useFrames : Usage := ⟨1, 13, false⟩

/-- The budget of a region for a use (07 Table 5). -/
def State.budget (s : State) (u : Usage) (rcb : Nat) : Nat :=
  if u.ovr = 2 then bits (s.rcbW rcb 5) 63 32
  else if u.ovr = 3 then bits (s.rcbW rcb 5) 31 0
  else if u.ovr = 4 then bits (s.rcbW rcb 6) 15 0
  else bits (s.rcbW rcb 4) 39 0

/-- The use now charged to a region. -/
def State.usage (s : State) (u : Usage) (rcb : Nat) : Nat :=
  if u.ovr = 1 then bits (s.rcbW rcb 13) 39 0
  else if u.high then bits (s.rcbW rcb u.word) 63 32 else bits (s.rcbW rcb u.word) 31 0

/-- The regions that a use of a region is charged to (R167). -/
def State.charged (s : State) (u : Usage) (rcb : Nat) : List Nat :=
  match s.regionChain regionDepth rcb with
  | [] => []
  | r :: rs => r :: rs.filter fun a => s.rcbOvr a u.ovr

/-- There is room for one more use (R167). -/
def State.room (s : State) (u : Usage) (rcb : Nat) : Bool :=
  (s.charged u rcb).all fun r => !s.rcbOvr r u.ovr || decide (s.usage u r < s.budget u r)

/-- SLOTPA of a context of a region (R100). -/
def State.spillSlot (s : State) (rcb ctx : Nat) : Nat :=
  let base := bits (s.rcbW rcb 8) 51 6
  let n := bits (s.rcbW rcb 9) 31 0
  if base = 0 ∨ n = 0 then 0 else base * 64 + 64 * (ctx % n)

/-- The address of the word that counts a region's use. -/
def Usage.addr (u : Usage) (rcb : Nat) : Nat := rcb + 8 * u.word + (if u.high then 4 else 0)

/-- The words that one use of a region changes. -/
def State.usageWords (s : State) (u : Usage) (rcb : Nat) : List Nat := (s.charged u rcb).map u.addr

/-- A 32-bit atomic add of the device at a word's home (R73, R165): the copies that harts' caches hold of its line are gone (R45). What follows a write is
not in it. -/
def State.addWord (s : State) (d : Int) (a : Nat) : State :=
  { s.poke a (((Memory.read s.mem a 4 : Int) + d) % 2 ^ 32).toNat 4 with
    lines := SMap.upd s.lines (a / 128) {} fun l => { l with dirty := true, hub := false, svcv := false, svcm := false } }

/-- The root of a region's fault domain (R168). -/
def State.faultRoot (s : State) (rcb : Nat) : Nat := s.regionUp (fun r => (s.rcbW r 0).getLsbD 24) regionDepth rcb

/-- A region lies in the subtree of a root. -/
def State.inSubtree (s : State) (root rcb : Nat) : Bool := (s.regionChain regionDepth rcb).contains root

/-- The reserved fields of a region control block are 0 (R165). -/
def State.rcbReserved (s : State) (rcb : Nat) : Bool :=
  let w := s.rcbW rcb
  bits (w 0) 19 16 = 0 && bits (w 0) 22 20 < 4 && bits (w 0) 15 10 = 0 && bits (w 1) 63 52 = 0 && bits (w 1) 7 0 = 0 && bits (w 4) 63 40 = 0 &&
  bits (w 6) 31 22 = 0 && bits (w 8) 63 52 = 0 && bits (w 8) 5 0 = 0 && bits (w 9) 63 32 = 0 && bits (w 10) 63 52 = 0 &&
  bits (w 10) 2 0 = 0 && bits (w 11) 63 32 = 0 && bits (w 12) 63 52 = 0 && bits (w 12) 6 0 = 0 && bits (w 13) 63 40 = 0 &&
  bits (w 15) 31 0 = 0 &&
  [17, 19, 21, 23].all fun i => bits (w i) 61 52 = 0

/-- VALID of a region control block. -/
def State.rcbValid (s : State) (rcb : Nat) : Bool := (s.rcbW rcb 0).getLsbD 23

/-- The domain of a region. -/
def State.rcbDom (s : State) (rcb : Nat) : Nat := bits (s.rcbW rcb 0) 27 25

end Sys2Proof.Machine
end

