-- ==== Sys2Proof/Machine/Q4x.lean ====
section
/-! DEFINITION. Q4X blocks: codes, side records, malformed blocks and element values (R195 to R198, R51). -/

namespace Sys2Proof

/-- Nibble `i` of a value. -/
def nibble (x i : Nat) : Nat := x / 2 ^ (4 * i) % 16

/-- SCALE of a side record (08 Table 6). -/
def q4Scale (rec : Nat) : Nat := rec % 2 ^ 16
/-- COUNT of a side record. -/
def q4Count (rec : Nat) : Nat := rec / 2 ^ 20 % 16
/-- Z of a side record. -/
def q4Zero (rec : Nat) : Nat := rec / 2 ^ 16 % 16
/-- Tail nibble `k` of a side record. -/
def q4Tail (rec k : Nat) : Nat := nibble (rec / 2 ^ 24) k

/-- The slots of a block that hold a marker, ascending. -/
def markers (codes : Nat) : List Nat := (List.range 128).filter fun i => nibble codes i == 15

/-- q4x_malformed (R51, R197). -/
def q4xMalformed (codes rec : Nat) : Bool :=
  let ms := markers codes
  q4Zero rec == 15 || decide (10 < ms.length) || q4Count rec != ms.length || ms.any fun i => nibble codes (i ^^^ 1) == 15

/-- An integer as an exact value. -/
def q4Int (z : Int) : FVal := .fin (decide (z < 0)) z.natAbs 0

/-- The product of an element's number and SCALE (R198): NaN raises nothing. -/
def q4Mul (a b : FVal) : Exact :=
  let p := a.mul b
  if a.isNan || b.isNan then ⟨p.val, 0⟩ else p

/-- The exact value of element `i` of a well-formed block (R196, R198, R267). -/
def q4Elem (codes rec i : Nat) : Exact :=
  let c := nibble codes i
  let scale := FFmt.bf16.value (q4Scale rec)
  if c = 15 then
    let k := ((markers codes).filter fun j => decide (j < i)).length
    q4Mul (FFmt.f8.value (nibble codes (i ^^^ 1) + 16 * q4Tail rec k)) scale
  else if nibble codes (i ^^^ 1) = 15 then ⟨.fin false 0 0, 0⟩
  else
    let d : Int := (c : Int) - q4Zero rec
    match scale with
    | .fin _ _ _ => if d = 0 then ⟨.fin false 0 0, 0⟩ else q4Mul (q4Int d) scale
    | _ => q4Mul (q4Int d) scale

end Sys2Proof
end

