-- ==== Sys2Proof/Machine/Sync.lean ====
section
/-! DEFINITION. Parking and waking groups (R112, R114, R162), acquires (R64), outstanding accesses, the convergence registers (R234 to R240, R413, R301), and the team and named barriers (R286 to R288). -/

namespace Sys2Proof.Machine

open Sys2Proof

/-! ### Outstanding accesses -/

/-- The access is performed: every piece is (R56). -/
def Access.performed (a : Access) : Bool := a.pieces.all fun p => p.done

/-- The program's group of a slot: the one whose save or restore routine occupies it, or the one in it (R176). -/
def State.prog (s : State) (slot : Nat) : Group :=
  match SMap.find s.stash slot with
  | some g => g
  | none => s.group slot

/-- The program's group of a slot changed. -/
def State.updProg (s : State) (slot : Nat) (f : Group → Group) : State :=
  match SMap.find s.stash slot with
  | some g => { s with stash := SMap.set s.stash slot (f g) }
  | none => s.updGroup slot f

/-- The group of a slot with a number changed: the one in it, or the one whose routine occupies it. -/
def State.updUid (s : State) (slot uid : Nat) (f : Group → Group) : State :=
  if (s.group slot).uid = uid then s.updGroup slot f
  else
    match SMap.find s.stash slot with
    | some g => if g.uid = uid then { s with stash := SMap.set s.stash slot (f g) } else s
    | none => s

/-- The group of a number is in a slot, or its routine is. -/
def State.holds (s : State) (slot uid : Nat) : Bool :=
  (s.group slot).uid == uid || (match SMap.find s.stash slot with
    | some g => g.uid == uid
    | none => false)

/-- An access belongs to the group of a slot; a routine orders and fences those of the program's group as well (R80, R176). -/
def State.owns (s : State) (slot : Nat) (sl u : Nat) : Bool := sl == slot && s.holds slot u

/-- An access that is not performed as its instruction has it. -/
def Access.bad (a : Access) : Bool := !a.found.isEmpty

/-- An atomf whose forwarded writes and arrivals have not all been granted (R279); one that met a fault forwards nothing. -/
def Access.forwarding (a : Access) : Bool := a.fwd.isSome && a.fwdDone != a.lanes && !a.bad

/-- Everything that the access performs has been performed: its pieces, and what an atomf forwards (R56, R279). -/
def Access.settled (a : Access) : Bool := a.performed && !a.forwarding

/-- The accesses of the group in a slot that are not performed; a prefetch is ordered against nothing. -/
def State.openAccs (s : State) (slot : Nat) (f : Access → Bool) : List Nat :=
  (s.accs.filter fun p => s.owns slot p.2.slot p.2.uid && !p.2.settled && p.2.kind != .prefetch && f p.2).map Prod.fst

/-- Every access of a list is performed, with what it forwards. -/
def State.accsDone (s : State) (l : List Nat) : Bool :=
  l.all fun k => match SMap.find s.accs k with
    | some a => a.settled
    | none => true

/-- The group has a register result that has not returned (R67). -/
def State.resultsOut (s : State) (slot : Nat) : Bool :=
  let u := (s.group slot).uid
  s.accs.any (fun p => p.2.slot == slot && p.2.uid == u && (p.2.dest.isSome || p.2.waits)) ||
  s.cores.any (fun k => k.2.mq.any fun o => o.slot == slot && o.uid == u && o.dest.isSome) ||
  s.arms.any (fun d => d.2.slot == slot && d.2.uid == u) || s.decs.any (fun d => d.2.slot == slot && d.2.uid == u && d.2.waits)

/-- acquire_inval: every valid L1 word of the core that is not its own store on the way is invalidated (R64). -/
def State.acquireInval (s : State) (core : Nat) : State :=
  let k := s.core core
  s.setCore core { k with
    l1 := k.l1.map fun ln => (ln.1, ln.2.map fun w => (w.1, if w.2.own then w.2 else { w.2 with valid := false })) }

/-! ### Pre-emption and exceptions -/

/-- Every lane of the group has exited (R159). -/
def Group.gone (g : Group) : Bool := g.exited == ~~~ (0 : LaneMask)

/-- The groups of a team that a pre-emption can take now: those that stand at a marker (R162, R174). -/
def State.atMarker (s : State) (slot : Nat) : Bool :=
  let g := s.group slot
  !g.routine && (g.st == .ready || g.st == .blocked || (g.st == .draining && !s.resultsOut slot))

/-- PREEMPT_TAKE for one group: its slot enters SAVING, and its unanswered fault records become stale (R137, R174). -/
def State.takePreempt (s : State) (slot : Nat) : State :=
  let g := s.group slot
  let cl := slotCluster slot
  let c := s.cluster cl
  let mine := c.fq.filter fun r => r.2.slot == slot && r.2.uid == g.uid && !r.2.answered && (match r.2.mode with
      | .retry | .skip _ | .redo _ | .rewait => true
      | _ => false)
  let c := { c with fwait := c.fwait.filter fun p => !(p.slot == slot && p.uid == g.uid) }
  let s := s.setCluster cl (mine.foldl (fun c r => c.stale r.1) c)
  s.setGroup slot { g with st := .saving, blocks := g.blocks.filter (· != .fault) }

/-- PRSTAT.STATE when a team's pre-emption is no longer held: 2 (R359). -/
def State.savingState (s : State) (tm : Nat) : State :=
  let c := (s.team tm).core / 8
  let x := SMap.get s.svc c {}
  if x.prState = 1 then { s with svc := SMap.set s.svc c { x with prState := 2 } } else s

/-- A section without pre-emption is open in a team (R175). -/
def State.npOpen (s : State) (tm : Nat) : Bool :=
  (s.team tm).slots.any fun p => !(s.team tm).saved.contains p.1 && decide (0 < (s.prog p.2).npdepth) && !(s.prog p.2).gone

/-- A requested pre-emption of a team, taken by the groups that stand at a marker once no section is open (R174, R175); a pair takes a
checkpoint first (R367). -/
def State.preTake (s : State) (tm : Nat) : State :=
  let t := s.team tm
  match t.pre with
  | .none_ => s
  | _ =>
    if s.npOpen tm then s
    else if t.paired && t.pair.isSome then s.updTeam tm fun t => { t with wantCkpt := true }
    else ((t.slots.filter fun p => !t.saved.contains p.1).foldl (fun s p => if s.atMarker p.2 then s.takePreempt p.2 else s) s).savingState tm

/-- TAKING AN EXCEPTION: a fault of one instruction of a group, precise unless the mode says otherwise. The record is written with the
PC at the instruction, and the group parks until the record is answered (R133, R135, R162); a requested pre-emption finds it BLOCKED (R174). -/
def State.raise (s : State) (slot : Nat) (mode : FaultMode) (f : FaultInfo) : State :=
  let s' := s.postFault slot mode f
  (s'.updGroup slot fun g =>
    { g with st := .blocked, blocks := .fault :: g.blocks, midRun := some (s.saveRun slot) }).preTake (s.group slot).team

/-- An encoding, opcode or privilege fault of the instruction that issues: LANES are the active lanes of the batch, and PEN is disregarded
but for PRIVILEGE (R217). -/
def State.raiseCode (s : State) (slot : Nat) (cls : BitVec 8) (pc : DWord) (act : LaneMask) : State :=
  s.raise slot .retry { cls := cls, lanes := if cls = clsPrivilege then act else (s.group slot).batch, pc := pc }

/-! ### Parking and waking -/

/-- A fault raised at a marker: its record is written and the group parks, or stays parked (R175, R412, R413). -/
def State.markerFault (s : State) (slot : Nat) (f : LateFault) : State :=
  let s := s.postFault slot f.mode
    { cls := f.cls, lanes := f.lanes, kind := f.kind, space := f.space, addr := f.addr, aux := f.aux, pc := f.pc }
  s.updGroup slot fun g => { g with st := .blocked, blocks := .fault :: g.blocks }

/-- A group that stands at a marker and whose results have returned: the faults raised against it are recorded, and it parks; one that
waits for nothing enters READY (07 Table 2, R412, R413). -/
def State.settle (s : State) (slot : Nat) : State :=
  let g := s.group slot
  if (g.st == .blocked || g.st == .draining) && !s.resultsOut slot then
    if !g.late.isEmpty then g.late.foldl (fun s f => s.markerFault slot f) (s.updGroup slot fun g => { g with late := [] })
    else if g.st == .blocked && g.blocks.isEmpty then s.setGroup slot { g with st := .ready, readySince := s.cycle }
    else s
  else s

/-- A fault against the program's group of a slot that it takes at its marker, or at once where it stands at one (R412, R413). -/
def State.lateFault (s : State) (slot : Nat) (f : LateFault) : State :=
  (s.updProg slot fun g => { g with late := g.late ++ [f] }).settle slot

/-- The same against the group of a number. -/
def State.lateFor (s : State) (slot uid : Nat) (f : LateFault) : State :=
  (s.updUid slot uid fun g => { g with late := g.late ++ [f] }).settle slot

/-- The waits of a slot: of the group in it, and of the one whose routine occupies it. -/
def State.parked (s : State) (slot : Nat) : List Block := (s.group slot).blocks ++ (match SMap.find s.stash slot with
  | some g => g.blocks
  | none => [])

/-- The wait is one of the group whose routine occupies the slot. -/
def State.inStash (s : State) (slot : Nat) (b : Block) : Bool :=
  !(s.group slot).blocks.contains b && (match SMap.find s.stash slot with
    | some g => g.blocks.contains b
    | none => false)

/-- WAKEWHY as a resume writes it; LAT is filled at the first issue (R114). -/
def wakeWord (gated : Bool) (why : Nat) : Word := BitVec.ofNat 32 (why + if gated then 256 else 0)

/-- What a group issued behind one of its waits goes on when that wait ends (R64, R68). -/
def State.release (s : State) (slot uid : Nat) (b : Block) : State :=
  { s with
    accs := s.accs.map fun (a : Nat × Access) =>
      (a.1, if a.2.slot = slot ∧ a.2.uid = uid then { a.2 with behind := a.2.behind.filter (· != b) } else a.2)
    copies := s.copies.map fun (c : Nat × Copy) =>
      (c.1, if c.2.slot = slot ∧ c.2.uid = uid then { c.2 with behind := c.2.behind.filter (· != b) } else c.2) }

/-- One wait of a group ends: the reason is recorded, the core's clocks run, and the group may become READY (R112, R114, R162). -/
def State.unblock (s : State) (slot : Nat) (b : Block) (why : Nat) : State :=
  let k := s.core (slotCore slot)
  let free (g : Group) : Group := { g with blocks := g.blocks.erase b, wakewhy := wakeWord k.gated why, wokeAt := some s.cycle }
  let stashed := s.inStash slot b
  let s1 := (if stashed then s.updProg slot free else s.updGroup slot free).release slot (if stashed then s.prog slot else s.group slot).uid b
  (s1.setCore (slotCore slot) { s1.core (slotCore slot) with gated := false }).settle slot

/-- A group parks at the end of its run for a wait. -/
def State.block (s : State) (slot : Nat) (b : Block) : State :=
  s.updGroup slot fun g => { g with blocks := b :: g.blocks }

/-- A uniform value written to the destination of an instruction that parked the group in a wait. -/
def State.putUniform (s : State) (slot : Nat) (b : Block) (d : Dest) (x : DWord) : State :=
  let put (g : Group) : Group := g.writeDest d (uniform x)
  if s.inStash slot b then s.updProg slot put else s.updGroup slot put

/-- The destination of an instruction whose result returns later. -/
def Ctx.dest (c : Ctx) : Dest := { opnd := c.e.d, width := c.p.wd, lanes := c.act, seq := c.g.seq }

/-- The slot of a group of a team. -/
def Team.slotOf (t : Team) (gidx : Nat) : Nat := SMap.get t.slots gidx 0

/-- The number under which a team is being saved. -/
def Team.savingTo (t : Team) : Option Nat := match t.pre with
  | .saving _ id => some id
  | _ => none

/-- The group of an index of a team: in its slot, under a routine in it, or saved already (R174, R176). -/
def State.member (s : State) (tm gidx : Nat) : Group :=
  let t := s.team tm
  if t.saved.contains gidx then
    match t.savingTo with
    | some a => SMap.get (SMap.get s.saved a {}).groups gidx {}
    | none => s.prog (t.slotOf gidx)
  else s.prog (t.slotOf gidx)

/-- The groups of a team that are not exited, by index. -/
def State.liveGroups (s : State) (tm : Nat) : List Nat :=
  ((s.team tm).slots.map Prod.fst).filter fun g => !(s.member tm g).gone

/-! ### Matrix operations enter a queue (R295, R301) -/

/-- The element types of an operand: bits per element, and log2 of the alignment of BASE and STRIDE. -/
inductive EType
  | bf16
  | f16
  | f8
  | q4x
deriving DecidableEq, Repr

/-- ETYPE of a layout word (13 Table 2). -/
def etype (w : Word) : Option EType :=
  match w.toNat % 8 with
  | 1 => some .bf16
  | 2 => some .f16
  | 3 => some .f8
  | 4 => some .q4x
  | _ => none

/-- Bits of an element. -/
def EType.bits : EType → Nat
  | .bf16 | .f16 => 16
  | .f8 => 8
  | .q4x => 4

/-- K of a pair of element types (13 Table 3). -/
def pairK (a b : EType) : Option Nat :=
  match a, b with
  | .bf16, .bf16 | .f16, .f16 => some 64
  | .f8, .f8 => some 128
  | .q4x, .q4x | .q4x, .bf16 | .bf16, .q4x | .q4x, .f16 | .f16, .q4x | .q4x, .f8 | .f8, .q4x => some 256
  | _, _ => none

/-- BASE of a descriptor. -/
def descBase (d : BitVec 128) : DWord := d.extractLsb' 0 64
/-- STRIDE of a descriptor. -/
def descStride (d : BitVec 128) : Nat := (d.extractLsb' 64 32).toNat
/-- The layout word of a descriptor. -/
def descLayout (d : BitVec 128) : Word := d.extractLsb' 96 32
/-- SPC of a layout word. -/
def layoutSpc (w : Word) : Bool := w.getLsbD 6
/-- T of a layout word. -/
def layoutT (w : Word) : Bool := w.getLsbD 5
/-- SPAN of a layout word. -/
def layoutSpan (w : Word) : Nat := w.toNat / 128 % 8

/-- The stored rows of an operand and the elements of each (R298). -/
def storedShape (isA : Bool) (t : Bool) (k : Nat) : Nat × Nat := if isA != t then (64, k) else (k, 64)

/-- The class of a failed check of one operand (R301 step 2); none if it passes. -/
def operandFault (isA : Bool) (d : BitVec 128) (e : EType) (k spad : Nat) : Option (BitVec 8) :=
  let w := descLayout d
  let base := (descBase d).toNat
  let stride := descStride d
  let (rows, len) := storedShape isA (layoutT w) k
  let rowBytes := len * e.bits / 8
  let al := if e = .q4x then 64 else 16
  if w.toNat / 1024 ≠ 0 ∨ w.toNat / 8 % 4 ≠ 0 ∨ (layoutSpc w ∧ 2 ^ 32 ≤ base) then some clsEncoding
  else if e = .q4x ∧ (layoutT w = isA ∨ layoutSpc w ∨ layoutSpan w ≠ 0) then some clsEncoding
  else if stride < rowBytes then some clsEncoding
  else if base % al ≠ 0 ∨ stride % al ≠ 0 ∨ (layoutSpan w ≠ 0 ∧ base % (16 * 2 ^ layoutSpan w) ≠ 0) then some clsAlignment
  else if layoutSpc w ∧ spad < base + (rows - 1) * stride + rowBytes then some clsProtection
  else none

/-- The checks of an MMA at its completion (R301 step 2): the class that fails first in 05 Table 12. -/
def mmaFault (m : MmaOps) (acc spad : Nat) : Option (BitVec 8) :=
  if m.c.toNat / 16 ≠ 0 ∨ acc ≤ m.c.toNat % 8 then some clsEncoding
  else
    match etype (descLayout m.a), etype (descLayout m.b) with
    | some ea, some eb =>
      match pairK ea eb with
      | none => some clsEncoding
      | some k =>
        match operandFault true m.a ea k spad, operandFault false m.b eb k spad with
        | none, none => none
        | some x, none | none, some x => some x
        | some x, some y => if classOrder.idxOf x ≤ classOrder.idxOf y then some x else some y
    | _, _ => some clsEncoding

/-- The team's scratchpad size in bytes (R169). -/
def Team.spadSize (t : Team) : Nat := t.chunks * 4096 * t.cores

/-- The record of the sync unit against a group: ACT 0 continues `m`, the lanes of the instruction at `pc`, at `next` (R413). -/
def syncFault (n : Nat) (cls : BitVec 8) (kind : Nat) (pc next : DWord) (m lanes : LaneMask) : LateFault :=
  { cls := cls, kind := kind, space := 3, addr := BitVec.ofNat 64 n, pc := pc, lanes := lanes, aux := 0, mode := .after m next }

/-- The register of a team. -/
def Team.cvReg (t : Team) (n : Nat) : CvReg := SMap.get t.cv n {}

/-- The register replaced. -/
def State.setCv (s : State) (tm n : Nat) (r : CvReg) : State :=
  s.updTeam tm fun t => { t with cv := SMap.set t.cv n r }

/-- The lanes of a mask, counted. -/
def countLanes (m : LaneMask) : Nat := (lanesIn m).length

/-- The lanes of a group that some signs hold. -/
def signLanes (l : List Sign) (gidx : Nat) : LaneMask := l.foldl (fun m x => if x.gidx = gidx then m ||| x.lanes else m) 0

/-- The lanes of the group that have signed the current generation (10 Table 4). -/
def CvReg.signedOf (r : CvReg) (gidx : Nat) : LaneMask := signLanes r.signs gidx

/-- Lanes that have signed the generation: no lane counts in two signs of it. -/
def CvReg.signedCount (r : CvReg) : Nat := (r.signs.map fun x => countLanes x.lanes).sum

/-- FIRST: the cycle of the first sign of the generation (10 Table 4). -/
def CvReg.since (r : CvReg) : Option Nat := r.signs.head?.map (·.cycle)

/-- The operands of the generation's first mma sign (R301). -/
def CvReg.mma (r : CvReg) : Option MmaOps := (r.signs.filterMap (·.ops)).head?

/-- The first sign that disagrees with the operands of the generation's first mma sign; one without operands disagrees (R301). -/
def CvReg.mismatch (r : CvReg) : Option Sign := match r.mma with
  | some m => r.signs.find? fun x => x.ops != some m
  | none => none

/-- The operations that take an entry of a core's queue: those whose tile accesses have not ended (R295). -/
def Core.queued (k : Core) : List MatOp := k.mq.filter fun o => !o.ended

/-- The queue of a core has a free entry (R295). -/
def Core.mqRoom (k : Core) : Bool := decide (k.queued.length < 4)

/-- The core whose queue takes the MMAs of a register: that of its set's first group (R301). -/
def State.mmaCore (s : State) (tm n : Nat) : Nat := slotCore ((s.team tm).slotOf ((s.team tm).cvReg n).first)

/-- The counters of the tile operations of a team on one of its cores. -/
def Team.tileSeq (t : Team) (j : Nat) : TileSeq := SMap.get t.tseq j {}

/-- A token is finished (R296). -/
def Team.tokenDone (t : Team) (tok : Word) : Bool :=
  let n := tok.toNat
  if tok.getLsbD 31 then
    let q := t.tileSeq (n / 2 ^ 16 % 8)
    decide (((q.done - 1 - BitVec.ofNat 16 n) : BitVec 16).toNat < 2 ^ 15) || q.early.contains (BitVec.ofNat 16 n)
  else decide (((t.cvReg (n % 16)).opgen - BitVec.ofNat 16 (n / 16) : BitVec 16).toNat < 2 ^ 15)

/-- The status of a finished token (R305): 0 DONE, 1 ABANDONED. -/
def Team.tokenStatus (t : Team) (tok : Word) : Nat :=
  let n := tok.toNat
  if tok.getLsbD 31 then (if (t.tileSeq (n / 2 ^ 16 % 8)).abn = some (BitVec.ofNat 16 n) then 1 else 0)
  else
    let r := t.cvReg (n % 16)
    if r.opgen = BitVec.ofNat 16 (n / 16) then r.opst else 0

/-- An mwait is finished: accesses of the operands and accumulators of the MMAs that have finished by then are defined again (R83, R305). -/
def Group.mmaWaited (g : Group) (t : Team) : Group := { g with mmaOut := g.mmaOut.filter fun x => !t.tokenDone x.1 }

/-- The groups of a team parked in mwait on finished tokens resume: an acquire for each (R305). -/
def State.wakeMwait (s : State) (tm : Nat) : State :=
  (s.team tm).slots.foldl (fun s p =>
    (s.parked p.2).foldl (fun s b =>
      match b with
      | .mwait tok d =>
        let t := s.team tm
        if t.tokenDone tok then
          let s := s.putUniform p.2 b d (BitVec.ofNat 64 (t.tokenStatus tok))
          let s := if s.inStash p.2 b then s.updProg p.2 fun g => g.mmaWaited t else s.updGroup p.2 fun g => g.mmaWaited t
          (s.acquireInval (slotCore p.2)).unblock p.2 b 0
        else s
      | _ => s) s) s

/-- The completed MMAs of a register enter the queue while entries are free; the sync unit holds the others (R295, R301). -/
def State.enqueueMmas (tm n : Nat) : Nat → State → State
  | 0, s => s
  | f + 1, s =>
    let r := (s.team tm).cvReg n
    let core := s.mmaCore tm n
    let k := s.core core
    match r.pend with
    | [] => s
    | op :: ps =>
      if k.mqRoom then
        State.enqueueMmas tm n f ((s.setCore core { k with mq := k.mq ++ [op] }).setCv tm n { r with pend := ps })
      else s

/-- MMAs that the sync unit holds enter queues that have room (R295). -/
def State.retryMmas (s : State) : State :=
  s.teams.foldl (fun s t => t.2.cv.foldl (fun s r => if r.2.pend.isEmpty then s else State.enqueueMmas t.1 r.1 4 s) s) s

/-- An MMA of the register is queued, running or frozen, or waits for an entry (R301). -/
def State.cvBusy (s : State) (tm n : Nat) : Bool :=
  !((s.team tm).cvReg n).pend.isEmpty ||
  s.cores.any fun k => k.2.mq.any fun o => o.team == tm && o.mma.isSome && o.func.toNat == n

/-- The MMA of a completed generation goes towards its queue: `old` is the register at the completion, `x` the completing sign (R301). -/
def State.enqueueMma (s : State) (tm n : Nat) (old : CvReg) (m : MmaOps) (x : Sign) : State :=
  let (id, s) := s.fresh
  let slot := (s.team tm).slotOf x.gidx
  let g := s.member tm x.gidx
  let op : MatOp :=
    { id := id, team := tm, slot := slot, uid := g.uid, gidx := x.gidx, op := 0xD0,
      tok := BitVec.ofNat 32 (old.gen.toNat * 16 + n), hasTok := true, mma := some m, func := BitVec.ofNat 8 n,
      lanes := old.signedOf x.gidx, pc := x.pc, after := old.signs.flatMap (·.after),
      asid := g.asid, desc := (SMap.get s.launches (s.team tm).launch {}).desc }
  let r := (s.team tm).cvReg n
  State.enqueueMmas tm n 4 (s.setCv tm n { r with pend := r.pend ++ [op] })

/-- The waits of a group on a register. -/
def Block.onCv (n : Nat) : Block → Bool
  | .heldSign k => k == n
  | .cvwait k _ _ => k == n
  | _ => false

/-- A group of a register that has become FAULTED raises CONVERGENCE_TIMEOUT: its record names the cvwait in which it stands, else its latest sign
(R240, R413). -/
def State.cvExpel (s : State) (tm n : Nat) (old : CvReg) (gidx : Nat) : State :=
  let slot := (s.team tm).slotOf gidx
  let g := s.member tm gidx
  let waits := g.blocks.any fun b => b.onCv n && b != .heldSign n
  let at_ : DWord × DWord × LaneMask :=
    match waits, ((old.signs ++ old.held).filter fun x => x.gidx == gidx).getLast? with
    | false, some x => (x.pc, x.next, x.lanes)
    | _, _ => let w := SMap.get g.cvAt n (0, 0); (w.1, w.2, 0)
  (s.updProg slot fun g => { g with blocks := g.blocks.filter fun b => !b.onCv n }).lateFault slot
    (syncFault n clsCvTimeout (if old.mma.isSome then 6 else 7) at_.1 at_.2.1 at_.2.2 (old.signedOf gidx))

/-- The register becomes FAULTED by a time-out: a record for each member group that has signed, is held or waits (R240). -/
def State.cvFault (s : State) (tm n : Nat) : State :=
  let t := s.team tm
  let r := t.cvReg n
  let who (gidx : Nat) : Bool :=
    decide (r.first ≤ gidx ∧ gidx < r.first + r.groups) &&
    ((r.signs ++ r.held).any (fun x => x.gidx == gidx) || (s.member tm gidx).blocks.any (Block.onCv n))
  ((t.slots.map Prod.fst).filter who).foldl (fun s gidx => s.cvExpel tm n r gidx) (s.setCv tm n { r with st := .faulted, held := [] })

/-- What the completion of a generation with mma signs does (R301): mismatch, checks, entry into the queue; `x` is the sign that made SIGNED
equal MEMBERS. -/
def State.mmaCompletes (s : State) (tm n : Nat) (old : CvReg) (m : MmaOps) (x : Sign) : State :=
  let t := s.team tm
  let bad (y : Sign) (cls : BitVec 8) (s : State) : State :=
    let s := s.lateFault (t.slotOf y.gidx) (syncFault n cls 6 y.pc y.next y.lanes (old.signedOf y.gidx))
    let r := (s.team tm).cvReg n
    let s := (s.setCv tm n { r with st := .faulted, held := [], opgen := old.gen, opst := 1 }).wakeMwait tm
    (r.held.map (·.gidx)).eraseDups.foldl (fun s g => s.cvExpel tm n r g) s
  match old.mismatch with
  | some y => bad y clsMismatch s
  | none =>
    match mmaFault m t.acc t.spadSize with
    | some k => bad x k s
    | none => s.enqueueMma tm n old m x

/-- A sign put among others in the order of the sync unit: by cycle, then in ascending group index (R239). -/
def insertSign (l : List Sign) (x : Sign) : List Sign :=
  let f (y : Sign) : Bool := y.cycle != x.cycle || decide (y.gidx ≤ x.gidx)
  l.takeWhile f ++ x :: l.dropWhile f

/-- A SIGN AT THE REGISTER: lanes that have not signed the generation sign it, the others are held (R236). -/
def CvReg.sign (r : CvReg) (x : Sign) : CvReg :=
  let again := x.lanes &&& r.signedOf x.gidx
  let now := x.lanes &&& ~~~ again
  { r with
    signs := if now = 0 then r.signs else insertSign r.signs { x with lanes := now }
    held := if again = 0 then r.held else insertSign r.held { x with lanes := again } }

/-- How many generations lie between the current one and that of the latest sign of some lanes of a group: its held signs (R236, R301). -/
def CvReg.heldDepth (r : CvReg) (gidx : Nat) (m : LaneMask) : Nat :=
  (lanesIn m).foldl (fun d l => max d (r.held.filter fun x => x.gidx == gidx && laneIn x.lanes l).length) 0

/-- The generation in which a sign of some lanes counts (R236, R301). -/
def CvReg.signGen (r : CvReg) (gidx : Nat) (m : LaneMask) : BitVec 16 :=
  if m &&& r.signedOf gidx = 0 then r.gen else r.gen + 1 + BitVec.ofNat 16 (r.heldDepth gidx (m &&& r.signedOf gidx))

/-- The register after a completion (R237): GEN, the held signs applied, and the member lanes that have exited gone. -/
def CvReg.completed (r : CvReg) (cycle : Nat) : CvReg :=
  let members := r.members - (r.leaving.map fun p => countLanes p.2).sum
  let keep := (r.held.map fun x => { x with lanes := x.lanes &&& ~~~ (SMap.get r.leaving x.gidx 0), cycle := cycle }).filter fun x => x.lanes != 0
  keep.foldl CvReg.sign
    { r with
      gen := r.gen + 1, members := members, leaving := [], signs := [], held := [], doneAt := some cycle,
      st := if members = 0 then .free else .open,
      opgen := if r.mma.isNone then r.gen else r.opgen,
      opst := if r.mma.isNone then 0 else r.opst }

/-- COMPLETION of a generation (R237), when SIGNED equals MEMBERS: groups whose held signs have counted resume, and groups in cvwait for the
generation are woken with the new GEN. -/
def State.cvComplete (s : State) (tm n : Nat) : State :=
  let r := (s.team tm).cvReg n
  let t := r.completed s.cycle
  let s := s.setCv tm n t
  let s := ((r.held.map (·.gidx)).eraseDups.filter fun g => !t.held.any fun x => x.gidx == g).foldl
    (fun s g => s.unblock ((s.team tm).slotOf g) (.heldSign n) 0) s
  let s := (s.team tm).slots.foldl (fun s p =>
    (s.parked p.2).foldl (fun s b =>
      match b with
      | .cvwait k g d =>
        if k = n ∧ g = r.gen then (s.putUniform p.2 b d ((r.gen + 1).setWidth 64)).unblock p.2 b 0 else s
      | _ => s) s) s
  match r.mma, r.signs.getLast? with
  | some m, some x => s.mmaCompletes tm n r m x
  | _, _ => s.wakeMwait tm

/-- The completion test of a register (R239 step 4), made again while held signs complete a generation. -/
def State.cvTest (tm n : Nat) : Nat → State → State
  | 0, s => s
  | k + 1, s =>
    let r := (s.team tm).cvReg n
    if r.st == .open && decide (r.signedCount = r.members) then State.cvTest tm n k (s.cvComplete tm n) else s

/-- SIGN of some lanes of a group, with operands for an mma (R236, R301): a group with a held sign parks at its next marker. -/
def State.cvSign (s : State) (slot n : Nat) (m : LaneMask) (ops : Option MmaOps) (pc next : DWord) (after : List Nat) : State :=
  let g := s.group slot
  let r := (s.team g.team).cvReg n
  let t := r.sign { gidx := g.gidx, lanes := m, ops := ops, pc := pc, next := next, after := after, cycle := s.cycle }
  let s := s.setCv g.team n t
  let s := if m &&& r.signedOf g.gidx = 0 || g.blocks.contains (.heldSign n) then s else s.block slot (.heldSign n)
  s.cvTest g.team n (t.held.length + 2)

/-- Lanes of a group that exit leave the convergence sets they belong to (R239). -/
def State.cvExit (s : State) (slot : Nat) (m : LaneMask) : State :=
  let g := s.group slot
  (List.range 16).foldl (fun s n =>
    let r := (s.team g.team).cvReg n
    if r.st == .open && decide (r.first ≤ g.gidx ∧ g.gidx < r.first + r.groups) then
      let signed := m &&& r.signedOf g.gidx
      let left := SMap.get r.leaving g.gidx 0 ||| signed
      let s := s.setCv g.team n
        { r with members := r.members - countLanes (m &&& ~~~ signed), leaving := if signed = 0 then r.leaving else SMap.set r.leaving g.gidx left }
      s.cvTest g.team n (r.held.length + 2)
    else s) s

/-! ### Barriers -/

/-- The team barrier completes when every non-exited group has arrived and the ordered accesses are performed (R75, R76, R287). -/
def State.barTest (s : State) (tm : Nat) : State :=
  let t := s.team tm
  let live := s.liveGroups tm
  if !t.barArr.isEmpty && live.all (fun g => t.barArr.contains g) && s.accsDone t.barAfter then
    let s := if t.barG then (List.range t.cores).foldl (fun s j => s.acquireInval (t.core + j)) s else s
    let s := s.setTeam tm { t with barArr := [], barG := false, barAfter := [] }
    t.barArr.foldl (fun s gi => s.unblock (t.slotOf gi) .bar 0) s
  else s

/-- A named barrier. -/
def Team.bar (t : Team) (n : Nat) : NamedBar := SMap.get t.bars n {}

/-- A named barrier replaced. -/
def State.setBar (s : State) (tm n : Nat) (b : NamedBar) : State :=
  s.updTeam tm fun t => { t with bars := SMap.set t.bars n b }

/-- Arrivals at the sync unit, in order: one by a group that has arrived in the phase and not yet waited is held; the first of a phase fixes COUNT;
the one that makes ARRIVED equal COUNT ends the phase, and the held arrivals come next (R288). -/
def NamedBar.arrive (G : Nat) : Nat → List BarArr → NamedBar → NamedBar
  | 0, _, b => b
  | _, [], b => b
  | f + 1, x :: xs, b =>
    if SMap.find b.marks x.gidx == some b.phase then NamedBar.arrive G f xs { b with held := b.held ++ [x] }
    else
      let count := if b.arrived = 0 then (if x.cnt = 0 ∨ G < x.cnt then G else x.cnt) else b.count
      let b := { b with count := count, arrived := b.arrived + 1, marks := SMap.set b.marks x.gidx b.phase, after := b.after ++ x.after }
      if b.arrived = count then
        NamedBar.arrive G f (b.held ++ xs)
          { b with phase := b.phase + 1, arrived := 0, held := [], after := [], closing := b.closing ++ [(b.phase, b.after)] }
      else NamedBar.arrive G f xs b

/-- Completed phases whose accesses are performed: the marks of their groups go, and the groups in barwait for them are woken (R75, R288). -/
def State.namedClose (s : State) (tm n : Nat) : State :=
  let t := s.team tm
  let b := t.bar n
  let past := (b.closing.filter fun c => s.accsDone c.2).map Prod.fst
  if past.isEmpty then s
  else
    let s := s.setBar tm n { b with
      closing := b.closing.filter fun c => !past.contains c.1
      marks := b.marks.filter fun m => !past.contains m.2 }
    past.foldl (fun s ph => t.slots.foldl (fun s p =>
      if (s.parked p.2).contains (.barNamed n ph.toNat) then s.unblock p.2 (.barNamed n ph.toNat) 0 else s) s) s

/-- The barriers of a team tested again after an access has been performed or a group has exited. -/
def State.pollTeam (s : State) (tm : Nat) : State :=
  (List.range 16).foldl (fun s n => s.namedClose tm n) (s.barTest tm)

/-- barrive (R288): an arrival; a group whose arrival is held parks, and groups whose held arrivals have counted resume. -/
def State.barrive (s : State) (slot n cnt : Nat) (after : List Nat) : State :=
  let g := s.group slot
  let t := s.team g.team
  let b := t.bar n
  let b' := NamedBar.arrive t.ngroups ((b.held.length + 2) * (b.held.length + 2)) [{ gidx := g.gidx, cnt := cnt, after := after }] b
  let isHeld (b : NamedBar) (i : Nat) : Bool := b.held.any fun x => x.gidx == i
  let s := s.setBar g.team n b'
  let s := if isHeld b' g.gidx && !g.blocks.contains (.heldBar n) then s.block slot (.heldBar n) else s
  let s := ((b.held.map (·.gidx)).eraseDups.filter fun i => !isHeld b' i).foldl (fun s i => s.unblock (t.slotOf i) (.heldBar n) 0) s
  s.namedClose g.team n

/-- The phase of the group's latest arrival at a barrier: that of its held ones counts on from the recorded one (R288). -/
def NamedBar.target (b : NamedBar) (gidx : Nat) : Option (BitVec 16) :=
  (SMap.find b.marks gidx).map fun ph => ph + BitVec.ofNat 16 (b.held.filter fun x => x.gidx == gidx).length

/-- barwait (R288): parks until the phase of the group's last arrival has completed. -/
def State.barwait (s : State) (slot n : Nat) : State :=
  let g := s.group slot
  match ((s.team g.team).bar n).target g.gidx with
  | none => s
  | some ph => s.block slot (.barNamed n ph.toNat)

end Sys2Proof.Machine
end

