-- ==== Sys2Proof/Machine/Translate.lean ====
section
/-! DEFINITION. Translation of device virtual addresses: the rights of a leaf (R121), the TLBs and their hotness counters (R122, R126, R127), and the admission of misses to the walker (R123). The walk itself is an event. -/

namespace Sys2Proof.Machine

open Sys2Proof

/-- What an access asks of a leaf (05 Table 4). -/
inductive Right
  | load
  | store
  | atomic
  | fetch
deriving DecidableEq, Repr

/-- The leaf permits the access (R121). -/
def TlbEntry.permits (e : TlbEntry) : Right → Bool
  | .load => e.rd
  | .store => e.wr
  | .atomic => e.rd && e.wr
  | .fetch => e.ex && e.rd

/-- The entry translates the address. -/
def TlbEntry.hit (e : TlbEntry) (asid va : Nat) : Bool := e.asid == asid && va / 2 ^ e.size == e.va / 2 ^ e.size

/-- The physical address (R16). -/
def TlbEntry.pa (e : TlbEntry) (va : Nat) : Nat := e.frame + va % 2 ^ e.size

/-- The same translation, whatever its counter. -/
def TlbEntry.same (e f : TlbEntry) : Bool := e.asid == f.asid && e.va == f.va && e.size == f.size

/-- A saturating count. -/
def satAdd (lim a b : Nat) : Nat := min lim (a + b)

/-- The entry in use once more (R126). -/
def TlbEntry.touch (e : TlbEntry) : TlbEntry := { e with hot := satAdd 255 e.hot 1 }

/-- The outcome of a translation at issue. -/
inductive XRes
  | ok (e : TlbEntry)
  | wait
  | fault (cls : BitVec 8) (noncan : Bool) (level : Nat) (pte : DWord)
deriving DecidableEq, Repr

/-! The numbers of the requesters of translations. -/

/-- A group's accesses. -/
def dataReq (uid : Nat) : Nat := 8 * uid
/-- A group's fetches. -/
def fetchReq (uid : Nat) : Nat := 8 * uid + 1
/-- The load pipes of a core's matrix unit. -/
def matReq (core : Nat) : Nat := 8 * core + 2
/-- The context window of a cluster. -/
def winReq : Nat := 3
/-- The completion word of a launch. -/
def launchReq (id : Nat) : Nat := 8 * id + 4

/-- The requester that the issuing group's accesses are. -/
def Ctx.req (c : Ctx) : Nat := dataReq c.g.uid

/-- What a walk that ended gave a requester that has not replayed its request yet. -/
def Cluster.walked (c : Cluster) (req asid va : Nat) : Option XFault :=
  (c.xres.find? fun x => x.1 == req && x.2.1 == asid && x.2.2.1 == va / 2 ^ 16).map fun x => x.2.2.2

/-- The walk of this request that ended at a leaf: its level and the entry, for the record of a fault that the leaf gives rise to (05 Table 13); without
a walk both are 0. -/
def Cluster.leafSeen (c : Cluster) (req asid va : Nat) : Nat × DWord :=
  match c.walked req asid va with
  | some f => (f.level, f.pte)
  | none => (0, 0)

/-- The translation of an address for a requester on a core: from the micro-TLB, the cluster TLB, or the result of a walk that ended
with a fault; otherwise it waits for a walk (R15, R122, R123). -/
def State.xlate (s : State) (req core asid va : Nat) : XRes :=
  if 2 ^ 55 ≤ va then .fault clsPage true 0 0
  else
    match (s.core core).utlb.find? (·.hit asid va) with
    | some e => .ok e
    | none =>
      let c := s.cluster (coreCluster core)
      match c.tlb.find? (·.hit asid va) with
      | some e => .ok e
      | none =>
        match c.walked req asid va with
        | some x => if x.cls = 0 then .wait else .fault x.cls false x.level x.pte
        | none => .wait

/-- The translation of an address in a cluster's TLB for a requester that has no micro-TLB (R122): a copy, the matrix unit, the context window. -/
def State.xlateIn (s : State) (cl req asid va : Nat) : XRes :=
  if 2 ^ 55 ≤ va then .fault clsPage true 0 0
  else
    let c := s.cluster cl
    match c.tlb.find? (·.hit asid va) with
    | some e => .ok e
    | none =>
      match c.walked req asid va with
      | some x => if x.cls = 0 then .wait else .fault x.cls false x.level x.pte
      | none => .wait

/-- The results of ended walks that wait for a requester are used up. -/
def State.dropX (s : State) (cluster req : Nat) : State :=
  let c := s.cluster cluster
  if c.xres.any (·.1 == req) then s.setCluster cluster { c with xres := c.xres.filter fun x => x.1 != req } else s

/-- A walk for a page of an address space. -/
def Walk.for_ (w : Walk) (asid page : Nat) : Bool := w.asid == asid && w.page == page

/-- A requester joins an entry. -/
def Walk.join (w : Walk) (req : Nat) : Walk := if w.req.contains req then w else { w with req := w.req ++ [req] }

/-- A miss of the cluster TLB (R123): it joins the entry of its page, takes a free one of the 256, or waits in arrival order; a new entry
starts its walk if one of the 64 walk slots is free. -/
def Cluster.admitMiss (c : Cluster) (asid page desc req : Nat) : Cluster :=
  if c.walks.any (·.for_ asid page) then
    { c with walks := c.walks.map fun w => if w.for_ asid page then w.join req else w }
  else if c.missWait.any (fun w => w.for_ asid page && w.req.contains req) then c
  else
    let w : Walk := { asid := asid, page := page, desc := desc, req := [req], running := decide ((c.walks.filter (·.running)).length < 64) }
    if c.walks.length < 256 && c.missWait.isEmpty then { c with walks := c.walks ++ [w] }
    else { c with missWait := c.missWait ++ [{ w with running := false }] }

/-- The descriptor address of the context of a slot (R118). -/
def State.descOf (s : State) (slot : Nat) : Nat := (SMap.get s.launches (s.team (s.group slot).team).launch {}).desc

/-- The misses of an instruction admitted, one per page. -/
def State.admitPages (s : State) (cluster asid desc req : Nat) (pages : List Nat) : State :=
  s.setCluster cluster (pages.foldl (fun c p => c.admitMiss asid p desc req) (s.cluster cluster))

/-- The counter of a TLB entry sent to the shadow table, if it is not 0 (R127); without a descriptor in the cache it is dropped. -/
def State.sendShadow (s : State) (cluster : Nat) (e : TlbEntry) : State :=
  if e.hot = 0 then s
  else
    let c := s.cluster cluster
    match SMap.find c.desc e.asid with
    | some d => { s with shadows := s.shadows ++ [(cluster, d.shadow, d.shlimit, e.va / 2 ^ 16, e.hot)] }
    | none => s.setCluster cluster { c with shdrop := c.shdrop + 1 }

/-- A micro-TLB entry leaves: its counter is folded into the cluster TLB entry, or sent to the shadow table (R126). -/
def State.foldMicro (s : State) (core : Nat) (e : TlbEntry) : State :=
  let k := s.core core
  let s := s.setCore core { k with utlb := k.utlb.filter fun f => !f.same e }
  let cl := coreCluster core
  let c := s.cluster cl
  if c.tlb.any (·.same e) then
    s.setCluster cl { c with tlb := c.tlb.map fun f => if f.same e then { f with hot := satAdd 255 f.hot e.hot } else f }
  else s.sendShadow cl e

/-- A cluster TLB entry leaves (R127). -/
def State.evictTlb (s : State) (cl : Nat) (e : TlbEntry) : State :=
  let c := s.cluster cl
  (s.setCluster cl { c with tlb := c.tlb.filter fun f => !f.same e }).sendShadow cl e

/-- The set of the cluster TLB that an entry stands in: 512 sets of 8 ways (R122); the set is taken from the page number, of which
the spec says nothing (log 80). -/
def tlbSet (e : TlbEntry) : Nat := e.va / 2 ^ e.size % 512

/-- A translation installed in the cluster TLB with its leaf's seed (R122, R126); the oldest entry of a full set leaves (log 80). -/
def State.installTlb (s : State) (cl : Nat) (e : TlbEntry) : State :=
  let c := s.cluster cl
  let row := c.tlb.filter fun f => tlbSet f == tlbSet e
  let s := if 8 ≤ row.length then (match row.getLast? with
    | some old => s.evictTlb cl old
    | none => s) else s
  let c := s.cluster cl
  s.setCluster cl { c with tlb := { e with hot := e.seed } :: c.tlb.filter fun f => !f.same e }

/-- A translation used by one request of a core: installed in the micro-TLB if it was not there, and counted (R122, R126). The spec names no order of
replacement: from a full micro-TLB the oldest entry leaves (log 80). -/
def State.useTlb (s : State) (core : Nat) (e : TlbEntry) : State :=
  let k := s.core core
  if k.utlb.any (·.same e) then
    s.setCore core { k with utlb := k.utlb.map fun f => if f.same e then f.touch else f }
  else
    let s := if 128 ≤ k.utlb.length then (match k.utlb.getLast? with
      | some old => s.foldMicro core old
      | none => s) else s
    let k := s.core core
    s.setCore core { k with utlb := { e with hot := satAdd 255 e.seed 1 } :: k.utlb }

/-- Translations, each once. -/
def onceEach (es : List TlbEntry) : List TlbEntry := es.foldl (fun l e => if l.any (·.same e) then l else l ++ [e]) []

/-- The translations of one instruction used, each once (R126). -/
def State.useTlbs (s : State) (core : Nat) (es : List TlbEntry) : State := (onceEach es).foldl (fun s e => s.useTlb core e) s

/-- The translations of one request of a unit without a micro-TLB used (R122, R126). -/
def State.useTlbsIn (s : State) (cl : Nat) (es : List TlbEntry) : State :=
  let c := s.cluster cl
  s.setCluster cl { c with tlb := c.tlb.map fun f => if es.any (·.same f) then f.touch else f }

end Sys2Proof.Machine
end

