-- ==== Sys2Proof/Machine/Access.lean ====
section
/-! DEFINITION. The requests of memory instructions at issue: addresses (R270), the checks of every lane before any access is sent (R72, R133, R134, R19 to R29, R49, R121, R271), the division into merged requests (R59, R72), the interleave (R31, R144), and L1 at issue (R43, R61). -/

namespace Sys2Proof.Machine

open Sys2Proof

/-! ### Homes -/

/-- The descriptor of a routing point (R144). -/
def State.routeAt (s : State) (point : Nat) : RouteDesc := SMap.get s.hub.route point {}

/-- Where a descriptor sends a request (R144). -/
def State.homeBy (s : State) (d : RouteDesc) (pa : Nat) : Nat :=
  if d.phase.getLsbD 0 && decide (granuleOf pa < d.next) then homeUnder s.hub.newLive pa else homeUnder s.hub.live pa

/-- Where a routing point sends a request. -/
def State.routeTo (s : State) (point pa : Nat) : Nat := s.homeBy (s.routeAt point) pa

/-- What a home slice does with a request that reaches it (06 Table 10). -/
inductive HomeFate
  | perform
  | stallOld
  | stallNew
  | moved
deriving DecidableEq, Repr

/-- 06 Table 10 for a request that was sent to a slice. -/
def State.homeFate (s : State) (home pa : Nat) : HomeFate :=
  let g := granuleOf pa
  let h := s.hub
  if !h.odd then (if h.prev.isSome && home != homeUnder h.live pa then .moved else .perform)
  else
    let o := homeUnder h.live pa
    let n := homeUnder h.newLive pa
    if o = n then (if home = o then .perform else .moved)
    else if home = o then (if g < h.mnext then .moved else if h.granule = some g then .stallOld else .perform)
    else if home = n then (if g < h.mnext then .perform else .stallNew)
    else .moved

/-- A granule is sealed, so that no request for it is performed (R150). -/
def State.sealed (s : State) (pa : Nat) : Bool := s.hub.granule == some (granuleOf pa)

/-! ### Refusals by physical address -/

/-- The offset lies in an assigned block of the MMIO space (01 Table 7). -/
def mmioAssigned (off : Nat) : Bool :=
  let d := off / 2 ^ 32
  let r := off % 2 ^ 32
  if d < 8 then r < 0x10000000 || (0x10000000 ≤ r && r < 0x12000000) || (0x20000000 ≤ r && r < 0x21000000)
  else if d = 16 then
    r < 0x03000000 || (0x04000000 ≤ r && r < 0x08000000) || (0x10000000 ≤ r && r < 0x60000000)
  else false

/-- The data range of a window (R47). -/
def Fwin.hasData (w : Fwin) (pa : Nat) : Bool := decide (w.base * 2 ^ 16 ≤ pa ∧ pa < w.fin * 2 ^ 16)

/-- The scale region of a window overlaps a range (R47). -/
def Fwin.hasScale (w : Fwin) (pa n : Nat) : Bool :=
  decide (pa < w.sbase * 8 + (w.fin - w.base) * 2 ^ 13 ∧ w.sbase * 8 < pa + n)

/-- The enabled windows, by number. -/
def State.windows (s : State) : List (Nat × Fwin) := s.hub.fwin.filter fun p => p.2.en

/-- A write touches the scale region of an enabled window (R49). -/
def State.scaleHit (s : State) (pa n : Nat) : Bool := s.windows.any fun p => p.2.hasScale pa n

/-- The class that a request to a physical address raises at once, if any (R22 to R29, R49, R271): `priv` is privileged in origin, `ty`
the TYPE of the leaf, `n` the bytes of the access. -/
def State.refuse (s : State) (priv : Bool) (r : Right) (ty pa n : Nat) : Option (BitVec 8) :=
  if ty = 2 ∧ !priv then some clsPrivilege
  else
    match pRange pa with
    | .hbm =>
      if isFirmware pa && !priv then some clsProtection
      else if s.hub.memcap ≤ pa then some clsCapacity
      else if r != .load && r != .fetch && s.scaleHit pa n then some clsWindow
      else none
    | .peer k off =>
      let w := SMap.get s.hub.peerwin k {}
      if !w.en || w.port == 3 || w.fenced || k == Config.boardPos.toNat then some clsProtection
      else if 2 ^ 39 ≤ off then some clsCapacity
      else none
    | .pcie k _ => if (k == 0 && Config.endpoint) || r == .atomic || r == .fetch then some clsProtection else none
    | .mmio off =>
      if !priv || ty != 2 then some clsPrivilege
      else if n != 4 && n != 8 then some clsAlignment
      else if r == .atomic || r == .fetch || !mmioAssigned off then some clsProtection
      else none
    | .reserved => some clsProtection

/-! ### Addresses -/

/-- A 32-bit value sign-extended. -/
def sext64 (x : DWord) : DWord := (x.setWidth 32).signExtend 64

/-- The device virtual address of a lane (R270). -/
def Ctx.gaddr (c : Ctx) (xs : Nat) (l : Lane) : DWord :=
  c.a .int l + sext64 (c.b .int l) * BitVec.ofNat 64 (2 ^ xs) + sext64 (c.c .int l)

/-- The exact scratchpad address of a lane (R270). -/
def Ctx.saddr (c : Ctx) (xs : Nat) (l : Lane) : Int :=
  (c.a .int l).toNat % 2 ^ 32 + (c.b .int l).toNat % 2 ^ 32 * 2 ^ xs + ((c.c .int l).setWidth 32 : Word).toInt

/-- XS of a memory operand (R272). -/
def Ctx.xs (c : Ctx) : Nat := c.e.func.toNat / 2 % 4

/-- What the checks find for one lane. -/
inductive LaneChk
  /-- the physical or scratchpad address, and the translation used -/
  | ok (pa : Nat) (e : Option TlbEntry)
  /-- the page is being walked -/
  | wait (page : Nat)
  | fault (cls : BitVec 8) (space : Nat) (addr : DWord) (noncan : Bool) (level : Nat) (pte : DWord)
deriving DecidableEq, Repr

/-- The checks of a device virtual address with a way to translate it: alignment, translation, rights, refusals (R72, R15, R121, R22 to R29). -/
def State.checkBy (s : State) (x : XRes) (seen : Nat × DWord) (priv : Bool) (r : Right) (n align : Nat) (a : DWord) : LaneChk :=
  if a.toNat % align ≠ 0 then .fault clsAlignment 0 a false 0 0
  else
    let (lv, pte) := seen
    match x with
    | .wait => .wait (a.toNat / 2 ^ 16)
    | .fault k nc lv pte => .fault k 0 a nc lv pte
    | .ok e =>
      if e.ty = 2 ∧ !priv then .fault clsPrivilege 0 a false lv pte
      else if !e.permits r then .fault clsProtection 0 a false lv pte
      else
        match s.refuse priv r e.ty (e.pa a.toNat) n with
        | some k => .fault k 0 a false lv pte
        | none => .ok (e.pa a.toNat) (some e)

/-- The checks of an address that a core reaches, through its micro-TLB (R122). -/
def State.checkGlobal (s : State) (slot : Nat) (priv : Bool) (asid : Nat) (r : Right) (n align : Nat) (a : DWord) : LaneChk :=
  let req := if r == .fetch then fetchReq (s.group slot).uid else dataReq (s.group slot).uid
  s.checkBy (s.xlate req (slotCore slot) asid a.toNat) ((s.cluster (slotCluster slot)).leafSeen req asid a.toNat) priv r n align a

/-- The checks of an address that a unit of the cluster reaches for a group: a copy, the matrix unit (R30, R122). -/
def State.checkUnit (s : State) (slot : Nat) (priv : Bool) (asid : Nat) (r : Right) (n align : Nat) (a : DWord) : LaneChk :=
  let req := dataReq (s.group slot).uid
  let cl := slotCluster slot
  s.checkBy (s.xlateIn cl req asid a.toNat) ((s.cluster cl).leafSeen req asid a.toNat) priv r n align a

/-- The checks of a scratchpad address: alignment and the team's size (R19, R72). -/
def State.checkSpad (s : State) (slot : Nat) (n align : Nat) (a : Int) : LaneChk :=
  let t := s.team (s.group slot).team
  let w : DWord := BitVec.ofInt 64 a
  if a < 0 ∨ 2 ^ 32 ≤ a then .fault clsProtection 1 w false 0 0
  else if a.toNat % align ≠ 0 then .fault clsAlignment 1 w false 0 0
  else if t.spadSize < a.toNat + n then .fault clsProtection 1 w false 0 0
  else .ok a.toNat none

/-- The faults of lanes as one record: the class earliest in 05 Table 12, the lanes that raise it, the lowest lane's address (R134). -/
def laneFault (kind : Nat) (pc : DWord) (m : LaneMask) (chk : Lane → LaneChk) : Option FaultInfo :=
  let cls (l : Lane) : Option (BitVec 8) := match chk l with
    | .fault k _ _ _ _ _ => some k
    | _ => none
  let found := (lanesIn m).filterMap cls
  match classOrder.find? fun k => found.contains k with
  | none => none
  | some k =>
    let ls := maskOf fun l => laneIn m l && cls l == some k
    match chk (lowLane ls) with
    | .fault _ sp a nc lv pte =>
      some { cls := k, lanes := ls, kind := kind, space := sp, addr := a, noncan := nc, level := lv, pte := pte, pc := pc }
    | _ => none

/-- The pages that lanes wait for. -/
def lanePages (m : LaneMask) (chk : Lane → LaneChk) : List Nat :=
  ((lanesIn m).filterMap fun l => match chk l with
    | .wait p => some p
    | _ => none).eraseDups

/-- The translations that lanes used. -/
def laneEntries (m : LaneMask) (chk : Lane → LaneChk) : List TlbEntry :=
  (lanesIn m).filterMap fun l => match chk l with
    | .ok _ e => e
    | _ => none

/-- The address that a lane's checks gave. -/
def LaneChk.pa : LaneChk → Nat
  | .ok p _ => p
  | _ => 0

/-- The address is memory that the caches may hold (R42, R61): HBM by a leaf of TYPE 1. -/
def LaneChk.inHbm : LaneChk → Bool
  | .ok pa (some e) => e.ty == 1 && pRange pa == .hbm
  | _ => false

/-- The lanes that perform an access: one for a scalar instruction (R208, R273). -/
def Ctx.eff (c : Ctx) : LaneMask := if c.scalar && c.act != 0 then maskOf fun l => l == c.low else c.act

/-- A wait of a group behind which the later accesses of its run are performed: an acquire WAIT (R64), a fence (R79), a team barrier (R75, R76, R287),
tags (R82), a matrix token (R83), a task (R86), TSTAMPR.S (R339); a named barrier and CARVE hold scratchpad accesses only (R75, R178). -/
def Block.orders (g : Group) (spad : Bool) : Block → Bool
  | .wait => (g.wait.map (·.acq)).getD false
  | .fence _ | .tstamp _ | .bar | .tagAny _ _ _ | .tagAll _ _ | .mwait _ _ | .tget _ _ => true
  | .barNamed _ _ | .carve _ => spad
  | _ => false

/-- The waits of the group in a slot behind which an access that issues now is performed. -/
def State.behind (s : State) (slot : Nat) (spad : Bool) : List Block := (s.group slot).blocks.filter (Block.orders (s.group slot) spad)

/-- The acquires of the group in a slot that are not performed: every later access follows them (R64). -/
def State.acquiring (s : State) (slot : Nat) : List Nat := s.openAccs slot fun a => a.ord.getLsbD 0

/-- An operation of the group that enters a queue in order waits at issue for its acquires and for the waits before it (R64, R68). -/
def State.holdAccess (s : State) (slot : Nat) : Bool := !(s.acquiring slot).isEmpty || !(s.behind slot true).isEmpty

/-- None of the waits that an access of a group stands behind is still one of the group's. -/
def State.clear (s : State) (slot uid : Nat) (l : List Block) : Bool :=
  l.all fun b => !((s.group slot).uid == uid && (s.group slot).blocks.contains b) &&
    !((s.prog slot).uid == uid && (s.prog slot).blocks.contains b)

/-- The memory requests of a core that are outstanding (R271). -/
def State.requests (s : State) (core : Nat) : Nat :=
  ((s.accs.filter fun p => slotCore p.2.slot == core).map fun p => (p.2.pieces.filter fun q => !q.done).length).sum

/-- THE CHECKS OF A MEMORY INSTRUCTION of `n` requests before anything is sent: it waits at issue for walks and for the request limit; a lane that
fails makes it fault precisely (R133, R134, R271); otherwise the translations are used and it goes on. -/
def Ctx.checked (c : Ctx) (kind : Nat) (m : LaneMask) (chk : Lane → LaneChk) (n : Nat) (go : State → Out) (s : State) : Out :=
  match lanePages m chk with
  | p :: ps => .next (s.admitPages c.cluster c.g.asid (s.descOf c.slot) c.req (p :: ps))
  | [] =>
    let s' := s.dropX c.cluster c.req
    match laneFault kind c.pc m chk with
    | some f => .next (s'.raise c.slot .retry f)
    | none => if 4096 < s.requests c.core + n then .next s else go (s'.useTlbs c.core (laneEntries m chk))

/-! ### Merged requests -/

/-- The units of an access of `n` bytes at an address: unit address, unit size, offset in it, bytes, offset in the value (R72). -/
def unitsOf (a n : Nat) : List (Nat × Nat × Nat × Nat × Nat) :=
  if n ≤ 4 then [(a / 4 * 4, 4, a % 4, n, 0)]
  else if n = 8 then [(a, 8, 0, 8, 0)]
  else (List.range (n / 4)).map fun k => (a + 4 * k, 4, 0, 4, 4 * k)

/-- A part added to the request of its unit (R59). -/
def addPart (ps : List Piece) (addr size : Nat) (p : LanePart) : List Piece :=
  if ps.any (·.addr == addr) then ps.map fun q => if q.addr == addr then { q with parts := q.parts ++ [p] } else q
  else ps ++ [{ addr := addr, size := size, parts := [p] }]

/-- The merged requests of an instruction, lanes ascending (R59). -/
def piecesOf (m : LaneMask) (n : Nat) (addr : Lane → Nat) : List Piece :=
  (lanesIn m).foldl (fun ps l =>
    (unitsOf (addr l) n).foldl (fun ps u => addPart ps u.1 u.2.1 ⟨l.val, u.2.2.1, u.2.2.2.1, u.2.2.2.2⟩) ps) []

/-- The requests sent to their home slices (R144). -/
def State.routed (s : State) (cluster : Nat) (ps : List Piece) : List Piece :=
  let d := SMap.get s.hub.route cluster {}
  ps.map fun p => { p with home := s.routeTo cluster p.addr, phase := d.phase, next := d.next, cap := s.hub.memcap }

/-- Two requests touch a common byte. -/
def Piece.overlaps (p q : Piece) : Bool := decide (p.addr < q.addr + q.size ∧ q.addr < p.addr + p.size)

/-- Two requests have a lane in common. -/
def Piece.sharesLane (p q : Piece) : Bool := p.parts.any fun x => q.parts.any fun y => x.lane == y.lane

/-- The group's WAIT on a word of the request, issued before it, has not been checked (R58). -/
def State.waitBefore (s : State) (a : Access) (p : Piece) : Bool :=
  s.waits.contains (a.slot, a.uid) && (match (s.group a.slot).wait with
    | some w => (s.group a.slot).uid == a.uid && w.sp == (a.space == .spad) && decide (w.d.seq < a.seq) &&
        decide (w.addr < p.addr + p.size ∧ p.addr < w.addr + (if w.w64 then 8 else 4)) && w.lanes &&& a.lanes != 0
    | none => false)

/-- An earlier access of the same threads to a word of the request is not performed (R58); a qunpk is one load of the whole group. -/
def State.earlier (s : State) (id : Nat) (a : Access) (p : Piece) (f : Access → Bool) : Bool :=
  s.accs.any fun b =>
    decide (b.1 < id) && b.2.slot == a.slot && b.2.uid == a.uid && b.2.space == a.space && f b.2 && b.2.kind != .prefetch &&
    b.2.pieces.any fun q => !q.done && q.overlaps p && (a.kind == .qunpk || b.2.kind == .qunpk || q.sharesLane p)

/-- A store of the same core to a word of the request, issued and shown to L1 before it, is not performed (R60). -/
def State.coreStore (s : State) (id : Nat) (a : Access) (p : Piece) : Bool :=
  a.space == .global && s.accs.any fun b =>
    decide (b.1 < id) && slotCore b.2.slot == slotCore a.slot && b.2.space == .global && b.2.kind == .store && !b.2.trail && !b.2.held &&
    b.2.pieces.any fun q => !q.done && decide (q.addr / 4 * 4 < p.addr + p.size ∧ p.addr / 4 * 4 < q.addr + q.size)

/-! ### L1 at issue -/

/-- An L1 line; absent lines read as empty. -/
def Core.line (k : Core) (pa : Nat) : Option (SMap L1Word) := SMap.find k.l1 (pa / 128)

/-- An L1 word, if its line is present. -/
def Core.word (k : Core) (pa : Nat) : Option L1Word := (k.line pa).map fun ln => SMap.get ln (pa / 4 % 32) {}

/-- An L1 word of a present line changed. -/
def Core.updWord (k : Core) (pa : Nat) (f : L1Word → L1Word) : Core :=
  match k.line pa with
  | none => k
  | some ln => { k with l1 := SMap.set k.l1 (pa / 128) (SMap.upd ln (pa / 4 % 32) {} f) }

/-- The words of a request. -/
def Piece.words (p : Piece) : List Nat := (List.range ((p.size + 3) / 4)).map fun k => p.addr + 4 * k

/-- Bits `8·off` on of a value, `n` bytes. -/
def bytesAt (x off n : Nat) : Nat := x / 2 ^ (8 * off) % 2 ^ (8 * n)

/-- `n` bytes placed at an offset of a value. -/
def putBytes (x off n y : Nat) : Nat := x - bytesAt x off n * 2 ^ (8 * off) + y % 2 ^ (8 * n) * 2 ^ (8 * off)

/-- The value of a unit given to the lanes of a request (R59). -/
def Access.take (a : Access) (p : Piece) (x : Nat) : Access :=
  { a with ret := p.parts.foldl (fun r q =>
      if h : q.lane < 32 then
        r.set q.lane (BitVec.ofNat 128 (putBytes (r[q.lane]).toNat q.voff q.n (bytesAt x q.off q.n)))
      else r) a.ret }

/-- The lanes of a request. -/
def Piece.mask (p : Piece) : LaneMask := maskOf fun l => p.parts.any fun q => q.lane == l.val

/-- Some lanes meet a fault of a class when their request is performed. -/
def Access.meet (a : Access) (m : LaneMask) (cls : BitVec 8) : Access := if m = 0 then a else { a with found := a.found ++ [(cls, m)] }

/-- The class that stands first in 05 Table 12 of those that lanes met, and its lanes (R134). -/
def Access.fault (a : Access) : BitVec 8 × LaneMask :=
  match classOrder.find? fun k => a.found.any fun x => x.1 == k with
  | some k => (k, a.found.foldl (fun m x => if x.1 = k then m ||| x.2 else m) 0)
  | none => (0, 0)

/-- The class of a poisoned line when it is consumed, by its PCAUSE (02 Table 6). -/
def psnClass (pcause : Nat) : BitVec 8 := if pcause = 1 then clsQ4x else clsPoison

/-- The code bytes and the side record that a qunpk has read, as numbers. -/
def Access.block (a : Access) : Nat × Nat :=
  let w (k : Nat) : Nat := if h : k < 32 then (a.ret[k]).toNat % 2 ^ 32 else 0
  ((List.range 16).foldr (fun k x => w k + 2 ^ 32 * x) 0, w 16 + 2 ^ 32 * w 17)

/-- A qunpk whose pieces have all come back is decoded: a malformed block fails (R267, R412). -/
def Access.judged (a : Access) : Access :=
  if a.kind == .qunpk && !a.bad && (let b := a.block; q4xMalformed b.1 b.2) then a.meet 1 clsQ4x else a

/-- The same as soon as L1 has served all of it. -/
def Access.judgedIfDone (a : Access) : Access := if a.performed then a.judged else a

/-- A load served from L1 (R43, R61): every word of the request is valid there, and holds what the thread's own earlier stores left. -/
def State.l1Hit (s : State) (id : Nat) (a : Access) (p : Piece) : Bool :=
  let k := s.core (slotCore a.slot)
  let ws := p.words.map fun w => k.word w
  ws.all (fun w => match w with
    | some x => x.valid
    | none => false) &&
  !(s.earlier id a p fun b => b.kind != .store) &&
  (!(s.earlier id a p fun b => b.kind == .store) || ws.all fun w => match w with
    | some x => x.own
    | none => false)

/-- The value of a unit in L1. -/
def Core.unit (k : Core) (p : Piece) : Nat :=
  (p.words.foldr (fun w x => ((k.word w).getD {}).data.toNat + 2 ^ 32 * x) 0) % 2 ^ (8 * p.size)

/-- The bytes that a contained team holds of a range, laid over what the home has (R370). -/
def Team.overlay (t : Team) (pa n x : Nat) : Nat :=
  t.commit.foldl (fun x b => if pa ≤ b.1 ∧ b.1 < pa + n then putBytes x (b.1 - pa) 1 b.2.toNat else x) x

/-- The contained team whose group, not a routine in its slot, made an access (R370). -/
def State.containedOf (s : State) (a : Access) : Option Nat :=
  let g := s.prog a.slot
  if g.uid = a.uid ∧ (s.team g.team).contained then some g.team else none

/-- What a load of an access reads of a range where its home has a value: its contained team's held bytes are laid over it (R370). -/
def State.seen (s : State) (a : Access) (pa n x : Nat) : Nat := match s.containedOf a with
  | some tm => (s.team tm).overlay pa n x
  | none => x

/-! ### Races with loads from the parameter window -/

/-- A load from the parameter window, not performed, whose lanes read some of the bytes of a store: they receive undefined values (R10, R274). -/
def Access.race (a : Access) (pa n : Nat) : Access :=
  if !a.const || a.performed then a
  else
    let m := maskOf fun l => a.pieces.any fun p => p.parts.any fun q => q.lane == l.val && meets (p.addr + q.off) q.n pa n
    { a with undef := a.undef ||| (if a.once && m != 0 then a.lanes else m) }

/-- A store by any agent, or by the group of a number, meets the loads from the parameter window that are not performed (R274). -/
def State.race (s : State) (uid : Option Nat) (pa n : Nat) : State :=
  if s.accs.any fun x => x.2.const then
    { s with accs := s.accs.map fun x => (x.1, if some x.2.uid = uid then x.2 else x.2.race pa n) }
  else s

/-- The access writes global memory. -/
def Access.stores (a : Access) : Bool :=
  a.space == .global && (match a.kind with
    | .store | .atomic _ _ => true
    | _ => false)

/-- A load from the parameter window meets the stores of other groups that are not performed (R274). -/
def State.raceLoad (s : State) (a : Access) : Access :=
  if !a.const then a
  else
    s.accs.foldl (fun a b =>
      if b.2.uid = a.uid || !b.2.stores then a
      else (b.2.pieces.filter fun p => !p.done).foldl (fun a p => a.race p.addr p.size) a) a

/-- A load from the parameter window finds in L1 what a store has changed at the home since: the store races with it (R274). -/
def State.raceL1 (s : State) (a : Access) (p : Piece) : Access :=
  let k := s.core (slotCore a.slot)
  if a.const && p.words.any fun w => match k.word w with
      | some x => !x.own && x.data != s.word w
      | none => false
  then a.race p.addr p.size else a

/-- A load looks its words up in L1 when it issues. -/
def State.l1Load (s : State) (id : Nat) (a : Access) : Access :=
  let k := s.core (slotCore a.slot)
  if !a.cached then a
  else
    (List.range a.pieces.length).foldl (fun a i =>
      match a.pieces[i]? with
      | none => a
      | some p =>
        if s.l1Hit id a p then
          let a := (s.raceL1 a p).take p (s.seen a p.addr p.size (k.unit p))
          let a := match p.words.find? fun w => ((k.word w).getD {}).psn with
            | some w => a.meet p.mask (psnClass ((k.word w).getD {}).pcause)
            | none => a
          { a with pieces := a.pieces.set i { p with done := true } }
        else a) a

/-- The bytes that a store writes to a word, lanes ascending, as pairs of byte number and value (R59). -/
def Access.storeBytes (a : Access) (p : Piece) : SMap Byte :=
  p.parts.foldl (fun m q =>
    if h : q.lane < 32 then
      (List.range q.n).foldl (fun m k => SMap.set m (q.off + k) (BitVec.ofNat 8 (bytesAt (a.data[q.lane]).toNat (q.voff + k) 1))) m
    else m) []

/-- A store reaches L1: a present word takes the bytes if it is valid or written whole, and is marked locally written (R43). -/
def Core.storeWord (k : Core) (w : Nat) (bs : SMap Byte) (base : Nat) : Core :=
  let mine := bs.filter fun b => decide (w ≤ base + b.1 ∧ base + b.1 < w + 4)
  if mine.isEmpty then k
  else
    k.updWord w fun x =>
      let y := mine.foldl (fun d b => putBytes d (base + b.1 - w) 1 b.2.toNat) x.data.toNat
      let takes := x.valid || mine.length == 4
      { x with own := true, valid := takes, data := if takes then BitVec.ofNat 32 y else x.data }

/-- L1 when a global access issues: a store updates present words, one that a store compare buffer holds among them; an atomic or a WAIT invalidates
its word (R43). What a contained team stores is held elsewhere (R370); a store behind a wait of its run is not seen before that wait ends. -/
def State.l1Issue (s : State) (a : Access) : State :=
  let core := slotCore a.slot
  let k := s.core core
  match a.kind with
  | .load | .qunpk | .prefetch => s
  | .store =>
    if a.space == .spad || a.trail || (s.containedOf a).isSome then s
    else if a.held then
      s.setCore core (a.pieces.foldl (fun k p => p.words.foldl (fun k w => k.updWord w fun x => { x with own := true, valid := false }) k) k)
    else s.setCore core (a.pieces.foldl (fun k p => p.words.foldl (fun k w => k.storeWord w (a.storeBytes p) p.addr) k) k)
  | .atomic _ _ =>
    if a.space == .spad then s
    else s.setCore core (a.pieces.foldl (fun k p => p.words.foldl (fun k w => k.updWord w fun x => { x with valid := false }) k) k)

/-- The accesses that one follows: a release every earlier one, an acquire the releases, and each the acquires of its group (R63 to R65). -/
def State.orderAfter (s : State) (slot : Nat) (ord : BitVec 2) : List Nat :=
  if ord.getLsbD 1 then s.openAccs slot fun _ => true
  else if ord.getLsbD 0 then s.openAccs slot fun a => a.ord != 0
  else s.acquiring slot

/-- An access sent: numbered, a load looked up in L1, a store or an atomic shown to L1 (R43, R61). -/
def State.sendAccess (s : State) (a : Access) : Nat × State :=
  let (id, s) := s.fresh
  let a := { a with held := !a.behind.isEmpty || (!a.after.isEmpty && !a.ord.getLsbD 1) }
  let s := s.l1Issue a
  let s := if a.stores then a.pieces.foldl (fun s p => s.race (some a.uid) p.addr p.size) s else s
  let a := s.raceLoad a
  let a := if (a.kind == .load || a.kind == .qunpk) && !a.held then (s.l1Load id a).judgedIfDone else a
  (id, { s with accs := SMap.set s.accs id a })

/-- The bytes of an operand of an MMA, as first address and end; with a swizzle, to the end of its span (R298). -/
def operandRange (isA : Bool) (d : BitVec 128) (k : Nat) (e : EType) : Nat × Nat :=
  let (rows, len) := storedShape isA (layoutT (descLayout d)) k
  let fin := (descBase d).toNat + (rows - 1) * descStride d + len * e.bits / 8
  let S := 16 * 2 ^ layoutSpan (descLayout d)
  ((descBase d).toNat, if layoutSpan (descLayout d) = 0 then fin else (fin + S - 1) / S * S)

/-- Some bytes lie in the operand memory of an MMA. -/
def MmaOps.touches (m : MmaOps) (sp : Bool) (a n : Nat) : Bool :=
  match etype (descLayout m.a), etype (descLayout m.b) with
  | some ea, some eb =>
    match pairK ea eb with
    | some k =>
      let hit (isA : Bool) (d : BitVec 128) (e : EType) : Bool :=
        let r := operandRange isA d k e
        layoutSpc (descLayout d) == sp && meets a n r.1 (r.2 - r.1)
      hit true m.a ea || hit false m.b eb
    | none => false
  | _, _ => false

/-- The access of an instruction. -/
def Ctx.access (c : Ctx) (s : State) (space : Space) (kind : AccKind) (pieces : List Piece) (ea : Lane → DWord) : Access :=
  { slot := c.slot, uid := c.g.uid, pc := c.pc, space := space, kind := kind, lanes := c.act, once := c.scalar, ord := c.e.ord, priv := c.priv,
    cached := false, bits := c.p.wd, signed := false,
    pieces := if space == .global then s.routed c.cluster pieces else pieces,
    data := lanesOf 0, dest := none, after := s.orderAfter c.slot c.e.ord, behind := s.behind c.slot (space == .spad),
    ea := Vector.ofFn ea, run := c.g.runs, cycle := s.cycle,
    seq := c.g.seq, sentAt := s.tstamp.toNat, asid := c.g.asid
    undef := maskOf fun l => laneIn c.act l && c.g.mmaOut.any fun x => x.2.2.touches (space == .spad) (ea l).toNat (max 1 (c.p.wd / 8)) }

/-- The last-result entry of a result that an access returns later (R213). -/
def Ctx.pending (c : Ctx) (id : Nat) : LEntry := { c.entry (uniform 0) with pend := some id }

end Sys2Proof.Machine
end

