-- ==== Sys2Proof/Machine/Monitor.lean ====
section
/-! DEFINITION. Monitors at the home slices: the comparison (R92), table entries and wakes (R93 to R98), spill slots, the gleaning ring (R100 to R103), service arms (R115, R116), and what follows a write (R95). -/

namespace Sys2Proof.Machine

open Sys2Proof

/-- The condition of a wait (04 Table 1). -/
def satisfies (cmp : BitVec 3) (w x : DWord) (w64 : Bool) : Bool :=
  let n := if w64 then 64 else 32
  let a := w.toNat % 2 ^ n
  let b := x.toNat % 2 ^ n
  let sg (y : Nat) : Int := if 2 ^ (n - 1) ≤ y then (y : Int) - 2 ^ n else y
  match cmp.toNat with
  | 0 => a == b
  | 1 => a != b
  | 2 => decide (sg a < sg b)
  | 3 => decide (sg b ≤ sg a)
  | 4 => decide (a < b)
  | 5 => decide (b ≤ a)
  | 6 => (a &&& b) != 0
  | _ => (a &&& b) == 0

/-- The value of a watched word. -/
def State.valueAt (s : State) (pa : Nat) (w64 : Bool) : DWord := if w64 then s.dword pa else (s.word pa).setWidth 64

/-- Bytes of a watched word. -/
def wordBytes (w64 : Bool) : Nat := if w64 then 8 else 4

/-- Words W0 to W3 of an entry (04 Table 2). -/
def MonEntry.pack (e : MonEntry) : List DWord :=
  [BitVec.ofNat 64 (2 ^ 63 + (if e.w64 then 2 ^ 62 else 0) + e.cmp.toNat * 2 ^ 59 + (if e.acq then 2 ^ 58 else 0) + e.addr / 4 * 4 % 2 ^ 52),
   e.opnd, e.deadline, BitVec.ofNat 64 (e.ctx % 2 ^ 20 * 2 ^ 33 + e.dom % 8 * 2 ^ 30 + e.waiter % 2 ^ 17 * 2 ^ 13)]

/-- The entry that a spill slot holds. -/
def State.slotEntry (s : State) (pa : Nat) : MonEntry :=
  let w0 := s.dword pa
  let w3 := s.dword (pa + 24)
  { w64 := w0.getLsbD 62, cmp := BitVec.ofNat 3 (bits w0 61 59), acq := w0.getLsbD 58, addr := bits w0 51 2 * 4, opnd := s.dword (pa + 8),
    deadline := s.dword (pa + 16), ctx := bits w3 52 33, dom := bits w3 32 30, waiter := bits w3 29 13, rcb := 0, slotpa := pa }

/-- The V bit of a spill slot. -/
def State.slotLive (s : State) (pa : Nat) : Bool := (s.dword pa).getLsbD 63

/-- A wake leaves for its waiter (R95, R108). -/
def State.sendWake (s : State) (e : MonEntry) (status : Nat) (v : DWord) (psn : Bool) : State :=
  { s with wakes := s.wakes ++ [{ waiter := e.waiter, ctx := e.ctx, status := status, val := v, psn := psn }] }

/-- A table entry leaves, and the unit of MONQ is returned (R93, R165); what follows the write of MONUSED is not in it. -/
def State.dropMon (s : State) (home : Nat) (e : MonEntry) : State :=
  let sl := s.slice home
  let s := s.setSlice home { sl with mon := sl.mon.erase e }
  (s.usageWords useMon e.rcb).foldl (fun s a => s.addWord (-1) a) s

/-! ### The gleaning ring -/

/-- Records that the ring of a slice holds. -/
def Slice.ringSize (sl : Slice) : Nat := 2 ^ (8 + min 8 sl.grsize)

/-- Records that the ring holds and that are not consumed. -/
def Slice.ringUsed (sl : Slice) : Nat := (sl.tail + 2 ^ 32 - sl.head) % 2 ^ 32

/-- The ring is full (R102). -/
def Slice.ringFull (sl : Slice) : Bool := decide (sl.ringSize ≤ sl.ringUsed)

/-- No record can be appended now: the ring is full, or records wait for it. -/
def Slice.ringBusy (sl : Slice) : Bool := sl.ringFull || !sl.owed.isEmpty

/-- A saturating count of 16 bits (04 Table 7). -/
def sat16 (n : Nat) : Nat := min 0xFFFF n

/-- A record appended to the ring (R102). -/
def State.appendRec (s : State) (home : Nat) (w0 w1 : Nat) : State :=
  let sl := s.slice home
  let a := sl.grbase * 16 + 16 * (sl.tail % sl.ringSize)
  ((s.poke a w0 8).poke (a + 8) w1 8).setSlice home { sl with tail := (sl.tail + 1) % 2 ^ 32, grecs := sat16 (sl.grecs + 1), greq := true }

/-- The bucket of a doubleword. -/
def bucketOf (pa : Nat) : Nat := Config.spillBucket (pa / 8) % 2048

/-- A spilled wait may watch the doubleword: its bucket is not empty; the firmware range hits none (R102). -/
def State.bucketUsed (s : State) (home pa : Nat) : Bool := !isFirmware pa && SMap.get (s.slice home).sphead (bucketOf pa) 0 != 0

/-- The doublewords that a range touches. -/
def dwords (pa n : Nat) : List Nat := (List.range ((pa + n + 7) / 8 - pa / 8)).map fun k => 8 * (pa / 8 + k)

/-- The write to a range must wait for its places in the ring, behind the records that wait for theirs (R102). -/
def State.ringHolds (s : State) (home pa n : Nat) : Bool :=
  let sl := s.slice home
  let k := ((dwords pa n).filter fun d => s.bucketUsed home d).length
  k != 0 && (!sl.owed.isEmpty || decide (sl.ringSize < sl.ringUsed + k))

/-- The records that wait, as far as there is room for them (R102, R110). -/
def State.payRecs (s : State) (home : Nat) : Nat → State
  | 0 => s
  | k + 1 =>
    let sl := s.slice home
    match sl.owed with
    | [] => s
    | r :: rs => if sl.ringFull then s else ((s.setSlice home { sl with owed := rs }).appendRec home r.1 r.2).payRecs home k

/-- The record of a write to, or the poisoning of, a doubleword (R102); where the ring is full, which a write of a requester waits for, that of a device's
own write or of poison waits for its place (log 81). -/
def State.writeRec (s : State) (home d : Nat) (psn : Bool) : State :=
  let r := (2 ^ 63 + bucketOf d * 2 ^ 52 + d % 2 ^ 52 + (if psn then 4 else 0), (s.dword d).toNat)
  let sl := s.slice home
  (s.setSlice home { sl with owed := sl.owed ++ [r] }).payRecs home (sl.owed.length + 1)

/-- The deadline record of a slot (R101, R152). -/
def State.deadlineRec (s : State) (home slot : Nat) (deadline : DWord) : State :=
  s.appendRec home (2 ^ 63 + slot % 2 ^ 52 + 2) deadline.toNat

/-- The slots linked in a bucket of a slice, from its head. -/
def State.chainFrom (s : State) : Nat → Nat → List Nat
  | 0, _ => []
  | k + 1, pa => if pa = 0 then [] else pa :: s.chainFrom k (s.dword (pa + 32)).toNat

/-- The slots linked in a bucket. -/
def State.chain (s : State) (home b : Nat) : List Nat := s.chainFrom (s.slice home).live (SMap.get (s.slice home).sphead b 0)

/-- Every slot linked to a slice. -/
def State.linked (s : State) (home : Nat) : List Nat := (s.slice home).sphead.flatMap fun p => s.chain home p.1

/-- A slot written with an entry and linked at the head of its bucket (R101). -/
def State.linkSlot (s : State) (home : Nat) (e : MonEntry) : State :=
  let sl := s.slice home
  let b := bucketOf e.addr
  let old := SMap.get sl.sphead b 0
  let w := e.pack.zipIdx.foldl (fun s p => s.poke (e.slotpa + 8 * p.2) p.1.toNat 8) s
  let w := (((w.poke (e.slotpa + 32) old 8).poke (e.slotpa + 40) 0 8).poke (e.slotpa + 48) 0 8).poke (e.slotpa + 56) 0 8
  let w := if old = 0 then w else w.poke (old + 40) e.slotpa 8
  w.setSlice home { sl with sphead := SMap.set sl.sphead b e.slotpa, live := sl.live + 1 }

/-- A slot unlinked: its V cleared, LIVE lowered (R103). -/
def State.unlinkSlot (s : State) (home slot : Nat) : State :=
  let sl := s.slice home
  let w0 := s.dword slot
  let nxt := (s.dword (slot + 32)).toNat
  let prv := (s.dword (slot + 40)).toNat
  let b := bucketOf (bits w0 51 2 * 4)
  let s := if prv = 0 then s else s.poke (prv + 32) nxt 8
  let s := if nxt = 0 then s else s.poke (nxt + 40) prv 8
  let s := s.poke slot (w0.toNat % 2 ^ 63) 8
  let heads := if prv = 0 then (if nxt = 0 then SMap.del sl.sphead b else SMap.set sl.sphead b nxt) else sl.sphead
  s.setSlice home { sl with sphead := heads, live := sl.live - 1 }

/-- SPILL (R101): the status that a refused one replies, or none when the slot is linked. -/
def State.spill (s : State) (home : Nat) (e : MonEntry) : Option State :=
  let sl := s.slice home
  if e.deadline ≠ 0 ∧ sl.ringBusy then none
  else if s.slotLive e.slotpa then none
  else
    let s := s.linkSlot home e
    let sl := s.slice home
    let s := s.setSlice home { sl with spills := sat16 (sl.spills + 1) }
    some (if e.deadline = 0 then s else s.deadlineRec home e.slotpa e.deadline)

/-! ### Service arms -/

/-- A service core. -/
def State.svcCore (s : State) (c : Nat) : SvcCore := SMap.get s.svc c {}
/-- A service core replaced. -/
def State.setSvc (s : State) (c : Nat) (x : SvcCore) : State := { s with svc := SMap.set s.svc c x }

/-- A machine-check message for the service core of a cluster: placed in its queue in the firmware range (R344); its address is the
implementation's, and its bytes have no layout in the spec. -/
def State.machineCheck (s : State) (cl : Nat) (what : MchkWhat) : State :=
  let x := s.svcCore cl
  s.setSvc cl { x with mchk := x.mchk ++ [((Config.mchkAddr (s.freeCtr * 128 + cl)) % 2 ^ 32, what)] }

/-- FIRED and the status of an arm slot in MONSTAT (R116). -/
def State.setMonstat (s : State) (core idx status : Nat) (v : Option DWord) : State :=
  let x := s.svcCore core
  let st := putBytesW x.monstat.toNat idx (128 + status)
  s.setSvc core { x with monstat := BitVec.ofNat 32 st, monval := match v with
    | some y => SMap.set x.monval idx y
    | none => x.monval }
where
  /-- byte `i` of a word replaced -/
  putBytesW (x i b : Nat) : Nat := x - x / 2 ^ (8 * i) % 256 * 2 ^ (8 * i) + b * 2 ^ (8 * i)

/-- SERVICE_ARM_FIRE (R116): the entry leaves the slice, the value and the status reach the core. -/
def State.fireArm (s : State) (home : Nat) (e : SvcEntry) (status : Nat) (v : DWord) : State :=
  let sl := s.slice home
  (s.setSlice home { sl with svc := sl.svc.erase e }).setMonstat e.core e.idx status (some v)

/-! ### After a write -/

/-- AFTER_WRITE (R95): the entries on the written words that now hold are woken, in chain order; a record for each written doubleword
of a spill bucket that is not empty (R102); the service arms that now hold fire (R116). The entries that leave lower MONUSED of their regions, which is a
write in its turn (R165); `k` bounds how many such rounds there are. -/
def State.afterWriteFor : Nat → Nat → Nat → Nat → State → State
  | 0, _, _, _, s => s
  | k + 1, home, pa, n, s =>
    let sl := s.slice home
    let hit := sl.mon.filter fun e => meets e.addr (wordBytes e.w64) pa n && satisfies e.cmp (s.valueAt e.addr e.w64) e.opnd e.w64
    let used := (hit.flatMap fun e => s.usageWords useMon e.rcb).eraseDups
    let s := hit.foldl (fun s e => (s.sendWake e 0 (s.valueAt e.addr e.w64) false).dropMon home e) s
    let s := (dwords pa n).foldl (fun s d => if s.bucketUsed home d then s.writeRec home d false else s) s
    let arms := sl.svc.filter fun e => meets e.addr (wordBytes e.w64) pa n && satisfies e.cmp (s.valueAt e.addr e.w64) e.opnd e.w64
    let s := arms.foldl (fun s e => s.fireArm home e 0 (s.valueAt e.addr e.w64)) s
    used.foldl (fun s a => (s.homesOf a).foldl (fun s h => s.afterWriteFor k h a 4) s) s

/-- The entries of all monitor tables. -/
def State.monCount (s : State) : Nat := (s.slices.map fun k => k.2.mon.length).sum

/-- AFTER_WRITE: each round after the first needs an entry that has left. -/
def State.afterWrite (s : State) (home pa n : Nat) : State := s.afterWriteFor (s.monCount + 1) home pa n

/-- ONE USE CHARGED TO, OR RETURNED BY, A REGION: a 32-bit atomic at the home of each word (R95, R165, R167). -/
def State.charge (s : State) (u : Usage) (rcb : Nat) (d : Int) : State :=
  let ws := s.usageWords u rcb
  ws.foldl (fun s a => (s.homesOf a).foldl (fun s h => s.afterWrite h a 4) s) (ws.foldl (fun s a => s.addWord d a) s)

/-- A table entry is freed, and its unit of MONQ returned (R93, R165). -/
def State.freeMon (s : State) (home : Nat) (e : MonEntry) : State :=
  let sl := s.slice home
  (s.setSlice home { sl with mon := sl.mon.erase e }).charge useMon e.rcb (-1)

/-- An entry is made in the table of a slice (R93). -/
def State.addMon (s : State) (home : Nat) (e : MonEntry) : State :=
  let sl := s.slice home
  (s.setSlice home { sl with mon := sl.mon ++ [e], peak := max sl.peak (sl.mon.length + 1) }).charge useMon e.rcb 1

/-- A DEVICE AGENT'S OWN WRITE beside what it does: at the word's home, or both where its granule is on the move (R45, R95, R152). -/
def State.deviceWrite (s : State) (a x n : Nat) : State :=
  let s := { s.poke a x n with
    lines := SMap.upd s.lines (a / 128) {} fun l => { l with dirty := true, hub := false, svcv := false, svcm := false } }
  (s.homesOf a).foldl (fun s h => s.afterWrite h a n) s

/-- A line becomes poisoned: its waiters raise the fault of R54, spilled ones through a POISON record (R110). -/
def State.afterPoison (s : State) (home line : Nat) : State :=
  let hit := (s.slice home).mon.filter fun e => meets e.addr (wordBytes e.w64) line 128
  let s := hit.foldl (fun s e => (s.sendWake e 0 0 true).freeMon home e) s
  ((dwords line 128).filter fun d => s.bucketUsed home d).foldl (fun s d => s.writeRec home d true) s

/-! ### The check of a wait -/

/-- The line of a word is poisoned at its home. -/
def State.linePsn (s : State) (pa : Nat) : Bool := (SMap.get s.lines (pa / 128) {}).psn

/-- The table entry of a wait. -/
def WaitReq.entry (w : WaitReq) (slot ctx dom : Nat) : MonEntry :=
  { w64 := w.w64, cmp := w.cmp, acq := w.acq, addr := w.addr, opnd := w.opnd, deadline := w.deadline, ctx := ctx, dom := dom,
    waiter := slot, rcb := w.rcb, slotpa := w.slotpa }

/-- CHECK AND REGISTRATION of a WAIT at its home slice, as one action (R93); a reply is sent as a wake is. -/
def State.waitHome (s : State) (home : Nat) (w : WaitReq) (e : MonEntry) : State :=
  let sl := s.slice home
  let v := s.valueAt w.addr w.w64
  if w.cap ≤ w.addr then s.sendWake e 4 0 false
  else if s.linePsn w.addr then s.sendWake e 0 0 true
  else if satisfies w.cmp v w.opnd w.w64 then s.sendWake e 0 v false
  else if w.deadline ≠ 0 ∧ w.deadline.toNat ≤ s.tstamp.toNat then s.sendWake e 1 v false
  else if sl.en ∧ !w.mark ∧ sl.mon.length < min 1024 sl.limit then s.addMon home e
  else if sl.spen ∧ !isFirmware w.addr ∧ w.slotpa ≠ 0 then
    match s.spill home e with
    | some s => s
    | none => s.sendWake e 5 v false
  else s.sendWake e 5 v false

end Sys2Proof.Machine
end

