-- ==== Sys2Proof/Machine/Teams.lean ====
section
/-! DEFINITION. Launches and teams: address-space descriptors (R118), the record of a launch and the checks of a submission (R327, R328), resources and placement (R36, R169, R170), retirement (R172), ready tasks (R319, R320), and the end of a fault domain (R168). -/

namespace Sys2Proof.Machine

open Sys2Proof

/-! ### Descriptors and launch records -/

/-- An address-space descriptor read from memory; none if a reserved field is not 0 (R118). -/
def State.readDesc (s : State) (pa : Nat) : Option (Nat × Desc) :=
  let w (i : Nat) : DWord := s.dword (pa + 8 * i)
  if bits (w 0) 62 52 = 0 ∧ bits (w 1) 63 52 = 0 ∧ bits (w 1) 0 0 = 0 ∧ bits (w 2) 63 39 = 0 ∧ w 3 = 0 then
    some (bits (w 0) 15 0,
      { en := (w 0).getLsbD 63, root := bits (w 0) 51 16 * 2 ^ 16, shadow := bits (w 1) 51 1 * 2, shlimit := bits (w 2) 38 0, addr := pa })
  else none

/-- Fields of a launch record (14 Table 7). -/
abbrev LaunchRec := List DWord

/-- Word `k` of a record. -/
def LaunchRec.w (r : LaunchRec) (k : Nat) : DWord := r.getD k 0
/-- Grid. -/
def LaunchRec.x (r : LaunchRec) : Nat := bits (r.w 2) 31 0
/-- Y. -/
def LaunchRec.y (r : LaunchRec) : Nat := bits (r.w 2) 63 32
/-- Z. -/
def LaunchRec.z (r : LaunchRec) : Nat := bits (r.w 3) 31 0
/-- Cores per team. -/
def LaunchRec.cores (r : LaunchRec) : Nat := bits (r.w 4) 3 0
/-- Groups per team. -/
def LaunchRec.groups (r : LaunchRec) : Nat := bits (r.w 4) 12 4
/-- Vector blocks per group. -/
def LaunchRec.vblk (r : LaunchRec) : Nat := bits (r.w 4) 16 13
/-- Scalar blocks per group. -/
def LaunchRec.sblk (r : LaunchRec) : Nat := bits (r.w 4) 19 17
/-- Tiles per core. -/
def LaunchRec.acc (r : LaunchRec) : Nat := bits (r.w 4) 23 20
/-- PAIRED. -/
def LaunchRec.paired (r : LaunchRec) : Bool := (r.w 4).getLsbD 24
/-- CONTAINED. -/
def LaunchRec.contained (r : LaunchRec) : Bool := (r.w 4).getLsbD 25
/-- Scratchpad bytes. -/
def LaunchRec.spadBytes (r : LaunchRec) : Nat := bits (r.w 5) 31 0
/-- Scratchpad chunks per core (R169). -/
def LaunchRec.chunks (r : LaunchRec) : Nat := (r.spadBytes + 4096 * r.cores - 1) / (4096 * r.cores)

/-- The reserved fields and limits of a record (R327). -/
def LaunchRec.ok (r : LaunchRec) : Bool :=
  bits (r.w 0) 63 55 = 0 && bits (r.w 0) 1 0 = 0 && 0 < r.x && 0 < r.y && 0 < r.z && r.x * r.y * r.z ≤ 2 ^ 32 && bits (r.w 3) 63 32 = 0 &&
  0 < r.cores && r.cores ≤ 8 && 0 < r.groups && r.groups ≤ 256 && r.groups ≤ 128 * r.cores && 0 < r.vblk && r.vblk ≤ 8 && r.sblk ≤ 4 &&
  r.cores * r.chunks ≤ 1024 && r.acc ≤ 8 && !(r.paired && r.contained) && !(r.paired && 4 < r.cores) && bits (r.w 4) 63 26 = 0 && r.spadBytes ≤ 2 ^ 22 && r.chunks ≤ 192 && bits (r.w 5) 63 32 = 0 &&
  bits (r.w 8) 1 0 = 0 && bits (r.w 9) 63 32 = 0 && bits (r.w 11) 63 32 = 0 && (r.drop 12).all (· == 0)

/-- The clusters of an effective mask, ascending (R167). -/
def State.maskClusters (s : State) (rcb : Nat) : List Nat := (List.range 128).filter fun c => (s.regionMask rcb).getLsbD c

/-- Some cluster of the mask holds the ASID with another ROOT (R118). -/
def State.asidConflict (s : State) (rcb asid root : Nat) : Bool :=
  (s.maskClusters rcb).any fun c => match SMap.find (s.cluster c).desc asid with
    | some d => d.root != root
    | none => false

/-- THE CHECKS OF A SUBMISSION in the order of R328 and R118: a status of 14 Table 2. `own` is the issuer's region and descriptor. -/
def State.submitStatus (s : State) (r : LaunchRec) (own : Option (Nat × Nat)) (depth : Nat) : Nat :=
  let rcb := match own with
    | some o => if r.w 6 = 0 then o.1 else (r.w 6).toNat
    | none => (r.w 6).toNat
  let desc := match own with
    | some o => if r.w 7 = 0 then o.2 else (r.w 7).toNat
    | none => (r.w 7).toNat
  match s.readDesc desc with
  | none => 6
  | some (asid, d) =>
    if !r.ok || rcb % 256 ≠ 0 || desc % 32 ≠ 0 || !s.rcbReserved rcb then 6
    else if (match own with
      | some o => rcb != o.1 || desc != o.2
      | none => false) || !s.rcbValid rcb then 7
    else if asid = 0 ∧ own.isSome then 8
    else if s.asidConflict rcb asid d.root then 9
    else if s.regionDepthLimit rcb < depth then 5
    else if !s.room useLaunch rcb then 4
    else 0

/-- An accepted launch enters the task unit in submission order, charged to LPOOL (R328, R358). -/
def State.enqueueLaunch (s : State) (r : LaunchRec) (addr : DWord) (depth rcb desc cluster : Nat) (service : Bool) (rel : List Nat) : State :=
  let (id, s) := s.fresh
  let asid := match s.readDesc desc with
    | some (a, _) => a
    | none => 0
  let la : Launch :=
    { words := r, addr := addr, depth := depth, rcb := rcb, desc := desc, asid := asid, since := s.cycle, cluster := cluster,
      service := service, rel := rel }
  { s.charge useLaunch rcb 1 with launches := SMap.set s.launches id la }

/-! ### Resources (R36, R169) -/

/-- The groups of a team on a core that are not exited. -/
def State.teamOn (s : State) (t : Team) (core : Nat) : List Group :=
  ((t.slots.filter fun p => slotCore p.2 == core).map fun p => s.prog p.2).filter fun g => !g.gone

/-- The chunks that groups hold: one per vector block, one for each four scalar blocks of which one is held (R35, R179). -/
def groupChunks (gs : List Group) : Nat :=
  (gs.map fun g => g.vblk).sum + ((gs.flatMap fun g => g.sids.map (· / 4)).eraseDups).length

/-- The team lies on the core. -/
def Team.covers (t : Team) (core : Nat) : Bool := decide (t.core ≤ core ∧ core < t.core + t.cores)

/-- Chunks of a core that are not L1 (R36). -/
def State.usedChunks (s : State) (core : Nat) : Nat :=
  (s.teams.map fun p => (if p.2.covers core then p.2.chunks else 0) + groupChunks (s.teamOn p.2 core)).sum

/-- L1 chunks of a core (R36). -/
def State.l1Chunks (s : State) (core : Nat) : Nat := 256 - s.usedChunks core

/-- The lines of a core's L1 in the set of a line: 32 sets, by address bits [11:7] (R42). -/
def Core.l1Row (k : Core) (line : Nat) : List Nat := (k.l1.filter fun l => l.1 % 32 == line % 32).map Prod.fst

/-- A line may leave L1: none of its words is a store of the core on its way (R60). -/
def Core.l1Clean (k : Core) (line : Nat) : Bool := (SMap.get k.l1 line []).all fun w => !w.2.own

/-- The set of a line is cut to some ways: lines leave as the implementation chooses, but none with a store on its way (R42, R60). -/
def State.trimSet (s : State) (core line ways : Nat) : State :=
  let cut (n : Nat) (k : Core) : Core :=
    let out := (k.l1Row line).filter k.l1Clean
    if (k.l1Row line).length ≤ ways ∨ out.isEmpty then k
    else { k with l1 := SMap.del k.l1 (out.getD (Config.victim s.freeCtr (line + 2 ^ 64 * n) % out.length) 0) }
  s.setCore core ((List.range ((s.core core).l1Row line).length).foldl (fun k n => cut n k) (s.core core))

/-- L1 after chunks have passed to another use: the ways that it has lost are invalidated (R36, R42). -/
def State.trimL1 (s : State) (core : Nat) : State :=
  ((s.core core).l1.map fun l => l.1 % 32).eraseDups.foldl (fun s set_ => s.trimSet core set_ (s.l1Chunks core)) s

/-- Accumulator tiles given to teams on a core. -/
def State.usedTiles (s : State) (core : Nat) : Nat := (s.teams.map fun p => if p.2.covers core then p.2.acc else 0).sum

/-- A slot holds no group. -/
def State.slotFree (s : State) (slot : Nat) : Bool := (s.group slot).st == .empty

/-- The free slots of a partition. -/
def State.freeSlots (s : State) (part : Nat) : List Nat := ((List.range 4).map (4 * part + ·)).filter s.slotFree

/-- Groups of core `j` of a team of `c` cores. -/
def groupsOn (n c j : Nat) : Nat := (n + c - 1 - j) / c

/-- The chunks that a team's share of core `j` needs (R169). -/
def LaunchRec.needs (r : LaunchRec) (j : Nat) : Nat :=
  let gv := groupsOn r.groups r.cores j
  gv * r.vblk + (gv * r.sblk + 3) / 4 + r.chunks

/-- A team fits on the cores from `f` on (R169, R170): cores, tiles, and on its core `j` chunks and slots. -/
def State.fitsShape (s : State) (cores acc : Nat) (chunks cnt : Nat → Nat) (f : Nat) : Bool :=
  decide (f % 8 + cores ≤ 8) && (List.range cores).all fun j =>
    let core := f + j
    decide (chunks j + 16 ≤ s.l1Chunks core) && decide (s.usedTiles core + acc ≤ 8) &&
    decide (cnt j ≤ ((List.range 32).map fun p => (s.freeSlots (32 * core + p)).length).sum)

/-- A team of a launch fits on the cores from `f` on; a paired one takes its cores twice (R362). -/
def State.fits (s : State) (r : LaunchRec) (f : Nat) : Bool :=
  let c := if r.paired then 2 * r.cores else r.cores
  s.fitsShape c r.acc (fun j => r.needs (j % r.cores)) (fun j => groupsOn r.groups r.cores (j % r.cores)) f

/-- The descriptor cache of a cluster can take the address space (R118). -/
def State.descFits (s : State) (c asid root : Nat) : Bool :=
  match SMap.find (s.cluster c).desc asid with
  | some d => d.root == root
  | none => decide ((s.cluster c).desc.length < 64)

/-- A cluster whose cores are powered (R401). -/
def State.powered (s : State) (c : Nat) : Bool := !s.mgmt.clpwr.getLsbD c

/-- The first core of a placement: the lowest that fits in the lowest cluster that fits (R170); `skip` refuses a cluster. -/
def State.findCore (s : State) (fit : Nat → Bool) (rcb asid root : Nat) (skip : Nat → Bool) : Option Nat :=
  (s.maskClusters rcb).findSome? fun c =>
    if skip c || !s.powered c || !s.descFits c asid root then none else ((List.range 8).map (8 * c + ·)).find? fit

/-- The slot of the next group on a core: in the partition with the fewest resident groups, the lowest free one (R170). -/
def State.pickSlot (s : State) (core : Nat) : Nat :=
  let ps := (List.range 32).map (32 * core + ·)
  let n := (ps.map fun p => (s.freeSlots p).length).foldl max 0
  match ps.find? fun p => (s.freeSlots p).length == n with
  | some p => (s.freeSlots p).headD 0
  | none => 0

/-- The values of its region with which a group starts work (R167). -/
def State.starts (s : State) (g : Group) : Group := { g with prio := s.regionPrio g.rcb, npLimit := s.npMax g.rcb }

/-- A group as it is placed (R36, R159, R280, R296). -/
def newGroup (uid team gidx vblk sblk asid rcb : Nat) (sids : List Nat) (entry : DWord) (now : Nat) : Group :=
  { st := .ready, team := team, gidx := gidx, uid := uid, vblk := vblk, sblk := sblk, sids := sids, pc := lanesOf entry,
    readySince := now, asid := asid, rcb := rcb, ctx := (Config.context uid) % 2 ^ 20 }

/-- Group `i` of a team placed. -/
def State.placeGroup (s : State) (tm i : Nat) (r : LaunchRec) (la : Launch) : State :=
  let t := s.team tm
  let slot := s.pickSlot (t.core + i % t.cores)
  let (uid, s) := s.fresh
  let k := i / t.cores
  let sids := (List.range t.sblk).map (k * t.sblk + ·)
  let s := s.setGroup slot (s.starts (newGroup uid tm i t.vblk t.sblk la.asid la.rcb sids (r.w 0) s.cycle))
  let p := s.part (slotPart slot)
  (s.setPart (slotPart slot) p).setTeam tm { t with slots := SMap.set t.slots i slot }

/-- The lowest free tiles of a core given to a team; they read +0 (R294). -/
def Core.giveTiles (k : Core) (tm n : Nat) : Core :=
  (((List.range 8).filter fun i => (SMap.find k.tileOwner i).isNone).take n).foldl
    (fun k i => { k with tileOwner := SMap.set k.tileOwner i tm }) k

/-- A TEAM PLACED on the cores from `f` on: team number, its groups, and an acquire (R86, R170, R294). -/
def State.placeTeam (s : State) (lid : Nat) (r : LaunchRec) (idx f : Nat) : Nat × State :=
  let la := SMap.get s.launches lid {}
  let (tm, s) := s.fresh
  let t : Team :=
    { launch := lid, core := f, cores := r.cores, ngroups := r.groups, vblk := r.vblk, sblk := r.sblk, chunks := r.chunks, acc := r.acc,
      x := BitVec.ofNat 32 (idx % r.x), y := BitVec.ofNat 32 (idx / r.x % r.y), z := BitVec.ofNat 32 (idx / (r.x * r.y)),
      paired := r.paired, contained := r.contained, cvLimit := s.cvTimeout la.rcb }
  let s := s.setTeam tm t
  let s := (List.range r.groups).foldl (fun s i => s.placeGroup tm i r la) s
  let c := s.cluster (f / 8)
  let s := match SMap.find c.desc la.asid, s.readDesc la.desc with
    | none, some (a, d) => s.setCluster (f / 8) { c with desc := SMap.set c.desc a d }
    | _, _ => s
  let s := (List.range r.cores).foldl (fun s j => s.setCore (f + j) ((s.core (f + j)).giveTiles tm r.acc)) s
  let s := (List.range r.cores).foldl (fun s j => (s.trimL1 (f + j)).acquireInval (f + j)) s
  (tm, { s with launches := SMap.set s.launches lid { la with next := idx + 1, live := la.live ++ [tm], since := s.cycle, reserved := false } })

/-! ### Tasks made ready -/

/-- MAKE_READY (R319): the cluster of the agent if the region may run there, else the lowest of its mask. -/
def State.makeReady (s : State) (agent : Nat) (t : Task) : State :=
  let cs := s.maskClusters t.rcb
  let cl := if cs.contains agent then agent else cs.headD agent
  let c := s.cluster cl
  s.setCluster cl { c with ready := c.ready ++ [{ t with readyAt := s.tstamp.toNat }] }

/-- The order in which tasks are taken (R319). -/
def Task.before (a b : Task) : Bool :=
  if a.prio ≠ b.prio then decide (b.prio < a.prio)
  else if a.since ≠ b.since then decide (a.since < b.since)
  else if a.spawned ≠ b.spawned then b.spawned
  else decide (a.rank < b.rank)

/-- The first task of a list that satisfies a condition, in the task unit's order. -/
def firstTask (f : Task → Bool) (l : List Task) : Option Task :=
  (l.filter f).foldl (fun o t => match o with
    | some u => if t.before u then some t else some u
    | none => some t) none

/-! ### Discarding and retiring -/

/-- The slot and number of each group of a team. -/
def State.teamGroups (s : State) (tm : Nat) : List (Nat × Nat) := (s.team tm).slots.flatMap fun p => [(p.2, (s.group p.2).uid), (p.2, (s.prog p.2).uid)]

/-- L1 words marked as the core's own store of which no store is on its way. -/
def State.cleanOwn (s : State) (core : Nat) : State :=
  let k := s.core core
  let inFlight (a : Nat) : Bool := s.accs.any fun p => p.2.kind == .store && p.2.space == .global && slotCore p.2.slot == core &&
    p.2.pieces.any fun q => !q.done && meets q.addr q.size a 4
  (s.setCore core { k with l1 := k.l1.map fun ln => (ln.1, ln.2.map fun w =>
    (w.1, if w.2.own && !inFlight (128 * ln.1 + 4 * w.1) then { w.2 with own := false } else w.2)) }).trimL1 core

/-- A descriptor entry frees when no placed team and no walk in flight uses its ASID (R118). -/
def State.dropDesc (s : State) (cl asid : Nat) : State :=
  let c := s.cluster cl
  if s.teams.any (fun p => p.2.core / 8 == cl && (SMap.get s.launches p.2.launch {}).asid == asid) || c.walks.any (·.asid == asid) ||
    c.missWait.any (·.asid == asid) then s
  else s.setCluster cl { c with desc := SMap.del c.desc asid }

/-- What a team holds is freed: slots, chunks, tiles, registers of the sync unit, and what was on its way to its scratchpad (R172). -/
def State.freeTeam (s : State) (tm : Nat) : State :=
  let t := s.team tm
  let gs := s.teamGroups tm
  let s := { s with
    accs := (s.accs.filter fun (a : Nat × Access) => !(gs.contains (a.2.slot, a.2.uid) && a.2.space == Space.spad)).map fun (a : Nat × Access) =>
      if gs.contains (a.2.slot, a.2.uid) then (a.1, { a.2 with fwdDone := a.2.lanes }) else a
    groups := s.groups.filter fun g => !(t.slots.any fun p => p.2 == g.1)
    stash := s.stash.filter fun g => !(t.slots.any fun p => p.2 == g.1)
    parts := s.parts.map fun (p : Nat × Part) => (p.1, if t.slots.any fun x => some x.2 == p.2.owner then { p.2 with owner := none } else p.2)
    teams := SMap.del s.teams tm, ckpts := SMap.del s.ckpts tm }
  let s := (List.range t.cores).foldl (fun s j =>
    let k := s.core (t.core + j)
    let mine := (k.tileOwner.filter fun o => o.2 == tm).map Prod.fst
    s.setCore (t.core + j) { k with
      tileOwner := k.tileOwner.filter fun o => o.2 != tm
      tiles := k.tiles.filter fun e => !mine.contains (e.1 / 4096) }) s
  let la := SMap.get s.launches t.launch {}
  let s := s.dropDesc (t.core / 8) la.asid
  { s with launches := SMap.set s.launches t.launch { la with live := la.live.erase tm } }

/-- The calls and fault records of discarded groups: a call's header loses V, an unanswered record becomes stale (R137, R356). -/
def Cluster.dropGroups (c : Cluster) (mine : Nat → Nat → Bool) : Cluster :=
  let gone := (c.calls.filter fun x => mine x.2.slot x.2.uid).map Prod.fst
  let c := (c.fq.filter fun r => !r.2.answered && mine r.2.slot r.2.uid).foldl (fun c r => c.stale r.1) c
  { c with
    calls := c.calls.filter fun x => !mine x.2.slot x.2.uid
    callWait := c.callWait.filter fun x => !mine x.slot x.uid
    page := gone.foldl (fun p k => Memory.write p (0x1000 + 64 * k + 7) (Memory.read p (0x1000 + 64 * k + 7) 1 % 128) 1) c.page
    fwait := c.fwait.filter fun x => !mine x.slot x.uid }

/-- A team stopped and discarded (R168): its scratchpad accesses, copies, matrix operations, arms, decrements, waits, calls and unanswered
records go; what it has sent to home slices is performed. -/
def State.discardTeam (s : State) (tm : Nat) : State :=
  let gs := s.teamGroups tm
  let mine (slot uid : Nat) : Bool := gs.contains (slot, uid)
  let s := { s with
    accs := s.accs.filter fun a => !(mine a.2.slot a.2.uid && a.2.space == Space.spad)
    redos := s.redos.filter fun a => !mine a.2.slot a.2.uid
    copies := s.copies.filter fun a => !mine a.2.slot a.2.uid
    arms := s.arms.filter fun a => !mine a.2.slot a.2.uid
    decs := s.decs.filter fun a => !mine a.2.slot a.2.uid
    waits := s.waits.filter fun a => !mine a.1 a.2
    watch := s.watch.filter fun a => !mine a.slot a.uid
    cores := s.cores.map fun (k : Nat × Core) => (k.1, { k.2 with mq := k.2.mq.filter fun o => o.team != tm })
    clusters := s.clusters.map fun (c : Nat × Cluster) => (c.1, c.2.dropGroups mine) }
  (s.freeTeam tm).retryMmas

/-- The matrix operations and copies that hold a team's retirement (R172). -/
def State.retireHeld (s : State) (tm : Nat) : Bool :=
  s.cores.any (fun k => k.2.mq.any fun o => o.team == tm) || (s.team tm).cv.any (fun r => !r.2.pend.isEmpty) ||
  s.copies.any fun c => c.2.team == tm && (c.2.srcSp || c.2.dstSp)

/-- The stores of a team's groups that are not performed. -/
def State.teamStores (s : State) (tm : Nat) : List Nat :=
  let gs := s.teamGroups tm
  (s.accs.filter fun a => gs.contains (a.2.slot, a.2.uid) && !a.2.performed && a.2.kind != .load && a.2.kind != .prefetch && a.2.kind != .qunpk).map
    Prod.fst

/-- Every group of a team is exited and its results have returned (R172). -/
def State.teamOver (s : State) (tm : Nat) : Bool := (s.team tm).slots.all fun p => (s.prog p.2).gone && !s.resultsOut p.2


/-! ### The end of a fault domain (R168) -/

/-- The regions of which the device holds something: launches, tasks running, ready and bound, monitor entries, timers, saved groups, with their ancestors.
The tree's words point from a child to its parent, so that the device can name no other (log 32). -/
def State.knownRegions (s : State) : List Nat :=
  let own := s.launches.map (fun p => p.2.rcb) ++ s.clusters.flatMap (fun c => c.2.ready.map fun t => t.rcb) ++ s.bound.map (fun b => b.2.rcb) ++
    s.io.timers.map (fun t => t.rcb) ++ s.slices.flatMap (fun k => k.2.mon.map fun e => e.rcb) ++
    (s.groups.map Prod.fst).filterMap (fun k => (s.prog k).task.map fun t => t.rcb) ++ s.saved.flatMap fun v => v.2.groups.map fun g => g.2.rcb
  (own.flatMap fun r => s.regionChain regionDepth r).eraseDups

/-- The armed counters of a region whose count is above 0: their records hold a TASKQ unit (R320). -/
def State.armedCounters (s : State) (rcb : Nat) : List Nat :=
  let base := bits (s.rcbW rcb 10) 51 3 * 8
  ((List.range (bits (s.rcbW rcb 11) 31 0)).map fun i => base + 16 * i).filter fun a =>
    (s.dword a).getLsbD 36 && decide (0 < ((s.dword a).setWidth 32 : Word).toInt)

/-- The region whose TASKQ unit a group's task holds. -/
def Group.taskRegion (g : Group) : Option Nat := if g.taskrec = 0 then none else some ((g.task.map fun t => t.rcb).getD g.rcb)

/-- ENDING A FAULT DOMAIN (R136 ACT 2, R168): teams, pending launches, monitor entries, spilled slots and tasks of the subtree go, their
units come back, and each region known to the device is ended. -/
def State.endDomain (s : State) (rcb : Nat) : State :=
  let root := s.faultRoot rcb
  let known := (s.knownRegions ++ s.regionChain regionDepth rcb).eraseDups.filter fun r => s.inSubtree root r
  let tms := (s.teams.filter fun p => s.inSubtree root (SMap.get s.launches p.2.launch {}).rcb).map Prod.fst
  let las := s.launches.filter fun p => s.inSubtree root p.2.rcb
  -- TASKQ units of running, ready and armed tasks
  let ended (id : Nat) : Bool := s.inSubtree root (SMap.get s.launches id {}).rcb
  let goneBy := s.saved.filter fun v => ended v.2.team.launch
  let gs := tms.flatMap (fun tm => (s.team tm).slots.map fun p => s.prog p.2) ++ goneBy.flatMap fun v => v.2.groups.map Prod.snd
  let running := gs.filterMap Group.taskRegion
  let s := { s with saved := s.saved.filter fun v => !ended v.2.team.launch }
  let s := running.foldl (fun s r => s.charge useTask r (-1)) s
  let ready := s.clusters.flatMap fun c => (c.2.ready.filter fun t => s.inSubtree root t.rcb).map fun t => t.rcb
  let s := ready.foldl (fun s r => s.charge useTask r (-1)) s
  let s := { s with clusters := s.clusters.map fun (c : Nat × Cluster) => (c.1, { c.2 with ready := c.2.ready.filter fun t => !ready.contains t.rcb }) }
  let s := known.foldl (fun s r => (s.armedCounters r).foldl (fun s a =>
    { (s.deviceWrite a ((s.dword a).toNat / 2 ^ 37 * 2 ^ 37 + (s.dword a).toNat % 2 ^ 36 / 2 ^ 32 * 2 ^ 32) 8).charge useTask r (-1) with bound := SMap.del s.bound a }) s) s
  -- teams and launches
  let s := tms.foldl (fun s tm => s.discardTeam tm) s
  let s := las.foldl (fun s p => { s.charge useLaunch p.2.rcb (-1) with launches := SMap.del s.launches p.1 }) s
  -- monitor entries and spilled slots
  let s := s.slices.foldl (fun (s : State) (k : Nat × Slice) =>
    let s := (k.2.mon.filter fun e => s.inSubtree root e.rcb).foldl (fun s e => s.freeMon k.1 e) s
    let lists := known.map fun r => (bits (s.rcbW r 8) 51 6 * 64, bits (s.rcbW r 9) 31 0 * 64)
    ((s.linked k.1).filter fun a => lists.any fun l => decide (l.1 ≤ a ∧ a < l.1 + l.2)).foldl (fun s a => s.unlinkSlot k.1 a) s) s
  -- STATE 3
  known.foldl (fun s r => s.deviceWrite (r + 2) (Memory.read s.mem (r + 2) 1 % 16 + 3 * 16 + Memory.read s.mem (r + 2) 1 / 128 * 128) 1) s

end Sys2Proof.Machine
end

