-- ==== Sys2Proof/Machine/Home.lean ====
section
/-! DEFINITION. What a home slice and a bank arbiter do with one access: line fills and the thresher (R44 to R52, R154), poison (R53 to R55), writes with their wakes (R57, R95), scratchpad words (R40, R107). -/

namespace Sys2Proof.Machine

open Sys2Proof

/-! ### Lines -/

/-- The line of an address at its home. -/
def State.line (s : State) (pa : Nat) : Line := SMap.get s.lines (pa / 128) {}
/-- A line replaced. -/
def State.setLine (s : State) (pa : Nat) (l : Line) : State := { s with lines := SMap.set s.lines (pa / 128) l }

/-- The stack of the channel that holds an address has stopped answering (R154, R155). -/
def State.deadAt (s : State) (pa : Nat) : Bool := s.hub.dead.getLsbD (s.homeNow pa / 32)

/-- PCAUSE of a line that a dead stack does not give: 2 while that stack is being retired, else 0 (R154, R155). -/
def State.deadCause (s : State) (pa : Nat) : Nat := if s.hub.odd && s.hub.retire.getLsbD (s.homeNow pa / 32) then 2 else 0

/-- A LINE LEAVES ITS SLICE (R44, R45): a dirty one is written back, the copies in harts' caches are invalidated, the sidecar goes; its poison stays
with it in HBM. -/
def State.evictLine (s : State) (pa : Nat) : State :=
  s.setLine pa { psn := (s.line pa).psn, pcause := (s.line pa).pcause }

/-- The lines that the set of a line holds in its slice: 512 sets of 16 ways, chosen as the implementation does (R44). -/
def State.homeRow (s : State) (home line : Nat) : List Nat :=
  (s.lines.filter fun l => l.2.valid && s.homeNow (128 * l.1) == home && Config.homeSet l.1 % 512 == Config.homeSet line % 512).map Prod.fst

/-- A slice makes room for a line: of a full set the line that the implementation chooses leaves (R44). -/
def State.homeRoom (s : State) (home pa : Nat) : State :=
  let row := s.homeRow home (pa / 128)
  if row.length < 16 then s else s.evictLine (128 * row.getD (Config.victim s.freeCtr (pa / 128) % row.length) 0)

/-- The enabled window whose data range holds an address (R47). -/
def State.windowOf (s : State) (pa : Nat) : Option (Nat × Fwin) := s.windows.find? fun p => p.2.fmt == 1 && p.2.hasData pa

/-- The address of the side record of a block in a window (R47, R51). -/
def Fwin.sideAddr (w : Fwin) (pa : Nat) : Nat := w.sbase * 8 + 8 * ((pa - w.base * 2 ^ 16) / 64)

/-- A block and its side record are malformed (R51). -/
def State.blockBad (s : State) (pa side : Nat) : Bool := q4xMalformed (Memory.read s.mem pa 64) side

/-- A count of poisoned lines: the first is recorded with its PCAUSE, the others are counted (R55). -/
def countFirst (n : Nat) (first : Option (Nat × Nat)) (x : Nat × Nat) : Nat × Option (Nat × Nat) := match first with
  | none => (n, some x)
  | some y => (n + 1, some y)

/-- A LINE IS POISONED with a PCAUSE: reported once, at creation, to the service core of local cluster 0 of the slice's die, by the 64 KiB page (R53, R55). -/
def State.poisonLine (s : State) (home pa cause : Nat) : State :=
  let l := s.line pa
  let t := s.setLine pa { l with psn := true, pcause := cause }
  if l.psn then t
  else
    let sl := t.slice home
    let (n, f) := countFirst sl.created sl.firstCreated (lineOf pa, cause)
    let t := t.setSlice home { sl with created := n, firstCreated := f }
    (t.machineCheck (16 * (home / 32)) (.poison (pa / 2 ^ 16))).afterPoison home (lineOf pa)

/-- A line installed in its slice without the thresher: a stack that has stopped answering gives a poisoned one (R44, R154, R155). -/
def State.install (s : State) (home pa : Nat) : State :=
  let s := s.homeRoom home pa
  let s := s.setLine pa { s.line pa with valid := true, dirty := false, dec := false }
  if s.deadAt pa then s.poisonLine home pa (s.deadCause pa) else s

/-- The line of a side record read through its home (R51); no window has data there (R48). -/
def State.sideLine (s : State) (pa : Nat) : State := if (s.line pa).valid then s else s.install (s.homeNow pa) pa

/-- The side records of a line's two blocks read, where it lies in an enabled Q4X window (R51). -/
def State.sideLines (s : State) (pa : Nat) : State :=
  match s.windowOf (lineOf pa) with
  | none => s
  | some (_, w) => (s.sideLine (w.sideAddr (lineOf pa))).sideLine (w.sideAddr (lineOf pa) + 15)

/-- THRESH_FILL (R51) with the side records of a line in an enabled Q4X window: a malformed block poisons the line, side records in a
poisoned line leave it undecoded. -/
def State.thresh (s : State) (home pa : Nat) : State :=
  let a := lineOf pa
  match s.windowOf a with
  | none => s.setLine a { s.line a with dec := false }
  | some (n, w) =>
    let sa := w.sideAddr a
    if s.linePsn sa || s.linePsn (sa + 15) then s.setLine a { s.line a with dec := false }
    else
      let side := Memory.read s.mem sa 16
      let s := s.setLine a { s.line a with dec := true, win := n, side := BitVec.ofNat 128 side }
      if s.blockBad a (side % 2 ^ 64) || s.blockBad (a + 64) (side / 2 ^ 64) then s.poisonLine home a 1 else s

/-- A line filled from HBM (R44, R46): an uncorrectable error poisons it with PCAUSE 0, a dead stack as R154 and R155 have it. -/
def State.fillLine (s : State) (home pa : Nat) (bad : Bool) : State :=
  let s := (s.sideLines pa).homeRoom home pa
  let s := s.setLine pa { s.line pa with valid := true, dirty := false }
  let s := s.thresh home pa
  let s := if bad then s.poisonLine home pa 0 else s
  if s.deadAt pa then s.poisonLine home pa (s.deadCause pa) else s

/-- A read at the home met poison: counted, and the first recorded (R55). -/
def State.deliverPsn (s : State) (home pa : Nat) : State :=
  let sl := s.slice home
  let (n, f) := countFirst sl.delivered sl.firstDelivered (lineOf pa, (s.line pa).pcause)
  s.setSlice home { sl with delivered := n, firstDelivered := f }

/-! ### Writes -/

/-- Bytes written at offsets of an address. -/
def Memory.putAll (m : Memory) (a : Nat) (bs : SMap Byte) : Memory := bs.foldl (fun m b => m.put (a + b.1) b.2) m

/-- The first byte that a list of bytes touches, and the length to the last. -/
def spanOf (bs : SMap Byte) : Nat × Nat :=
  match bs with
  | [] => (0, 0)
  | p :: r => (p.1, (r.getLast?.map Prod.fst).getD p.1 + 1 - p.1)

/-- A WRITE PERFORMED AT THE HOME of a word: bytes at offsets of `pa` (R45, R49, R53, R57, R95). `full` says that one write covers the
line, which removes its poison; `who` is a hart that writes. -/
def State.homeWrite (s : State) (home pa : Nat) (bs : SMap Byte) (full : Bool) (who : Option Agent) : State :=
  if bs.isEmpty then s
  else
    let s := { s with mem := Memory.putAll s.mem pa bs }
    let l := s.line pa
    let keep := match who with
      | some (.service c _) => l.svcv && !l.svcm && l.svcid == c
      | _ => false
    let hub := l.hub && (match who with
      | some (.control _ _) => true
      | _ => false)
    let l := { l with dirty := true, hub := hub, svcv := keep, svcm := false, psn := l.psn && !full }
    let s := s.setLine pa l
    let s := if l.dec then s.thresh home pa else s
    let (o, n) := spanOf bs
    s.afterWrite home (pa + o) n

/-- The bytes of a value, lowest first. -/
def valueBytes (x n : Nat) : SMap Byte := (List.range n).map fun k => (k, BitVec.ofNat 8 (x / 256 ^ k))

/-- A value of at most 8 bytes stored at its home now; entries on a word of a granule that is on the move may already be at the other home (R152). -/
def State.homeStore (s : State) (pa x n : Nat) : State :=
  let home := s.homeNow pa
  ((s.homesOf pa).filter (· != home)).foldl (fun s h => s.afterWrite h pa n) (s.homeWrite home pa (valueBytes x n) false none)

/-- A line that a home slice does not hold is filled for an access: its data, or poison where the stack is dead (R44, R46, R154). -/
def State.needLine (s : State) (pa : Nat) : State :=
  if (s.line pa).valid || pRange pa != .hbm then s else s.fillLine (s.homeNow pa) pa false

/-! ### Interleave descriptors -/

/-- The descriptor that the hub holds. -/
def Hub.desc (h : Hub) : RouteDesc := { phase := h.phase, next := h.mnext }

/-- The routing points: clusters, the hub's ports, the peer-link ingress. -/
def routePoints : List Nat := List.range 130

/-- A routing point reloads its descriptor (R149). -/
def State.refreshDesc (s : State) (point : Nat) : State :=
  { s with hub := { s.hub with route := SMap.set s.hub.route point s.hub.desc } }

/-- Every routing point adopts the descriptor of the hub (R147). -/
def State.refreshAll (s : State) : State := { s with hub := { s.hub with route := routePoints.map fun p => (p, s.hub.desc) } }

/-- The hub's ports, and the peer-link ingress, as routing points (R144). -/
def hubPorts : Nat := 128
/-- The peer-link ingress. -/
def peerIngress : Nat := 129

/-- A saturating counter of 24 bits raised. -/
def sat24 (n : Nat) : Nat := min 0xFFFFFF (n + 1)

/-- MOVED (R148, R149): counted; the routing point reloads its descriptor, to send the request again. -/
def State.movedAt (s : State) (point : Nat) : State :=
  let s := s.refreshDesc point
  { s with hub := { s.hub with moveds := sat24 s.hub.moveds } }

/-- What 06 Table 10 gives for a request routed by a descriptor to an address. -/
def State.fateBy (s : State) (d : RouteDesc) (pa : Nat) : HomeFate :=
  if pRange pa == .hbm && decide (pa < s.hub.memcap) then s.homeFate (s.homeBy d pa) pa else .perform

/-- The same for a request of an agent that its routing point sends now. -/
def State.fateFrom (s : State) (point pa : Nat) : HomeFate := s.fateBy (s.routeAt point) pa

/-- A request does not stall on a granule that moves (R148). -/
def HomeFate.passes : HomeFate → Bool
  | .perform | .moved => true
  | _ => false

/-- The request of an agent that makes one at a time does not stall (R148). -/
def State.passes (s : State) (point pa : Nat) : Bool := (s.fateFrom point pa).passes

/-- SUCH A REQUEST MADE: it is performed, or refused with MOVED, so that the agent makes it again (R149). -/
def State.sendFrom (s : State) (point pa : Nat) (go : State → State) : State :=
  match s.fateFrom point pa with
  | .moved => s.movedAt point
  | _ => go s

/-! ### Reads by units -/

/-- A write to a doubleword of the range waits on a ring (R102). -/
def State.behindRing (s : State) (pa n : Nat) : Bool :=
  s.slices.any fun k => k.2.stall.any fun r => match SMap.find s.accs r.acc with
    | some a => (match a.pieces[r.piece]? with
      | some q => (dwords q.addr q.size).any fun d => meets d 8 pa n
      | none => false)
    | none => false

/-- The line of an address must be filled, and a granule that holds its side records is on the move (R148). -/
def State.fillHeld (s : State) (pa : Nat) : Bool :=
  pRange pa == .hbm && !(s.line pa).valid && (match s.windowOf (lineOf pa) with
    | some (_, w) => s.sealed (w.sideAddr (lineOf pa)) || s.sealed (w.sideAddr (lineOf pa) + 15)
    | none => false)

/-- A unit's access to `n` bytes, sent from a routing point, is held by nothing: a granule that moves, one with the line's side records, or a ring
(R102, R148). -/
def State.unitFree (s : State) (point pa n : Nat) (wr : Bool) : Bool :=
  pRange pa != .hbm || (s.passes point pa && !s.fillHeld pa && !s.behindRing pa n && (!wr || !s.ringHolds (s.homeNow pa) pa n))

/-- Accesses that a unit makes together: places, each with its bytes. -/
def State.allFree (s : State) (point : Nat) (wr : Bool) (l : List (Nat × Nat)) : Bool := l.all fun p => s.unitFree point p.1 p.2 wr

/-- ACCESSES MADE TOGETHER: where one is refused with MOVED, the unit makes them again (R149). -/
def State.sendAll (s : State) (point : Nat) (l : List (Nat × Nat)) (go : State → State) : State :=
  if l.any fun p => s.fateFrom point p.1 == .moved then s.movedAt point else go s

/-- BYTES THAT A UNIT WRITES: at their home, or to another package, of which nothing is seen here (R24, R27). -/
def State.unitWrite (s : State) (pa : Nat) (bs : SMap Byte) (full : Bool) : State :=
  if pRange pa == .hbm then ((s.needLine pa).homeWrite (s.homeNow pa) pa bs full none).race none (pa + (spanOf bs).1) (spanOf bs).2 else s

/-- Poison of a line that a unit read, counted at its home (R55). -/
def State.unitPoison (s : State) (pa : Nat) : State :=
  let s := s.needLine pa
  if pRange pa == .hbm && s.linePsn pa then s.deliverPsn (s.homeNow pa) pa else s

/-- The class of a poisoned line when it is consumed (02 Table 6). -/
def State.poisonClass (s : State) (pa : Nat) : BitVec 8 := psnClass (s.line pa).pcause

/-- The class with which the other side of a peer window or an aperture answers a read, if it does not answer with data (R24, R25, R389). -/
def State.farClass (s : State) (pa : Nat) : Option (BitVec 8) :=
  match pRange pa, Config.farAnswer s.freeCtr pa with
  | .peer _ _, 1 => some clsProtection
  | .peer _ _, 2 => some clsCapacity
  | .peer _ _, 3 => some clsPoison
  | .pcie _ _, 3 => some clsPoison
  | _, _ => none

/-- A doubleword that a unit reads: HBM, or a free value from beyond the package (R24, R27). -/
def State.seenDword (s : State) (pa : Nat) : DWord := if pRange pa == .hbm then s.dword pa else Config.farWord s.freeCtr pa

/-- The outcome of a read that a unit makes of bytes of a line. -/
inductive LineRead
  | ok (s : State)
  | wait (s : State)
  | bad (cls : BitVec 8) (s : State)

/-- A READ OF `n` BYTES OF A LINE by a unit that makes one at a time from a routing point: it waits on a sealed granule, goes again after MOVED (R148, R149), and
meets the line's poison at its home (R54, R55) or the answer of another package. -/
def State.lineRead (s : State) (point pa n : Nat) : LineRead :=
  if pRange pa != .hbm then (match s.farClass pa with
    | some k => .bad k s.bump
    | none => .ok s)
  else if s.fateFrom point pa = .moved then .wait (s.movedAt point)
  else if !s.passes point pa || s.fillHeld pa || s.behindRing pa n then .wait s
  else
    let s := s.needLine pa
    if s.linePsn pa then .bad (s.poisonClass pa) (s.deliverPsn (s.homeNow pa) pa) else .ok s

/-- Such a read fails. -/
def State.badRead (s : State) (point pa n : Nat) : Bool := match s.lineRead point pa n with
  | .bad _ _ => true
  | _ => false

/-- Such reads of `n` bytes each, in order; one that has to wait or fails ends them. -/
def State.lineReads (s : State) (point n : Nat) : List Nat → LineRead
  | [] => .ok s
  | a :: as => match s.lineRead point a n with
    | .ok s => s.lineReads point n as
    | r => r

/-! ### Scratchpad -/

/-- Bytes of a team's scratchpad. -/
def Team.spadRead (t : Team) (a n : Nat) : Nat := Memory.read t.spad a n

/-- Some word of a range is poisoned. -/
def Team.spadBad (t : Team) (a n : Nat) : Bool := t.spadPsn.any fun w => meets w 4 a n

/-- A write granted at the bank arbiter: a word written whole loses its poison (R53); the waits on the word are looked at (R107). -/
def State.spadWrite (s : State) (tm a : Nat) (bs : SMap Byte) : State :=
  if bs.isEmpty then s
  else
    let t := s.team tm
    let whole (w : Nat) : Bool := (List.range 4).all fun k => bs.any fun b => a + b.1 == w + k
    let t := { t with
      spad := Memory.putAll t.spad a bs
      spadPsn := t.spadPsn.filter fun w => !whole w }
    let s := s.setTeam tm t
    let (o, n) := spanOf bs
    let hit := s.watch.filter fun e => e.team == tm && meets e.addr (wordBytes e.w64) (a + o) n &&
      satisfies e.cmp (BitVec.ofNat 64 (t.spadRead e.addr (wordBytes e.w64))) e.opnd e.w64
    let s := { s with watch := s.watch.filter fun e => !hit.contains e }
    hit.foldl (fun s e =>
      { s with wakes := s.wakes ++ [{ waiter := e.slot, ctx := (s.group e.slot).ctx, status := 0,
                                      val := BitVec.ofNat 64 (t.spadRead e.addr (wordBytes e.w64)), psn := false }] }) s

/-- A scratchpad word poisoned (R53). A WAIT parked on the word stays parked: R110 speaks of the lines of memory, and the spec is silent on scratchpad
words (log 83). -/
def State.spadPoison (s : State) (tm a : Nat) : State :=
  s.updTeam tm fun t => { t with spadPsn := if t.spadPsn.contains (a / 4 * 4) then t.spadPsn else t.spadPsn ++ [a / 4 * 4] }

end Sys2Proof.Machine
end

