-- ==== Sys2Proof/Machine/Pair.lean ====
section
/-! DEFINITION. What stands between an instruction's checks and its effect for a group of a contained team (R370 to R372) or of a pair (R362 to R366, R403 to R406), and what every Oropra instruction does around its effect (R213, R217). -/

namespace Sys2Proof.Machine

open Sys2Proof

/-! ### Contained teams -/

/-- A word of L1 invalidated: the bytes of a store that L1 did not see. -/
def State.dropWord (s : State) (core pa : Nat) : State := s.setCore core ((s.core core).updWord (pa / 4 * 4) fun w => { w with valid := false })

/-- Every home that a team's held stores go to can take them (R102, R148). -/
def State.commitFree (s : State) (tm : Nat) : Bool := (s.team tm).commit.all fun b => s.unitFree ((s.team tm).core / 8) b.1 1 true

/-- A line that a word of has been written leaves the matrix load pipes of every core; writes of copies, devices and peers leave it there (R83). -/
def State.unstage (s : State) (pa : Nat) : State :=
  { s with cores := s.cores.map fun (k : Nat × Core) => (k.1, { k.2 with staged := SMap.del k.2.staged (pa / 128) }) }

/-- One doubleword of a team's held stores performed at its home; `full` says that its whole line is held (R53). -/
def State.commitDword (s : State) (t : Team) (full : Bool) (a : Nat) : State :=
  let bs : SMap Byte := (t.commit.filter fun b => b.1 / 8 * 8 == a).map fun b => (b.1 - a, b.2)
  let s := ((s.needLine a).homeWrite (s.homeNow a) a bs full none).unstage a
  (List.range t.cores).foldl (fun s j => (s.dropWord (t.core + j) a).dropWord (t.core + j) (a + 4)) s

/-- CONTAINED_COMMIT: a contained team's held stores are performed at their homes, and it runs uncontained (R370, R371). -/
def State.commitTeam (s : State) (tm : Nat) : State :=
  let t := s.team tm
  let full (a : Nat) : Bool := (t.commit.filter fun b => b.1 / 128 == a / 128).length == 128
  let s := ((t.commit.map fun b => b.1 / 8 * 8).eraseDups).foldl (fun s a => s.commitDword t (full a) a) s
  s.updTeam tm fun t => { t with commit := [], contained := false }

/-- The bytes that contained teams hold on a cluster (R370). -/
def State.heldBytes (s : State) (cl : Nat) : Nat := ((s.teams.filter fun t => t.2.core / 8 == cl).map fun t => t.2.commit.length).sum

/-! ### The classes of R363 Table 1 -/

/-- How an instruction of a pair acts (16 Table 1). -/
inductive PairClass
  | own
  | lvq
  | store
  | side
deriving DecidableEq, Repr

/-- The special registers whose values the leading copy gives (16 Table 1). -/
def lvqRegs : List Nat := [0x20, 0x21, 0x22, 0x1A, 0x02, 0x03, 0x04, 0x62, 0x63, 0x64, 0x40, 0x41, 0x42]

/-- TDC of the options of an acopy, in C. -/
def Ctx.copyTdc (c : Ctx) : Bool := c.uc.getLsbD 5

/-- The class of an instruction (16 Table 1). -/
def Ctx.pairClass (c : Ctx) (i : Instr) : PairClass :=
  let f := c.e.func
  if c.act = 0 then .own
  else
    match i with
    | .ld _ | .ldc _ | .tstampr _ | .tget _ => .lvq
    | .qunpk _ => if f.getLsbD 0 then .own else .lvq
    | .srd _ => if lvqRegs.contains f.toNat then .lvq else .own
    | .st _ => .store
    | .atom _ | .atomCas _ | .atomf _ | .tspawn _ | .tarm _ | .tdec _ | .tdone _ | .tlaunch _ | .scall _ => .side
    | .red _ => if f.getLsbD 4 then .own else .side
    | .arrive _ => if f.getLsbD 0 then .own else .side
    | .wait _ => if f.getLsbD 4 then .own else .side
    | .acp _ => if f.getLsbD 5 then .own else .side
    | .acopy _ => if f.getLsbD 5 && !c.copyTdc then .own else .side
    | _ => .own

/-- NUM of MEM_INFO (15 Table 6). -/
def numMemInfo : Nat := 4

/-- An irrevocable action (R371). -/
def Ctx.irrevocable (c : Ctx) (i : Instr) : Bool :=
  c.pairClass i == .side && (match i with
    | .scall _ => (lanesIn c.act).any fun l => (c.g.word c.rc.ctr 8 l).toNat != numMemInfo
    | _ => true)

/-- The instruction of a context has issued: its group's count has gone on. -/
def Ctx.issued (c : Ctx) (t : State) : Bool := (t.group c.slot).seq != c.g.seq

/-- An instruction of a contained team: before an irrevocable action its held stores are committed (R371). -/
def State.containedIssue (s : State) (c : Ctx) (i : Instr) (body : State → Out) : Out :=
  if !c.irrevocable i then body s
  else
    match body s with
    | .next t =>
      if !c.issued t then .next t
      else if s.commitFree c.g.team then body (s.commitTeam c.g.team)
      else .next s
    | r => r

/-! ### Pairs -/

/-- The slot of the other group of a pair. -/
def State.partner (s : State) (g : Group) : Nat :=
  match (s.team g.team).pair with
  | some p => (s.team p).slotOf g.gidx
  | none => 0

/-- The leading team of a group's pair. -/
def State.leadTeam (s : State) (g : Group) : Nat := if (s.team g.team).trail then ((s.team g.team).pair).getD 0 else g.team

/-- A group that may not issue: its team has been struck (R372), its pair has met a mismatch (R368), or it trails and its leader has not issued
the instruction (R364). -/
def State.pairHold (s : State) (slot : Nat) : Bool :=
  let g := s.group slot
  let t := s.team g.team
  if g.routine then false
  else if t.struck then true
  else if !t.paired then false
  else
    let l := s.team (s.leadTeam g)
    let h := s.group (s.partner g)
    l.mism.isSome || l.halted || l.redeliver ||
    (t.trail && decide (h.seq ≤ g.seq) && !(h.seq == g.seq && h.pairAt.isSome))

/-- A mismatch of a pair is found (R368). -/
def State.mismatch (s : State) (g : Group) : State := s.updTeam (s.leadTeam g) fun t => { t with mism := some g.gidx }

/-- Entries of a cluster's load value queue that are occupied (R406). -/
def State.lvqUsed (s : State) (cl : Nat) : Nat := ((s.groups.filter fun g => slotCluster g.1 == cl).map fun g => g.2.lvq.length).sum

/-- A store of a pair whose request the buffer has: a release store's from the end of its drain on (R405). -/
def State.scbPlaced (s : State) (a : Access) : Bool := (!a.scb.isEmpty || (a.trail && a.pieces.any fun p => !p.done)) && s.accsDone a.after

/-- The pair and the place in its program that a store of either copy belongs to: the leading group's slot, and the place. -/
def State.scbKey (s : State) (a : Access) : Nat × Nat := (if a.trail then s.partner (s.prog a.slot) else a.slot, a.seq)

/-- Entries that one copy's requests of a place take up, the leading copy's or the trailing one's. -/
def State.scbLines (s : State) (trail : Bool) (key : Nat × Nat) : Nat :=
  ((s.accs.filter fun a => a.2.trail == trail && s.scbPlaced a.2 && s.scbKey a.2 == key).map fun a =>
    if trail then ((a.2.pieces.filter fun p => !p.done).map fun p => p.addr / 128).eraseDups.length else a.2.scb.length).sum

/-- Entries of a place: from the first copy's request on (R403). -/
def State.scbAt (s : State) (key : Nat × Nat) : Nat := max (s.scbLines false key) (s.scbLines true key)

/-- Entries of a cluster's store compare buffer that are occupied (R403). -/
def State.scbUsed (s : State) (cl : Nat) : Nat :=
  ((((s.accs.filter fun a => slotCluster a.2.slot == cl && s.scbPlaced a.2).map fun a => s.scbKey a.2).eraseDups).map s.scbAt).sum

/-- The entries occupied when a copy's store of a place takes `n` lines more: a line whose entry the other copy has placed takes none (R403). -/
def State.scbWith (s : State) (cl : Nat) (trail : Bool) (key : Nat × Nat) (n : Nat) : Nat :=
  s.scbUsed cl - s.scbAt key + max (s.scbLines trail key + n) (s.scbLines (!trail) key)

/-- The peaks of a cluster's queue and buffer recorded (R406). -/
def State.peaks (s : State) (cl : Nat) : State :=
  let c := s.cluster cl
  s.setCluster cl { c with scbPeak := max c.scbPeak (min 512 (s.scbUsed cl)), lvqPeak := max c.lvqPeak (min 1024 (s.lvqUsed cl)) }

/-- A leading group stalls at issue; one instruction's stall is counted once (R364, R406). -/
def State.slack (s : State) (slot : Nat) : State :=
  if (s.group slot).slacked then s
  else
    let c := s.cluster (slotCluster slot)
    (s.setCluster (slotCluster slot) { c with slack := min 0xFFFF (c.slack + 1) }).updGroup slot fun g => { g with slacked := true }

/-- The lines of a store, in the order of its requests. -/
def Access.lines (a : Access) : List Nat := (a.pieces.map fun p => p.addr / 128).eraseDups

/-- A store of a pair: the leading copy's is held in the store compare buffer, line by line, the trailing copy's is only compared (R363). -/
def State.pairStore (s : State) (tm : Nat) (a : Access) : Access :=
  let t := s.team tm
  if !t.paired || a.space != .global then a
  else if t.trail then { a with trail := true }
  else { a with scb := a.lines }

/-- The values of the sources of an instruction in its active lanes. -/
def Ctx.srcVals (c : Ctx) : List DWord :=
  let one (is : Bool) (w : Nat) (f : Lane → DWord) : List DWord := if is then (lanesIn c.act).map fun l => BitVec.ofNat 64 ((f l).toNat % 2 ^ w) else []
  one c.p.a.isSrc c.p.wa (c.a .int) ++ one c.p.b.isSrc c.p.wb (c.b .int) ++ one c.p.c.isSrc c.p.wc (c.c .int) ++ one c.p.d.isSrc c.p.wd (c.d .int)

/-- The operands that a pair compares at a side effect (R366). -/
def Ctx.pairOps (c : Ctx) (i : Instr) : PairOps :=
  let call : List DWord := match i with
    | .scall _ => (List.range 7).flatMap fun k => (lanesIn c.act).map fun l => (c.g.word c.rc.ctr (8 + k) l).setWidth 64
    | _ => []
  { instr := i, lanes := c.act, vals := c.srcVals ++ call }

/-- The group stands at a side effect and waits for the other copy (R366). -/
def State.standAt (s : State) (c : Ctx) (i : Instr) : Out :=
  if c.g.pairAt.isSome then .next s else .next (s.updGroup c.slot fun g => { g with pairAt := some (c.pairOps i) })

/-! ### What the leading copy leaves -/

/-- The values of an entry are all there: nothing of its instruction is on its way, and its group does not wait for it (R364). -/
def State.entryReady (s : State) (slot : Nat) (e : LvqEntry) : Bool :=
  let g := s.prog slot
  let mine (sl u q : Nat) : Bool := sl == slot && u == g.uid && q == e.seq
  !(s.accs.any fun a => mine a.2.slot a.2.uid a.2.seq && (a.2.dest.isSome || (a.2.fwd.isSome && !a.2.performed))) &&
  !(s.redos.any fun a => mine a.2.slot a.2.uid a.2.seq) && !(s.arms.any fun a => mine a.2.slot a.2.uid a.2.dest.seq) &&
  (g.blocks.all fun b => match b with
    | .tget d _ => d.seq != e.seq
    | .tstamp d => d.seq != e.seq
    | .scall => (match e.instr with
      | .scall _ => false
      | _ => true)
    | _ => true) &&
  (match g.wait with
    | some w => w.d.seq != e.seq
    | none => true)

/-- An entry's values have come: the effect log keeps the result of a side effect; a task that came after the checkpoint of its tget is kept
beside it (R366). -/
def State.logResult (s : State) (lead : Nat) (gidx : Nat) (e : LvqEntry) : State :=
  s.updTeam lead fun t =>
    if t.effects.any fun x => x.gidx == gidx && x.result.seq == e.seq then
      { t with effects := t.effects.map fun x => if x.gidx == gidx && x.result.seq == e.seq then { x with result := e } else x }
    else if e.task.isSome then
      { t with effects := t.effects ++ [{ gidx := gidx, index := 2 ^ 32 + e.seq, ops := ⟨e.instr, e.lanes, []⟩, result := e }] }
    else t

/-- An entry leaves the queue: the trailing copy has its values (R406). -/
def State.dropEntry (s : State) (slot seq : Nat) : State := s.updGroup slot fun g => { g with lvq := g.lvq.filter fun e => e.seq != seq }

/-- A side effect of the leading copy performed: counted, logged, with its number in its group (R366). -/
def State.logEffect (s : State) (c : Ctx) (i : Instr) (e : LvqEntry) : State :=
  let cl := s.cluster c.cluster
  let s := s.setCluster c.cluster { cl with once := min 0xFFFF (cl.once + 1) }
  let s := s.updTeam c.g.team fun t =>
    { t with effects := t.effects ++ [{ gidx := c.g.gidx, index := c.g.sides, ops := c.g.pairAt.getD (c.pairOps i), result := e }] }
  s.updGroup c.slot fun g => { g with sides := c.g.sides + 1, pairAt := none, pairGo := .no }

/-- AN INSTRUCTION WHOSE VALUES THE LEADING COPY GIVES: its entry of the load value queue is taken with its issue (R363, R406); `side`: it is
a side effect. -/
def State.leadTake (s : State) (c : Ctx) (i : Instr) (side : Bool) (body : State → Out) : Out :=
  let e : LvqEntry := { seq := c.g.seq, instr := i, lanes := c.act }
  match body (s.updGroup c.slot fun g => { g with lvq := g.lvq ++ [e] }) with
  | .next t =>
    if !c.issued t then .next ((t.dropEntry c.slot c.g.seq).updGroup c.slot fun g => { g with pairFlt := g.blocks.contains .fault })
    else
      let t := t.updGroup c.slot fun g => { g with slacked := false }
      .next ((if side then t.logEffect c i e else t).peaks c.cluster)
  | r => r

/-! ### What the trailing copy takes -/

/-- The copy that stands for one of the leading group, with which it ends (R366, R280). -/
def State.mirrorCopy (s : State) (c : Ctx) (e : LvqEntry) : State :=
  match e.copy with
  | none => s
  | some m =>
    let (id, s) := s.fresh
    let f := c.e.func
    let k : Copy :=
      { slot := c.slot, uid := c.g.uid, team := c.g.team, tag := f.toNat % 16, pc := c.pc, asid := c.g.asid, priv := c.priv,
        srcSp := f.getLsbD 4, dstSp := f.getLsbD 5, pieces := [], after := [], psn := e.copyPsn, lanes := c.act, mirror := some m }
    let s := { s with copies := SMap.set s.copies id k }
    s.updGroup c.slot fun g =>
      let t : Tag := SMap.get g.tags k.tag {}
      { g with tags := SMap.set g.tags k.tag { pend := t.pend + 1, done := false, psn := t.psn && t.pend != 0 } }

/-- The scratchpad part of an atomf whose old values the leading copy has returned (R279, R366). -/
def State.mirrorAtomf (s : State) (c : Ctx) (e : LvqEntry) : State :=
  match e.writes with
  | [] => s
  | w :: _ =>
    let (id, s) := s.fresh
    let low : LaneMask := if c.scalar then maskOf fun l => l == c.low else c.act
    let a := c.access s .global (.atomic (c.e.func.toNat % 16) c.e.ty) [] (c.a .int)
    let a := { a with
      after := [], bits := c.e.tyWidth, lanes := low, ret := w.vals
      fwd := some (Vector.ofFn fun l => (c.c .int l).setWidth 32, (c.d .int c.low).setWidth 32) }
    { s with accs := SMap.set s.accs id a }

/-- The writes of an entry in the group of a slot, with the flags (R363). -/
def Group.takeWrites (g : Group) (e : LvqEntry) : Group :=
  (e.writes.foldl (fun (g : Group) w => g.writeDest w.dest fun l => w.vals[l]) g).orFlags e.flags

/-- THE VALUES OF AN ENTRY are the instruction's: written, and the instruction issued (R363, R366). -/
def Ctx.takeEntry (c : Ctx) (i : Instr) (e : LvqEntry) (s : State) : State :=
  match i with
  | .atomf _ => done c (s.mirrorAtomf c e)
  | .acp _ | .acopy _ => done c (s.mirrorCopy c e)
  | .tdone _ =>
    retire c LEntry.undef (lanesOf c.g.taskret) (s.updGroup c.slot fun g => { g with taskrec := 0, task := none })
  | _ =>
    match e.writes with
    | [] => done c s
    | w :: _ => retire c (c.entry fun l => w.vals[l]) c.nextPcs (s.updGroup c.slot fun g => g.takeWrites { e with writes := e.writes.map fun w => { w with dest := { w.dest with seq := g.seq } } })

/-- An instruction in which the leading group has parked or may have (R366). -/
def parks (i : Instr) : Bool :=
  match i with
  | .wait _ | .tget _ | .scall _ => true
  | .tstampr f => f.func.getLsbD 0
  | _ => false

/-- The trailing group parks where its leader has, until the entry's values have come. -/
def Ctx.parkFor (c : Ctx) (i : Instr) (s : State) : State :=
  let c' := match i with
    | .wait _ | .tstampr _ => c
    | _ => { c with e := { c.e with sw := true } }
  let s := match i with
    | .scall _ => s.updGroup c.slot fun g => { g with callParked := g.callParked ||| c.act }
    | _ => s
  done c' (s.block c.slot (.lvq c.g.seq))

/-- The trailing group has an instruction behind it. -/
def State.tookSide (s : State) (c : Ctx) (side : Bool) : State :=
  s.updGroup c.slot fun g => { g with pairAt := none, pairGo := .no, sides := if side then c.g.sides + 1 else g.sides }

/-! ### The two copies at issue -/

/-- AN INSTRUCTION OF A LEADING GROUP (R363, R364, R366). -/
def State.leadIssue (s : State) (c : Ctx) (i : Instr) (body : State → Out) : Out :=
  let tr := s.group (s.partner c.g)
  if tr.seq + 256 ≤ c.g.seq || decide (1024 ≤ s.lvqUsed c.cluster) then .next (s.slack c.slot)
  else
    match c.pairClass i with
    | .own =>
      (match body s with
        | .next t => .next (t.updGroup c.slot fun g => { g with slacked := g.slacked && !c.issued t, pairFlt := false })
        | r => r)
    | .store =>
      (match body s with
        | .next t =>
          if c.issued t && decide (512 < t.scbUsed c.cluster) then .next (s.slack c.slot)
          else .next ((t.updGroup c.slot fun g => { g with slacked := g.slacked && !c.issued t, pairFlt := false }).peaks c.cluster)
        | r => r)
    | .lvq => s.leadTake c i false body
    | .side =>
      match c.g.pairGo with
      | .no => s.standAt c i
      | .perform => s.leadTake c i true body
      | .take e => .next ((c.takeEntry i e s).tookSide c true)

/-- AN INSTRUCTION OF A TRAILING GROUP (R363, R364, R366, R368). -/
def State.trailIssue (s : State) (c : Ctx) (i : Instr) (body : State → Out) : Out :=
  let k := c.pairClass i
  let ls := s.partner c.g
  let lead := s.group ls
  match c.g.pairGo with
  | .take e => .next ((c.takeEntry i e s).tookSide c true)
  | _ =>
    if lead.seq ≤ c.g.seq then (if k = .side then s.standAt c i else .next (s.mismatch c.g))
    else
      match lead.lvq.find? fun e => e.seq == c.g.seq with
      | none => if k = .own ∨ k = .store then body s else .next (s.mismatch c.g)
      | some e =>
        if e.instr ≠ i ∨ e.lanes ≠ c.act ∨ k = .own ∨ k = .store then .next (s.mismatch c.g)
        else if parks i then .next ((c.parkFor i s).tookSide c (k = .side))
        else if !s.entryReady ls e then .next s
        else .next ((((c.takeEntry i e s).tookSide c (k = .side)).logResult (s.leadTeam c.g) c.g.gidx e).dropEntry ls e.seq)

/-- What a contained team or a pair makes of an instruction that issues; the save and restore routines pass by (R404). -/
def State.guarded (s : State) (c : Ctx) (i : Instr) (body : State → Out) : Out :=
  let t := s.team c.g.team
  if c.g.routine || !(t.paired || t.contained) then body s
  else if t.contained then s.containedIssue c i body
  else if t.trail then s.trailIssue c i body
  else s.leadIssue c i body

/-- AROUND EVERY INSTRUCTION: the checks of R217 at orders 10, 11 and 12 (`own` is the instruction's own condition of order 12, and
names a class), the interlock of R213, then its effect. -/
def issue (i : Instr) (own : Ctx → State → Option (BitVec 8)) (body : Ctx → State → Out) (s : State) : Out :=
  match i.spec, i.enc with
  | some p, some e =>
    let c := mkCtx s s.cur p e
    if !c.g.canIssue then .next s
    else if s.pairHold c.slot then .next s
    else if !e.allocOk c.g p then .next (s.raiseCode c.slot clsEncoding c.pc c.act)
    else if p.priv && !c.priv then .next (s.raiseCode c.slot clsPrivilege c.pc c.act)
    else if !e.kindsOk p then .next (s.raiseCode c.slot clsEncoding c.pc c.act)
    else
      match own c s with
      | some k => .next (s.raiseCode c.slot k c.pc c.act)
      | none => if c.interlocked then .next s else s.guarded c i (body c)
  | _, _ => .next s

/-! ### Deliveries of a leading group -/

/-- A delivery to a leading group is kept for its trailing one, which takes it at the same place (R331, R334). -/
def State.mirrorTrap (s : State) (slot : Nat) (sync : Bool) (cls : BitVec 8) (addr : DWord) (back : LaneMask) (pc : DWord) : State :=
  let g := s.group slot
  let t := s.team g.team
  if g.routine || !t.paired || t.trail || t.pair.isNone then s
  else
    let s := s.updGroup slot fun g => { g with pairAt := none, pairGo := .no, pairFlt := false }
    s.updGroup (s.partner g) fun h =>
      { h with pairTrap := some { seq := g.seq, sync := sync, cls := cls, addr := addr, pend := g.uipend, back := back, pc := pc } }

/-- A trailing group has come to a delivery that its leader took. -/
def Group.trapHere (g : Group) : Bool := match g.pairTrap with
  | some x => x.seq == g.seq
  | none => false

/-- The trailing group of a slot, at issue, takes the delivery. -/
def State.takeTrap (s : State) (slot : Nat) : State :=
  let g := s.group slot
  match g.pairTrap with
  | none => s
  | some x =>
    let keep : RunSave := if g.count = 0 then { l0 := LEntry.undef, l1 := LEntry.undef, q := g.q, batch := 0, count := 0 } else s.saveRun slot
    let g := { g with
      pc := Vector.ofFn fun l => if laneIn x.back l then x.pc else g.pc[l]
      runs := if g.count = 0 then g.runs - 1 else g.runs
      uipend := if x.sync then g.uipend else x.pend
      pairTrap := none, pairAt := none, pairGo := .no, batch := 0, count := 0, ended := false, midRun := none }
    s.setGroup slot { (g.deliver (some keep) ⟨x.sync, x.cls, x.addr, g.pc⟩) with
      st := if s.resultsOut slot then .draining else .ready, readySince := s.cycle }

end Sys2Proof.Machine
end

