-- ==== Sys2Proof/Machine/Control.lean ====
section
/-! DEFINITION. Control flow (R226 to R231), the convergence instructions (R234 to R241) and the barriers as instructions (R286 to R288). -/

namespace Sys2Proof.Machine

open Sys2Proof

/-! ### Branches -/

/-- A target whose low two bits are not zero (R227). -/
def misaligned (t : DWord) : Bool := t.toNat % 4 != 0

/-- A BRANCH of the active lanes to a target per lane: the alignment check before anything changes (R229), the link, the lane PCs
(R227). The other lanes of the batch go to the next instruction. -/
def branch (c : Ctx) (link : Bool) (t : Lane → DWord) (s : State) : State :=
  let bad := maskOf fun l => laneIn c.act l && misaligned (t l)
  if bad ≠ 0 then
    s.raise c.slot .retry
      { cls := clsAlignment, lanes := bad, kind := 4, space := 0, addr := t (lowLane bad), pc := c.pc }
  else
    let back := c.pc + BitVec.ofNat 64 c.len
    let pcs : Lanes DWord := Vector.ofFn fun l => if laneIn c.act l then t l else back
    if link then
      let x := uniform back
      retire c (c.entry x) pcs (s.updGroup c.slot fun g => g.write c.e.d c.p.wd c.act x g.seq false)
    else retire c LEntry.undef pcs s

/-- A target relative to the branch: PC + 4 · m (R227). -/
def Ctx.relTarget (c : Ctx) : DWord := c.pc + 4 * ((c.ua).setWidth 32).signExtend 64

/-- nop. -/
def execNop (f : Enc) (s : State) : Out := issue (.nop f) noOwn (fun c s => .next (done c s)) s

/-- bra. -/
def execBra (f : Enc) (s : State) : Out :=
  issue (.bra f) noOwn (fun c s => .next (branch c false (fun _ => c.relTarget) s)) s

/-- The condition of bru: FUNC [2:0] names the predicate, [3] inverts it, [4] asks it of all lanes (R226). -/
def Ctx.bruTaken (c : Ctx) : Bool :=
  let p (l : Lane) : Bool := c.g.predBit c.rc.ctr (c.e.func.toNat % 8) l != c.e.func.getLsbD 3
  if c.e.func.getLsbD 4 then (lanesIn c.act).all p else (lanesIn c.act).any p

/-- bru: the whole batch alike. -/
def execBru (f : Enc) (s : State) : Out :=
  issue (.bru f) noOwn (fun c s =>
    let t := if c.bruTaken then c.relTarget else c.pc + BitVec.ofNat 64 c.len
    .next (branch c false (fun _ => t) s)) s

/-- K of brx for KSEL (R226). -/
def brxSize (k : Nat) : Nat := [4, 8, 12, 16, 20, 24, 32, 40].getD k 4

/-- brx: into the table that follows (R228). -/
def execBrx (f : Enc) (s : State) : Out :=
  issue (.brx f) noOwn (fun c s =>
    let t (l : Lane) : DWord :=
      c.pc + BitVec.ofNat 64 (c.len + brxSize (c.e.func.toNat % 8) * min (c.a .int l).toNat c.ub.toNat)
    .next (branch c false t s)) s

/-- A link destination is an even v register, an even s register or the zero operand (R226). -/
def linkOk (c : Ctx) (_ : State) : Option (BitVec 8) :=
  encIf (match c.e.d with
    | .q _ => true
    | .s _ => c.e.a.perLane
    | _ => false)

/-- call. -/
def execCall (f : Enc) (s : State) : Out :=
  issue (.call f) linkOk (fun c s => .next (branch c true (fun _ => c.relTarget) s)) s

/-- callx. -/
def execCallx (f : Enc) (s : State) : Out :=
  issue (.callx f) linkOk (fun c s => .next (branch c true (fun l => c.a .int l) s)) s

/-- ret. -/
def execRet (f : Enc) (s : State) : Out :=
  issue (.ret f) noOwn (fun c s => .next (branch c false (fun l => c.a .int l) s)) s

/-- A generation of a register of a team has not completed CVTIMEOUT cycles after FIRST: what comes in the cycle in which the time ends still
comes before the test (R239, R240). -/
def State.cvLate (s : State) (tm n : Nat) : Bool :=
  let r := (s.team tm).cvReg n
  (SMap.find s.teams tm).isSome && (s.team tm).savingTo.isNone && r.st == .open && (match r.since with
    | some f => decide ((s.team tm).cvLimit < s.cycle - f)
    | none => false)

/-- A time-out that is over due comes before the event that reaches the register next (R239). -/
def State.cvCatch (s : State) (tm n : Nat) : State := if s.cvLate tm n then s.cvFault tm n else s

/-- exit: the active lanes are exited and leave their convergence sets; when the group is gone its team's barriers are tested
(R230, R239, R287). -/
def execExit (f : Enc) (s : State) : Out :=
  issue (.exit f) noOwn (fun c s =>
    let s := s.updGroup c.slot fun g => { g with exited := g.exited ||| c.act }.leaveTrap c.act
    let s := if c.act = 0 ∨ c.g.routine then s else ((List.range 16).foldl (fun s n => s.cvCatch c.g.team n) s).cvExit c.slot c.act
    .next (done c (if (s.group c.slot).gone && !c.g.routine then s.pollTeam c.g.team else s))) s

/-- The context of an instruction that ends its run whatever SW says. -/
def Ctx.ending (c : Ctx) : Ctx := { c with e := { c.e with sw := true } }

/-- yield (R231). -/
def execYield (f : Enc) (s : State) : Out := issue (.yield f) noOwn (fun c s => .next (done c.ending s)) s

/-! ### Convergence registers -/

/-- A group-level instruction without a register result: its effect if some lane is active (R268), and its place in the run. -/
def groupLevel (i : Instr) (own : Ctx → State → Option (BitVec 8)) (f : Ctx → State → State) (s : State) : Out :=
  issue i own (fun c s => .next (done c (if c.act = 0 then s else f c s))) s

/-- The non-exited lanes of the groups `f` to `f + n - 1` of a team. -/
def State.liveLanes (s : State) (tm f n : Nat) : Nat :=
  ((List.range n).map fun i => 32 - countLanes (s.member tm (f + i)).exited).sum

/-- cvset at the sync unit: the register afterwards and the status (R235); BUSY also while an MMA of the register is queued, running or frozen (R301). -/
def State.cvset (s : State) (tm n f cnt : Nat) : CvReg × Nat :=
  let t := s.team tm
  let r := t.cvReg n
  if cnt = 0 ∨ t.ngroups < f + cnt then (r, 3)
  else if (r.st = .open ∧ r.signedCount ≠ 0) ∨ s.cvBusy tm n then (r, 1)
  else
    let m := s.liveLanes tm f cnt
    let r : CvReg := { r with members := m, first := f, groups := cnt, signs := [], leaving := [], held := [], setAt := some s.cycle }
    if m = 0 then ({ r with st := .free }, 2) else ({ r with st := .open }, 0)

/-- cvset: performed once if a lane is active; the status is uniform. -/
def execCvset (f : Enc) (s : State) : Out :=
  issue (.cvset f) noOwn (fun c s =>
    if c.act = 0 then .next (result c false (uniform 0) noFlags s)
    else
      let n := c.e.func.toNat % 16
      let s := s.cvCatch c.g.team n
      let (r, st) := s.cvset c.g.team n c.ua.toNat c.ub.toNat
      .next (result c false (uniform (BitVec.ofNat 64 st)) noFlags (s.setCv c.g.team n r))) s

/-- A sign on a FREE register, or by a group outside GROUPS, is an encoding fault (R236). -/
def signOk (c : Ctx) (s : State) : Option (BitVec 8) :=
  let r := (s.team c.g.team).cvReg (c.e.func.toNat % 16)
  encIf (decide (c.act ≠ 0) &&
    (r.st == .free || decide (c.g.gidx < r.first) || decide (r.first + r.groups ≤ c.g.gidx)))

/-- The record of a sign or cvwait that meets a FAULTED register (R236, R238, R413). -/
def faultedSync (c : Ctx) (n : Nat) (kind : Nat) (s : State) : State :=
  s.lateFault c.slot (syncFault n clsCvTimeout kind c.pc c.next c.act c.act)

/-- KIND of a record of a register: 6 if the generation holds an mma sign (R413). -/
def CvReg.kind (r : CvReg) : Nat := if r.mma.isSome then 6 else 7

/-- The register has been set in this cycle: signs and cvwaits that reach it come in a later one (R239). -/
def CvReg.justSet (r : CvReg) (cycle : Nat) : Bool := r.setAt == some cycle

/-- sign (R236). -/
def execSign (f : Enc) (s : State) : Out :=
  issue (.sign f) signOk (fun c s =>
    let n := c.e.func.toNat % 16
    if c.act = 0 then .next (done c s)
    else if ((s.team c.g.team).cvReg n).justSet s.cycle then .next s
    else
      let s := s.cvCatch c.g.team n
      let r := (s.team c.g.team).cvReg n
      .next (done c (if r.st = .faulted then faultedSync c n r.kind s else s.cvSign c.slot n c.act none c.pc c.next []))) s

/-- The generation that cvwait waits for (R238): the current one, or that of the group's latest sign where it is held. -/
def waitGen (r : CvReg) (g : Group) : BitVec 16 := r.gen + BitVec.ofNat 16 (r.heldDepth g.gidx (~~~ 0))

/-- A cvwait of a group that has signed nothing in the current generation meets the completion of the same cycle, which wakes it (R239). -/
def CvReg.wokenAt (r : CvReg) (g : Group) (cycle : Nat) : Bool := r.doneAt == some cycle && signLanes (r.signs ++ r.held) g.gidx == 0

/-- cvwait (R238). -/
def execCvwait (f : Enc) (s : State) : Out :=
  issue (.cvwait f) noOwn (fun c s =>
    let n := c.e.func.toNat % 16
    if c.act = 0 then .next (result c false (uniform 0) noFlags s)
    else if ((s.team c.g.team).cvReg n).justSet s.cycle then .next s
    else
      let s := s.cvCatch c.g.team n
      let r := (s.team c.g.team).cvReg n
      if r.st = .free ∨ r.wokenAt c.g s.cycle = true then .next (result c false (uniform (r.gen.setWidth 64)) noFlags s)
      else if r.st = .faulted then .next (done c (faultedSync c n r.kind s))
      else
        let s := s.block c.slot (.cvwait n (waitGen r c.g) c.dest)
        let s := s.updGroup c.slot fun g => { g with cvAt := SMap.set g.cvAt n (c.pc, c.next) }
        .next (retire c { (c.entry (uniform 0)) with valid := 0 } c.nextPcs s)) s

/-! ### Barriers -/

/-- The scratchpad accesses of the group that are not performed, what an atomf forwards among them: what an arrival orders (R75, R279). -/
def State.spadOpen (s : State) (slot : Nat) : List Nat := s.openAccs slot fun a => a.space == .spad || a.forwarding

/-- Every access of the group that is not performed: what a release orders (R63). -/
def State.allOpen (s : State) (slot : Nat) : List Nat := s.openAccs slot fun _ => true

/-- An arrival at the team barrier, and the park (R287). -/
def State.arriveTeam (s : State) (slot : Nat) (global : Bool) : State :=
  let g := s.group slot
  let after := if global then s.allOpen slot else s.spadOpen slot
  let s := s.updTeam g.team fun t =>
    { t with barArr := t.barArr ++ [g.gidx], barG := t.barG || global, barAfter := t.barAfter ++ after }
  (s.block slot .bar).barTest g.team

/-- bar (R287). -/
def execBar (f : Enc) (s : State) : Out := groupLevel (.bar f) noOwn (fun c s => s.arriveTeam c.slot false) s

/-- bar.g (R287). -/
def execBarG (f : Enc) (s : State) : Out := groupLevel (.barG f) noOwn (fun c s => s.arriveTeam c.slot true) s

/-- bar bN: barrive, then barwait (R288). -/
def execBarNamed (f : Enc) (s : State) : Out :=
  groupLevel (.barNamed f) noOwn (fun c s =>
    let n := c.e.func.toNat / 4 % 16
    (s.barrive c.slot n c.ua.toNat (s.spadOpen c.slot)).barwait c.slot n) s

/-- barrive (R288). -/
def execBarrive (f : Enc) (s : State) : Out :=
  groupLevel (.barrive f) noOwn (fun c s => s.barrive c.slot (c.e.func.toNat % 16) c.ua.toNat (s.spadOpen c.slot)) s

/-- barwait (R288). -/
def execBarwait (f : Enc) (s : State) : Out :=
  groupLevel (.barwait f) noOwn (fun c s => s.barwait c.slot (c.e.func.toNat % 16)) s

end Sys2Proof.Machine
end

