-- ==== Sys2Proof/Machine/Integer.lean ====
section
/-! DEFINITION. Integer arithmetic, bit operations, compare and select (10 Tables 8 and 9, R242 to R247). -/

namespace Sys2Proof.Machine

open Sys2Proof

/-- The integer type of the instruction's TYPE. -/
def Ctx.ity (c : Ctx) : IntTy := IntTy.ofCode c.e.ty.toNat

/-- Source A as an integer of a type, modifiers applied (R181). -/
def Ctx.ia (c : Ctx) (t : IntTy) (l : Lane) : Int := t.value (intMod t.bits c.e.negA c.e.absA (c.a .int l).toNat)
/-- Source B as an integer. -/
def Ctx.ib (c : Ctx) (t : IntTy) (l : Lane) : Int := t.value (intMod t.bits c.e.negB c.e.absB (c.b .int l).toNat)
/-- Source C as an integer. -/
def Ctx.ic (c : Ctx) (t : IntTy) (l : Lane) : Int := t.value (intMod t.bits c.e.negC c.e.absC (c.c .int l).toNat)

/-- An exact integer result per lane, reduced or limited to a type, and written (R243). -/
def intResult (c : Ctx) (t : IntTy) (x : Lane → Int) (s : State) : State :=
  let r (l : Lane) := t.finish (c.e.clamp == 3) (x l)
  result c true (fun l => t.reg (r l).1) (fun l => (r l).2) s

/-- The integer arithmetic instructions of Table 8 (R243): an exact result from the sources. -/
def intOp (i : Instr) (f : Int → Int → Int → IntTy → Int) (s : State) : Out :=
  issue i noOwn (fun c s =>
    let t := c.ity
    .next (intResult c t (fun l => f (c.ia t l) (c.ib t l) (c.ic t l) t) s)) s

/-- iadd. -/
def execIadd (f : Enc) (s : State) : Out := intOp (.iadd f) (fun a b _ _ => a + b) s
/-- isub. -/
def execIsub (f : Enc) (s : State) : Out := intOp (.isub f) (fun a b _ _ => a - b) s
/-- iadd3. -/
def execIadd3 (f : Enc) (s : State) : Out := intOp (.iadd3 f) (fun a b c _ => a + b + c) s
/-- imul. -/
def execImul (f : Enc) (s : State) : Out := intOp (.imul f) (fun a b _ _ => a * b) s
/-- imulh: the high half, rounded down. -/
def execImulh (f : Enc) (s : State) : Out := intOp (.imulh f) (fun a b _ t => a * b / 2 ^ t.bits) s
/-- imad. -/
def execImad (f : Enc) (s : State) : Out := intOp (.imad f) (fun a b c _ => a * b + c) s
/-- imin. -/
def execImin (f : Enc) (s : State) : Out := intOp (.imin f) (fun a b _ _ => min a b) s
/-- imax. -/
def execImax (f : Enc) (s : State) : Out := intOp (.imax f) (fun a b _ _ => max a b) s
/-- iabsd. -/
def execIabsd (f : Enc) (s : State) : Out := intOp (.iabsd f) (fun a b _ _ => ((a - b).natAbs : Int)) s

/-- imad.wide: 32-bit sources, a 64-bit addend and result of the same signedness (R243). -/
def execImadWide (f : Enc) (s : State) : Out :=
  issue (.imadWide f) noOwn (fun c s =>
    let t := c.ity
    let w : IntTy := ⟨64, t.signed⟩
    .next (intResult c w (fun l => c.ia t l * c.ib t l + c.ic w l) s)) s

/-- lea: b + a · 2^s; a shift of the width or more is an encoding fault (R242). -/
def execLea (f : Enc) (s : State) : Out :=
  issue (.lea f) (fun c _ => encIf (decide (c.ity.bits ≤ c.e.func.toNat))) (fun c s =>
    let t := c.ity
    .next (intResult c t (fun l => c.ib t l + c.ia t l * 2 ^ c.e.func.toNat) s)) s

/-- The width of a bit operation. -/
def Ctx.bits (c : Ctx) : Nat := c.e.tyWidth

/-- The bit instructions of Table 9 (R244): a result of at most the width from the sources' bits. -/
def bitOp (i : Instr) (f : Nat → Nat → Nat → Nat → Nat) (s : State) : Out :=
  issue i noOwn (fun c s =>
    .next (result c true
      (fun l => BitVec.ofNat 128 (f c.bits (c.a .int l).toNat (c.b .int l).toNat (c.c .int l).toNat)) noFlags s)) s

/-- Bit n − 1 repeated over the low `n` bits. -/
def signFill (n a : Nat) : Nat := if a / 2 ^ (n - 1) % 2 = 1 then 2 ^ n - 1 else 0

/-- Arithmetic shift right of an `n`-bit value (R244). -/
def sarBits (n a k : Nat) : Nat :=
  if n ≤ k then signFill n a else (a / 2 ^ k + signFill n a * 2 ^ (n - k)) % 2 ^ n

/-- Rotation left of an `n`-bit value. -/
def rotBits (n a k : Nat) : Nat := let j := k % n; (a * 2 ^ j + a / 2 ^ (n - j)) % 2 ^ n

/-- The number of one bits among the low `n`. -/
def popBits (n a : Nat) : Nat := (List.range n).foldl (fun k i => if a.testBit i then k + 1 else k) 0

/-- Leading zero bits of an `n`-bit value. -/
def clzBits (n a : Nat) : Nat := if a = 0 then n else n - 1 - Nat.log2 a

/-- The value of a list of bits, the first lowest. -/
def bitsVal : List Bool → Nat
  | [] => 0
  | b :: r => (if b then 1 else 0) + 2 * bitsVal r

/-- bfe (R245). -/
def bfeBits (t : IntTy) (a b c : Nat) : Nat :=
  let n := t.bits
  let pos := b % 128
  let len := min (c % 128) n
  let top := t.signed && a.testBit (n - 1)
  let f := (List.range len).map fun i => if pos + i < n then a.testBit (pos + i) else top
  if len = 0 then 0
  else
    let x := bitsVal f
    if t.signed && x.testBit (len - 1) then x + (2 ^ n - 2 ^ len) else x

/-- bfi (R245). -/
def bfiBits (n a b c : Nat) : Nat :=
  let pos := c % 128
  let len := c / 256 % 128
  bitsVal ((List.range n).map fun i => if pos ≤ i ∧ i < pos + len then a.testBit (i - pos) else b.testBit i)

/-- Byte `k` of the eight bytes of a prmt: a's, then b's. -/
def prmtByte (a b k : Nat) : Nat := if k < 4 then a / 2 ^ (8 * k) % 256 else b / 2 ^ (8 * (k - 4)) % 256

/-- prmt (R245). -/
def prmtBits (a b c : Nat) : Nat :=
  (List.range 4).foldl (fun r i =>
    let k := c / 2 ^ (4 * i) % 16
    let x := if k ≤ 7 then prmtByte a b k
      else if k = 8 then 0
      else if k = 9 then 255
      else if prmtByte a b (k - 8) / 128 = 1 then 255 else 0
    r + x * 2 ^ (8 * i)) 0

/-- and. -/
def execAnd (f : Enc) (s : State) : Out := bitOp (.and f) (fun _ a b _ => a &&& b) s
/-- or. -/
def execOr (f : Enc) (s : State) : Out := bitOp (.or f) (fun _ a b _ => a ||| b) s
/-- xor. -/
def execXor (f : Enc) (s : State) : Out := bitOp (.xor f) (fun _ a b _ => a ^^^ b) s
/-- not. -/
def execNot (f : Enc) (s : State) : Out := bitOp (.not f) (fun n a _ _ => 2 ^ n - 1 - a) s
/-- shl. -/
def execShl (f : Enc) (s : State) : Out := bitOp (.shl f) (fun n a b _ => if n ≤ b then 0 else a * 2 ^ b % 2 ^ n) s
/-- shr. -/
def execShr (f : Enc) (s : State) : Out := bitOp (.shr f) (fun n a b _ => if n ≤ b then 0 else a / 2 ^ b) s
/-- sar. -/
def execSar (f : Enc) (s : State) : Out := bitOp (.sar f) (fun n a b _ => sarBits n a b) s
/-- rot. -/
def execRot (f : Enc) (s : State) : Out := bitOp (.rot f) (fun n a b _ => rotBits n a b) s
/-- popc. -/
def execPopc (f : Enc) (s : State) : Out := bitOp (.popc f) (fun n a _ _ => popBits n a) s
/-- clz. -/
def execClz (f : Enc) (s : State) : Out := bitOp (.clz f) (fun n a _ _ => clzBits n a) s
/-- bfi. -/
def execBfi (f : Enc) (s : State) : Out := bitOp (.bfi f) (fun n a b c => bfiBits n a b c) s
/-- prmt. -/
def execPrmt (f : Enc) (s : State) : Out := bitOp (.prmt f) (fun _ a b c => prmtBits a b c) s

/-- The type of a bfe; TYPE 0 is .n32 (R244). -/
def bfeTy (t : BitVec 4) : IntTy := if t = 0 then ⟨32, false⟩ else IntTy.ofCode t.toNat

/-- bfe. -/
def execBfe (f : Enc) (s : State) : Out :=
  issue (.bfe f) noOwn (fun c s =>
    .next (result c true
      (fun l => BitVec.ofNat 128 (bfeBits (bfeTy c.e.ty) (c.a .int l).toNat (c.b .int l).toNat (c.c .int l).toNat)) noFlags s)) s

/-- The predicate number that D holds (R224). -/
def Ctx.dpred (c : Ctx) : Nat :=
  match c.e.d with
  | .v n => n.toNat
  | _ => 7

/-- The comparisons of isetp (R246). -/
def intCmp (k : Nat) (a b : Int) : Bool :=
  match k with
  | 0 => decide (a = b)
  | 1 => decide (a ≠ b)
  | 2 => decide (a < b)
  | 3 => decide (a ≤ b)
  | 4 => decide (b < a)
  | _ => decide (b ≤ a)

/-- A predicate written in the active lanes, and flags raised. -/
def predResult (c : Ctx) (fixed : Bool) (x : Lane → Bool) (fl : Lane → Flags) (s : State) : State :=
  done c (s.updGroup c.slot fun g => (g.writePred c.dpred c.act x fixed).orFlags (orLanes c.act fl))

/-- isetp. -/
def execIsetp (f : Enc) (s : State) : Out :=
  issue (.isetp f) noOwn (fun c s =>
    let t := c.ity
    .next (predResult c true (fun l => intCmp c.e.func.toNat (c.ia t l) (c.ib t l)) noFlags s)) s

/-- sel: A where the predicate, inverted or not, holds, else B; a scalar s destination takes the lowest active lane's (R247). -/
def execSel (f : Enc) (s : State) : Out :=
  issue (.sel f) noOwn (fun c s =>
    let t := tyOf .int c.e.ty
    let p (l : Lane) := c.g.predBit s.freeCtr (c.e.func.toNat % 8) l != c.e.func.getLsbD 3
    .next (result c true (fun l => ((if p l then c.a t l else c.b t l)).setWidth 128) noFlags s)) s

end Sys2Proof.Machine
end

