-- ==== Sys2Proof/Machine/Special.lean ====
section
/-! DEFINITION. The special functions (R258, R259): the exact arguments of 11 Table 4, and elsewhere a fixed function of the source bits that is only known to meet its bound: `Config.special` names it, and where the value it names lies outside the bound the nearest number stands in its place. True values are computed in 128-bit fixed point. -/

namespace Sys2Proof

/-- π · 2^128, rounded down. -/
def fxPi : Nat := 0x3243f6a8885a308d313198a2e03707344
/-- ln 2 · 2^128, rounded down. -/
def fxLn2 : Nat := 0xb17217f7d1cf79abc9e3b39803f2f6af
/-- (1 / ln 2) · 2^128, rounded down. -/
def fxInvLn2 : Nat := 0x171547652b82fe1777d0ffda0d23a7d11

/-- The product of two fixed-point numbers. -/
def fxMul (a b : Nat) : Nat := a * b / 2 ^ 128

/-- `Σ u^i / i!` from term `t` of index `k` on. -/
def fxExp (u : Nat) : Nat → Nat → Nat → Nat
  | 0, _, _ => 0
  | n + 1, k, t => t + fxExp u n (k + 1) (fxMul t u / (k + 1))

/-- `u^k/k! − u^(k+2)/(k+2)! + …` from term `t` of index `k` on: sine from `u` and 1, cosine from 1 and 0. -/
def fxAlt (u : Nat) : Nat → Nat → Nat → Int
  | 0, _, _ => 0
  | n + 1, k, t => (t : Int) - fxAlt u n (k + 2) (fxMul (fxMul t u) u / ((k + 1) * (k + 2)))

/-- `Σ z^(2i+1) / (2i+1)` from power `t` of index `k` on. -/
def fxAtanh (z2 : Nat) : Nat → Nat → Nat → Nat
  | 0, _, _ => 0
  | n + 1, k, t => t / k + fxAtanh z2 n (k + 2) (fxMul t z2)

/-- `2^f · 2^128` of a fixed-point fraction. -/
def fxExp2 (f : Nat) : Nat := fxExp (fxMul f fxLn2) 42 0 (2 ^ 128)

/-- `log2 (m · 2^e) · 2^128`. -/
def fxLog2 (m : Nat) (e : Int) : Int :=
  let L := Nat.log2 m
  let M := m * 2 ^ 128 / 2 ^ L
  let z := (M - 2 ^ 128) * 2 ^ 128 / (M + 2 ^ 128)
  (e + L) * 2 ^ 128 + (fxMul (2 * fxAtanh (fxMul z z) 46 1 z) fxInvLn2 : Nat)

/-- `sin (π t) · 2^128` for `t` in `[0, 1/2]` in fixed point. -/
def fxSinQ (t : Nat) : Int := let u := fxMul t fxPi; fxAlt u 22 1 u

/-- `sin (π t) · 2^128` for `t` in `[0, 2)` in fixed point. -/
def fxSin (t : Nat) : Int :=
  let h := 2 ^ 127
  if t ≤ h then fxSinQ t
  else if t ≤ 2 * h then fxSinQ (2 * h - t)
  else if t ≤ 3 * h then -fxSinQ (t - 2 * h)
  else -fxSinQ (4 * h - t)

/-- A finite value scaled by 2^256, rounded toward zero. -/
def fxOf (neg : Bool) (m : Nat) (e : Int) : Int :=
  let k := e + 256
  let x : Nat := if 0 ≤ k then m * 2 ^ k.toNat else m / 2 ^ (-k).toNat
  if neg then -(x : Int) else x

/-- `ulp(y) · 2^256` of a .f32 result (R258). -/
def fxUlp (y : Int) : Nat :=
  let e : Int := (Nat.log2 y.natAbs : Int) - 256
  2 ^ (max e (-126) - 23 + 256).toNat

/-- The special functions whose result is only bounded. -/
inductive SpecialFn
  | rsq
  | exp2
  | log2
  | sin
  | cos
deriving DecidableEq, Repr

/-- The fraction of a dyadic number modulo 2 in fixed point. -/
def fxMod2 (m : Nat) (e : Int) : Nat :=
  if 0 ≤ e then m * 2 ^ e.toNat * 2 ^ 128 % 2 ^ 129
  else m * 2 ^ 128 / 2 ^ (-e).toNat % 2 ^ 129

/-- The true value of a function at a finite argument, scaled by 2^256. -/
def SpecialFn.true_ (f : SpecialFn) (neg : Bool) (m : Nat) (e : Int) : Int :=
  match f with
  | .rsq =>
    let k := isqrt (2 ^ 700 / (m * 2 ^ (e + 160).toNat))
    ((k / 2 ^ 14 : Nat) : Int)
  | .exp2 =>
    let x : Int := (if neg then -(m : Int) else m) * 2 ^ (e + 160).toNat
    let n := x / 2 ^ 160
    let f := (x % 2 ^ 160).toNat / 2 ^ 32
    ((fxExp2 f * 2 ^ (n + 160).toNat / 2 ^ 32 : Nat) : Int)
  | .log2 => fxLog2 m e * 2 ^ 128
  | .sin => (if neg then -1 else 1) * fxSin (fxMod2 m e) * 2 ^ 128
  | .cos => fxSin ((fxMod2 m e + 2 ^ 127) % 2 ^ 129) * 2 ^ 128

/-- The bound of 11 Table 3, scaled by 2^256, with the error of the fixed-point value added. -/
def SpecialFn.bound (f : SpecialFn) (m : Nat) (e y : Int) : Nat :=
  let slack := 2 ^ 150
  match f with
  | .rsq => fxUlp y + 2 ^ 20
  | .exp2 => 2 * fxUlp y + y.natAbs / 2 ^ 100
  | .log2 =>
    let inside := decide (fxOf false m e ≤ 2 ^ 257) && decide (2 ^ 255 ≤ fxOf false m e)
    (if inside then 2 ^ 234 else 2 * fxUlp y) + slack
  | .sin | .cos => max (2 * fxUlp y) (2 ^ 234) + slack

/-- The opcode of a function. -/
def SpecialFn.op : SpecialFn → Nat
  | .rsq => 0x59
  | .exp2 => 0x5B
  | .log2 => 0x5C
  | .sin => 0x5D
  | .cos => 0x5E

/-- The bits are a finite .f32 within the bound of the true value. -/
def SpecialFn.within (f : SpecialFn) (m : Nat) (e y : Int) (r : Nat) : Bool :=
  match FFmt.f32.value r with
  | .fin n rm re => decide ((fxOf n rm re - y).natAbs ≤ f.bound m e y)
  | _ => false

/-- A result that is only bounded (R258): NX always, OF and UF as R259 says. -/
def SpecialFn.approx (f : SpecialFn) (x : Nat) (neg : Bool) (m : Nat) (e : Int) : FRes :=
  let y := f.true_ neg m e
  let c := (Config.special f.op (BitVec.ofNat 32 x)).toNat
  let near := (FFmt.f32.round .rne false (decide (y < 0)) y.natAbs (-256)).bits
  let r := if f.within m e y c then c else near
  let mag := r % 2 ^ 31
  ⟨r, flagNX ||| flagIf (decide (mag = 0x7F800000)) flagOF ||| flagIf (decide (0 < mag ∧ mag < 2 ^ 23)) flagUF⟩

/-- A dyadic number is an integer. -/
def isInt (m : Nat) (e : Int) : Bool := decide (0 ≤ e) || decide (m % 2 ^ (-e).toNat = 0)

/-- The integer value of a dyadic number that is one. -/
def intOf (m : Nat) (e : Int) : Nat := if 0 ≤ e then m * 2 ^ e.toNat else m / 2 ^ (-e).toNat

/-- A dyadic number is a power of two. -/
def isPow2 (m : Nat) : Bool := decide (2 ^ Nat.log2 m = m)

/-- One and minus one in .f32. -/
def f32One (neg : Bool) : Nat := if neg then 0xBF800000 else 0x3F800000

/-- A zero in .f32. -/
def f32Zero (neg : Bool) : Nat := if neg then 0x80000000 else 0

/-- An infinity in .f32. -/
def f32Inf (neg : Bool) : Nat := if neg then 0xFF800000 else 0x7F800000

/-- A special function of .f32 bits (R258, R259), before CLAMP. -/
def SpecialFn.eval (f : SpecialFn) (x : Nat) : FRes :=
  match f, FFmt.f32.value x with
  | _, .nan sg => ⟨FFmt.f32.nan, flagIf sg flagNV⟩
  | .rsq, .inf n => if n then ⟨FFmt.f32.nan, flagNV⟩ else ⟨0, 0⟩
  | .rsq, .fin n m e =>
    if m = 0 then ⟨f32Inf n, flagDZ⟩
    else if n then ⟨FFmt.f32.nan, flagNV⟩
    else
      let t := topExp m e
      if isPow2 m && t % 2 == 0 then FFmt.f32.round .rne false false 1 (-(t / 2)) else f.approx x n m e
  | .exp2, .inf n => if n then ⟨0, 0⟩ else ⟨f32Inf false, 0⟩
  | .exp2, .fin n m e =>
    if m = 0 then ⟨f32One false, 0⟩
    else if 7 < topExp m e then (if n then ⟨0, flagUF ||| flagNX⟩ else ⟨f32Inf false, flagOF ||| flagNX⟩)
    else if isInt m e then
      let k := intOf m e
      if n then (if k ≤ 149 then FFmt.f32.round .rne false false 1 (-(k : Int)) else ⟨0, flagUF ||| flagNX⟩)
      else if k ≤ 127 then FFmt.f32.round .rne false false 1 k
      else ⟨f32Inf false, flagOF ||| flagNX⟩
    else if n && decide (150 * 2 ^ (-e).toNat ≤ m) then ⟨0, flagUF ||| flagNX⟩
    else if !n && decide (128 * 2 ^ (-e).toNat ≤ m) then ⟨f32Inf false, flagOF ||| flagNX⟩
    else f.approx x n m e
  | .log2, .inf n => if n then ⟨FFmt.f32.nan, flagNV⟩ else ⟨f32Inf false, 0⟩
  | .log2, .fin n m e =>
    if m = 0 then ⟨f32Inf true, flagDZ⟩
    else if n then ⟨FFmt.f32.nan, flagNV⟩
    else if isPow2 m then
      let t := topExp m e
      FFmt.f32.round .rne false (decide (t < 0)) t.natAbs 0
    else f.approx x n m e
  | .sin, .inf _ => ⟨FFmt.f32.nan, flagNV⟩
  | .sin, .fin n m e =>
    if m = 0 then ⟨f32Zero n, 0⟩
    else if isInt m e then ⟨f32Zero n, 0⟩
    else if isInt (2 * m) e then
      -- n + 1/2: the integer part is even or odd; below zero the integer is one further down
      let k := intOf (2 * m) e / 2
      ⟨f32One ((k % 2 == 1) != n), 0⟩
    else f.approx x n m e
  | .cos, .inf _ => ⟨FFmt.f32.nan, flagNV⟩
  | .cos, .fin n m e =>
    if m = 0 then ⟨f32One false, 0⟩
    else if isInt m e then ⟨f32One (intOf m e % 2 == 1), 0⟩
    else if isInt (2 * m) e then ⟨0, 0⟩
    else f.approx x n m e

end Sys2Proof
end

