-- ==== Sys2Proof/Machine/FloatOps.lean ====
section
/-! DEFINITION. Floating point and conversions (R251 to R264). -/

namespace Sys2Proof.Machine

open Sys2Proof

/-- The bits of source A in a lane at a format, modifiers applied (R184). -/
def Ctx.fa (c : Ctx) (f : FFmt) (l : Lane) : Nat := f.mod c.e.negA c.e.absA (c.a (.float f) l).toNat
/-- The bits of source B. -/
def Ctx.fb (c : Ctx) (f : FFmt) (l : Lane) : Nat := f.mod c.e.negB c.e.absB (c.b (.float f) l).toNat
/-- The bits of source C. -/
def Ctx.fc (c : Ctx) (f : FFmt) (l : Lane) : Nat := f.mod c.e.negC c.e.absC (c.c (.float f) l).toNat

/-- A float result per lane, written with its flags. -/
def floatResult (c : Ctx) (fixed : Bool) (x : Lane → FRes) (s : State) : State :=
  result c fixed (fun l => BitVec.ofNat 128 (x l).bits) (fun l => (x l).flags) s

/-- The format of an instruction whose default TYPE names `d`. -/
def Ctx.fmt (c : Ctx) (d : FFmt) : FFmt := if c.e.ty = 0 then d else FFmt.ofCode c.e.ty.toNat

/-- farith (R253): the exact result of the sources, and fp_result. -/
def farith (i : Instr) (d : FFmt) (fixed : Bool) (f : RMode → FVal → FVal → FVal → Exact) (s : State) : Out :=
  issue i noOwn (fun c s =>
    let t := c.fmt d
    let o := c.e.fopts c.g.fmode false
    .next (floatResult c fixed
      (fun l => t.result o (f o.mode (t.value (c.fa t l)) (t.value (c.fb t l)) (t.value (c.fc t l)))) s)) s

/-- fadd. -/
def execFadd (f : Enc) (s : State) : Out := farith (.fadd f) .f32 true (fun r a b _ => a.add r b) s
/-- fmul. -/
def execFmul (f : Enc) (s : State) : Out := farith (.fmul f) .f32 true (fun _ a b _ => a.mul b) s
/-- ffma. -/
def execFfma (f : Enc) (s : State) : Out := farith (.ffma f) .f32 true (fun r a b c => FVal.fma r a b c) s
/-- dadd. -/
def execDadd (f : Enc) (s : State) : Out := farith (.dadd f) .f64 false (fun r a b _ => a.add r b) s
/-- dmul. -/
def execDmul (f : Enc) (s : State) : Out := farith (.dmul f) .f64 false (fun _ a b _ => a.mul b) s
/-- dfma. -/
def execDfma (f : Enc) (s : State) : Out := farith (.dfma f) .f64 false (fun r a b c => FVal.fma r a b c) s
/-- frcp: correctly rounded. -/
def execFrcp (f : Enc) (s : State) : Out := farith (.frcp f) .f32 false (fun _ a _ _ => a.recip) s
/-- fsqrt: correctly rounded. -/
def execFsqrt (f : Enc) (s : State) : Out := farith (.fsqrt f) .f32 false (fun _ a _ _ => a.sqrt) s

/-- The element format of a packed pair; TYPE 0 is .bf16x2 (09 Table 8). -/
def Ctx.pairFmt (c : Ctx) : FFmt := if c.e.ty = 15 then .f16 else .bf16

/-- Element `i` of a packed pair. -/
def element (x i : Nat) : Nat := x / 2 ^ (16 * i) % 2 ^ 16

/-- Two results as a packed pair, the flags of both raised (R187). -/
def pairRes (x y : FRes) : FRes := ⟨x.bits + 2 ^ 16 * y.bits, x.flags ||| y.flags⟩

/-- R253 on each element of a packed pair (R254). -/
def harith (i : Instr) (f : RMode → FVal → FVal → FVal → Exact) (s : State) : Out :=
  issue i noOwn (fun c s =>
    let t := c.pairFmt
    let o := c.e.fopts c.g.fmode false
    let el (l : Lane) (k : Nat) : FRes :=
      let a := t.mod c.e.negA c.e.absA (element (c.a (.pair t) l).toNat k)
      let b := t.mod c.e.negB c.e.absB (element (c.b (.pair t) l).toNat k)
      let d := t.mod c.e.negC c.e.absC (element (c.c (.pair t) l).toNat k)
      t.result o (f o.mode (t.value a) (t.value b) (t.value d))
    .next (floatResult c true (fun l => pairRes (el l 0) (el l 1)) s)) s

/-- hadd2. -/
def execHadd2 (f : Enc) (s : State) : Out := harith (.hadd2 f) (fun r a b _ => a.add r b) s
/-- hmul2. -/
def execHmul2 (f : Enc) (s : State) : Out := harith (.hmul2 f) (fun _ a b _ => a.mul b) s
/-- hfma2. -/
def execHfma2 (f : Enc) (s : State) : Out := harith (.hfma2 f) (fun r a b c => FVal.fma r a b c) s

/-- fmin and fmax (R255), then CLAMP. -/
def minMaxOp (i : Instr) (isMax : Bool) (s : State) : Out :=
  issue i noOwn (fun c s =>
    let t := c.fmt .f32
    .next (floatResult c true (fun l =>
      let r := t.minMax isMax (c.fa t l) (c.fb t l)
      let k := t.clamp c.e.clamp r.bits
      ⟨k.bits, r.flags ||| k.flags⟩) s)) s

/-- fmin. -/
def execFmin (f : Enc) (s : State) : Out := minMaxOp (.fmin f) false s
/-- fmax. -/
def execFmax (f : Enc) (s : State) : Out := minMaxOp (.fmax f) true s

/-- The relations of fsetp on two values (R256): `u` for an unordered pair. -/
def fRel (k : Nat) (u : Bool) (a b : FVal) : Bool :=
  if a.isNan || b.isNan then (if k = 7 then true else if k = 6 then false else u)
  else
    let c := a.cmp b
    match k with
    | 0 => decide (c = 0)
    | 1 => decide (c ≠ 0)
    | 2 => decide (c < 0)
    | 3 => decide (c ≤ 0)
    | 4 => decide (0 < c)
    | 5 => decide (0 ≤ c)
    | 6 => true
    | _ => false

/-- fsetp; U with num or nan is an encoding fault. -/
def execFsetp (f : Enc) (s : State) : Out :=
  issue (.fsetp f) (fun c _ => encIf (decide (6 ≤ c.e.func.toNat % 8) && c.e.func.getLsbD 3)) (fun c s =>
    let t := c.fmt .f32
    let a (l : Lane) := t.value (c.fa t l)
    let b (l : Lane) := t.value (c.fb t l)
    .next (predResult c true (fun l => fRel (c.e.func.toNat % 8) (c.e.func.getLsbD 3) (a l) (b l))
      (fun l => (a l).sig ||| (b l).sig) s)) s

/-- fclass: one bit of the class mask, no flag (R257). -/
def execFclass (f : Enc) (s : State) : Out :=
  issue (.fclass f) noOwn (fun c s =>
    let t := c.fmt .f32
    .next (result c true (fun l => BitVec.ofNat 128 (t.classMask (c.fa t l))) noFlags s)) s

/-- The special functions that are not correctly rounded, then CLAMP (R258, R259). -/
def specialOp (i : Instr) (k : SpecialFn) (s : State) : Out :=
  issue i noOwn (fun c s =>
    .next (floatResult c false (fun l =>
      let r := k.eval (c.fa .f32 l)
      let y := FFmt.f32.clamp c.e.clamp r.bits
      ⟨y.bits, r.flags ||| y.flags⟩) s)) s

/-- frsq. -/
def execFrsq (f : Enc) (s : State) : Out := specialOp (.frsq f) .rsq s
/-- fexp2. -/
def execFexp2 (f : Enc) (s : State) : Out := specialOp (.fexp2 f) .exp2 s
/-- flog2. -/
def execFlog2 (f : Enc) (s : State) : Out := specialOp (.flog2 f) .log2 s
/-- fsin. -/
def execFsin (f : Enc) (s : State) : Out := specialOp (.fsin f) .sin s
/-- fcos. -/
def execFcos (f : Enc) (s : State) : Out := specialOp (.fcos f) .cos s

/-- SEL must pick a field of the register (R262). -/
def selOk (w sel : Nat) : Bool := if w < 32 then decide (sel * w < 32) else decide (sel = 0)

/-- The source field of a conversion (R262). -/
def selField (w sel x : Nat) : Nat := x / 2 ^ (w * sel) % 2 ^ w

/-- A TYPE code names a float. -/
def isFloatCode (k : Nat) : Bool := decide (9 ≤ k ∧ k ≤ 13)

/-- The combinations that fcvt forbids (R260, R262). -/
def fcvtBad (e : Enc) : Bool :=
  let src := e.func.toNat % 16
  let ri := e.func.getLsbD 5
  let nsat := e.func.getLsbD 4
  let dst := e.ty.toNat
  let sel := e.func.toNat / 64
  decide (src = 0 ∨ 13 < src) || (!isFloatCode src && !isFloatCode dst) || (decide (src = dst) && !ri) ||
  (ri && (decide (src ≠ dst) || !isFloatCode src || e.dscale != 0)) || (nsat && decide (dst ≠ 9)) ||
  (!isFloatCode dst && (e.dscale != 0 || e.clamp != 0)) || !selOk (codeWidth (e.func &&& 15)) sel

/-- fcvt of source bits (R260). -/
def fcvtVal (e : Enc) (fmode : BitVec 2) (x : Nat) : FRes :=
  let src := e.func.toNat % 16
  let dst := e.ty.toNat
  let o := e.fopts fmode (e.func.getLsbD 4)
  let v := selField (codeWidth (e.func &&& 15)) (e.func.toNat / 64) x
  if isFloatCode src then
    let t := FFmt.ofCode src
    let y := t.mod e.negA e.absA v
    if e.func.getLsbD 5 then
      let r := t.integral o.mode y
      let k := t.clamp e.clamp r.bits
      ⟨k.bits, r.flags ||| k.flags⟩
    else if isFloatCode dst then (FFmt.ofCode dst).result o ⟨t.value y, (t.value y).sig⟩
    else
      let d := IntTy.ofCode dst
      let r := (t.value y).toInt o.mode d.lo d.hi
      ⟨(d.reg (r.1 % 2 ^ d.bits).toNat).toNat, r.2⟩
  else (FFmt.ofCode dst).result o ⟨.ofInt ((IntTy.ofCode src).value v), 0⟩

/-- How the source of a conversion supplies a number that is not a register (R207). -/
def cvtTy (e : Enc) : OpTy := let k := e.func.toNat % 16; if isFloatCode k then .float (FFmt.ofCode k) else .int

/-- A conversion reads the whole register of its source, of which SEL picks a field (R262); a source that is no register
supplies its value at the source's own width. -/
def Ctx.cvtSrc (c : Ctx) (l : Lane) : Nat :=
  let w := codeWidth (c.e.func &&& 15)
  let whole := match c.e.a with
    | .v _ | .q _ | .s _ | .l0 | .l1 => max w 32
    | _ => w
  (c.e.a.val c.rc (cvtTy c.e) whole l).toNat

/-- fcvt. -/
def execFcvt (f : Enc) (s : State) : Out :=
  issue (.fcvt f) (fun c _ => encIf (fcvtBad c.e)) (fun c s =>
    .next (floatResult c true (fun l => fcvtVal c.e c.g.fmode (c.cvtSrc l)) s)) s

/-- icvt: an integer between types (R261). -/
def execIcvt (f : Enc) (s : State) : Out :=
  issue (.icvt f)
    (fun c _ => encIf (decide (c.e.func.toNat % 16 = 0 ∨ 8 < c.e.func.toNat % 16) ||
      !selOk (codeWidth (c.e.func &&& 15)) (c.e.func.toNat / 16 % 4)))
    (fun c s =>
      let src := IntTy.ofCode (c.e.func.toNat % 16)
      let x (l : Lane) : Int := src.value (selField src.bits (c.e.func.toNat / 16 % 4) (c.cvtSrc l))
      .next (intResult c c.ity x s)) s

/-- f8pk: two .f32 values as .f8 in one half of the word, the other half from C (R263). -/
def execF8pk (f : Enc) (s : State) : Out :=
  issue (.f8pk f) noOwn (fun c s =>
    let o := c.e.fopts c.g.fmode (c.e.func.getLsbD 1)
    let el (x : Nat) : FRes := FFmt.f8.result o ⟨FFmt.f32.value x, (FFmt.f32.value x).sig⟩
    .next (floatResult c true (fun l =>
      let e0 := el (c.fa .f32 l)
      let e1 := el (c.fb .f32 l)
      let k := (c.c .int l).toNat
      let r := if c.e.func.getLsbD 0 then k % 2 ^ 16 + e0.bits * 2 ^ 16 + e1.bits * 2 ^ 24
        else k / 2 ^ 16 * 2 ^ 16 + e0.bits + e1.bits * 2 ^ 8
      ⟨r, e0.flags ||| e1.flags⟩) s)) s

/-- pack: a pair from two sources (R264). -/
def execPack (f : Enc) (s : State) : Out :=
  issue (.pack f) noOwn (fun c s =>
    .next (floatResult c true (fun l =>
      if c.e.ty = 6 then ⟨(c.a .int l).toNat % 2 ^ 16 + (c.b .int l).toNat % 2 ^ 16 * 2 ^ 16, 0⟩
      else
        let t := c.pairFmt
        let o := c.e.fopts c.g.fmode false
        let el (x : Nat) : FRes := t.result o ⟨FFmt.f32.value x, (FFmt.f32.value x).sig⟩
        pairRes (el (c.fa .f32 l)) (el (c.fb .f32 l))) s)) s

end Sys2Proof.Machine
end

