-- ==== Sys2Proof/Machine/LoadStore.lean ====
section
/-! DEFINITION. Loads, stores, constant loads, prefetch and cache control (R272 to R276). -/

namespace Sys2Proof.Machine

open Sys2Proof

/-- The bytes of an access of ld, st, lds, sts and ldc: 16 with W128, otherwise those of TYPE (12 Table 1). -/
def Ctx.bytes (c : Ctx) : Nat := if c.e.func.getLsbD 0 then 16 else c.e.tyWidth / 8

/-- TYPE names a signed integer (R180). -/
def Ctx.signedTy (c : Ctx) : Bool := decide (1 ≤ c.e.ty.toNat ∧ c.e.ty.toNat ≤ 4)

/-- The store data of a lane. -/
def Ctx.storeData (c : Ctx) (l : Lane) : BitVec 128 :=
  if c.e.func.getLsbD 0 then c.e.d.val128 c.rc l else (c.d .int l).setWidth 128

/-- A LOAD of the active lanes: checks, requests, and a destination that its response writes (R273). -/
def loadOp (c : Ctx) (space : Space) (chk : Lane → LaneChk) (ea : Lane → DWord) (s : State) (window : Bool := false) : Out :=
  if c.act = 0 then .next (retire c LEntry.undef c.nextPcs s)
  else
    c.checked 0 c.act chk (piecesOf c.eff c.bytes fun l => (chk l).pa).length (fun s =>
      let n := c.bytes
      let plain := (lanesIn c.eff).all fun l => (chk l).inHbm
      let a := c.access s space .load (piecesOf c.eff n fun l => (chk l).pa) ea
      let a := { a with cached := plain && !c.e.ord.getLsbD 0, bits := 8 * n, signed := c.signedTy, dest := some c.dest, const := window }
      let (id, s) := s.sendAccess a
      .next (retire c (c.pending id) c.nextPcs s)) s

/-- A STORE of the active lanes (R273). -/
def storeOp (c : Ctx) (space : Space) (chk : Lane → LaneChk) (ea : Lane → DWord) (s : State) : Out :=
  if c.act = 0 then .next (done c s)
  else
    c.checked 1 c.act chk (piecesOf c.eff c.bytes fun l => (chk l).pa).length (fun s =>
      let a := c.access s space .store (piecesOf c.eff c.bytes fun l => (chk l).pa) ea
      .next (done c (s.sendAccess (if c.g.routine then { a with bits := 8 * c.bytes, data := Vector.ofFn c.storeData }
        else s.pairStore c.g.team { a with bits := 8 * c.bytes, data := Vector.ofFn c.storeData })).2)) s

/-- The check of a lane's device virtual address by a load or store. -/
def Ctx.globalChk (c : Ctx) (s : State) (r : Right) (l : Lane) : LaneChk :=
  s.checkGlobal c.slot c.priv c.g.asid r c.bytes c.bytes (c.gaddr c.xs l)

/-- The check of a lane's scratchpad address by a load or store. -/
def Ctx.spadChk (c : Ctx) (s : State) (l : Lane) : LaneChk := s.checkSpad c.slot c.bytes c.bytes (c.saddr c.xs l)

/-- A scratchpad address as a record shows it. -/
def Ctx.sea (c : Ctx) (l : Lane) : DWord := BitVec.ofInt 64 (c.saddr c.xs l)

/-- ld (R273). -/
def execLd (f : Enc) (s : State) : Out :=
  issue (.ld f) noOwn (fun c s => loadOp c .global (c.globalChk s .load) (c.gaddr c.xs) s) s

/-- st (R273). -/
def execSt (f : Enc) (s : State) : Out :=
  issue (.st f) noOwn (fun c s => storeOp c .global (c.globalChk s .store) (c.gaddr c.xs) s) s

/-- lds (R273). -/
def execLds (f : Enc) (s : State) : Out :=
  issue (.lds f) noOwn (fun c s => loadOp c .spad (c.spadChk s) c.sea s) s

/-- sts (R273). -/
def execSts (f : Enc) (s : State) : Out :=
  issue (.sts f) noOwn (fun c s => storeOp c .spad (c.spadChk s) c.sea s) s

/-- PWBASE and PWSIZE of the group's launch (12 Table 13). -/
def State.window (s : State) (slot : Nat) : DWord × Nat :=
  let la := SMap.get s.launches (s.team (s.group slot).team).launch {}
  (la.words.getD 10 0, (la.words.getD 11 0).toNat % 2 ^ 32)

/-- The check of a lane's constant load: inside the parameter window, and as a load there (R274). -/
def Ctx.windowChk (c : Ctx) (s : State) (l : Lane) : LaneChk :=
  let (base, size) := s.window c.slot
  let x := c.saddr c.xs l
  let a := base + BitVec.ofInt 64 x
  if x < 0 ∨ 2 ^ 32 ≤ x then .fault clsProtection 0 a false 0 0
  else if a.toNat % c.bytes ≠ 0 then .fault clsAlignment 0 a false 0 0
  else if size < x.toNat + c.bytes then .fault clsProtection 0 a false 0 0
  else s.checkGlobal c.slot c.priv c.g.asid .load c.bytes c.bytes a

/-- ldc: undefined where a store into the window races with it (R274, log 87). -/
def execLdc (f : Enc) (s : State) : Out :=
  issue (.ldc f) noOwn (fun c s =>
    loadOp c .global (c.windowChk s) (fun l => (s.window c.slot).1 + BitVec.ofInt 64 (c.saddr c.xs l)) s true) s

/-- The lines that a prefetch asks for: those of lanes that translate to cached HBM; any other lane is dropped (R275). -/
def Ctx.prefetchLines (c : Ctx) (chk : Lane → LaneChk) : List Nat :=
  ((lanesIn c.act).filterMap fun l => match chk l with
    | .ok pa (some e) => if e.ty = 1 ∧ pRange pa = .hbm then some (lineOf pa) else none
    | _ => none).eraseDups

/-- prefetch: a request per line that no instruction waits for (R275). -/
def execPrefetch (f : Enc) (s : State) : Out :=
  issue (.prefetch f) noOwn (fun c s =>
    let chk (l : Lane) := s.checkGlobal c.slot c.priv c.g.asid .load 4 1 (c.gaddr c.xs l)
    if c.act = 0 then .next (done c s)
    else
      match lanePages c.act chk with
      | p :: ps => .next (s.admitPages c.cluster c.g.asid (s.descOf c.slot) c.req (p :: ps))
      | [] =>
        let ps : List Piece := (c.prefetchLines chk).map fun a => { addr := a, size := 4, parts := [] }
        if 4096 < s.requests c.core + ps.length then .next s
        else
        let s := (s.dropX c.cluster c.req).useTlbs c.core (laneEntries c.act chk)
        if ps.isEmpty then .next (done c s)
        else
          let a := c.access s .global .prefetch ps (c.gaddr c.xs)
          .next (done c (s.sendAccess { a with cached := !c.e.func.getLsbD 0, after := [], behind := [] }).2)) s

/-- An L1 line invalidated except its locally-written words (12 Table 2). -/
def invLine (ln : SMap L1Word) : SMap L1Word := ln.map fun w => (w.1, if w.2.own then w.2 else { w.2 with valid := false })

/-- The check of a lane's address by cctl: translation and rights as a load (R276). -/
def Ctx.cctlChk (c : Ctx) (s : State) (l : Lane) : LaneChk :=
  let a := c.a .int l + sext64 (c.c .int l)
  let (lv, pte) := (s.cluster c.cluster).leafSeen c.req c.g.asid a.toNat
  match s.xlate c.req c.core c.g.asid a.toNat with
  | .wait => .wait (a.toNat / 2 ^ 16)
  | .fault k nc lv pte => .fault k 0 a nc lv pte
  | .ok e => if e.permits .load then .ok (e.pa a.toNat) (some e) else .fault clsProtection 0 a false lv pte

/-- The lines that the active lanes of a cctl name. -/
def Ctx.cctlLines (c : Ctx) (chk : Lane → LaneChk) : List Nat := ((lanesIn c.act).map fun l => (chk l).pa / 128).eraseDups

/-- cctl (R276): 0 .ivl, 1 .ivall, 2 .il, 3 .iall; the instruction lines go at the group's marker (R215). -/
def execCctl (f : Enc) (s : State) : Out :=
  issue (.cctl f) noOwn (fun c s =>
    let chk := c.cctlChk s
    let upd (g : Core → Core) (s : State) : State := s.setCore c.core (g (s.core c.core))
    if c.act = 0 then .next (done c s)
    else
      match c.e.func.toNat % 4 with
      | 1 => .next (done c (upd (fun k => { k with l1 := k.l1.map fun x => (x.1, invLine x.2) }) s))
      | 3 => .next (done c (s.updGroup c.slot fun g => { g with icAll := true }))
      | n => c.checked 0 c.act chk 0 (fun s =>
          let ls := c.cctlLines chk
          .next (done c (if n = 0 then upd (fun k => { k with l1 := k.l1.map fun x => if ls.contains x.1 then (x.1, invLine x.2) else x }) s
            else s.updGroup c.slot fun g => { g with icInv := g.icInv ++ ls }))) s) s

end Sys2Proof.Machine
end

