-- ==== Sys2Proof/Machine/Atomics.lean ====
section
/-! DEFINITION. Atomics and reductions (R277 to R279), arrivals at barrier words (R289), qunpk (R265 to R267), wait and nsleep (R290 to R292). -/

namespace Sys2Proof.Machine

open Sys2Proof

/-! ### What an atomic does to a word -/

/-- A .f32 sum at an arbiter: RNE, subnormals kept, no flag (R194). -/
def arbiterAdd (f : FFmt) (x y : Nat) : Nat := (f.result ⟨.rne, 0, 0, false⟩ ((f.value x).add .rne (f.value y))).bits

/-- The new value of a word of an atomic other than hadd2 (12 Table 3). -/
def atomNew (op : Nat) (ty : BitVec 4) (old b c : Nat) : Nat :=
  let t := IntTy.ofCode ty.toNat
  match op with
  | 0 => (old + b) % 2 ^ t.bits
  | 1 => if t.value b < t.value old then b else old
  | 2 => if t.value old < t.value b then b else old
  | 3 => old &&& b
  | 4 => old ||| b
  | 5 => old ^^^ b
  | 6 => b
  | 7 => if old = b then c else old
  | _ => arbiterAdd .f32 old b

/-- One half of a bf16x2 sum: 0 the low one, 1 the high one (R74). -/
def atomHalf (old b k : Nat) : Nat :=
  old - element old k * 2 ^ (16 * k) + arbiterAdd .bf16 (element old k) (element b k) * 2 ^ (16 * k)

/-- The new value of a word of `n` bytes after one atomic: hadd2 by halves (R74, R194). -/
def atomWord (op : Nat) (ty : BitVec 4) (n old b c : Nat) : Nat :=
  if op = 9 then atomHalf (atomHalf old b 0) b 1 else atomNew op ty old (b % 2 ^ (8 * n)) (c % 2 ^ (8 * n))

/-- The lanes of a request applied to a word in ascending order, and the old values each lane saw (R59, R73). -/
def atomLanes (op : Nat) (ty : BitVec 4) (n : Nat) (b c : Lane → Nat) : List Lane → Nat → Nat × List (Lane × Nat)
  | [], x => (x, [])
  | l :: ls, x =>
    let m := 2 ^ (8 * n)
    let (y, r) := atomLanes op ty n b c ls (atomNew op ty x (b l % m) (c l % m))
    (y, (l, x) :: r)

/-- The lanes of a bf16x2 request applied to one half of a word (R74). -/
def halfLanes (b : Lane → Nat) (k : Nat) (ls : List Lane) (x : Nat) : Nat := ls.foldl (fun x l => atomHalf x (b l) k) x

/-- The old values that the lanes of a bf16x2 request see in one half. -/
def halfOlds (b : Lane → Nat) (k : Nat) : List Lane → Nat → List (Lane × Nat)
  | [], _ => []
  | l :: ls, x => (l, element x k) :: halfOlds b k ls (atomHalf x (b l) k)

/-! ### Atomics at issue -/

/-- Bytes of the word of an atomic. -/
def Ctx.atomBytes (c : Ctx) : Nat := c.e.tyWidth / 8

/-- The access of an atomic: FUNC [3:0] and TYPE, the operand and the value of a compare-and-swap (R277, R278). -/
def Ctx.atomAccess (c : Ctx) (s : State) (space : Space) (ps : List Piece) (ea : Lane → DWord) (ret : Bool) : Access :=
  { c.access s space (.atomic (c.e.func.toNat % 16) c.e.ty) ps ea with
    data := Vector.ofFn fun l => (c.b (tyOf .int c.e.ty) l).setWidth 128
    data2 := Vector.ofFn fun l => c.c .int l
    bits := c.e.tyWidth
    dest := if ret then some c.dest else none }

/-- AN ATOMIC of the active lanes (R278). -/
def atomicOp (c : Ctx) (space : Space) (ret : Bool) (chk : Lane → LaneChk) (ea : Lane → DWord) (s : State) : Out :=
  if c.act = 0 then .next (done c s)
  else
    c.checked 2 c.act chk (piecesOf c.eff c.atomBytes fun l => (chk l).pa).length (fun s =>
      let (id, s) := s.sendAccess (c.atomAccess s space (piecesOf c.eff c.atomBytes fun l => (chk l).pa) ea ret)
      if ret then .next (retire c (c.pending id) c.nextPcs s) else .next (done c s)) s

/-- The check of a lane's global address by an atomic. -/
def Ctx.atomChk (c : Ctx) (s : State) (l : Lane) : LaneChk :=
  s.checkGlobal c.slot c.priv c.g.asid .atomic c.atomBytes c.atomBytes (c.a .int l)

/-- The check of a lane's scratchpad address in A. -/
def Ctx.atomSpad (c : Ctx) (s : State) (l : Lane) : LaneChk :=
  s.checkSpad c.slot c.atomBytes c.atomBytes (c.a .int l).toNat

/-- atom. -/
def execAtom (f : Enc) (s : State) : Out :=
  issue (.atom f) noOwn (fun c s => atomicOp c .global true (c.atomChk s) (c.a .int) s) s

/-- atom.cas. -/
def execAtomCas (f : Enc) (s : State) : Out :=
  issue (.atomCas f) noOwn (fun c s => atomicOp c .global true (c.atomChk s) (c.a .int) s) s

/-- atoms. -/
def execAtoms (f : Enc) (s : State) : Out :=
  issue (.atoms f) noOwn (fun c s => atomicOp c .spad true (c.atomSpad s) (c.a .int) s) s

/-- red. -/
def execRed (f : Enc) (s : State) : Out :=
  issue (.red f) noOwn (fun c s =>
    if c.e.func.getLsbD 4 then atomicOp c .spad false (c.atomSpad s) (c.a .int) s
    else atomicOp c .global false (c.atomChk s) (c.a .int) s) s

/-- The first of several checks of a lane that faults with the class earliest in the order of 05 Table 12; else one that waits. -/
def joinChk (l : List LaneChk) : LaneChk :=
  let cls : LaneChk → Option (BitVec 8) := fun x => match x with
    | .fault k _ _ _ _ _ => some k
    | _ => none
  match l.find? fun x => match x with
      | .wait _ => true
      | _ => false with
  | some w => w
  | none =>
    match classOrder.findSome? fun k => l.find? fun x => cls x == some k with
    | some x => x
    | none => l.headD (.ok 0 none)

/-- The three addresses of a lane of an atomf: the word in A, the forwarded value in C, the barrier word in D (R279). -/
def Ctx.atomfChk (c : Ctx) (s : State) (l : Lane) : LaneChk :=
  joinChk [c.atomChk s l, s.checkSpad c.slot c.atomBytes c.atomBytes ((c.c .int l).toNat % 2 ^ 32),
    s.checkSpad c.slot 4 4 (c.d .int l).toNat]

/-- atomf (R279). -/
def execAtomf (f : Enc) (s : State) : Out :=
  issue (.atomf f) noOwn (fun c s =>
    if c.act = 0 then .next (done c s)
    else
      let chk := c.atomfChk s
      c.checked 2 c.act chk (piecesOf c.eff c.atomBytes fun l => (chk l).pa).length (fun s =>
        let a := c.atomAccess s .global (piecesOf c.eff c.atomBytes fun l => (chk l).pa) (c.a .int) false
        let a := { a with fwd := some (Vector.ofFn fun l => (c.c .int l).setWidth 32, (c.d .int c.low).setWidth 32), lanes := c.eff }
        .next (done c (s.sendAccess a).2)) s) s

/-- The check of the barrier word of an arrive (R289). -/
def Ctx.arriveChk (c : Ctx) (s : State) (_ : Lane) : LaneChk :=
  if c.e.func.getLsbD 0 then s.checkSpad c.slot 4 4 (c.ua.toNat % 2 ^ 32) else s.checkGlobal c.slot c.priv c.g.asid .atomic 4 4 c.ua

/-- arrive: one atomic add at the word's arbiter (R289). -/
def execArrive (f : Enc) (s : State) : Out :=
  issue (.arrive f) noOwn (fun c s =>
    if c.act = 0 then .next (done c s)
    else
      let chk := c.arriveChk s
      c.checked 2 c.act chk 1 (fun s =>
        let low := maskOf fun l => l == c.low
        let n : DWord := if c.e.func.getLsbD 1 then BitVec.ofNat 64 (countLanes c.act) else c.ub
        let sp : Space := if c.e.func.getLsbD 0 then .spad else .global
        let a := c.access s sp (.atomic 0 7) (piecesOf low 4 fun l => (chk l).pa) (fun _ => c.ua)
        .next (done c (s.sendAccess { a with lanes := low, bits := 32, data := lanesOf (n.setWidth 128) }).2)) s) s

/-! ### qunpk -/

/-- The checks of the two addresses of a qunpk (R266). -/
def Ctx.qunpkChk (c : Ctx) (s : State) : LaneChk × LaneChk :=
  if c.e.func.getLsbD 0 then (s.checkSpad c.slot 64 64 (c.ua.toNat % 2 ^ 32), s.checkSpad c.slot 8 8 (c.ub.toNat % 2 ^ 32))
  else (s.checkGlobal c.slot c.priv c.g.asid .load 64 64 c.ua, s.checkGlobal c.slot c.priv c.g.asid .load 8 8 c.ub)

/-- The 18 pieces of 32 bits of a qunpk; piece `k` comes back in place `k` of the access (R266). -/
def qunpkPieces (a b : Nat) : List Piece :=
  (List.range 18).map fun k =>
    { addr := if k < 16 then a + 4 * k else b + 4 * (k - 16), size := 4, parts := [⟨k, 0, 4, 0⟩] }

/-- The address of each piece, in its place; the record of a malformed block names A (R266, R267). -/
def Ctx.qunpkEa (c : Ctx) (l : Lane) : DWord :=
  if l.val < 16 then c.ua + BitVec.ofNat 64 (4 * l.val) else c.ub + BitVec.ofNat 64 (4 * (l.val - 16))

/-- qunpk at issue: one load of the group, decoded when its pieces have come back (R266, R267). -/
def execQunpk (f : Enc) (s : State) : Out :=
  issue (.qunpk f) noOwn (fun c s =>
    if c.act = 0 then .next (done c s)
    else
      let (ca, cb) := c.qunpkChk s
      let j := joinChk [ca, cb]
      let (m, chk) : LaneMask × (Lane → LaneChk) := match j with
        | .fault _ _ _ _ _ _ => (c.act, fun _ => j)
        | _ => (~~~ 0, fun l => if l.val % 2 = 0 then ca else cb)
      c.checked 0 m chk 18 (fun s =>
        let sp : Space := if c.e.func.getLsbD 0 then .spad else .global
        let a := c.access s sp .qunpk (qunpkPieces ca.pa cb.pa) c.qunpkEa
        let a := { a with cached := ca.inHbm && cb.inHbm && !c.e.ord.getLsbD 0, dest := some c.dest, enc := some c.e, mode := c.g.fmode }
        let (id, s) := s.sendAccess a
        .next (retire c (c.pending id) c.nextPcs s)) s) s

/-- Element `i` of a block at the destination's format (R267). -/
def qunpkElem (e : Enc) (fmode : BitVec 2) (codes rec i : Nat) : FRes :=
  let f : FFmt := if e.ty = 12 then .f32 else if e.ty = 14 then .bf16 else .f16
  f.result (e.fopts fmode false) (q4Elem codes rec i)

/-- The destination registers of a lane (11 Table 6), and the flags of its four elements. -/
def qunpkLane (e : Enc) (fmode : BitVec 2) (codes rec : Nat) (l : Lane) : BitVec 128 × Flags :=
  let x (j : Nat) : FRes := qunpkElem e fmode codes rec (4 * l.val + j)
  let w := if e.ty = 12 then 32 else 16
  (BitVec.ofNat 128 ((x 0).bits + (x 1).bits * 2 ^ w + (x 2).bits * 2 ^ (2 * w) + (x 3).bits * 2 ^ (3 * w)),
   (x 0).flags ||| (x 1).flags ||| (x 2).flags ||| (x 3).flags)

/-! ### Waiting -/

/-- The status register of a wait must lie in the allocation (R290). -/
def waitOwn (c : Ctx) (_ : State) : Option (BitVec 8) :=
  encIf (match c.e.d with
    | .s k => !regOk (if c.g.routine then 32 else 256 * c.g.sblk) (k.toNat + c.p.wd / 32) 32
    | _ => true)

/-- The check of the word of a wait (R91, R121): scratchpad, or HBM that the group may load; MEMCAP is left to the home slice. -/
def Ctx.waitChk (c : Ctx) (s : State) (_ : Lane) : LaneChk :=
  let n := c.p.wd / 8
  let a := c.ua
  if c.e.func.getLsbD 4 then s.checkSpad c.slot n n (a.toNat % 2 ^ 32)
  else if a.toNat % n ≠ 0 then .fault clsAlignment 0 a false 0 0
  else
    let (lv, pte) := (s.cluster c.cluster).leafSeen c.req c.g.asid a.toNat
    match s.xlate c.req c.core c.g.asid a.toNat with
    | .wait => .wait (a.toNat / 2 ^ 16)
    | .fault k nc lv pte => .fault k 0 a nc lv pte
    | .ok e =>
      let pa := e.pa a.toNat
      if e.ty = 2 ∧ !c.priv then .fault clsPrivilege 0 a false lv pte
      else if !e.permits .load || pRange pa != .hbm || (isFirmware pa && !c.priv) then .fault clsProtection 0 a false lv pte
      else .ok pa (some e)

/-- An open access of the group that touches some of `n` bytes (R58). -/
def State.touching (s : State) (slot : Nat) (sp : Space) (a n : Nat) : List Nat :=
  s.openAccs slot fun x => x.space == sp && x.pieces.any fun p => !p.done && decide (p.addr < a + n ∧ a < p.addr + p.size)

/-- An L1 word invalidated by a WAIT on it (R43). -/
def State.waitL1 (s : State) (core a : Nat) : State :=
  s.setCore core ((s.core core).updWord (a / 4 * 4) fun x => { x with valid := false })

/-- wait: the request leaves for the word's arbiter and the group parks until the reply (R291); a context has one WAIT outstanding, so a
second one waits at issue (R100). -/
def execWait (f : Enc) (s : State) : Out :=
  issue (.wait f) waitOwn (fun c s =>
    if c.act = 0 then .next (done c s)
    else if c.g.wait.isSome then .next s
    else
      let chk := c.waitChk s
      c.checked 3 c.act chk 1 (fun s =>
        let sp := c.e.func.getLsbD 4
        let pa := (chk c.low).pa
        let n := c.p.wd / 8
        let w : WaitReq :=
          { pc := c.pc, sp := sp, addr := pa, ea := c.ua, w64 := c.e.func.getLsbD 3, cmp := c.e.func.setWidth 3,
            acq := c.e.ord.getLsbD 0, opnd := if c.e.func.getLsbD 3 then c.ub else (c.ub.setWidth 32 : Word).setWidth 64,
            deadline := if c.uc = 0 then 0 else s.tstamp + c.uc, d := c.dest, lanes := c.act,
            after := s.orderAfter c.slot c.e.ord ++ s.touching c.slot (if sp then .spad else .global) pa n
            behind := s.behind c.slot sp, rcb := c.g.rcb, slotpa := s.spillSlot c.g.rcb c.g.ctx, mark := !s.room useMon c.g.rcb, cycle := s.cycle, cap := s.hub.memcap,
            route := s.routeAt c.cluster }
        let s := if sp then s else (s.waitL1 c.core pa).waitL1 c.core (pa + n - 4)
        let s := s.updGroup c.slot fun g => { g with wait := some w }
        .next (done c ({ s with waits := s.waits ++ [(c.slot, c.g.uid)] }.block c.slot .wait))) s) s

/-- nsleep: the group parks for the time named; 0 only ends its run, as yield does (R111, R292). -/
def execNsleep (f : Enc) (s : State) : Out :=
  issue (.nsleep f) noOwn (fun c s =>
    if c.act = 0 then .next (done c s)
    else if c.ua.toNat % 2 ^ 32 = 0 then .next (done c.ending s)
    else .next (done c (s.block c.slot (.nsleep (s.tstamp.toNat + c.ua.toNat % 2 ^ 32))))) s

end Sys2Proof.Machine
end

