-- ==== Sys2Proof/Machine/Hub.lean ====
section
/-! DEFINITION. Registers of the hub and of the home slices that software writes: masks and access codes (R7, R8, R411), format windows (R47 to R50), fallowing (R138 to R147), peer windows (R25, R377), the monitor registers and GLCMD (R99 to R103), silos (R130), leaky buckets and link status (R373, R376), and the interleave descriptors of the routing points (R144). -/

namespace Sys2Proof.Machine

open Sys2Proof

/-! ### Access codes -/

/-- A register's bits after a write of the bits of a mask (R411). -/
def merge (old v m : DWord) : DWord := (old &&& ~~~ m) ||| (v &&& m)

/-- Bits `hi` to `lo` of a merged value. -/
def mbits (old v m : DWord) (hi lo : Nat) : Nat := bits (merge old v m) hi lo

/-- A W1C bit after a write (R7). -/
def w1c (old : Bool) (v m : DWord) (k : Nat) : Bool := old && !(v &&& m).getLsbD k

/-- The whole register is written. -/
def whole (m : DWord) : Bool := m == ~~~ 0

/-- A bit as a number. -/
def b2n (b : Bool) (k : Nat) : Nat := if b then 2 ^ k else 0

/-- The writer of a register: privileged, in machine mode, and the shard that it is. -/
structure Writer where
  priv : Bool
  machine : Bool
  shard : Option Nat
deriving DecidableEq, Repr

/-- A register on one home slice, die or core sends a machine check and so on through these numbers: local cluster 0 of a die. -/
def dieCluster0 (d : Nat) : Nat := 16 * d

/-! ### Format windows -/

/-- A format window. -/
def State.fwin (s : State) (n : Nat) : Fwin := SMap.get s.hub.fwin n {}
/-- A format window replaced. -/
def State.setFwin (s : State) (n : Nat) (w : Fwin) : State := { s with hub := { s.hub with fwin := SMap.set s.hub.fwin n w } }

/-- CTL of a window (02 Table 5). -/
def Fwin.ctl (w : Fwin) : Nat := w.fmt * 16 + b2n w.busy 3 + b2n w.bad 2 + b2n w.en 0

/-- Two ranges of addresses have a byte in common; an empty range has none. -/
def rangesMeet (a0 a1 b0 b1 : Nat) : Bool := decide (a0 < b1 ∧ b0 < a1 ∧ a0 < a1 ∧ b0 < b1)

/-- The data range and the scale region. -/
def Fwin.data (w : Fwin) : Nat × Nat := (w.base * 2 ^ 16, w.fin * 2 ^ 16)
/-- The scale region. -/
def Fwin.scale (w : Fwin) : Nat × Nat := (w.sbase * 8, w.sbase * 8 + (w.fin - w.base) * 2 ^ 13)

/-- The conditions for enabling a window (R48). -/
def State.fwinOk (s : State) (n : Nat) (w : Fwin) : Bool :=
  let d := w.data
  let k := w.scale
  w.fmt == 1 && decide (w.base < w.fin) && decide (d.2 ≤ s.hub.memcap) && decide (k.2 ≤ s.hub.memcap) && !rangesMeet d.1 d.2 k.1 k.2 &&
  (s.windows.all fun p => p.1 == n ||
    [d, k].all fun x => [p.2.data, p.2.scale].all fun y => !rangesMeet x.1 x.2 y.1 y.2)

/-- A write of CTL (R48, R50): refused, an enabling or a disabling. -/
def State.writeFwinCtl (s : State) (n : Nat) (v m : DWord) : State :=
  let w := s.fwin n
  let old := BitVec.ofNat 64 w.ctl
  if bits m 7 0 = 0 then s
  else
    let x : Fwin := { w with fmt := mbits old v m 7 4, en := (merge old v m).getLsbD 0, bad := w1c w.bad v m 2 }
    if w.busy || decide (1 < x.fmt) || (x.en && !s.fwinOk n x) then s.setFwin n { w with bad := true }
    else s.setFwin n { x with busy := w.en && !x.en }

/-- A write of DBASE, DEND or SBASE, refused while EN is 1 (R48). -/
def State.writeFwinBase (s : State) (n k : Nat) (v m : DWord) : State :=
  let w := s.fwin n
  if w.en then s.setFwin n { w with bad := true }
  else
    match k with
    | 1 => s.setFwin n { w with base := mbits (BitVec.ofNat 64 (w.base * 2 ^ 16)) v m 51 16 }
    | 2 => s.setFwin n { w with fin := mbits (BitVec.ofNat 64 (w.fin * 2 ^ 16)) v m 51 16 }
    | _ => s.setFwin n { w with sbase := mbits (BitVec.ofNat 64 (w.sbase * 8)) v m 51 3 }

/-- A window disabled by a lower MEMCAP (R50). -/
def State.capWindows (s : State) : State :=
  s.windows.foldl (fun s p =>
    if s.hub.memcap < p.2.data.2 || s.hub.memcap < p.2.scale.2 then s.setFwin p.1 { p.2 with en := false, busy := true, bad := true } else s) s

/-! ### Fallowing -/

/-- Stacks in a set. -/
def stackCount (m : BitVec 8) : Nat := (stacksOf m).length

/-- 64 GiB. -/
def stackBytes : Nat := 2 ^ 36

/-- A write is refused: MIGSTAT.REFUSED (R139). -/
def State.migRefuse (s : State) : State := { s with hub := { s.hub with refused := true } }

/-- A value of MEMCAP is refused (R139). -/
def State.capBad (s : State) (c : Nat) : Bool :=
  s.hub.odd || decide (c < 2 ^ 32) || decide (stackBytes * stackCount s.hub.live < c)

/-- Memory that lies below MEMCAP again after it had been at or above a lowered one: what was there is lost, so that every byte is a free value, and
no line of it is held (R146). -/
def State.lostBytes (s : State) (old new : Nat) : State :=
  let top := min new s.hub.lostTop
  if top ≤ old then s
  else
    { s with
      mem := (List.range (top - old)).foldl (fun m k => Memory.put m (old + k) (Config.lostByte s.hub.lostTop (old + k))) s.mem
      lines := s.lines.filter fun l => decide (128 * l.1 < old ∨ top ≤ 128 * l.1) }

/-- A write of MEMCAP: adopted at once; a lowered one completes later (R139). -/
def State.writeMemcap (s : State) (v m : DWord) : State :=
  let c := mbits (BitVec.ofNat 64 s.hub.memcap) v m 51 16 * 2 ^ 16
  let old := s.hub.memcap
  if s.capBad c then s.migRefuse
  else { s.lostBytes old c with hub := { s.hub with
    memcap := c, lowering := s.hub.lowering || decide (c < old), lostTop := if c < old then max s.hub.lostTop old else s.hub.lostTop } }

/-- A value of RETIRE is refused (R140). -/
def State.retireBad (s : State) (r : BitVec 8) : Bool :=
  s.hub.odd || (r != 0 && (decide (1 < stackCount r) || (r &&& s.hub.live) == 0 || decide (stackCount s.hub.live ≤ 4)))

/-- A write of STACKMAP (R140). -/
def State.writeStackmap (s : State) (v m : DWord) : State :=
  let r := BitVec.ofNat 8 (mbits (BitVec.ofNat 64 (s.hub.retire.toNat * 256)) v m 15 8)
  if bits m 15 8 = 0 then s
  else if s.retireBad r then s.migRefuse
  else { s with hub := { s.hub with retire := r } }

/-- PHASE and MEMCAP under which the WAIT requests on their way were routed. -/
def State.waitRoutes (s : State) : List (Word × Nat) :=
  s.waits.filterMap fun x => match (s.group x.1).wait with
    | some w => if (s.group x.1).uid == x.2 && !w.sp && !w.stale then some (w.route.phase, w.cap) else none
    | none => none

/-- The same of the service arms and first-touch CAS operations on their way. -/
def State.unitRoutes (s : State) : List (Word × Nat) :=
  s.armReqs.map (fun q => (q.route.phase, q.cap)) ++
  s.clusters.flatMap fun c => c.2.walks.filterMap fun w => w.cas.map fun q => (q.route.phase, q.cap)

/-- A request in flight carries another phase than the current one (R141). -/
def State.stalePhase (s : State) : Bool :=
  s.accs.any (fun a => a.2.space == Space.global && !a.2.stale && a.2.pieces.any fun p => !p.done && pRange p.addr == .hbm && p.phase != s.hub.phase) ||
  s.waitRoutes.any (fun w => w.1 != s.hub.phase) || s.unitRoutes.any fun r => r.1 != s.hub.phase

/-- GO is accepted (R141). -/
def State.goOk (s : State) : Bool :=
  s.hub.mstate == 0 && stackCount s.hub.retire == 1 && decide (s.hub.memcap ≤ stackBytes * (stackCount s.hub.live - 1)) && !s.stalePhase

/-- MIGRATION_CLOSE_BEGIN (R147): with NEXT = END the stable descriptor goes to the routing points. -/
def State.closeBegin (s : State) : State :=
  if s.hub.mstate = 2 ∧ s.hub.mnext = s.hub.mend then { s with hub := { s.hub with mstate := 3, idleUntil := 0 } } else s

/-- A write of 1 to GO (R141, R147). -/
def State.go (s : State) : State :=
  if s.goOk then
    { s with hub := { s.hub with mstate := 1, phase := s.hub.phase + 1, mend := s.hub.memcap / 2 ^ 16, mnext := 0, prev := none,
                                 granule := none, drained := false, idleUntil := 0 } }
  else s.migRefuse

/-- The hub writes MIGWORD's target (R143). -/
def State.writeMigTarget (s : State) : State :=
  if s.hub.migword = 0 then s else s.homeStore s.hub.migword s.hub.phase.toNat 8

/-- A write of MIGWORD (R143); 0 names no word. -/
def State.writeMigword (s : State) (v m : DWord) : State :=
  let a := mbits (BitVec.ofNat 64 s.hub.migword) v m 51 3 * 8
  if isFirmware a then { s with hub := { s.hub with migword := a } } else s.migRefuse

/-- A write of MIGSHARE (06 Table 6). -/
def State.writeMigshare (s : State) (v m : DWord) : State :=
  if bits m 5 0 = 0 then s
  else { s with hub := { s.hub with share := min 50 (max 10 (mbits (BitVec.ofNat 64 s.hub.share) v m 5 0)) } }

/-- A write of MIGSTAT (06 Table 7). -/
def State.writeMigstat (s : State) (v m : DWord) : State :=
  let h := s.hub
  let old : DWord := BitVec.ofNat 64 (h.poisong * 2 ^ 40 + h.moveds * 2 ^ 16)
  { s with hub := { h with poisong := mbits old v m 63 40, moveds := mbits old v m 39 16, mdone := w1c h.mdone v m 1, refused := w1c h.refused v m 0 } }

/-! ### Peer windows -/

/-- A peer window. -/
def State.peerwin (s : State) (k : Nat) : PeerWin := SMap.get s.hub.peerwin k {}

/-- PEERWIN of a window (01 Table 5). -/
def PeerWin.reg (w : PeerWin) : Nat := b2n w.fenced 7 + w.port * 4 + b2n w.en 0

/-- A heartbeat of a peer has arrived within the last 100 µs (R377). -/
def State.heardLately (s : State) (k : Nat) : Bool :=
  match SMap.find s.io.heard k with
  | some t => decide (s.tstamp.toNat - t ≤ 100000)
  | none => false

/-- A write of PEERWIN: FENCED clears only with a recent heartbeat (R377). -/
def State.writePeerwin (s : State) (k : Nat) (v m : DWord) : State :=
  let w := s.peerwin k
  let old := BitVec.ofNat 64 w.reg
  let x : PeerWin :=
    { fenced := if (v &&& m).getLsbD 7 && s.heardLately k then false else w.fenced
      port := mbits old v m 3 2, en := (merge old v m).getLsbD 0 }
  let s := { s with hub := { s.hub with peerwin := SMap.set s.hub.peerwin k x } }
  if x.en && !w.en then { s with io := { s.io with opened := SMap.set s.io.opened k s.tstamp.toNat } } else s

/-! ### Monitor registers -/

/-- MONCFG (04 Table 4). -/
def Slice.moncfg (sl : Slice) : Nat := sl.gcore * 256 + b2n sl.spen 3 + b2n sl.greq 2 + b2n sl.ringFull 1 + b2n sl.en 0

/-- Monitor register `k` of a slice, by its offset / 8 (04 Tables 4 to 10); chain heads from 0x200 on. -/
def Slice.monReg (sl : Slice) (k : Nat) : Nat :=
  match k with
  | 0 => sl.moncfg
  | 1 => sl.limit
  | 2 => sl.peak * 2 ^ 16 + sl.mon.length
  | 3 => sl.gwake * 2 ^ 48 + sl.grecs * 2 ^ 32 + sl.spills * 2 ^ 16 + sat16 sl.live
  | 4 => sl.grsize * 2 ^ 60 + sl.grbase * 16
  | 5 => sl.tail * 2 ^ 32 + sl.head
  | 6 => sl.glval.toNat
  | _ => if 0x200 ≤ k ∧ k < 0xA00 then SMap.get sl.sphead (k - 0x200) 0 else 0

/-- A consumer index that lies in [HEAD, TAIL] (R102). -/
def Slice.headOk (sl : Slice) (x : Nat) : Bool :=
  decide ((x + 2 ^ 32 - sl.head) % 2 ^ 32 ≤ (sl.tail + 2 ^ 32 - sl.head) % 2 ^ 32)

/-- A spill slot that is linked at a slice. -/
def State.isLinked (s : State) (home slot : Nat) : Bool := (s.linked home).contains slot

/-- A linked slot unlinked, and its waiter woken (R103). -/
def State.glWake (s : State) (home slot status : Nat) (v : DWord) (psn : Bool) : State :=
  let e := s.slotEntry slot
  (s.unlinkSlot home slot).sendWake e status v psn

/-- The value of the word that a slot watches. -/
def State.slotValue (s : State) (slot : Nat) : DWord := let e := s.slotEntry slot; s.valueAt e.addr e.w64

/-- GLCMD (R103): 1 WAKE, 2 TIMEOUT, 3 RESTART; ones in reserved bits have no effect (R8). PSN beside another operation than WAKE, which must be 0, has no
stated consequence: the model does nothing (log 82). -/
def State.glcmd (s : State) (home : Nat) (v : DWord) : State :=
  let slot := bits v 51 6 * 64
  let psn := v.getLsbD 52
  let op := bits v 63 62
  if (psn ∧ op ≠ 1) ∨ !s.isLinked home slot then s
  else
    match op with
    | 1 =>
      let s := s.glWake home slot 0 (if psn then 0 else (s.slice home).glval) psn
      let sl := s.slice home
      s.setSlice home { sl with gwake := sat16 (sl.gwake + 1) }
    | 2 => s.glWake home slot 1 (s.slotValue slot) false
    | 3 => s.glWake home slot 2 (s.slotValue slot) false
    | _ => s

/-- A write of monitor register `k` of a slice (R99, R102, R103). -/
def State.writeMon (s : State) (home k : Nat) (v m : DWord) : State :=
  let sl := s.slice home
  let old := BitVec.ofNat 64 (sl.monReg k)
  let set (x : Slice) : State := s.setSlice home x
  match k with
  | 0 => set { sl with gcore := mbits old v m 11 8, spen := (merge old v m).getLsbD 3, greq := w1c sl.greq v m 2,
                       en := (merge old v m).getLsbD 0 }
  | 1 => set { sl with limit := mbits old v m 10 0 }
  | 2 => set { sl with peak := mbits old v m 26 16 }
  | 3 => set { sl with gwake := mbits old v m 63 48, grecs := mbits old v m 47 32, spills := mbits old v m 31 16 }
  | 4 => set { sl with grsize := mbits old v m 63 60, grbase := mbits old v m 51 4 }
  | 5 => if sl.headOk (mbits old v m 31 0) then set { sl with head := mbits old v m 31 0 } else s
  | 6 => set { sl with glval := merge old v m }
  | 7 => if whole m then s.glcmd home v else s
  | _ => s

/-! ### Silos -/

/-- SILOCFG, SILOBASE, SILOPTR, SILOSTAT (05 Tables 6 to 9). -/
def Die.siloReg (d : Die) (k : Nat) : Nat :=
  match k with
  | 0 => d.low * 2 ^ 16 + d.score * 256 + b2n d.en 0
  | 1 => d.base * 2 ^ 15
  | 2 => d.tail * 2 ^ 32 + d.head
  | 3 => d.empty * 2 ^ 48 + d.discard * 2 ^ 32 + d.race * 2 ^ 16 + d.fills
  | _ => 0

/-- Frames in the silo. -/
def Die.frames (d : Die) : Nat := (d.tail + 2 ^ 32 - d.head) % 2 ^ 32

/-- A die changed; SILO_REFILL_INTERRUPT when TAIL − HEAD falls below LOW (R130). -/
def State.setSilo (s : State) (d : Nat) (x : Die) : State :=
  let old := s.die d
  let s := s.setDie d x
  let c := 16 * d + x.score
  if old.low ≤ old.frames ∧ x.frames < x.low then s.setSvc c { s.svcCore c with refill := true }
  else if x.low ≤ x.frames then s.setSvc c { s.svcCore c with refill := false } else s

/-- A write of a silo register. -/
def State.writeSilo (s : State) (d k : Nat) (v m : DWord) : State :=
  let x := s.die d
  let old := BitVec.ofNat 64 (x.siloReg k)
  match k with
  | 0 => s.setSilo d { x with low := mbits old v m 27 16, score := mbits old v m 11 8, en := (merge old v m).getLsbD 0 }
  | 1 => s.setSilo d { x with base := mbits old v m 51 15 }
  | 2 => s.setSilo d { x with tail := mbits old v m 63 32 }
  | 3 => s.setSilo d { x with empty := mbits old v m 63 48, discard := mbits old v m 47 32, race := mbits old v m 31 16, fills := mbits old v m 15 0 }
  | _ => s

/-! ### Buckets and links -/

/-- A bucket by the MMIO offset of its register. -/
def State.bucket (s : State) (off : Nat) : Bucket := SMap.get s.buckets off {}

/-- The register of a bucket (16 Table 4). -/
def Bucket.reg (b : Bucket) : Nat := b2n b.evt 63 + b2n b.en 62 + b.mark * 2 ^ 32 + b.leak * 2 ^ 16 + b.fill

/-- A write of a bucket. -/
def Bucket.write (b : Bucket) (v m : DWord) : Bucket :=
  let old := BitVec.ofNat 64 b.reg
  { evt := w1c b.evt v m 63, en := (merge old v m).getLsbD 62, mark := mbits old v m 47 32, leak := mbits old v m 31 16, fill := mbits old v m 15 0 }

/-- MMIO offset of an HBM bank's bucket. -/
def bankBucket (slice b : Nat) : Nat := slice / 32 * 2 ^ 32 + 0x10000000 + slice % 32 * 2 ^ 20 + 0x50000 + 8 * b
/-- MMIO offset of a cluster's block. -/
def clusterBlock (c : Nat) : Nat := c / 16 * 2 ^ 32 + c % 16 * 2 ^ 24
/-- MMIO offset of a cluster's bucket. -/
def clusterBucket (c : Nat) : Nat := clusterBlock c + 0x700018
/-- MMIO offset of a link lane's bucket: links 0 to 63 are bridge links, 64 to 66 peer ports. -/
def laneBucket (link j : Nat) : Nat :=
  if link < 64 then link / 8 * 2 ^ 32 + 0x20000000 + 0x20000 + 0x200 * (link % 8) + 8 * j
  else 0x1010000000 + 0x3001000 + 0x100 * (link - 64) + 8 * j

/-- The non-volatile count of a unit raised (R374). -/
def State.nvCount (s : State) (unit : Nat) : State :=
  { s with mgmt := { s.mgmt with nv := SMap.set s.mgmt.nv unit (sat16 (SMap.get s.mgmt.nv unit 0 + 1)) } }

/-- BUCKET_EVENT (R373): the weight is added; a crossing of MARK sets EVT, sends a machine check, and counts in the non-volatile store, as
an uncorrectable error does (R374). -/
def State.bucketEvent (s : State) (off weight cluster : Nat) (uncorrectable : Bool) : State :=
  let b := s.bucket off
  let s := if uncorrectable then s.nvCount off else s
  if !b.en then s
  else
    let f := min 0xFFFF (b.fill + weight)
    let cross := decide (b.fill < b.mark ∧ b.mark ≤ f)
    let s := { s with buckets := SMap.set s.buckets off { b with fill := f, evt := b.evt || cross } }
    if cross then (s.nvCount off).machineCheck cluster (.bucket off) else s

/-- A link. -/
def State.link (s : State) (k : Nat) : Link := SMap.get s.io.links k {}
/-- A link replaced. -/
def State.setLink (s : State) (k : Nat) (l : Link) : State := { s with io := { s.io with links := SMap.set s.io.links k l } }

/-- LNKSTAT (16 Table 7). -/
def Link.reg (l : Link) : Nat := l.replays * 2 ^ 48 + l.retrains * 2 ^ 40 + l.rate * 16 + b2n l.down 1 + b2n l.up 0

/-- A write of LNKSTAT. -/
def Link.write (l : Link) (v m : DWord) : Link :=
  let old := BitVec.ofNat 64 l.reg
  { l with replays := mbits old v m 63 48, retrains := mbits old v m 47 40 }

end Sys2Proof.Machine
end

