-- ==== Sys2Proof/Decode.lean ====
section
/-! DEFINITION. Decoding of Oropra words, total and rejecting by name (R201 to R217), and the encoder. -/

namespace Sys2Proof

/-- Why words are no instruction (R217). -/
inductive Reject
  /-- OP, or FUNC for OP, is unassigned -/
  | illegalOpcode
  /-- a condition of R217 at orders 2 to 9 -/
  | illegalEncoding
  /-- fewer words than LEN names were given -/
  | short
deriving DecidableEq, Repr

/-- LEN of word 0, which alone fixes the length (R201). -/
def wordForm (w : Word) : Form := Form.ofLen (w.extractLsb' 0 2)

/-- OP of word 0. -/
def wordOp (w : Word) : BitVec 8 := w.extractLsb' 3 8

/-- An operand position: its low seven bits, its high five bits and the form (R203, R206). -/
def decodeOpnd (f : Form) (hi : BitVec 5) (lo : BitVec 7) : Option Opnd :=
  if f.isExt then Opnd.ofFull (hi ++ lo) else Opnd.ofBase lo

/-- FUNC of the words; 0 in a base form (R203). -/
def decodeFunc (f : Form) (w2 : Word) : BitVec 8 := if f.isExt then w2.extractLsb' 16 8 else 0

/-- The fields of an instruction, from its words; none where an operand code is reserved (order 4). -/
def decodeEnc (w0 w1 w2 : Word) (lit : DWord) : Option Enc :=
  let f := wordForm w0
  let x := f.isExt
  match decodeOpnd f (w1.extractLsb' 0 5) (w0.extractLsb' 11 7), decodeOpnd f (w1.extractLsb' 5 5) (w0.extractLsb' 18 7),
        decodeOpnd f (w1.extractLsb' 10 5) (w0.extractLsb' 25 7),
        (if x then Opnd.ofFull (w1.extractLsb' 15 12) else some .zero) with
  | some d, some a, some b, some c =>
    some { form := f, sw := w0.getLsbD 2, d := d, a := a, b := b, c := c, lit := if f.hasLit then lit else 0,
           negA := x && w1.getLsbD 27, absA := x && w1.getLsbD 28, negB := x && w1.getLsbD 29, absB := x && w1.getLsbD 30,
           negC := x && w1.getLsbD 31, absC := x && w2.getLsbD 0,
           ord := if x then w2.extractLsb' 27 2 else 0, rnden := x && w2.getLsbD 26,
           rnd := if x then w2.extractLsb' 24 2 else 0, func := decodeFunc f w2,
           ty := if x then w2.extractLsb' 12 4 else 0, pen := x && w2.getLsbD 11, pinv := x && w2.getLsbD 10,
           pred := if x then w2.extractLsb' 7 3 else 0, dscale := if x then w2.extractLsb' 3 4 else 0,
           clamp := if x then w2.extractLsb' 1 2 else 0 }
  | _, _, _, _ => none

/-- The fields of an instruction whose operand positions all hold the zero operand, used to ask which FUNC values an opcode assigns. -/
def Enc.probe (func : BitVec 8) : Enc :=
  { form := .ext, sw := false, d := .zero, a := .zero, b := .zero, c := .zero, lit := 0,
    negA := false, absA := false, negB := false, absB := false, negC := false, absC := false,
    ord := 0, rnden := false, rnd := 0, func := func, ty := 0, pen := false, pinv := false, pred := 0, dscale := 0, clamp := 0 }

/-- Order 1: OP and FUNC name an instruction (R216). -/
def opAssigned (op func : BitVec 8) : Bool :=
  match Instr.ofOp op.toNat (Enc.probe func) with
  | some i => (i.spec.map OpSpec.func).getD false
  | none => false

/-- Words 1 and 2 and the literal of an instruction whose word 0 has the form; zero where the form lacks them. -/
def tailWords (f : Form) (ws : List Word) : Word × Word × DWord :=
  match f, ws with
  | .base, _ => (0, 0, 0)
  | .baseLit, l0 :: l1 :: _ => (0, 0, l1 ++ l0)
  | .ext, w1 :: w2 :: _ => (w1, w2, 0)
  | .extLit, w1 :: w2 :: l0 :: l1 :: _ => (w1, w2, l1 ++ l0)
  | _, _ => (0, 0, 0)

/-- The instruction of a list of words, with the words that follow it, or the fate that R217 gives the encoding. -/
def decode (ws : List Word) : Except Reject (Instr × List Word) :=
  match ws with
  | [] => .error .short
  | w0 :: rest =>
    let f := wordForm w0
    if ws.length < f.words then .error .short
    else
      let (w1, w2, lit) := tailWords f rest
      if !opAssigned (wordOp w0) (decodeFunc f w2) then .error .illegalOpcode
      else if f.isExt && w2.extractLsb' 29 3 != 0 then .error .illegalEncoding
      else
        match decodeEnc w0 w1 w2 lit with
        | none => .error .illegalEncoding
        | some e =>
          match Instr.ofOp (wordOp w0).toNat e with
          | none => .error .illegalOpcode
          | some i => if i.wf then .ok (i, rest.drop (f.words - 1)) else .error .illegalEncoding

/-- The instruction of an instruction word whose first `nbits` bits are `w`, bit 0 the least significant bit of word 0,
every later bit of the instruction 0. -/
def decodeTableWord (nbits w : Nat) : Option Instr :=
  let b := w % 2 ^ nbits
  let ws := (List.range 5).map fun k => BitVec.ofNat 32 (b / 2 ^ (32 * k))
  match decode ws with
  | .ok (i, _) => some i
  | .error _ => none

/-- The low seven bits of an operand position in a form. -/
def opndLow (f : Form) (o : Opnd) : BitVec 7 := if f.isExt then o.full.extractLsb' 0 7 else o.base.getD 0

/-- The bit of a flag. -/
def bit (b : Bool) : BitVec 1 := BitVec.ofBool b

/-- Word 0 of an instruction (09 Table 2). -/
def encodeWord0 (op : BitVec 8) (e : Enc) : Word :=
  opndLow e.form e.b ++ opndLow e.form e.a ++ opndLow e.form e.d ++ op ++ bit e.sw ++ e.form.len

/-- Word 1 of an extended instruction (09 Table 4). -/
def encodeWord1 (e : Enc) : Word :=
  bit e.negC ++ bit e.absB ++ bit e.negB ++ bit e.absA ++ bit e.negA ++ e.c.full ++ e.b.full.extractLsb' 7 5 ++
    e.a.full.extractLsb' 7 5 ++ e.d.full.extractLsb' 7 5

/-- Word 2 of an extended instruction (09 Table 4). -/
def encodeWord2 (e : Enc) : Word :=
  (0 : BitVec 3) ++ e.ord ++ bit e.rnden ++ e.rnd ++ e.func ++ e.ty ++ bit e.pen ++ bit e.pinv ++ e.pred ++ e.dscale ++
    e.clamp ++ bit e.absC

/-- The words of a well-formed instruction in ascending address order (09 Table 1); none for an event. -/
def encode (i : Instr) : List Word :=
  match i.spec, i.enc with
  | some p, some e =>
    encodeWord0 p.op e ::
      ((if e.form.isExt then [encodeWord1 e, encodeWord2 e] else []) ++
       (if e.form.hasLit then [e.lit.extractLsb' 0 32, e.lit.extractLsb' 32 32] else []))
  | _, _ => []

end Sys2Proof
end

