-- ==== Sys2Proof/Machine/Faults.lean ====
section
/-! DEFINITION. Synchronous delivery of a fault (R331), records in the call page, and the answers to fault records (R136, R137, R306, R326, R330, R412, R413). -/

namespace Sys2Proof.Machine

open Sys2Proof

/-- What a delivery at a marker keeps: l0 and l1 are undefined there (R32, R34). -/
def Group.markerRun (g : Group) : RunSave := { l0 := LEntry.undef, l1 := LEntry.undef, q := g.q, batch := 0, count := 0 }

/-- A SYNCHRONOUS DELIVERY to the group's handler; without one, or in one, the region's fault domain ends (R331). -/
def State.deliverSync (s : State) (slot : Nat) (cls : BitVec 8) (addr : DWord) (ret : Lanes DWord) : State :=
  let g := s.group slot
  if g.canDeliver true then
    s.setGroup slot { (g.deliver (some (g.midRun.getD g.markerRun)) ⟨true, cls, addr, ret⟩) with midRun := none }
  else s.endDomain g.rcb

/-- The fault of a record is of an instruction that only the leading copy of a pair performs (R363). -/
def State.leadOnly (s : State) (slot : Nat) (r : FaultMode) (cls : BitVec 8) : Bool :=
  let g := s.group slot
  match r with
  | .retry => g.pairFlt
  | .redo id => (match SMap.find s.redos id with
    | some a => a.space == .global
    | none => false)
  | .rewait => (match g.wait with
    | some w => !w.sp
    | none => false)
  | _ => cls == clsUnderflow

/-- The trailing group of a pair takes the delivery of such a fault as its leader does. -/
def State.mirrorFault (s : State) (slot : Nat) (r : FaultMode) (cls : BitVec 8) (addr : DWord) : State :=
  if s.leadOnly slot r cls && (s.group slot).canDeliver true then s.mirrorTrap slot true cls addr 0 0 else s

/-- A record's fault delivered to its parked group, which resumes in the handler (R136 ACT 1). -/
def State.deliverParked (s : State) (slot : Nat) (cls : BitVec 8) (addr : DWord) (ret : Lanes DWord) : State :=
  let t := s.deliverSync slot cls addr ret
  if (s.group slot).canDeliver true then t.unblock slot .fault 0 else t

/-- Word `i` of a record. -/
def FaultRec.w (r : FaultRec) (i : Nat) : DWord := r.words.getD i 0
/-- CLASS of a record. -/
def FaultRec.cls (r : FaultRec) : BitVec 8 := (r.w 0).setWidth 8
/-- LANES of a record. -/
def FaultRec.lanes (r : FaultRec) : LaneMask := (r.w 0).extractLsb' 32 32

/-- The record that was named holds an unanswered record (R136). -/
def Cluster.unanswered (c : Cluster) (i : Nat) : Bool :=
  decide ((i + 64 - c.fhead) % 64 < (c.ftail + 64 - c.fhead) % 64) && (match SMap.find c.fq i with
    | some r => !r.answered
    | none => false)

/-- The lanes of a mask moved on. -/
def Group.skip (g : Group) (m : LaneMask) (n : Nat) : Group :=
  { g with pc := Vector.ofFn fun l => if laneIn m l then g.pc[l] + BitVec.ofNat 64 n else g.pc[l] }

/-- The operation of a number in a core's queue changed. -/
def State.updOp (s : State) (core id : Nat) (f : MatOp → MatOp) : State :=
  let k := s.core core
  s.setCore core { k with mq := k.mq.map (fun o => if o.id == id then f o else o), gated := false }

/-- DONESEQ counts the operations finished in queue order; one that overtook a frozen operation waits beside it (R296, R310). -/
def TileSeq.absorb : Nat → TileSeq → TileSeq
  | 0, q => q
  | f + 1, q => if q.early.contains q.done then TileSeq.absorb f { q with done := q.done + 1, early := q.early.erase q.done } else q

/-- An operation of a SEQ has finished. -/
def TileSeq.finish (q : TileSeq) (seq : BitVec 16) (abandoned : Bool) : TileSeq :=
  let q := { q with early := q.early ++ [seq], abn := if abandoned then some seq else q.abn }
  TileSeq.absorb q.early.length q

/-- A MATRIX OPERATION FINISHES: it leaves its queue, its token is finished with a status, an abandoned MMA's register becomes FAULTED
(R296, R302, R306); MMAs that the sync unit holds may enter. -/
def State.finishOp (s : State) (core : Nat) (o : MatOp) : State :=
  let k := s.core core
  let s := s.setCore core { k with mq := k.mq.filter fun p => p.id != o.id }
  let n := o.tok.toNat
  let s :=
    if !o.hasTok then s
    else if o.mma.isSome then
      let r := (s.team o.team).cvReg (n % 16)
      s.setCv o.team (n % 16)
        { r with opgen := BitVec.ofNat 16 (n / 16), opst := if o.abandoned then 1 else 0, st := if o.abandoned then .faulted else r.st }
    else
      s.updTeam o.team fun t =>
        { t with tseq := SMap.set t.tseq (n / 2 ^ 16 % 8) ((t.tileSeq (n / 2 ^ 16 % 8)).finish (BitVec.ofNat 16 n) o.abandoned) }
  (s.wakeMwait o.team).retryMmas

/-- An operation whose tile accesses have ended is finished: its stores, the other parts of a drain, and every earlier operation that has ended. -/
def State.opOver (s : State) (core : Nat) (o : MatOp) : Bool :=
  o.ended && s.accsDone o.stores && !((s.core core).mq.takeWhile fun p => p.id != o.id).any (·.ended) &&
  (!o.hasTok || !s.cores.any fun k => k.1 != core && k.2.mq.any fun p => p.id == o.id)

/-- The operations of a core that are finished leave its queue, in its order. -/
def State.finishOps (core : Nat) : Nat → State → State
  | 0, s => s
  | f + 1, s =>
    match (s.core core).mq.find? (s.opOver core) with
    | some o => State.finishOps core f (s.finishOp core o)
    | none => s

/-- An operation ends its tile accesses, so that an entry of the queue is free; it finishes once its stores and those before it are performed
(R295, R305). -/
def State.endOp (s : State) (core id : Nat) (abandoned : Bool) : State :=
  State.finishOps core 8 (s.updOp core id fun o => { o with ended := true, aVals := [], abandoned := abandoned }).retryMmas

/-- The group to which the fault of an operation or a copy is delivered: the one named, or the team's first live one (R306). -/
def State.deliverTo (s : State) (tm slot : Nat) (other : Bool) : Option Nat :=
  if !(s.prog slot).gone then some slot
  else if other then ((s.liveGroups tm).head?).map fun g => (s.team tm).slotOf g else none

/-- The group of a record is there to take its answer; a frozen operation takes its own. -/
def State.answers (s : State) (r : FaultRec) : Bool :=
  match r.mode with
  | .matrix _ _ => true
  | .free => s.holds r.slot r.uid
  | _ => (s.group r.slot).uid == r.uid

/-- The group in a slot stands at a marker with its results returned, and a synchronous delivery is due there (R306, R326). -/
def State.trapStands (s : State) (slot : Nat) : Bool :=
  let g := s.group slot
  !g.trapPend.isEmpty && !g.routine && (g.st == .ready || g.st == .blocked || g.st == .draining) && !s.resultsOut slot &&
    (match g.midRun with
      | some k => k.batch == 0
      | none => true)

/-- The first of the faults to be delivered to a group at its marker is (R306, R326); one that exited drops it. -/
def State.takePend (s : State) (slot : Nat) : State :=
  let g := s.group slot
  match g.trapPend with
  | [] => s
  | p :: ps =>
    if g.gone then s.updGroup slot fun g => { g with trapPend := [] }
    else (s.mirrorFault slot .free p.1 p.2 |>.setGroup slot { g with trapPend := ps }).deliverSync slot p.1 p.2 g.pc

/-- A fault to be delivered at a group's marker: at once where it stands at one (R306, R326). -/
def State.postTrap (s : State) (slot : Nat) (cls : BitVec 8) (addr : DWord) : State :=
  let s := s.updProg slot fun g => { g with trapPend := g.trapPend ++ [(cls, addr)] }
  if s.trapStands slot then s.takePend slot else s

/-- THE ANSWER TO A FAULT RECORD (R136): ACT 0 retries, 1 delivers, 2 ends the fault domain. -/
def State.answer (s : State) (cl idx act : Nat) : State :=
  let c := s.cluster cl
  match SMap.find c.fq idx with
  | none => s
  | some r =>
    let s := s.setCluster cl { c with fq := SMap.set c.fq idx { r with answered := true } }
    let g := s.group r.slot
    if r.stale || !s.answers r then s
    else if act = 2 then s.endDomain (s.prog r.slot).rcb
    else
      let s := if act = 1 then s.mirrorFault r.slot r.mode r.cls (r.w 1) else s
      match r.mode with
      | .pair =>
        if act = 0 then s.endDomain (s.prog r.slot).rcb else s.updTeam (s.prog r.slot).team fun t => { t with redeliver := true }
      | .free =>
        if act = 0 ∨ (s.prog r.slot).gone then s else s.postTrap r.slot r.cls (r.w 1)
      | .matrix core id =>
        match (s.core core).mq.find? fun o => o.id == id && o.st == .frozen with
        | none => s
        | some o =>
          if act = 0 then s.updOp core id fun o => { o with st := .queued }
          else
            let s := s.endOp core id true
            match s.deliverTo o.team r.slot true with
            | some sl => s.postTrap sl r.cls (r.w 1)
            | none => s
      | .redo id =>
        let a := SMap.get s.redos id
          { slot := 0, uid := 0, pc := 0, space := .global, kind := .load, lanes := 0, ord := 0, priv := false, cached := false, bits := 0,
            signed := false, pieces := [], data := lanesOf 0, dest := none, after := [], ea := lanesOf 0, run := 0, cycle := 0 }
        let s := { s with redos := SMap.del s.redos id }
        if act = 0 then
          let again (p : Piece) : Piece :=
            { p with done := false, low := false, moved := false, replay := false, stalled := false, refused := false,
                     home := 0 }
          let ps := a.pieces.map again
          let a := { a with redo := true, found := [], cached := false, cycle := s.cycle, after := [], behind := []
                            pieces := if a.space == .global then s.routed (slotCluster a.slot) ps else ps }
          let s := { s with accs := SMap.set s.accs id a }
          s.updGroup r.slot fun g => { g with blocks := .redo id :: g.blocks.erase .fault }
        else s.deliverParked r.slot r.cls (r.w 1) g.pc
      | .rewait =>
        if act = 0 then
          let again (w : WaitReq) : WaitReq := { w with cap := s.hub.memcap, route := s.routeAt (slotCluster r.slot), after := [], behind := [] }
          let s := s.updGroup r.slot fun g =>
            { g with blocks := .wait :: g.blocks.erase .fault, wait := g.wait.map again }
          { s with waits := s.waits ++ [(r.slot, r.uid)] }
        else (s.updGroup r.slot fun g => { g with wait := none }).deliverParked r.slot r.cls (r.w 1) g.pc
      | .retry =>
        if act = 0 then s.unblock r.slot .fault 0
        else s.deliverParked r.slot r.cls (r.w 1) g.pc
      | .after m next =>
        let g' := { g with pc := Vector.ofFn fun l => if laneIn m l then next else g.pc[l] }
        if act = 0 then (s.setGroup r.slot g').unblock r.slot .fault 0
        else s.deliverParked r.slot r.cls (r.w 1) g'.pc
      | .skip n =>
        let g' := g.skip r.lanes n
        if act = 0 then (s.setGroup r.slot g').unblock r.slot .fault 0
        else s.deliverParked r.slot r.cls (r.w 1) g'.pc

end Sys2Proof.Machine
end

