-- ==== Sys2Proof/Machine/SpecialRegs.lean ====
section
/-! DEFINITION. The special registers of a group and srd and swr (10 Table 13, 12 Table 13, 13 Tables 8 to 10, 14 Table 8; R249, R250, R313, R341). -/

namespace Sys2Proof.Machine

open Sys2Proof

/-- Access of a special register in a view (R249). -/
inductive SrAccess
  | ro
  | rw
  | none_
deriving DecidableEq, Repr

/-- The access of a register in the privileged or the user view. -/
def srAccess (n : Nat) (priv : Bool) : SrAccess :=
  if n = 0x30 ∨ n = 0x31 then (if priv then .ro else .none_)
  else if n = 0x32 ∨ n = 0x33 then (if priv then .rw else .none_)
  else if [0x13, 0x18, 0x19, 0x6C, 0x6D, 0x6E, 0x72, 0x73].contains n then .rw
  else .ro

/-- Fates 2 to 6 of R249, in their order: the class of the first that holds. -/
def srFate (c : Ctx) (write : Bool) : Option (BitVec 8) :=
  let n := c.e.func.toNat
  let acc := srAccess n c.priv
  let w := specialWidth c.e.func
  if c.e.ty ≠ 0 ∧ c.e.ty ≠ (if w = 64 then 8 else 7) then some clsEncoding
  else if !write && specialPerLane c.e.func && (match c.e.d with | .s _ => true | _ => false) then some clsEncoding
  else if write && !specialPerLane c.e.func && c.e.a.perLane then some clsEncoding
  else if write && acc == .ro then some clsEncoding
  else if acc == .none_ then some clsPrivilege
  else none

/-- The local number of a core in its team. -/
def State.teamCore (s : State) (slot : Nat) : Nat := slotCore slot - (s.team (s.group slot).team).core

/-- The team's frozen operation on a core. -/
def Core.frozenOf (k : Core) (tm : Nat) : Option MatOp := k.mq.find? fun o => o.team == tm && o.st == .frozen

/-- A fence token is outstanding (R79). -/
def Group.tokenOut (g : Group) (t : Nat) : Bool := (SMap.find g.ftok t).isSome

/-- A copy tag (R280). -/
def Group.tag (g : Group) (t : Nat) : Tag := SMap.get g.tags t {}

/-- The number whose bit `t` says whether `f t`, for t below `n`. -/
def bitsOf (n : Nat) (f : Nat → Bool) : Nat := (List.range n).foldl (fun a t => if f t then a + 2 ^ t else a) 0

/-- MSTAT (13 Table 9). -/
def State.mstat (s : State) (slot : Nat) : Nat :=
  let k := s.core (slotCore slot)
  let tm := (s.group slot).team
  let q := SMap.get (s.team tm).tseq (s.teamCore slot) {}
  q.done.toNat * 2 ^ 16 + k.mq.length * 2 ^ 5 + (if k.mq.any fun o => o.team == tm && o.st == .held then 4 else 0) +
    (if k.mq.any fun o => o.st == .frozen then 2 else 0) + (if k.mq.any fun o => o.st == .running then 1 else 0)

/-- FSTAT as an srd in the run reads it: the flags of each pending instruction or not (R192). -/
def Group.fstatRead (g : Group) (ctr : Nat) : Nat :=
  bitsOf 6 fun k => (hazRead ctr g.seq regF (1024 + k) 0 (BitVec.ofNat 32 (2 ^ k)) g.haz (g.fstat.setWidth 32)).getLsbD k

/-- The predicate word as an srd reads it: of every earlier swr the new value, of other writes of the run the old value or the new
(R212, R214). -/
def Group.predwRead (g : Group) (ctr : Nat) (l : Lane) : Nat :=
  let after := g.haz.takeWhile fun h => !(h.reg == regP && h.bySwr && laneIn h.mask l)
  bitsOf 7 (fun n => (hazRead ctr g.seq regP (8 * l.val + n) l (BitVec.ofNat 32 (2 ^ n)) after (g.raw regP l)).getLsbD n) + 128

/-- TRAPINFO (14 Table 8). -/
def Group.trapinfo (g : Group) : Nat :=
  (if g.inh then 2 ^ 31 else 0) + (if g.sync then 2 ^ 30 else 0) + g.trapClass.toNat

/-- The value of a special register in a lane (R249). -/
def Ctx.srd (c : Ctx) (s : State) (l : Lane) : Nat :=
  let g := c.g
  let t := s.team g.team
  let la := SMap.get s.launches t.launch {}
  let lw (k : Nat) : Nat := (la.words.getD k 0).toNat
  let k := s.core c.core
  match c.e.func.toNat with
  | 0x01 => c.cluster
  | 0x02 => c.core
  | 0x03 => c.slot / 4 % 32
  | 0x04 => c.slot % 4
  | 0x05 => g.gidx
  | 0x06 => t.x.toNat
  | 0x07 => t.y.toNat
  | 0x08 => t.z.toNat
  | 0x09 => lw 2 % 2 ^ 32
  | 0x0A => lw 2 / 2 ^ 32
  | 0x0B => lw 3 % 2 ^ 32
  | 0x0C => t.ngroups
  | 0x0D => t.chunks * 4096 * t.cores
  | 0x0E => g.sblk * 256 + g.vblk
  | 0x0F => g.asid
  | 0x10 => c.act.toNat
  | 0x11 => g.batch.toNat
  | 0x12 => g.exited.toNat
  | 0x13 => g.predwRead c.rc.ctr l
  | 0x18 => g.fstatRead c.rc.ctr
  | 0x19 => g.fmode.toNat
  | 0x1A => g.wakewhy.toNat
  | 0x20 => s.tstamp.toNat
  | 0x21 => s.hub.memcap
  | 0x22 => s.hub.phase.toNat
  | 0x28 => t.cvLimit
  | 0x29 => g.npLimit
  | 0x2A => g.npdepth
  | 0x30 => g.ctx
  | 0x31 => g.rcb
  | 0x32 => g.savearea.toNat
  | 0x33 => g.grpstate.toNat
  | 0x40 => s.mstat c.slot
  | 0x41 => match k.frozenOf g.team with
    | some o => 2 ^ 31 + o.rows
    | none => 0
  | 0x42 => match k.frozenOf g.team with
    | some o => o.tok.toNat
    | none => 0
  | 0x43 => t.acc
  | 0x60 => lw 10
  | 0x61 => lw 11 % 2 ^ 32
  | 0x62 => bitsOf 16 (fun t => decide ((g.tag t).pend ≠ 0)) * 2 ^ 16 + bitsOf 16 fun t => (g.tag t).done
  | 0x63 => bitsOf 16 fun t => (g.tag t).psn
  | 0x64 => bitsOf 16 g.tokenOut
  | 0x68 => g.taskrec.toNat
  | 0x69 => g.taskret.toNat
  | 0x6A => la.depth
  | 0x6B => lw 1
  | 0x6C => g.trapvec.toNat
  | 0x6D => g.uivec.toNat
  | 0x6E => (g.trapret[l]).toNat
  | 0x6F => g.trapinfo
  | 0x70 => g.trapaddr.toNat
  | 0x71 => g.traplanes.toNat
  | 0x72 => g.uimask.toNat
  | 0x73 => g.uipend.toNat
  | 0x74 => g.ckptcnt.toNat
  | _ => 0

/-- srd (R249, R250). -/
def execSrd (f : Enc) (s : State) : Out :=
  issue (.srd f) (fun c _ => srFate c false) (fun c s =>
    .next (result c false (fun l => BitVec.ofNat 128 (c.srd s l)) noFlags s)) s

/-- UIPEND bits that are assigned: 0 to 3 and 8 to 15 (R333). -/
def uiBits : Word := 0xFF0F

/-- The group after an swr in the active lanes: a uniform register takes the uniform value, a per-lane one each lane's (R249). -/
def Group.swr (g : Group) (n : Nat) (m : LaneMask) (x : Lane → DWord) : Group :=
  let u := x (lowLane m)
  match n with
  | 0x13 =>
    let g' := g.putWord regP m (fun l => (x l).setWidth 32 &&& 0x7F) g.seq false
    { g' with haz := match g'.haz with
                     | h :: hs => { h with bySwr := true } :: hs
                     | [] => [] }
  | 0x18 => { g with fstat := u.setWidth 6, fstatSeq := g.seq, haz := g.haz.filter fun h => h.reg != regF }
  | 0x19 => { g with fmode := u.setWidth 2 }
  | 0x32 => { g with savearea := u }
  | 0x33 => { g with grpstate := u.setWidth 32 }
  | 0x6C => { g with trapvec := u }
  | 0x6D => { g with uivec := u }
  | 0x6E => { g with trapret := Vector.ofFn fun l => if laneIn m l then x l else g.trapret[l] }
  | 0x72 => { g with uimask := u.setWidth 32 }
  | 0x73 => { g with uipend := g.uipend &&& ~~~ (u.setWidth 32) }
  | _ => g

/-- swr (R249, R250). -/
def execSwr (f : Enc) (s : State) : Out :=
  issue (.swr f) (fun c _ => srFate c true) (fun c s =>
    .next (done c (if c.act = 0 then s else
      s.updGroup c.slot fun g => g.swr c.e.func.toNat c.act (fun l => c.a .int l)))) s

end Sys2Proof.Machine
end

