-- ==== Sys2Proof/Machine/Copy.lean ====
section
/-! DEFINITION. Asynchronous copies and copy tags (R280 to R284), and the fences (R78 to R80, R285). -/

namespace Sys2Proof.Machine

open Sys2Proof

/-! ### Copies -/

/-- The copies of the group in a slot. -/
def State.copiesOf (s : State) (slot : Nat) : List (Nat × Copy) :=
  s.copies.filter fun p => s.owns slot p.2.slot p.2.uid

/-- The check of 16 bytes at one end of a copy: scratchpad or global (R281, R282). -/
def Ctx.copyEnd (c : Ctx) (s : State) (sp : Bool) (r : Right) (a : DWord) : LaneChk :=
  if sp then s.checkSpad c.slot 16 16 (a.toNat % 2 ^ 32) else s.checkUnit c.slot c.priv c.g.asid r 16 16 a

/-- FUNC [4] of a copy: the source is scratchpad. -/
def Ctx.ssp (c : Ctx) : Bool := c.e.func.getLsbD 4
/-- FUNC [5]: the destination is scratchpad. -/
def Ctx.dsp (c : Ctx) : Bool := c.e.func.getLsbD 5
/-- FUNC [3:0]: the tag. -/
def Ctx.copyTag (c : Ctx) : Nat := c.e.func.toNat % 16

/-- A copy issued (R280): numbered, and counted by its tag; as a release it follows every earlier access of the group (R81). -/
def Ctx.sendCopy (c : Ctx) (s : State) (ps : List CopyPiece) (arv tdc : Option Word) : State :=
  let (id, s) := s.fresh
  let k : Copy :=
    { slot := c.slot, uid := c.g.uid, team := c.g.team, tag := c.copyTag, pc := c.pc, asid := c.g.asid, priv := c.priv,
      srcSp := c.ssp, dstSp := c.dsp, pieces := ps.map fun p => { p with since := s.cycle }, after := s.allOpen c.slot, behind := s.behind c.slot (c.ssp || c.dsp), arv := arv, tdc := tdc, lanes := c.act }
  let s := { s with copies := SMap.set s.copies id k }
  s.updGroup c.slot fun g =>
    let t := g.tag k.tag
    { g with
      tags := SMap.set g.tags k.tag { pend := t.pend + 1, done := false, psn := t.psn && t.pend != 0 }
      lvq := g.lvq.map fun (e : LvqEntry) => if e.seq = g.seq then { e with copy := some id } else e }

/-- What the checks of an acopy find, in their order (R282). -/
inductive CopyChk
  | ok (es : List TlbEntry)
  | wait (pages : List Nat)
  | fault (cls : BitVec 8) (space : Nat) (addr : DWord) (noncan : Bool) (level : Nat) (pte : DWord)
deriving DecidableEq, Repr

/-- Checks in order: the first that fails decides; one that waits for a walk makes the instruction wait for all. -/
def copyChks : List LaneChk → CopyChk
  | [] => .ok []
  | x :: xs =>
    match x with
    | .fault k sp a nc lv pte => .fault k sp a nc lv pte
    | .wait p =>
      match copyChks xs with
      | .wait ps => .wait (p :: ps)
      | _ => .wait [p]
    | .ok _ e =>
      match copyChks xs with
      | .ok es => .ok (e.toList ++ es)
      | r => r

/-- The 16-byte pieces of a range. -/
def pieceOffsets (n : Nat) : List Nat := (List.range (n / 16)).map (16 * ·)

/-- swz of R283. -/
def swz (o S : Nat) : Nat := o ^^^ (o / S % (S / 16) * 16)

/-- Fields of the options word of an acopy (12 Table 7). -/
def optSpan (o : DWord) : Nat := 16 * 2 ^ (o.toNat % 8)
/-- SWZ. -/
def optSwz (o : DWord) : Bool := o.getLsbD 3
/-- ARV. -/
def optArv (o : DWord) : Bool := o.getLsbD 4
/-- TDC. -/
def optTdc (o : DWord) : Bool := o.getLsbD 5
/-- TGT. -/
def optTgt (o : DWord) : Word := o.extractLsb' 32 32

/-- The dependence counters of a region (07 Table 5). -/
def State.ctrn (s : State) (rcb : Nat) : Nat := bits (s.rcbW rcb 11) 31 0

/-- The check of a counter index (R317). -/
def State.checkCounter (s : State) (rcb : Nat) (i : Word) : LaneChk :=
  if i.toNat < s.ctrn rcb then .ok 0 none else .fault clsProtection 3 (i.setWidth 64) false 0 0

/-- The source address of an acopy. -/
def Ctx.copySrc (c : Ctx) : DWord := c.ua
/-- Its destination address. -/
def Ctx.copyDst (c : Ctx) : DWord := c.d .int c.low

/-- THE CHECKS OF AN ACOPY in the order of R282. -/
def Ctx.acopyChks (c : Ctx) (s : State) : CopyChk :=
  let n := c.ub.toNat % 2 ^ 32
  let o := c.uc
  let src := c.copySrc
  let dst := c.copyDst
  let S := optSpan o
  let w (sp : Bool) : Nat := if sp then 1 else 0
  let t := optTgt o
  if o.toNat % 2 ^ 32 / 64 ≠ 0 ∨ (optTdc o ∧ c.dsp ∧ (s.team c.g.team).paired) ∨ (optArv o ∧ optTdc o) ∨ (optSwz o ∧ !c.dsp) ∨ (o.toNat % 8 ≠ 0 ∧ !optSwz o) then
    .fault clsEncoding 3 0 false 0 0
  else if n % 16 ≠ 0 ∨ 2 ^ 24 < n ∨ (optSwz o ∧ n % S ≠ 0) then .fault clsAlignment 3 (BitVec.ofNat 64 n) false 0 0
  else if src.toNat % 16 ≠ 0 then .fault clsAlignment (w c.ssp) src false 0 0
  else if dst.toNat % 16 ≠ 0 ∨ (optSwz o ∧ dst.toNat % S ≠ 0) then .fault clsAlignment (w c.dsp) dst false 0 0
  else if optArv o ∧ t.toNat % 4 ≠ 0 then .fault clsAlignment 1 (t.setWidth 64) false 0 0
  else
    let ends := (pieceOffsets n).map (fun k => c.copyEnd s c.ssp .load (src + BitVec.ofNat 64 k)) ++
      (pieceOffsets n).map (fun k => c.copyEnd s c.dsp .store (dst + BitVec.ofNat 64 k))
    let tgt := if optArv o then [s.checkSpad c.slot 4 4 t.toNat] else if optTdc o then [s.checkCounter c.g.rcb t] else []
    copyChks (ends ++ tgt)

/-- acopy (R281 to R283). -/
def execAcopy (f : Enc) (s : State) : Out :=
  issue (.acopy f) noOwn (fun c s =>
    if c.act = 0 then .next (done c s)
    else if 64 ≤ (s.copiesOf c.slot).length then .next s
    else
      match c.acopyChks s with
      | .wait ps => .next (s.admitPages c.cluster c.g.asid (s.descOf c.slot) c.req ps.eraseDups)
      | .fault k sp a nc lv pte =>
        .next ((s.dropX c.cluster c.req).raise c.slot .retry
          { cls := k, lanes := c.act, kind := 5, space := sp, addr := a, noncan := nc, level := lv, pte := pte, pc := c.pc })
      | .ok es =>
        let pa (sp : Bool) (r : Right) (a : DWord) : Nat := (c.copyEnd s sp r a).pa
        let o := c.uc
        let ps : List CopyPiece := (pieceOffsets (c.ub.toNat % 2 ^ 32)).map fun k =>
          { src := pa c.ssp .load (c.copySrc + BitVec.ofNat 64 k)
            dst := pa c.dsp .store (c.copyDst + BitVec.ofNat 64 (if optSwz o then swz k (optSpan o) else k)) }
        let t := (s.dropX c.cluster c.req).useTlbsIn c.cluster es
        .next (done c (c.sendCopy t ps (if optArv o then some (optTgt o) else none) (if optTdc o then some (optTgt o) else none)))) s

/-- The two ends of a lane of an acp. -/
def Ctx.acpChk (c : Ctx) (s : State) (l : Lane) : LaneChk × LaneChk :=
  (c.copyEnd s c.ssp .load (c.a .int l), c.copyEnd s c.dsp .store (c.d .int l))

/-- acp (R281): a 16-byte piece for each active lane. -/
def execAcp (f : Enc) (s : State) : Out :=
  issue (.acp f) noOwn (fun c s =>
    if c.act = 0 then .next (done c s)
    else if 64 ≤ (s.copiesOf c.slot).length then .next s
    else
      let chk (l : Lane) : LaneChk := joinChk [(c.acpChk s l).1, (c.acpChk s l).2]
      let pages := (lanePages c.act fun l => (c.acpChk s l).1) ++ lanePages c.act fun l => (c.acpChk s l).2
      if !pages.isEmpty then .next (s.admitPages c.cluster c.g.asid (s.descOf c.slot) c.req pages.eraseDups)
      else
        let t := s.dropX c.cluster c.req
        match laneFault 5 c.pc c.act chk with
        | some fi => .next (t.raise c.slot .retry fi)
        | none =>
          let es := (laneEntries c.act fun l => (c.acpChk s l).1) ++ laneEntries c.act fun l => (c.acpChk s l).2
          let ps : List CopyPiece := (lanesIn c.act).map fun l => { src := (c.acpChk s l).1.pa, dst := (c.acpChk s l).2.pa }
          .next (done c (c.sendCopy (t.useTlbsIn c.cluster es) ps none none))) s

/-! ### Tags -/

/-- The tags of a mask that satisfy a condition, ascending. -/
def tagsIn (mask : BitVec 16) (f : Nat → Bool) : List Nat := (List.range 16).filter fun t => mask.getLsbD t && f t

/-- DONE of a tag cleared. -/
def Group.clearTag (g : Group) (t : Nat) : Group := { g with tags := SMap.set g.tags t { g.tag t with done := false } }

/-- The tag mask in A: bits [31:16] are ignored; where the lanes of a per-lane A disagree the spec names none (log 21). -/
def Ctx.tagMask (c : Ctx) (s : State) : BitVec 16 :=
  if (lanesIn c.act).all fun l => c.a .int l == c.ua then c.ua.setWidth 16 else (s.free 0).setWidth 16

/-- A tag that is done is returned: an acquire of its copies' destinations (R82, R284). -/
def State.takeTag (s : State) (slot t : Nat) (clr : Bool) : State :=
  (if clr then s.updGroup slot fun g => g.clearTag t else s).acquireInval (slotCore slot)

/-- The value returned when no tag is done. -/
def noTag : DWord := 0xFFFFFFFF

/-- tffs. -/
def execTffs (f : Enc) (s : State) : Out :=
  issue (.tffs f) noOwn (fun c s =>
    if c.act = 0 then .next (result c false (uniform 0) noFlags s)
    else
      match tagsIn (c.tagMask s) fun t => (c.g.tag t).done with
      | t :: _ => .next (result c false (uniform (BitVec.ofNat 64 t)) noFlags (s.takeTag c.slot t (c.e.func.getLsbD 0)))
      | [] => .next (result c false (uniform noTag) noFlags s)) s

/-- twaitany. -/
def execTwaitany (f : Enc) (s : State) : Out :=
  issue (.twaitany f) noOwn (fun c s =>
    let m := c.tagMask s
    if c.act = 0 then .next (result c false (uniform 0) noFlags s)
    else
      match tagsIn m fun t => (c.g.tag t).done with
      | t :: _ => .next (result c false (uniform (BitVec.ofNat 64 t)) noFlags (s.takeTag c.slot t (c.e.func.getLsbD 0)))
      | [] =>
        if (tagsIn m fun t => (c.g.tag t).pend != 0).isEmpty then .next (result c false (uniform noTag) noFlags s)
        else .next (done c (s.block c.slot (.tagAny m (c.e.func.getLsbD 0) c.dest)))) s

/-- DONE bits of a mask. -/
def Group.doneBits (g : Group) (m : BitVec 16) : Nat := bitsOf 16 fun t => m.getLsbD t && (g.tag t).done

/-- twaitall. -/
def execTwaitall (f : Enc) (s : State) : Out :=
  issue (.twaitall f) noOwn (fun c s =>
    let m := c.tagMask s
    if c.act = 0 then .next (result c false (uniform 0) noFlags s)
    else if (tagsIn m fun t => (c.g.tag t).pend != 0).isEmpty then
      .next (result c false (uniform (BitVec.ofNat 64 (c.g.doneBits m))) noFlags (s.acquireInval c.core))
    else .next (done c (s.block c.slot (.tagAll m c.dest)))) s

/-! ### Fences -/

/-- Class bits of a mask; with a bit above them, or none, every class (R78). -/
def fenceClasses (m : Word) : BitVec 5 := if m.toNat / 32 ≠ 0 ∨ m.toNat = 0 then ~~~ 0 else m.setWidth 5

/-- The MMAs that a group has signed and whose operands may still be read: generations it has signed, held signs, and those of its
registers that are queued or running. -/
def State.mmaItems (s : State) (slot : Nat) : List FenceItem :=
  let g := s.group slot
  let t := s.team g.team
  (List.range 16).flatMap fun n =>
    let r := t.cvReg n
    let inSet := decide (r.first ≤ g.gidx ∧ g.gidx < r.first + r.groups)
    let cur := if r.mma.isSome && r.signedOf g.gidx != 0 then [FenceItem.mma n r.gen] else []
    let mine := r.held.filter fun x => x.gidx == g.gidx
    let nxt := if mine.any (·.ops.isSome) then (List.range mine.length).map fun k => FenceItem.mma n (r.gen + 1 + BitVec.ofNat 16 k) else []
    let pend := if inSet then r.pend.map fun o => FenceItem.op o.id else []
    let inQ := s.cores.flatMap fun k => (k.2.mq.filter fun o =>
      o.team == g.team && o.mma.isSome && o.func.toNat == n && inSet).map fun o => FenceItem.op o.id
    cur ++ nxt ++ pend ++ inQ

/-- What a fence of some classes records (R78, R79). -/
def State.fenceItems (s : State) (slot : Nat) (m : BitVec 5) : List FenceItem :=
  let isLoad (a : Access) : Bool := a.kind == .load || a.kind == .qunpk
  let gs := if m.getLsbD 0 then (s.openAccs slot fun a => a.space == .global && !a.performed && !isLoad a).map FenceItem.acc else []
  let gl := if m.getLsbD 1 then (s.openAccs slot fun a => a.space == .global && isLoad a).map FenceItem.acc else []
  let sp := if m.getLsbD 2 then (s.openAccs slot fun a => a.space == .spad).map FenceItem.acc ++
      (s.accs.filter fun p => s.owns slot p.2.slot p.2.uid && p.2.forwarding).map (fun p => FenceItem.fwd p.1) else []
  let cp := if m.getLsbD 3 then (s.copiesOf slot).map fun p => FenceItem.copy p.1 else []
  let mx := if m.getLsbD 4 then
      (s.cores.flatMap fun k => (k.2.mq.filter fun o => s.owns slot o.slot o.uid && (o.op == 0xD3 || o.op == 0xD9)).map
        fun o => FenceItem.op o.id) ++ s.mmaItems slot else []
  gs ++ gl ++ sp ++ cp ++ mx

/-- An operation that performs no access before an answer or an mresume: it, or one before it in its queue, is frozen or held (R306, R307, R312). -/
def Core.stuck (k : Core) (o : MatOp) : Bool :=
  !o.ended && o.st != .running && ((k.queued.takeWhile fun p => p.id != o.id) ++ [o]).any fun p => p.st == .frozen || p.st == .held

/-- What a token waits for has come about. -/
def State.itemDone (s : State) (slot : Nat) : FenceItem → Bool
  | .acc id => match SMap.find s.accs id with
    | some a => a.performed
    | none => true
  | .fwd id => match SMap.find s.accs id with
    | some a => !a.forwarding
    | none => true
  | .copy id => (SMap.find s.copies id).isNone
  | .op id => !(s.cores.any fun k => k.2.mq.any fun o => o.id == id && !k.2.stuck o) &&
      !(s.team (s.group slot).team).cv.any fun r => r.2.pend.any fun o => o.id == id
  | .mma n gen =>
    let g := s.group slot
    let r := (s.team g.team).cvReg n
    let ahead := (gen - r.gen).toNat
    let waiting := r.st == .open && ((ahead == 0 && r.signedOf g.gidx != 0) ||
      (decide (0 < ahead) && decide (ahead ≤ (r.held.filter fun x => x.gidx == g.gidx).length)))
    !waiting && !(r.pend.any fun o => o.tok == BitVec.ofNat 32 (gen.toNat * 16 + n)) && !s.cores.any fun k => k.2.mq.any fun o =>
      o.team == g.team && o.mma.isSome && !k.2.stuck o && o.func.toNat == n && o.tok == BitVec.ofNat 32 (gen.toNat * 16 + n)

/-- The lowest-numbered complete token. -/
def Group.freeToken (g : Group) : Option Nat := (List.range 16).find? fun t => !g.tokenOut t

/-- A token taken for what a mask covers (R79). -/
def State.takeToken (s : State) (slot t : Nat) (mask : Word) : State :=
  let items := s.fenceItems slot (fenceClasses mask)
  s.updGroup slot fun g => { g with ftok := SMap.set g.ftok t items }

/-- fissue: with every token outstanding it waits at issue. -/
def execFissue (f : Enc) (s : State) : Out :=
  issue (.fissue f) noOwn (fun c s =>
    if c.act = 0 then .next (result c true (uniform 0) noFlags s)
    else
      match c.g.freeToken with
      | none => .next s
      | some t => .next (result c true (uniform (BitVec.ofNat 64 t)) noFlags (s.takeToken c.slot t (c.ua.setWidth 32)))) s

/-- The tokens that a fence waits for are complete; 16 stands for all. -/
def Group.tokensDone (g : Group) (t : Nat) : Bool := if t < 16 then !g.tokenOut t else g.ftok.all fun p => decide (16 ≤ p.1)

/-- fwait. -/
def execFwait (f : Enc) (s : State) : Out :=
  groupLevel (.fwait f) noOwn (fun c s =>
    let t := min 16 (c.ua.toNat % 2 ^ 32)
    if c.g.tokensDone t then s else s.block c.slot (.fence t)) s

/-- fence: fissue and fwait on one token. -/
def execFence (f : Enc) (s : State) : Out :=
  issue (.fence f) noOwn (fun c s =>
    if c.act = 0 then .next (done c s)
    else
      match c.g.freeToken with
      | none => .next s
      | some t => .next (done c ((s.takeToken c.slot t (c.ua.setWidth 32)).block c.slot (.fence t)))) s

end Sys2Proof.Machine
end

