-- ==== Sys2Proof/Machine/Matrix.lean ====
section
/-! DEFINITION. The matrix instructions at issue (R300 to R311): signs of an MMA, tile operations entering the queue, mofence, mwait, draining and refilling. The operations themselves are run by events. -/

namespace Sys2Proof.Machine

open Sys2Proof

/-- FUNC [2:0]: the tile. -/
def Ctx.tile (c : Ctx) : Nat := c.e.func.toNat % 8

/-- mma: a sign that carries the operands, and the token of its generation (R301). -/
def execMma (f : Enc) (s : State) : Out :=
  issue (.mma f) signOk (fun c s =>
    let n := c.e.func.toNat % 16
    let r := (s.team c.g.team).cvReg n
    if c.act = 0 then .next (result c false (uniform 0) noFlags s)
    else if s.holdAccess c.slot || r.justSet s.cycle then .next s
    else
    let s := s.cvCatch c.g.team n
    let r := (s.team c.g.team).cvReg n
    if r.st = .faulted then .next (done c (faultedSync c n 6 s))
    else
      let ops : MmaOps := { a := c.e.a.val128 c.rc c.low, b := c.e.b.val128 c.rc c.low, c := c.uc.setWidth 32 }
      let gen := r.signGen c.g.gidx c.act
      let key := s.mmaCore c.g.team n * 8 + ops.c.toNat % 8
      let s := s.cvSign c.slot n c.act (some ops) c.pc c.next (s.allOpen c.slot)
      let s := s.updGroup c.slot fun g => { g with mmaOut := g.mmaOut ++ [(BitVec.ofNat 32 (gen.toNat * 16 + n), key, ops)] }
      .next (result c false (uniform (BitVec.ofNat 64 (gen.toNat * 16 + n))) noFlags s)) s

/-- A tile number beyond the team's (R294). -/
def tileOk (c : Ctx) (s : State) : Option (BitVec 8) := encIf (decide ((s.team c.g.team).acc ≤ c.tile))

/-- The operation of a tile instruction, its token taken (R296). -/
def Ctx.tileOp (c : Ctx) (s : State) (op id : Nat) (hasTok : Bool) : MatOp :=
  let j := s.teamCore c.slot
  let q := (s.team c.g.team).tileSeq j
  { id := id, team := c.g.team, slot := c.slot, uid := c.g.uid, gidx := c.g.gidx, op := op, func := c.e.func, ty := c.e.ty,
    mode := if c.e.rnden then c.e.rnd else c.g.fmode, rnden := c.e.rnden, dscale := c.e.dscale, clamp := c.e.clamp,
    tok := if hasTok then BitVec.ofNat 32 (2 ^ 31 + j * 2 ^ 16 + q.issue.toNat) else 0, hasTok := hasTok, lanes := c.act, pc := c.pc, part := j,
    asid := c.g.asid, desc := s.descOf c.slot, undef := c.g.mmaOut.map fun x => x.2.1 }

/-- The team's ISSUESEQ on a core counted on. -/
def State.bumpSeq (s : State) (tm j : Nat) : State :=
  s.updTeam tm fun t =>
    let q := t.tileSeq j
    { t with tseq := SMap.set t.tseq j { q with issue := q.issue + 1 } }

/-- An operation enters the queue of a core (R295). -/
def State.pushOp (s : State) (core : Nat) (o : MatOp) : State :=
  let k := s.core core
  s.setCore core { k with mq := k.mq ++ [o], gated := false }

/-- A record of a check at issue of a tile instruction (R308). -/
def Ctx.tileFault (c : Ctx) (cls : BitVec 8) (space : Nat) (a : DWord) (s : State) : Out :=
  .next (s.raise c.slot .retry { cls := cls, lanes := c.act, kind := 6, space := space, addr := a, pc := c.pc })

/-- A TILE INSTRUCTION WITHOUT A TOKEN: mzero. It waits at issue while the queue is full. -/
def execMzero (f : Enc) (s : State) : Out :=
  issue (.mzero f) tileOk (fun c s =>
    if c.act = 0 then .next (done c s)
    else if !(s.core c.core).mqRoom then .next s
    else
      let (id, s) := s.fresh
      .next (done c (s.pushOp c.core (c.tileOp s 0xD1 id false)))) s

/-- The scratchpad form of mld, mst and mcvt. -/
def Ctx.tileSp (c : Ctx) : Bool := c.e.func.getLsbD 3

/-- The element width in bytes of a tile operation's memory. -/
def tileWidth (op : Nat) (ty : BitVec 4) : Nat := if op = 0xD6 then codeWidth (ty.setWidth 8) / 8 else 4

/-- A TILE INSTRUCTION WITH A TOKEN: mld, mst, mcvt (R308, R309). -/
def tileMem (i : Instr) (op : Nat) (s : State) : Out :=
  issue i tileOk (fun c s =>
    let w := tileWidth op c.e.ty
    let sp := if c.tileSp then 1 else 0
    let a := c.ua
    let stride := c.ub.toNat % 2 ^ 32
    if c.act = 0 then .next (result c false (uniform 0) noFlags s)
    else if a.toNat % 16 ≠ 0 then c.tileFault clsAlignment sp a s
    else if stride % 16 ≠ 0 ∨ stride < 64 * w then c.tileFault clsAlignment sp (BitVec.ofNat 64 stride) s
    else if c.tileSp ∧ (s.team c.g.team).spadSize < a.toNat % 2 ^ 32 + 63 * stride + 64 * w then c.tileFault clsProtection 1 a s
    else if s.holdAccess c.slot || !(s.core c.core).mqRoom then .next s
    else
      let (id, s) := s.fresh
      let o := { c.tileOp s op id true with addr := a, stride := BitVec.ofNat 32 stride }
      let s := (s.bumpSeq c.g.team o.part).pushOp c.core o
      .next (result c false (uniform (o.tok.setWidth 64)) noFlags s)) s

/-- mld. -/
def execMld (f : Enc) (s : State) : Out := tileMem (.mld f) 0xD2 s
/-- mst. -/
def execMst (f : Enc) (s : State) : Out := tileMem (.mst f) 0xD3 s
/-- mcvt. -/
def execMcvt (f : Enc) (s : State) : Out := tileMem (.mcvt f) 0xD6 s

/-- mrd: the row comes back when the queue performs the operation (R309). -/
def execMrd (f : Enc) (s : State) : Out :=
  issue (.mrd f) tileOk (fun c s =>
    if c.act = 0 then .next (result c false (uniform 0) noFlags s)
    else if 64 ≤ c.ua.toNat % 2 ^ 32 then c.tileFault clsProtection 3 c.ua s
    else if !(s.core c.core).mqRoom then .next s
    else
      let (id, s) := s.fresh
      let o := { c.tileOp s 0xD4 id false with trow := c.ua.toNat, dest := some c.dest }
      .next (retire c (c.pending id) c.nextPcs (s.pushOp c.core o))) s

/-- D of mwr is an even v register (R308). -/
def mwrOwn (c : Ctx) (s : State) : Option (BitVec 8) :=
  match tileOk c s with
  | some k => some k
  | none => encIf (match c.e.d with
    | .v _ => false
    | _ => true)

/-- mwr. -/
def execMwr (f : Enc) (s : State) : Out :=
  issue (.mwr f) mwrOwn (fun c s =>
    if c.act = 0 then .next (done c s)
    else if 64 ≤ c.ua.toNat % 2 ^ 32 then c.tileFault clsProtection 3 c.ua s
    else if !(s.core c.core).mqRoom then .next s
    else
      let (id, s) := s.fresh
      let o := { c.tileOp s 0xD5 id false with trow := c.ua.toNat, vals := Vector.ofFn fun l => c.d .int l }
      .next (done c (s.pushOp c.core o))) s

/-- The cores of a team. -/
def Team.coreList (t : Team) : List Nat := (List.range t.cores).map (t.core + ·)

/-- mofence: every staged line of the team's cores is dropped (R304). -/
def execMofence (f : Enc) (s : State) : Out :=
  groupLevel (.mofence f) noOwn (fun c s =>
    (s.team c.g.team).coreList.foldl (fun s k => s.setCore k { s.core k with staged := [] }) s) s

/-- A token with a reserved bit, or of a core outside the team (R296). -/
def tokenInvalid (t : Team) (tok : Word) : Bool :=
  let n := tok.toNat
  if tok.getLsbD 31 then decide (n / 2 ^ 19 % 2 ^ 12 ≠ 0 ∨ t.cores ≤ n / 2 ^ 16 % 8) else decide (n / 2 ^ 20 ≠ 0)

/-- mwait (R305). -/
def execMwait (f : Enc) (s : State) : Out :=
  issue (.mwait f) noOwn (fun c s =>
    let t := s.team c.g.team
    let tok : Word := c.ua.setWidth 32
    if c.act = 0 then .next (result c false (uniform 0) noFlags s)
    else if tokenInvalid t tok then .next (result c false (uniform 2) noFlags s)
    else if t.tokenDone tok then
      .next (result c false (uniform (BitVec.ofNat 64 (t.tokenStatus tok))) noFlags
        ((s.updGroup c.slot fun g => g.mmaWaited t).acquireInval c.core))
    else .next (done c (s.block c.slot (.mwait tok c.dest)))) s

/-! ### Draining and refilling -/

/-- Conditions on the values of mdrain: PRIVILEGE for a record area outside ASID 0, an encoding fault for a missing area (R310). -/
def drainOwn (c : Ctx) (s : State) : Option (BitVec 8) :=
  if c.act = 0 then none
  else if c.ub ≠ 0 ∧ !c.priv then some clsPrivilege
  else encIf (c.uc == 0 && decide (1 < (s.team c.g.team).cores))

/-- The first of three areas that is not a multiple of 64. -/
def areaFault (l : List DWord) : Option DWord := l.find? fun a => a.toNat % 64 ≠ 0

/-- The head of a core's queue is frozen or held, so that nothing queued behind it runs before the drain (R306, R311). -/
def Core.stuckHead (k : Core) : Bool :=
  match k.queued with
  | [] => false
  | o :: _ => o.st == .frozen || o.st == .held

/-- mdrain: it enters the queue of every core of the team; one token, on the issuing group's core (R310). -/
def execMdrain (f : Enc) (s : State) : Out :=
  issue (.mdrain f) drainOwn (fun c s =>
    let t := s.team c.g.team
    if c.act = 0 then .next (result c false (uniform 0) noFlags s)
    else
      match areaFault [c.ua, c.ub, c.uc] with
      | some a => c.tileFault clsAlignment 0 a s
      | none =>
        if s.holdAccess c.slot || !(t.coreList.all fun k => (s.core k).mqRoom || (s.core k).stuckHead) then .next s
        else
          let (id, s) := s.fresh
          let o := { c.tileOp s 0xD9 id true with addr := c.ua, addr2 := c.uc, addr3 := c.ub }
          let s := s.bumpSeq c.g.team o.part
          let s := (List.range t.cores).foldl (fun s j =>
            s.pushOp (t.core + j) { o with part := j, hasTok := o.hasTok && t.core + j == c.core }) s
          .next (result c false (uniform (o.tok.setWidth 64)) noFlags s)) s

/-- The part of an area that a team core's tiles take (R310). -/
def tileArea (a cc : DWord) (j : Nat) : DWord := if j = 0 then a else cc + BitVec.ofNat 64 ((j - 1) * 0x20000)

/-- The check of a block that mfill or mdrain touches. -/
def Ctx.blockChk (c : Ctx) (s : State) (a : DWord) : LaneChk := s.checkUnit c.slot c.priv c.g.asid .load 64 8 a

/-- A 64-bit word through a checked translation. -/
def Ctx.fillWord (c : Ctx) (s : State) (a : DWord) : DWord := s.seenDword (c.blockChk s a).pa

/-- Word `i` of record `q` of a team core in the record area of mfill. -/
def Ctx.recWord (c : Ctx) (j q i : Nat) : DWord := c.ub + BitVec.ofNat 64 (j * 0x200 + q * 0x40 + 8 * i)

/-- A record of a team core. -/
def Ctx.fillRec (c : Ctx) (s : State) (j q : Nat) : List DWord := (List.range 8).map fun i => c.fillWord s (c.recWord j q i)

/-- A block whose line cannot be read (R54, R148). -/
def Ctx.badBlock (c : Ctx) (s : State) (a : DWord) : Bool := s.badRead c.cluster (c.blockChk s a).pa 64

/-- The records of a core in a record area, up to the closing one (13 Table 6). -/
def fillRecs (rd : Nat → List DWord) : Nat → Nat → List (List DWord) × List DWord
  | 0, q => ([], rd q)
  | k + 1, q =>
    let r := rd q
    if (r.getD 0 0).getLsbD 31 then
      let (rs, last) := fillRecs rd k (q + 1)
      (r :: rs, last)
    else ([], r)

/-- The records of a team core, and its closing record; none without a record area. -/
def Ctx.fillArea (c : Ctx) (s : State) (j : Nat) : List (List DWord) × List DWord :=
  if c.ub = 0 then ([], []) else fillRecs (c.fillRec s j) 4 0

/-- The blocks of the rows that the mwr records of a team core name; none is known before the records can be read. -/
def Ctx.rowBlocks (c : Ctx) (s : State) (j : Nat) : List DWord :=
  if (List.range 5).all fun q => match c.blockChk s (c.recWord j q 0) with
    | .ok pa _ => !c.badBlock s (c.recWord j q 0) && pRange pa == .hbm
    | _ => false then
    ((c.fillArea s j).1.filter fun r => Sys2Proof.Machine.bits (r.getD 0 0) 15 8 == 0xD5).flatMap fun r =>
      (List.range 4).map fun k => r.getD 6 0 + BitVec.ofNat 64 (64 * k)
  else []

/-- Every 64-byte block that mfill reads: tiles, and records with their rows. -/
def Ctx.fillBlocks (c : Ctx) (s : State) (t : Team) : List DWord :=
  (List.range t.cores).flatMap fun j =>
    (List.range (t.acc * 256)).map (fun k => tileArea c.ua c.uc j + BitVec.ofNat 64 (64 * k)) ++
    (if c.ub = 0 then [] else ((List.range 5).map fun q => c.recWord j q 0) ++ c.rowBlocks s j)

/-- A reserved bit of a record is set, or its operation is none (R311). -/
def recBad (r : List DWord) : Bool :=
  let w0 := r.getD 0 0
  bits w0 29 23 != 0 || r.getD 7 0 != 0 || ((w0.getLsbD 31) && (decide (bits w0 15 8 < 0xD0) || decide (0xD6 < bits w0 15 8) || decide (63 < bits w0 22 16)))

/-- The operation of a record, held (R311); `row` reads the row of an mwr. -/
def recOp (t : Team) (s : State) (tm core id : Nat) (r : List DWord) (row : DWord → Lane → DWord) : MatOp :=
  let w0 := r.getD 0 0
  let opts : Word := (r.getD 1 0).extractLsb' 32 32
  let op := bits w0 15 8
  let slot := t.slotOf (bits w0 7 0)
  let o : MatOp :=
    { id := id, team := tm, slot := slot, uid := (s.prog slot).uid, gidx := bits w0 7 0, op := op, tok := w0.extractLsb' 32 32,
      hasTok := op == 0xD0 || op == 0xD2 || op == 0xD3 || op == 0xD6, rows := bits w0 22 16, st := .held, lanes := ~~~ 0, pc := 0,
      part := core - t.core, asid := (SMap.get s.launches t.launch {}).asid, desc := (SMap.get s.launches t.launch {}).desc }
  if op = 0xD0 then
    { o with mma := some { a := r.getD 3 0 ++ r.getD 2 0, b := r.getD 5 0 ++ r.getD 4 0, c := opts }, func := (w0.extractLsb' 32 32 : Word).setWidth 8 &&& 15 }
  else
    { o with func := opts.setWidth 8, ty := opts.extractLsb' 8 4, mode := opts.extractLsb' 12 2, rnden := opts.getLsbD 14,
             dscale := opts.extractLsb' 15 4, clamp := opts.extractLsb' 19 2, addr := r.getD 2 0, stride := (r.getD 3 0).setWidth 32,
             trow := (r.getD 3 0).toNat % 64, vals := Vector.ofFn (row (r.getD 6 0)) }

/-- A tile element written: key tile · 4096 + row · 64 + column; 0 is not listed. -/
def Core.setTile (k : Core) (key : Nat) (x : Word) : Core :=
  { k with tiles := if x = 0 then SMap.del k.tiles key else SMap.set k.tiles key x }

/-- The element of a tile. -/
def Core.tileAt (k : Core) (key : Nat) : Word := SMap.get k.tiles key 0

/-- The store of a team's tile `t` on a core: the physical tile that it holds. -/
def Core.physTile (k : Core) (tm t : Nat) : Nat := ((k.tileOwner.filter fun o => o.2 == tm).map Prod.fst).getD t 8

/-- mfill: the inverse of mdrain (R311). -/
def execMfill (f : Enc) (s : State) : Out :=
  issue (.mfill f) drainOwn (fun c s =>
    let tm := c.g.team
    let t := s.team tm
    if c.act = 0 then .next (done c s)
    else
      match areaFault [c.ua, c.ub, c.uc] with
      | some a => c.tileFault clsAlignment 0 a s
      | none =>
        if s.holdAccess c.slot || !(s.allOpen c.slot).isEmpty then .next s
        else
          match copyChks ((c.fillBlocks s t).map (c.blockChk s)) with
          | .wait ps => .next (s.admitPages c.cluster c.g.asid (s.descOf c.slot) c.req ps.eraseDups)
          | .fault k sp a nc lv pte =>
            .next ((s.dropX c.cluster c.req).raise c.slot .retry
              { cls := k, lanes := c.act, kind := 6, space := sp, addr := a, noncan := nc, level := lv, pte := pte, pc := c.pc })
          | .ok es =>
          match s.lineReads c.cluster 64 ((c.fillBlocks s t).map fun a => (c.blockChk s a).pa) with
          | .wait s => .next s
          | .bad k u =>
            .next ((u.dropX c.cluster c.req).raise c.slot .retry
              { cls := k, lanes := c.act, kind := 6, space := 0, addr := ((c.fillBlocks s t).find? (c.badBlock s)).getD 0, pc := c.pc })
          | .ok u =>
            let u := ((u.dropX c.cluster c.req).useTlbsIn c.cluster es).bump
            if (List.range t.cores).any fun j => (c.fillArea s j).1.any recBad || recBad (c.fillArea s j).2 then
              .next (u.raiseCode c.slot clsEncoding c.pc c.act)
            else
              let s' := (List.range t.cores).foldl (fun s' j =>
                let core := t.core + j
                let k := (List.range (t.acc * 4096)).foldl (fun (k : Core) e =>
                  let d := c.fillWord s (tileArea c.ua c.uc j + BitVec.ofNat 64 (4 * e / 8 * 8))
                  k.setTile (k.physTile tm (e / 4096) * 4096 + e % 4096) (d.extractLsb' (32 * (e % 2)) 32)) (s'.core core)
                let s' := s'.setCore core k
                let (rs, last) := c.fillArea s j
                let s' := rs.foldl (fun s' r =>
                  let (id, s') := s'.fresh
                  s'.pushOp core (recOp t s' tm core id r fun a l => c.fillWord s (a + BitVec.ofNat 64 (8 * l.val)))) s'
                if c.ub = 0 then s'
                else s'.updTeam tm fun t =>
                  let q := t.tileSeq j
                  let q := { q with issue := (last.getD 1 0).extractLsb' 16 16, done := (last.getD 1 0).setWidth 16, early := [] }
                  { t with tseq := SMap.set t.tseq j q }) u
              .next (done c s')) s

/-- The unanswered record of a frozen operation. -/
def Cluster.recordOf (c : Cluster) (core id : Nat) : Option Nat :=
  (c.fq.find? fun r => r.2.mode == .matrix core id && !r.2.answered).map Prod.fst

/-- mresume: held operations go on, frozen ones as ACT 0 has them (R311). -/
def execMresume (f : Enc) (s : State) : Out :=
  groupLevel (.mresume f) noOwn (fun c s =>
    let tok : Word := c.ua.setWidth 32
    (s.team c.g.team).coreList.foldl (fun s core =>
      ((s.core core).mq.filter fun o => o.team == c.g.team && (tok == 0xFFFFFFFF || (o.hasTok && o.tok == tok))).foldl (fun s o =>
        match o.st with
        | .held => s.updOp core o.id fun o => { o with st := .queued }
        | .frozen => match (s.cluster (coreCluster core)).recordOf core o.id with
          | some i => s.answer (coreCluster core) i 0
          | none => s
        | _ => s) s) s) s

end Sys2Proof.Machine
end

