-- ==== Sys2Proof/Machine/SaveRestore.lean ====
section
/-! DEFINITION. gsave and grest (R340): the parts of the group whose slot the save or restore routine occupies, stored to and loaded from its save area (07 Table 7). The order of the fields inside the first part is the model's (log 34). -/

namespace Sys2Proof.Machine

open Sys2Proof

/-! ### Group control state as words -/

/-- Two 32-bit words as one of 64. -/
def pack2 (a b : Nat) : DWord := BitVec.ofNat 64 (a % 2 ^ 32 + b % 2 ^ 32 * 2 ^ 32)

/-- The low or high half of a word. -/
def half (x : DWord) (k : Nat) : Nat := x.toNat / 2 ^ (32 * k) % 2 ^ 32

/-- A pending WAIT as nine words; the first is 0 when there is none. -/
def waitWords : Option WaitReq → List DWord
  | none => List.replicate 9 0
  | some w =>
    let reg := match w.d.opnd with
      | .s k => k.toNat
      | _ => 0
    [BitVec.ofNat 64 (1 + (if w.sp then 2 else 0) + (if w.w64 then 4 else 0) + (if w.acq then 8 else 0) + (if w.mark then 16 else 0) +
       w.cmp.toNat * 32 + reg * 256 + w.lanes.toNat * 2 ^ 32),
     w.pc, BitVec.ofNat 64 w.addr, w.ea, w.opnd, w.deadline, BitVec.ofNat 64 w.rcb, BitVec.ofNat 64 w.slotpa, BitVec.ofNat 64 w.d.seq]

/-- The WAIT that nine words hold. -/
def wordsWait (x : Nat → DWord) : Option WaitReq :=
  let f := x 0
  if f.getLsbD 0 then
    let lanes : LaneMask := f.extractLsb' 32 32
    let w64 := f.getLsbD 2
    some { pc := x 1, sp := f.getLsbD 1, addr := (x 2).toNat, ea := x 3, w64 := w64, cmp := f.extractLsb' 5 3, acq := f.getLsbD 3,
           opnd := x 4, deadline := x 5, d := { opnd := .s (f.extractLsb' 8 10), width := if w64 then 64 else 32, lanes := lanes, seq := (x 8).toNat },
           lanes := lanes, rcb := (x 6).toNat, slotpa := (x 7).toNat, mark := f.getLsbD 4 }
  else none

/-- The recorded wake: status + 1 and value; 0 for none. -/
def recWords : Option (Nat × DWord) → List DWord
  | none => [0, 0]
  | some (st, v) => [BitVec.ofNat 64 (st + 1), v]

/-- TRAPINFO as a word. -/
def Group.infoWord (g : Group) : Nat := (if g.inh then 2 ^ 31 else 0) + (if g.sync then 2 ^ 30 else 0) + g.trapClass.toNat

/-- The control part of a group: 91 words of its 1 KiB (07 Table 7, R340), in the order of log 34. -/
def Group.ctlWords (g : Group) : List DWord :=
  g.pc.toList ++ g.trapret.toList ++
  ((List.range 4).map fun i => BitVec.ofNat 64 ((List.range 8).foldr (fun k x =>
    (if h : 8 * i + k < 32 then (g.pw[8 * i + k]).toNat else 0) + 256 * x) 0)) ++
  [pack2 g.exited.toNat g.fstat.toNat, pack2 g.fmode.toNat g.wakewhy.toNat, pack2 g.npdepth g.traplanes.toNat, g.trapvec, g.uivec,
   pack2 g.uimask.toNat g.uipend.toNat, pack2 g.infoWord g.callParked.toNat, g.trapaddr, g.taskrec, g.taskret,
   pack2 (bitsOf 16 fun t => (g.tag t).done) (bitsOf 16 fun t => (g.tag t).psn), pack2 g.ckptcnt.toNat g.grpstate.toNat] ++
  waitWords g.wait ++ recWords g.recWake

/-- The group with the control part that words hold; every fence token is complete (R80). A wake and user interrupts that have reached the group since
it was placed stay (R96, R108). -/
def Group.setCtl (g : Group) (x : Nat → DWord) : Group :=
  let w (k i : Nat) : Nat := half (x (68 + k)) i
  let info : Word := BitVec.ofNat 32 (w 6 0)
  { g with
    pc := Vector.ofFn fun l => x l.val
    trapret := Vector.ofFn fun l => x (32 + l.val)
    pw := Vector.ofFn fun l => BitVec.ofNat 8 ((x (64 + l.val / 8)).toNat / 256 ^ (l.val % 8))
    exited := BitVec.ofNat 32 (w 0 0), fstat := BitVec.ofNat 6 (w 0 1), fmode := BitVec.ofNat 2 (w 1 0), wakewhy := BitVec.ofNat 32 (w 1 1),
    npdepth := w 2 0, traplanes := BitVec.ofNat 32 (w 2 1), trapvec := x 71, uivec := x 72, uimask := BitVec.ofNat 32 (w 5 0),
    uipend := BitVec.ofNat 32 (w 5 1) ||| g.uipend, inh := info.getLsbD 31, sync := info.getLsbD 30, trapClass := info.setWidth 8,
    callParked := BitVec.ofNat 32 (w 6 1), trapaddr := x 75, taskrec := x 76, taskret := x 77,
    tags := ((List.range 16).map fun t => (t, { pend := 0, done := decide (w 10 0 / 2 ^ t % 2 = 1), psn := decide (w 10 1 / 2 ^ t % 2 = 1) })),
    ckptcnt := BitVec.ofNat 32 (w 11 0), grpstate := BitVec.ofNat 32 (w 11 1), ftok := [],
    wait := wordsWait fun k => x (80 + k)
    recWake := match g.recWake with
      | some r => some r
      | none => if x 89 = 0 then none else some ((x 89).toNat - 1, x 90) }

/-! ### The parts -/

/-- A register of 32 lanes as 16 words. -/
def laneWords (v : Lanes Word) : List DWord :=
  (List.range 16).map fun k => if h : 2 * k + 1 < 32 then v[2 * k + 1] ++ v[2 * k] else 0

/-- The register that 16 words hold. -/
def wordsLane (x : Nat → DWord) : Lanes Word := Vector.ofFn fun l => (x (l.val / 2)).extractLsb' (32 * (l.val % 2)) 32

/-- q0 to q7 as words. -/
def qWords (q : SMap (Lanes Word)) : List DWord := (List.range 8).flatMap fun n => laneWords (SMap.get q n (lanesOf 0))

/-- The registers q0 to q7 that words hold. -/
def wordsQ (x : Nat → DWord) : SMap (Lanes Word) := (List.range 8).map fun n => (n, wordsLane fun k => x (16 * n + k))

/-- The words of a part of a saved group (R340). -/
def Group.partWords (g : Group) (part : Nat) : List DWord :=
  match part with
  | 0 => g.ctlWords
  | 1 => match g.trapSave with
    | some k => k.l0.val.toList ++ k.l1.val.toList ++ qWords k.q
    | none => List.replicate 192 0
  | 2 => qWords g.q
  | 3 => (List.range (128 * g.sblk)).map fun k => (SMap.get g.s (2 * k + 1) 0) ++ (SMap.get g.s (2 * k) 0)
  | _ => (List.range (32 * g.vblk)).flatMap fun n => laneWords (SMap.get g.v n (lanesOf 0))

/-- The group with a part that words hold (R340). -/
def Group.setPart (g : Group) (part : Nat) (x : Nat → DWord) : Group :=
  match part with
  | 0 => g.setCtl x
  | 1 =>
    let e (o : Nat) : LEntry := { val := Vector.ofFn fun l => x (o + l.val), valid := ~~~ 0, pend := none, wide := true }
    if g.inh ∧ g.sync then { g with trapSave := some { l0 := e 0, l1 := e 32, q := wordsQ fun k => x (64 + k), batch := 0, count := 0 } } else g
  | 2 => { g with q := wordsQ x }
  | 3 => { g with s := (List.range (256 * g.sblk)).map fun k => (k, (x (k / 2)).extractLsb' (32 * (k % 2)) 32) }
  | _ => { g with v := (List.range (32 * g.vblk)).map fun n => (n, wordsLane fun k => x (16 * n + k)) }

/-- The words of a part. -/
def Group.partSize (g : Group) (part : Nat) : Nat :=
  match part with
  | 0 => 91
  | 1 => 192
  | 2 => 128
  | 3 => 128 * g.sblk
  | _ => 512 * g.vblk

/-- Outside the save or restore routine: ILLEGAL_ENCODING (R340). -/
def routineOnly (c : Ctx) (_ : State) : Option (BitVec 8) := encIf (!c.g.routine)

/-- A SAVE OR RESTORE HELPER: the checks of every word of the part, then its effect with the addresses they gave. -/
def partOp (i : Instr) (r : Right) (eff : Ctx → Group → Nat → (Nat → Nat) → State → State) (s : State) : Out :=
  issue i routineOnly (fun c s =>
    let part := c.e.func.toNat % 8
    let g := SMap.get s.stash c.slot {}
    let n := g.partSize part
    let a := c.ua
    let at_ (k : Nat) : DWord := a + BitVec.ofNat 64 (8 * k)
    let kind := match r with
      | .load => 0
      | _ => 1
    if c.act = 0 then .next (done c s)
    else if a.toNat % 64 ≠ 0 then
      .next (s.raise c.slot .retry { cls := clsAlignment, lanes := c.act, kind := kind, space := 0, addr := a, pc := c.pc })
    else if s.holdAccess c.slot || !(s.allOpen c.slot).isEmpty then .next s
    else
      match copyChks ((List.range n).map fun k => s.checkGlobal c.slot c.priv c.g.asid r 8 8 (at_ k)) with
      | .wait ps => .next (s.admitPages c.cluster c.g.asid (s.descOf c.slot) c.req ps.eraseDups)
      | .fault k sp a nc lv pte =>
        .next ((s.dropX c.cluster c.req).raise c.slot .retry
          { cls := k, lanes := c.act, kind := kind, space := sp, addr := a, noncan := nc, level := lv, pte := pte, pc := c.pc })
      | .ok es =>
        let pa (k : Nat) : Nat := (s.checkGlobal c.slot c.priv c.g.asid r 8 8 (at_ k)).pa
        let places := (List.range n).map fun k => (pa k, 8)
        let go (s : State) : State := done c (eff c g part pa ((s.dropX c.cluster c.req).useTlbs c.core es))
        if r = .load then
          match s.lineReads c.cluster 8 (places.map Prod.fst) with
          | .wait u => .next u
          | .bad k u =>
            .next ((u.dropX c.cluster c.req).raise c.slot .retry
              { cls := k, lanes := c.act, kind := kind, space := 0, pc := c.pc,
                addr := ((List.range n).find? fun j => s.badRead c.cluster (pa j) 8).elim a at_ })
          | .ok u => .next (go u)
        else .next (if s.allFree c.cluster true places then s.sendAll c.cluster places go else s)) s

/-- gsave. -/
def execGsave (f : Enc) (s : State) : Out :=
  partOp (.gsave f) .store (fun _ g part pa s =>
    (g.partWords part).zipIdx.foldl (fun s w => s.unitWrite (pa w.2) (valueBytes w.1.toNat 8) false) s) s

/-- grest. -/
def execGrest (f : Enc) (s : State) : Out :=
  partOp (.grest f) .load (fun c g part pa s =>
    { s with stash := SMap.set s.stash c.slot (g.setPart part fun k => s.seenDword (pa k)) }) s

end Sys2Proof.Machine
end

