-- ==== Sys2Proof/Machine/SaveArea.lean ====
section
/-! DEFINITION. The save area of a team in memory: its header, the signatures of the convergence registers, the pending-call records and the group areas (07 Tables 6 and 7, R174, R176, R177). The layout inside the header is the model's (log 93). -/

namespace Sys2Proof.Machine

open Sys2Proof

/-! ### Places -/

/-- Where the group areas of a team's save area begin (07 Table 6). -/
def Team.groupsAt (t : Team) (area : Nat) : Nat := area + (0x36000 + t.spadSize + 0xFFFF) / 0x10000 * 0x10000

/-- The area of a group (07 Table 7). -/
def Team.groupArea (t : Team) (area i : Nat) : Nat := t.groupsAt area + i * 0xA000

/-- A saved team, by its number. -/
def State.savedTeam (s : State) (id : Nat) : SavedTeam := SMap.get s.saved id {}

/-- Word `k` of a header. VALID is bit 63 of word 0, which only the routine writes; word 1 is the number of the saved team. -/
def State.headerW (s : State) (area k : Nat) : DWord := s.dword (area + 8 * k)

/-- The lanes of the `i`-th group of a register's set in the SIGNED part of the area (07 Table 6). -/
def signedAt (area n i : Nat) : Nat := area + 0x2000 + 0x400 * n + 4 * i

/-- Recorded wake and UIPEND of a saved group as its area holds them (R108, R360; log 34). -/
def State.putSaved (s : State) (t : Team) (area : Nat) (g : Group) : State :=
  let a := t.groupArea area g.gidx
  let s := (recWords g.recWake).zipIdx.foldl (fun s w => s.homeStore (a + 8 * (89 + w.2)) w.1.toNat 8) s
  s.homeStore (a + 8 * 73 + 4) g.uipend.toNat 4

/-- A part of a group stored to its area, as gsave stores it (07 Table 7). -/
def State.putPart (s : State) (a : Nat) (g : Group) (part off : Nat) : State :=
  (g.partWords part).zipIdx.foldl (fun s w => s.homeStore (a + off + 8 * w.2) w.1.toNat 8) s

/-- A group stored to its area (07 Table 7). -/
def State.putGroup (s : State) (a : Nat) (g : Group) : State :=
  [(0, 0), (1, 0x400), (2, 0xA00), (3, 0x1000), (4, 0x2000)].foldl (fun s p => s.putPart a g p.1 p.2) s

/-- Where the tiles of a team core lie in a save area (07 Table 6). -/
def Team.tilesAt (t : Team) (area j : Nat) : Nat :=
  if j = 0 then area + 0x16000 else (t.groupArea area t.ngroups + 0xFFFF) / 0x10000 * 0x10000 + (j - 1) * 0x20000

/-- The recorded wake in the area of a group. -/
def State.areaWake (s : State) (t : Team) (area i : Nat) : Option (Nat × DWord) :=
  let x := s.dword (t.groupArea area i + 8 * 89)
  if x = 0 then none else some (x.toNat - 1, s.dword (t.groupArea area i + 8 * 90))

/-! ### The header -/

/-- STATE of a register as a number. -/
def CvState.num : CvState → Nat
  | .free => 0
  | .open => 1
  | .faulted => 2

/-- The state of a number. -/
def cvStateOf (n : Nat) : CvState := if n = 0 then .free else if n = 1 then .open else .faulted

/-- A convergence register as two words. -/
def CvReg.words (r : CvReg) : List DWord :=
  [BitVec.ofNat 64 (r.st.num + r.members % 2 ^ 14 * 4 + r.groups % 2 ^ 9 * 2 ^ 16 + r.first % 2 ^ 8 * 2 ^ 25 + r.held.length % 2 ^ 16 * 2 ^ 33),
   BitVec.ofNat 64 (r.gen.toNat + r.opgen.toNat * 2 ^ 16 + r.opst % 2 * 2 ^ 32)]

/-- The counters of the tile operations of a core as a word. -/
def TileSeq.word (q : TileSeq) : DWord :=
  BitVec.ofNat 64 (q.issue.toNat + q.done.toNat * 2 ^ 16 + (match q.abn with
    | some a => a.toNat * 2 ^ 32 + 2 ^ 48
    | none => 0))

/-- The counters that a word holds. -/
def tileSeqOf (x : DWord) : TileSeq :=
  { issue := x.setWidth 16, done := x.extractLsb' 16 16, abn := if x.getLsbD 48 then some (x.extractLsb' 32 16) else none }

/-- A named barrier as a word. -/
def NamedBar.word (b : NamedBar) : DWord :=
  BitVec.ofNat 64 (b.count % 2 ^ 9 + b.arrived % 2 ^ 9 * 2 ^ 9 + b.phase.toNat * 2 ^ 18 + b.held.length % 2 ^ 16 * 2 ^ 34)

/-- The split that the first arrival at CARVE asks for, as a word, with bit 63 set; 0 where none has arrived (07 Table 6). A count above 255 stands as 255, which
no team may have either. -/
def Team.carveWord (t : Team) : DWord := match t.carve with
  | [] => 0
  | a :: _ => BitVec.ofNat 64 (2 ^ 63 + min a.2.1 255 + min a.2.2.1 255 * 2 ^ 8 + a.2.2.2 % 2 ^ 32 * 2 ^ 16)

/-- The arrivals at CARVE as a word says: those that ask for the split of the first ask for the word's (R177). -/
def Team.recarve (t : Team) (x : DWord) : List (Nat × (Nat × Nat × Nat)) := match t.carve with
  | [] => []
  | a :: as =>
    if x.getLsbD 63 then (a :: as).map fun b => if b.2 == a.2 then (b.1, (bits x 7 0, bits x 15 8, bits x 47 16)) else b
    else []

/-- Held signs and held arrivals, in the order of the header: the group in bits [39:32], the lanes or the count below. -/
def Team.heldWords (t : Team) : List DWord :=
  let w (i x : Nat) : DWord := BitVec.ofNat 64 (i % 256 * 2 ^ 32 + x % 2 ^ 32)
  (List.range 16).flatMap (fun n => (t.cvReg n).held.map fun x => w x.gidx x.lanes.toNat) ++
  (List.range 16).flatMap fun n => (t.bar n).held.map fun x => w x.gidx x.cnt

/-- The held entries for which the header has room; the model keeps the others (log 93). -/
def heldRoom : Nat := 448

/-- The words of the header from word 1 on (07 Table 6). -/
def State.headerBody (s : State) (t : Team) (id calls : Nat) : List DWord :=
  let la := SMap.get s.launches t.launch {}
  [BitVec.ofNat 64 id, BitVec.ofNat 64 (la.asid % 2 ^ 16 + calls * 2 ^ 16), BitVec.ofNat 64 la.rcb, la.addr,
   BitVec.ofNat 64 (t.cores + t.ngroups * 2 ^ 4 + t.acc * 2 ^ 13 + b2n t.paired 17 + b2n t.contained 18),
   BitVec.ofNat 64 (t.vblk + t.sblk * 2 ^ 8 + t.chunks * 2 ^ 16), t.carveWord] ++
  (List.range 16).flatMap (fun n => (t.cvReg n).words) ++ (List.range 8).map (fun j => (t.tileSeq j).word) ++
  (List.range 16).map (fun n => (t.bar n).word) ++ t.heldWords.take heldRoom

/-- The header and the signatures stored to the area of a saved team (R176). -/
def State.putHeader (s : State) (t : Team) (area id calls : Nat) : State :=
  let s := (s.headerBody t id calls).zipIdx.foldl (fun s w => s.homeStore (area + 8 + 8 * w.2) w.1.toNat 8) s
  (List.range 16).foldl (fun s n =>
    let r := t.cvReg n
    (List.range r.groups).foldl (fun s i => s.homeStore (signedAt area n i) (r.signedOf (r.first + i)).toNat 4) s) s

/-- A TEAM STORED to an area (07 Table 6): header and signatures, groups, scratchpad image, tiles; VALID last. -/
def State.putTeam (s : State) (area : Nat) (v : SavedTeam) : State :=
  let t := v.team
  let s := s.putHeader t area (2 ^ 63) 0
  let s := v.groups.foldl (fun s g => s.putGroup (t.groupArea area g.1) g.2) s
  let s := (List.range (t.spadSize / 8)).foldl (fun s k => s.homeStore (area + 0x36000 + 8 * k) (t.spadRead (8 * k) 8) 8) s
  let s := v.tiles.foldl (fun s j =>
    (List.range (t.acc * 4096)).foldl (fun s e => s.homeStore (t.tilesAt area j.1 + 4 * e) (SMap.get j.2 e 0).toNat 4) s) s
  s.homeStore area (2 ^ 63) 8

/-! ### The header read back -/

/-- Entry `i` of the held entries of a header. -/
def State.heldW (s : State) (area i : Nat) : DWord := s.headerW area (64 + i)

/-- The number of held entries of the registers and barriers before number `k`: registers are 0 to 15, barriers 16 to 31. -/
def State.heldBase (s : State) (area k : Nat) : Nat :=
  ((List.range k).map fun j =>
    if j < 16 then bits (s.headerW area (8 + 2 * j)) 48 33 else bits (s.headerW area (48 + (j - 16))) 49 34).sum

/-- The signs of a register, as the SIGNED part of an area has them: what the model keeps of a sign goes with its lanes (R177). -/
def State.resigned (s : State) (area n : Nat) (old : List Sign) (first groups : Nat) : List Sign :=
  let m (i : Nat) : LaneMask := BitVec.ofNat 32 (Memory.read s.mem (signedAt area n i) 4)
  let kept := (old.map fun x => { x with lanes := x.lanes &&& (if first ≤ x.gidx ∧ x.gidx < first + groups then m (x.gidx - first) else 0),
                                         after := [], cycle := s.cycle }).filter fun x => x.lanes != 0
  kept ++ ((List.range groups).map fun i =>
    { gidx := first + i, lanes := m i &&& ~~~ signLanes old (first + i), cycle := s.cycle }).filter fun x => x.lanes != 0

/-- A convergence register loaded from an area (R177). -/
def State.readCv (s : State) (area n : Nat) (old : CvReg) : CvReg :=
  let w := s.headerW area (8 + 2 * n)
  let v := s.headerW area (9 + 2 * n)
  let b := s.heldBase area n
  let hold (i : Nat) : Sign :=
    let x := old.held.getD i { gidx := 0, lanes := 0 }
    if b + i < heldRoom then { x with gidx := bits (s.heldW area (b + i)) 39 32, lanes := (s.heldW area (b + i)).setWidth 32, after := [] }
    else { x with after := [] }
  { old with
    st := cvStateOf (bits w 1 0), members := bits w 15 2, groups := bits w 24 16, first := bits w 32 25, gen := v.setWidth 16,
    opgen := v.extractLsb' 16 16, opst := bits v 32 32, held := (List.range (bits w 48 33)).map hold,
    signs := s.resigned area n old.signs (bits w 32 25) (bits w 24 16), doneAt := none, setAt := none }

/-- A named barrier loaded from an area. -/
def State.readBar (s : State) (area n : Nat) (old : NamedBar) : NamedBar :=
  let w := s.headerW area (48 + n)
  let b := s.heldBase area (16 + n)
  let hold (i : Nat) : BarArr :=
    let x := old.held.getD i { gidx := 0, cnt := 0 }
    if b + i < heldRoom then { gidx := bits (s.heldW area (b + i)) 39 32, cnt := bits (s.heldW area (b + i)) 31 0 } else { x with after := [] }
  { old with
    count := bits w 8 0, arrived := bits w 17 9, phase := w.extractLsb' 18 16, held := (List.range (bits w 49 34)).map hold, after := [],
    closing := old.closing.map fun c => (c.1, []) }

/-- A team as the header of its area says; what the header does not hold is the model's own (R177, log 93). -/
def State.readHeader (s : State) (area : Nat) (t : Team) : Team :=
  let h (k : Nat) : DWord := s.headerW area k
  { t with
    area := area, cores := bits (h 5) 3 0, ngroups := bits (h 5) 12 4, acc := bits (h 5) 16 13, paired := (h 5).getLsbD 17, contained := (h 5).getLsbD 18,
    vblk := bits (h 6) 7 0, sblk := bits (h 6) 15 8, chunks := bits (h 6) 31 16, carve := t.recarve (h 7)
    cv := (List.range 16).map fun n => (n, s.readCv area n (t.cvReg n))
    tseq := (List.range 8).map fun j => (j, { tileSeqOf (h (40 + j)) with early := (t.tileSeq j).early })
    bars := (List.range 16).map fun n => (n, s.readBar area n (t.bar n)) }

/-- The saved team that an area holds: VALID and the number are in its header, and all of it is saved. -/
def State.areaTeam (s : State) (area : Nat) : Option (Nat × SavedTeam) :=
  let id := (s.headerW area 1).toNat
  if (s.headerW area 0).getLsbD 63 then ((SMap.find s.saved id).filter fun v => v.valid && v.want.isNone).map fun v => (id, v) else none

/-- A saved team as its area has it when its restore is submitted: the header, and of each group its address space, its region and its recorded
wake (R108, R177). -/
def State.readArea (s : State) (area : Nat) (v : SavedTeam) : SavedTeam :=
  let t := s.readHeader area v.team
  { v with
    team := t
    groups := v.groups.map fun (g : Nat × Group) =>
      (g.1, { g.2 with asid := bits (s.headerW area 2) 15 0, rcb := (s.headerW area 3).toNat, recWake := s.areaWake t area g.1 }) }

/-- The words of pending-call record `r` (07 Table 6). -/
def State.callRecord (s : State) (area r : Nat) : List DWord := (List.range 264).map fun k => s.dword (area + 0x6000 + 0x840 * r + 8 * k)

/-- The calls of a saved team with the records that its area holds now (R356). -/
def State.areaCalls (s : State) (v : SavedTeam) : List (Call × List DWord) :=
  let a := v.team.area
  (((v.calls.filter fun x => !x.2.isEmpty).zipIdx.filter fun x => decide (x.2 < bits (s.headerW a 2) 20 16)).map fun x => (x.1.1, s.callRecord a x.2)) ++
    v.calls.filter fun x => x.2.isEmpty

end Sys2Proof.Machine
end

