-- ==== Sys2Proof/Machine/Tasks.lean ====
section
/-! DEFINITION. Tasks, dependence counters and launches as instructions (R315 to R325, R328), and the dispatch of a ready task (R173, R325). -/

namespace Sys2Proof.Machine

open Sys2Proof

/-- TASK_DISPATCH (R325): the task leaves the queue; the group's D, TASKREC and TASKRET are written and its lanes stand at ENTRY. -/
def State.giveTask (s : State) (slot : Nat) (t : Task) (d : Dest) (ret : DWord) : State :=
  let s := s.updGroup slot fun g =>
    { s.starts (g.writeDest d (uniform t.addr)) with
      taskrec := t.addr, taskret := ret, task := some t, pc := lanesOf t.entry
      lvq := (g.writeDest d (uniform t.addr)).lvq.map fun (e : LvqEntry) => if e.seq = d.seq then { e with task := some (t, ret) } else e }
  s.acquireInval (slotCore slot)

/-- The groups of a cluster blocked in tget for a region, longest blocked first: slot, destination, since. -/
def State.serving (s : State) (cl rcb : Nat) : List (Nat × Dest × Nat) :=
  (s.groups.filter fun p => slotCluster p.1 == cl && p.2.rcb == rcb && p.2.st == .blocked).filterMap fun p =>
    p.2.blocks.findSome? fun b => match b with
      | .tget d since => some (p.1, d, since)
      | _ => none

/-- The entry of a list with the least time. -/
def longest (l : List (Nat × Dest × Nat)) : Option (Nat × Dest × Nat) :=
  l.foldl (fun o x => match o with
    | some y => if x.2.2 < y.2.2 then some x else some y
    | none => some x) none

/-- A ready task of a region may be taken: its spawner's earlier stores are performed, and it arrived before cycle `now`, so that all that arrive in one cycle
are taken in their order, at its end (R319, R321, R407). -/
def State.takeable (s : State) (rcb now : Nat) (t : Task) : Bool := t.rcb == rcb && s.accsDone t.after && decide (t.since < now)

/-- Ready tasks of a cluster dispatched to groups that wait for them (R173, R325). -/
def State.dispatch (cl rcb now : Nat) : Nat → State → State
  | 0, s => s
  | n + 1, s =>
    let c := s.cluster cl
    match firstTask (s.takeable rcb now) c.ready, longest (s.serving cl rcb) with
    | some t, some (slot, d, since) =>
      let s := s.setCluster cl { c with ready := c.ready.erase t }
      let s := s.giveTask slot t d (s.group slot).batchPc
      State.dispatch cl rcb now n (s.unblock slot (.tget d since) 0)
    | _, _ => s

/-- Every ready task that a waiting group of its region can take is dispatched: at the end of the cycle of its arrival, as the stores that its maker released are
performed, and as a group comes to wait (R164, R173, R319, R325). -/
def State.dispatchAll (s : State) (now : Nat) : State :=
  s.clusters.foldl (fun s c => (c.2.ready.map fun t => t.rcb).eraseDups.foldl (fun s r => State.dispatch c.1 r now c.2.ready.length s) s) s

/-- A task made ready; groups that wait take it at the end of the cycle (R319, R325, R407). -/
def State.ready (s : State) (agent : Nat) (t : Task) : State := (s.makeReady agent t).dispatchAll s.cycle

/-- The words that a task or launch instruction reads, once its address has been checked and its own earlier stores are performed. -/
inductive RecRead
  | ok (words : List DWord) (s : State)
  | wait (s : State)
  | fault (f : FaultInfo) (s : State)

/-- A RECORD READ by an instruction: translation with the rights of a load, KIND 0 (R315); its line is read at its home (R148), or beyond the package
(R24). -/
def Ctx.readRec (c : Ctx) (s : State) (a : DWord) (n : Nat) : RecRead :=
  let chk (_ : Lane) : LaneChk := s.checkGlobal c.slot c.priv c.g.asid .load (8 * n) 8 a
  match lanePages c.act chk with
  | p :: ps => .wait (s.admitPages c.cluster c.g.asid (s.descOf c.slot) c.req (p :: ps))
  | [] =>
    match laneFault 0 c.pc c.act chk with
    | some f => .fault f (s.dropX c.cluster c.req)
    | none =>
      let pa := (chk c.low).pa
      if s.holdAccess c.slot || !(s.touching c.slot .global pa (8 * n)).isEmpty then .wait s
      else
        let used (s : State) : State := (s.dropX c.cluster c.req).useTlbs c.core (laneEntries c.act chk)
        match s.lineRead c.cluster pa (8 * n) with
        | .wait s => .wait s
        | .bad k s => .fault { cls := k, lanes := c.act, kind := 0, space := 0, addr := a, pc := c.pc } (used s)
        | .ok s => .ok ((List.range n).map fun k => s.seenDword (pa + 8 * k)) (used (if pRange pa == .hbm then s else s.bump))

/-- Status of a task record: 0, BADREC or REGION (R315, R316, R165). -/
def State.taskStatus (s : State) (rcb : Nat) (w : List DWord) : Nat :=
  let x (k : Nat) : DWord := w.getD k 0
  if bits (x 0) 63 55 ≠ 0 ∨ bits (x 0) 1 0 ≠ 0 ∨ bits (x 2) 63 52 ≠ 0 ∨ bits (x 4) 63 40 ≠ 0 ∨ bits (x 5) 1 0 ≠ 0 then 6
  else if bits (x 4) 31 0 ≠ bits (s.rcbW rcb 0) 63 32 ∨ !s.rcbValid rcb then 7
  else 0

/-- The captured fields of a record (R316). -/
def Ctx.captureTask (c : Ctx) (s : State) (addr : DWord) (w : List DWord) (spawned : Bool) : Task :=
  let x (k : Nat) : DWord := w.getD k 0
  { addr := addr, entry := x 0, prio := Sys2Proof.Machine.bits (x 2) 51 48, succA := (x 3).setWidth 32, succB := (x 3).extractLsb' 32 32, rcb := c.g.rcb,
    asid := c.g.asid, cwaddr := x 5, since := s.cycle, spawned := spawned, rank := c.slot, after := s.allOpen c.slot }

/-- A status as the result of a task or launch instruction. -/
def statusOut (c : Ctx) (n : Nat) (s : State) : Out := .next (result c false (uniform (BitVec.ofNat 64 n)) noFlags s)

/-- tspawn (R321). -/
def execTspawn (f : Enc) (s : State) : Out :=
  issue (.tspawn f) noOwn (fun c s =>
    if c.act = 0 then statusOut c 0 s
    else if c.ua.toNat % 64 ≠ 0 then statusOut c 6 s
    else
      match c.readRec s c.ua 8 with
      | .wait s => .next s
      | .fault fi s => .next (s.raise c.slot .retry fi)
      | .ok w s =>
        match s.taskStatus c.g.rcb w with
        | 0 =>
          if s.room useTask c.g.rcb then
            statusOut c 0 ((s.charge useTask c.g.rcb 1).ready c.cluster (c.captureTask s c.ua w true))
          else statusOut c 3 s
        | n => statusOut c n s) s

/-- A record of a counter index (R317). -/
def Ctx.counterFault (c : Ctx) (i : DWord) (m : LaneMask) : FaultInfo :=
  { cls := clsProtection, lanes := m, kind := 7, space := 3, addr := i, pc := c.pc }

/-- A task that a tarm.clr does not use. -/
def Ctx.noTask (c : Ctx) (s : State) : Task := c.captureTask s 0 [] false

/-- tarm: the arm goes to the counter's home, which gives the status (R318, R322). -/
def execTarm (f : Enc) (s : State) : Out :=
  issue (.tarm f) noOwn (fun c s =>
    let clr := c.e.func.getLsbD 0
    let i := c.ua.toNat % 2 ^ 32
    if c.act = 0 then statusOut c 0 s
    else if s.ctrn c.g.rcb ≤ i then .next (s.raise c.slot .retry (c.counterFault c.ua c.act))
    else
      let send (t : Task) (s : State) : Out :=
        let (id, s) := s.fresh
        let p : PendArm :=
          { slot := c.slot, uid := c.g.uid, rcb := c.g.rcb, idx := i, init := ((c.ub.setWidth 32 : Word)).toInt, task := { t with spawned := false, rank := i },
            clr := clr, dest := c.dest, pc := c.pc, after := s.allOpen c.slot }
        .next (retire c (c.pending id) c.nextPcs { s with arms := SMap.set s.arms id p })
      if clr then send (c.noTask s) s
      else if c.uc.toNat % 64 ≠ 0 then statusOut c 6 s
      else
        match c.readRec s c.uc 8 with
        | .wait s => .next s
        | .fault fi s => .next (s.raise c.slot .retry fi)
        | .ok w s =>
          match s.taskStatus c.g.rcb w with
          | 0 => send (c.captureTask s c.uc w false) s
          | n => statusOut c n s) s

/-- Decrements of one counter sent to its home (R323). -/
def State.sendDec (s : State) (c : Ctx) (i : Nat) (m : LaneMask) (once : Bool) (after : List Nat) : State :=
  let (id, s) := s.fresh
  let d : PendDec :=
    { slot := c.slot, uid := c.g.uid, rcb := c.g.rcb, idx := i, lanes := m, pc := c.pc, aux := c.g.taskrec.setWidth 32, copy := false,
      once := once, after := after, waits := true }
  { s with decs := SMap.set s.decs id d }

/-- tdec: lanes that name one counter are merged (R323). -/
def execTdec (f : Enc) (s : State) : Out :=
  issue (.tdec f) noOwn (fun c s =>
    let i (l : Lane) : Nat := (c.a .int l).toNat % 2 ^ 32
    let bad := maskOf fun l => laneIn c.act l && decide (s.ctrn c.g.rcb ≤ i l)
    if c.act = 0 then .next (done c s)
    else if bad ≠ 0 then .next (s.raise c.slot .retry (c.counterFault (BitVec.ofNat 64 (i (lowLane bad))) bad))
    else
      let ks := ((lanesIn c.act).map i).eraseDups
      let after := s.allOpen c.slot
      .next (done c (ks.foldl (fun s k => s.sendDec c k (maskOf fun l => laneIn c.act l && i l == k) false after) s))) s

/-- The batch holds every non-exited lane, and a task is current (R324). -/
def tdoneOwn (c : Ctx) (_ : State) : Option (BitVec 8) :=
  encIf (c.g.batch != ~~~ c.g.exited || c.g.taskrec == 0)

/-- The successors that a task names. -/
def Task.succs (t : Task) : List Nat := [t.succA.toNat, t.succB.toNat].filter (· != 0xFFFFFFFF)

/-- tdone (R324). -/
def execTdone (f : Enc) (s : State) : Out :=
  issue (.tdone f) tdoneOwn (fun c s =>
    let t := c.g.task.getD (c.noTask s)
    let cw := t.cwaddr
    let chk (_ : Lane) : LaneChk := if cw = 0 then .ok 0 none else s.checkGlobal c.slot c.priv c.g.asid .store 4 4 cw
    match t.succs.find? (s.ctrn c.g.rcb ≤ ·) with
    | some i => .next (s.raise c.slot .retry (c.counterFault (BitVec.ofNat 64 i) c.act))
    | none =>
      c.checked 1 c.act chk 1 (fun s =>
        let low := maskOf fun l => l == c.low
        let s :=
          if cw = 0 then s
          else
            let a := c.access s .global .store (piecesOf low 4 fun l => (chk l).pa) (fun _ => cw)
            (s.sendAccess { a with lanes := low, ord := 2, bits := 32, data := lanesOf (c.ua.setWidth 128), waits := true,
                                   after := s.allOpen c.slot }).2
        let after := s.allOpen c.slot
        let s := t.succs.foldl (fun s i => s.sendDec c i c.act true after) s
        let s := s.charge useTask c.g.rcb (-1)
        let s := s.updGroup c.slot fun g => { g with taskrec := 0, task := none }
        .next (retire c LEntry.undef (lanesOf c.g.taskret) s)) s) s

/-- tlaunch (R328). -/
def execTlaunch (f : Enc) (s : State) : Out :=
  issue (.tlaunch f) noOwn (fun c s =>
    if c.act = 0 then statusOut c 0 s
    else if c.ua.toNat % 128 ≠ 0 then statusOut c 6 s
    else
      match c.readRec s c.ua 16 with
      | .wait s => .next s
      | .fault fi s => .next (s.raise c.slot .retry fi)
      | .ok w s =>
        let depth := (SMap.get s.launches (s.team c.g.team).launch {}).depth + 1
        match s.submitStatus w (some (c.g.rcb, s.descOf c.slot)) depth with
        | 0 => statusOut c 0 (s.enqueueLaunch w c.ua depth c.g.rcb (s.descOf c.slot) c.cluster false (s.allOpen c.slot))
        | n => statusOut c n s) s

/-- The batch holds all 32 lanes (R325). -/
def tgetOwn (c : Ctx) (_ : State) : Option (BitVec 8) := encIf (c.g.batch != ~~~ 0)

/-- tget: the first ready task of the region on the cluster, or the group blocks (R173, R325). -/
def execTget (f : Enc) (s : State) : Out :=
  issue (.tget f) tgetOwn (fun c s =>
    let k := s.cluster c.cluster
    match firstTask (s.takeable c.g.rcb s.cycle) k.ready with
    | some t =>
      let s := s.setCluster c.cluster { k with ready := k.ready.erase t }
      let ret := c.pc + BitVec.ofNat 64 c.len
      .next (retire c (c.entry (uniform t.addr)) (lanesOf t.entry) (s.giveTask c.slot t c.dest ret))
    | none => .next (done c (s.block c.slot (.tget c.dest s.cycle)))) s

end Sys2Proof.Machine
end

