-- ==== Sys2Proof/Machine/System.lean ====
section
/-! DEFINITION. Calls, traps, user interrupts, no-preempt sections, grow, carve, ckpt and tstampr as instructions (R175, R178, R179, R329 to R339). -/

namespace Sys2Proof.Machine

open Sys2Proof

/-! ### Calls -/

/-- scall: the active lanes are call-parked and their call waits for a slot of the call page; the run ends (R329, R346). A group of a pair
waits for all its lanes together. -/
def execScall (f : Enc) (s : State) : Out :=
  issue (.scall f) noOwn (fun c s =>
    if c.act = 0 then .next (done c.ending s)
    else
      let arg (k : Nat) : Lanes Word := Vector.ofFn fun l => c.g.word c.rc.ctr (8 + k) l
      let pair := (s.team c.g.team).paired
      let call : Call :=
        { slot := c.slot, uid := c.g.uid, lanes := c.act, left := c.act, all := c.e.func.getLsbD 0 || pair, pc := c.pc,
          args := (List.range 7).map fun k => (k, arg k), after := s.allOpen c.slot }
      let k := s.cluster c.cluster
      let s := s.setCluster c.cluster { k with callWait := k.callWait ++ [call] }
      let s := s.updGroup c.slot fun g => { g with callParked := g.callParked ||| c.act }
      let all := (c.g.exited ||| c.g.callParked ||| c.act) == ~~~ 0
      .next (done c.ending (if all || pair then s.block c.slot .scall else s))) s

/-! ### Traps -/

/-- A TRAP: precise, with the code as ADDR; ACT 0 goes on at the next instruction (R330). -/
def trapOp (i : Instr) (cls : BitVec 8) (s : State) : Out :=
  issue i noOwn (fun c s =>
    if c.act = 0 then .next (done c s)
    else
      let s := s.raise c.slot (.skip c.len)
        { cls := cls, lanes := c.act, kind := 7, space := 3, addr := (c.ua.setWidth 32 : Word).setWidth 64, pc := c.pc }
      .next (if c.e.sw then s.updGroup c.slot fun g => { g with midRun := none } else s)) s

/-- trap. -/
def execTrap (f : Enc) (s : State) : Out := trapOp (.trap f) clsTrap s
/-- bkpt. -/
def execBkpt (f : Enc) (s : State) : Out := trapOp (.bkpt f) clsBreakpoint s

/-- uiret outside a handler, or from a batch with a lane that is not in it (R332). -/
def uiretOwn (c : Ctx) (_ : State) : Option (BitVec 8) := encIf (!c.g.inh || (c.g.batch &&& ~~~ c.g.traplanes) != 0)

/-- uiret: the lanes of the batch return, unless the target of one is misaligned (R215); the last one brings back what a synchronous
delivery saved (R332). -/
def execUiret (f : Enc) (s : State) : Out :=
  issue (.uiret f) uiretOwn (fun c s =>
    let bad := maskOf fun l => laneIn c.act l && misaligned c.g.trapret[l]
    if bad ≠ 0 then
      .next (s.raise c.slot .retry
        { cls := clsAlignment, lanes := bad, kind := 4, space := 0, addr := c.g.trapret[lowLane bad], pc := c.pc })
    else
    let s := retire c LEntry.undef c.g.trapret (s.updGroup c.slot fun g => g.leaveTrap c.g.batch)
    match (s.group c.slot).midRun with
    | some k =>
      if c.e.sw then .next s
      else
        let p := s.part (slotPart c.slot)
        .next ((s.setPart (slotPart c.slot) { p with l0 := k.l0, l1 := k.l1 }).updGroup c.slot fun g => { g with midRun := none })
    | none => .next s) s

/-- uimask: .wr, .set, .clr; D receives the old mask (R333). -/
def execUimask (f : Enc) (s : State) : Out :=
  issue (.uimask f) noOwn (fun c s =>
    let a : Word := c.ua.setWidth 32
    let s := if c.act = 0 then s else s.updGroup c.slot fun g =>
      { g with uimask := match c.e.func.toNat % 4 with
          | 0 => a
          | 1 => g.uimask ||| a
          | _ => g.uimask &&& ~~~ a }
    .next (result c false (uniform (c.g.uimask.setWidth 64)) noFlags s)) s

/-! ### No-preempt sections -/

/-- Every open section of a group closed. -/
def Group.npClose (g : Group) : Group := { g with npdepth := 0, npover := false }

/-- npbegin (R175). -/
def execNpbegin (f : Enc) (s : State) : Out :=
  issue (.npbegin f) noOwn (fun c s =>
    if c.act = 0 then .next (done c s)
    else if c.g.npdepth < 15 then
      .next (done c (s.updGroup c.slot fun g =>
        { g with npdepth := g.npdepth + 1, npsince := if g.npdepth = 0 then s.cycle else g.npsince }))
    else
      .next ((s.updGroup c.slot Group.npClose).raise c.slot (.skip c.len) { cls := clsNpOverrun, lanes := c.act, pc := c.pc })) s

/-- A section of the group has been open for the effective NPMAX cycles (R175). -/
def Group.npLate (g : Group) (cycle : Nat) : Bool := decide (0 < g.npdepth) && decide (g.npLimit ≤ cycle - g.npsince)

/-- npend (R175): an overrun that is due stays due, whether its time has been noticed or not. -/
def execNpend (f : Enc) (s : State) : Out :=
  groupLevel (.npend f) noOwn (fun c s => s.updGroup c.slot fun g =>
    { g with npdepth := g.npdepth - 1, npover := g.npover || g.npLate s.cycle }) s

/-! ### GROW and CARVE -/

/-- The scalar blocks of a team on a core that groups hold. -/
def State.heldSids (s : State) (t : Team) (core : Nat) : List Nat := (s.teamOn t core).flatMap fun g => g.sids

/-- The lowest blocks that are not held. -/
def freeSids (held : List Nat) (n : Nat) : List Nat := ((List.range (held.length + n)).filter fun i => !held.contains i).take n

/-- A group with more blocks (R179); L1 loses their chunks (R36). -/
def State.growGroup (s : State) (slot v q : Nat) : State :=
  let g := s.group slot
  let ids := freeSids (s.heldSids (s.team g.team) (slotCore slot)) q
  (s.setGroup slot { g with vblk := g.vblk + v, sblk := g.sblk + q, sids := g.sids ++ ids }).trimL1 (slotCore slot)

/-- The request fits beside the 16 chunks that stay L1. -/
def State.growFits (s : State) (slot v q : Nat) : Bool := decide ((s.growGroup slot v q).usedChunks (slotCore slot) ≤ 240)

/-- The request can never be met (R179). -/
def State.growNever (s : State) (slot v q : Nat) : Bool :=
  let g := s.group slot
  let t := s.team g.team
  let mine := t.chunks + groupChunks (s.teamOn t (slotCore slot))
  decide (8 < g.vblk + v ∨ 4 < g.sblk + q ∨ 240 - mine < (s.growGroup slot v q).usedChunks (slotCore slot) - s.usedChunks (slotCore slot))

/-- grow (R336). -/
def execGrow (f : Enc) (s : State) : Out :=
  issue (.grow f) noOwn (fun c s =>
    let v := c.ua.toNat % 2 ^ 32
    let q := c.ub.toNat % 2 ^ 32
    if c.act = 0 then statusOut c 0 s
    else if s.growNever c.slot v q then statusOut c 1 s
    else if s.growFits c.slot v q then statusOut c 0 (s.growGroup c.slot v q)
    else .next (done c (s.block c.slot (.grow v q c.dest s.cycle)))) s

/-- A group with its new blocks; registers beyond them are lost (R178). -/
def Group.recut (g : Group) (k v q : Nat) : Group :=
  { g with
    vblk := v, sblk := q, sids := (List.range q).map (k * q + ·)
    v := g.v.filter fun r => decide (r.1 < 32 * v)
    s := g.s.filter fun r => decide (r.1 < 256 * q) }

/-- A CARVE applied to a team (R178); L1 loses the chunks that it takes (R36). -/
def State.carveTeam (s : State) (tm v q bytes : Nat) : State :=
  let t := s.team tm
  let chunks := (bytes + 4096 * t.cores - 1) / (4096 * t.cores)
  let size := chunks * 4096 * t.cores
  let s := s.setTeam tm { t with
    vblk := v, sblk := q, chunks := chunks
    spad := t.spad.filter fun b => decide (b.1 < size)
    spadPsn := t.spadPsn.filter fun w => decide (w < size) }
  let s := t.slots.foldl (fun s p => if (s.prog p.2).gone then s else s.updProg p.2 fun g => g.recut (g.gidx / t.cores) v q) s
  (List.range t.cores).foldl (fun s j => s.trimL1 (t.core + j)) s

/-- The split is one that a team may have, and every core has room for it (R178). -/
def State.carveFits (s : State) (tm v q bytes : Nat) : Bool :=
  let t := s.team tm
  decide (1 ≤ v ∧ v ≤ 8 ∧ q ≤ 4 ∧ bytes ≤ 2 ^ 22 ∧ (bytes + 4096 * t.cores - 1) / (4096 * t.cores) ≤ 192 ∧
    t.cores * ((bytes + 4096 * t.cores - 1) / (4096 * t.cores)) ≤ 1024) &&
  (List.range t.cores).all fun j => decide ((s.carveTeam tm v q bytes).usedChunks (t.core + j) ≤ 240)

/-- The CARVE barrier completes when every non-exited group has arrived, its accesses are performed, and no copy or matrix operation of
the team is under way (R178); differing requests are denied. -/
def State.carveTest (s : State) (tm : Nat) : State :=
  let t := s.team tm
  match t.carve with
  | [] => s
  | a :: as =>
    if (s.liveGroups tm).all (fun g => t.carve.any fun x => x.1 == g) && s.accsDone t.carveAfter && !s.retireHeld tm then
      let same := as.all fun b => b.2 == a.2
      let (v, q, bytes) := a.2
      let ok := same && s.carveFits tm v q bytes
      let s := if ok then s.carveTeam tm v q bytes else s
      let s := s.updTeam tm fun t => { t with carve := [], carveAfter := [] }
      t.slots.foldl (fun s p =>
        (s.parked p.2).foldl (fun s b => match b with
          | .carve d => (s.putUniform p.2 b d (if ok then 0 else 1)).unblock p.2 b 0
          | _ => s) s) s
    else s

/-- The barriers of a team tested again. -/
def State.poll (s : State) (tm : Nat) : State := ((s.pollTeam tm).carveTest tm).dispatchAll s.cycle

/-- carve (R337). -/
def execCarve (f : Enc) (s : State) : Out :=
  issue (.carve f) noOwn (fun c s =>
    if c.act = 0 then statusOut c 0 s
    else
      let w (x : DWord) : Nat := x.toNat % 2 ^ 32
      let after := s.spadOpen c.slot
      let s := s.updTeam c.g.team fun t =>
        { t with carve := t.carve ++ [(c.g.gidx, (w c.ua, w c.ub, w c.uc))], carveAfter := t.carveAfter ++ after }
      let s := s.block c.slot (.carve c.dest)
      .next (done c s)) s

/-! ### Checkpoints and time -/

/-- ckpt: in a paired launch the group parks until the pair has matched (R338); otherwise nothing. -/
def execCkpt (f : Enc) (s : State) : Out :=
  groupLevel (.ckpt f) noOwn (fun c s =>
    if (s.team c.g.team).paired then (s.block c.slot .ckpt).updTeam (s.leadTeam c.g) fun t => { t with wantCkpt := true } else s) s

/-- tstampr: TSTAMP, or with S the time when the group's earlier accesses are performed (R339); token 16 stands for the wait. -/
def execTstampr (f : Enc) (s : State) : Out :=
  issue (.tstampr f) noOwn (fun c s =>
    if c.act = 0 || !c.e.func.getLsbD 0 then .next (result c false (uniform s.tstamp) noFlags s)
    else .next (done c ((s.takeToken c.slot 16 0).block c.slot (.tstamp c.dest)))) s

end Sys2Proof.Machine
end

