-- ==== Sys2Proof/Machine/Routine.lean ====
section
/-! DEFINITION. The end of a WAIT (R97, R291), and the save and restore routines of a pre-empted team: their start in a slot, their end, and the saved team (R87, R107, R108, R176, R177, R356, R359). -/

namespace Sys2Proof.Machine

open Sys2Proof

/-! ### The end of a WAIT -/

/-- The destination of the status of a WAIT: the s register after those of the value (R290). -/
def WaitReq.statusDest (w : WaitReq) : Dest :=
  { w.d with opnd := (match w.d.opnd with
      | .s k => .s (k + BitVec.ofNat 10 (w.d.width / 32))
      | o => o), width := 32 }

/-- A status that comes with a value (04 Table 3). -/
def statusHasValue (st : Nat) : Bool := st == 0 || st == 1 || st == 2 || st == 5

/-- The registers that a reply to a WAIT writes (R97). -/
def Group.putWait (g : Group) (w : WaitReq) (st : Nat) (v : DWord) : Group :=
  let g := if statusHasValue st then g.writeDest w.d (uniform v) else g
  { (g.writeDest w.statusDest (uniform (BitVec.ofNat 64 st))) with wait := none }

/-- The status that a recorded wake gives for a POISON reply; the spec gives such a reply no code. -/
def stPoison : Nat := 8

/-- The fault of a WAIT on a poisoned word (R54, R412). -/
def WaitReq.fault (w : WaitReq) (cls : BitVec 8) : LateFault :=
  { cls := cls, kind := 3, space := if w.sp then 1 else 0, addr := w.ea, pc := w.pc, lanes := w.lanes, aux := 0, mode := .rewait }

/-- THE REPLY TO A WAIT reaches the group in a slot: registers, the acquire, and the wake (R291); a POISON reply is raised (R412). -/
def State.endWait (s : State) (slot : Nat) (st : Nat) (v : DWord) : State :=
  let g := s.group slot
  match g.wait with
  | none => s
  | some w =>
    if st = stPoison then
      (s.updGroup slot fun g => { g with blocks := g.blocks.erase .wait }).lateFault slot
        (w.fault (if w.sp then clsPoison else if (SMap.get s.lines (w.addr / 128) {}).pcause = 1 then clsQ4x else clsPoison))
    else
      let s := s.updGroup slot fun g => g.putWait w st v
      let s := if w.acq && st == 0 then s.acquireInval (slotCore slot) else s
      s.unblock slot .wait (if st = 1 then 4 else 1)

/-! ### The start of a routine -/

/-- The group that runs a routine in a slot: the partition's routine register file, ASID 0, and what the special registers of R249 show. -/
def routineGroup (uid : Nat) (g : Group) (p : Part) (pc : DWord) (area : Nat) (now : Nat) : Group :=
  { st := .ready, team := g.team, gidx := g.gidx, uid := uid, vblk := g.vblk, sblk := g.sblk, sids := g.sids, v := p.rv, s := p.rs,
    pc := lanesOf pc, savearea := BitVec.ofNat 64 area, grpstate := g.exited, ctx := g.ctx, asid := 0, rcb := g.rcb, routine := true,
    readySince := now, restoring := g.restoring }

/-- The area of a team's pre-emption. -/
def Team.preArea (t : Team) : Nat :=
  match t.pre with
  | .wanted a => a.toNat
  | .saving a _ => a.toNat
  | .none_ => t.area

/-- A WAIT whose check has not been made. -/
def State.waitInFlight (s : State) (slot : Nat) : Bool := s.waits.contains (slot, (s.group slot).uid)

/-- Every group of a team has taken the pre-emption, so that none can open a section any more (R174). -/
def State.allTaken (s : State) (tm : Nat) : Bool :=
  (s.team tm).slots.all fun p => (s.team tm).saved.contains p.1 || (s.prog p.2).st == .saving

/-- A slot in SAVING may start its routine: its partition's routine register file is free (R176); for a save, every group of the team has taken the
pre-emption (R174). -/
def State.routineDue (s : State) (slot : Nat) : Bool :=
  let g := s.group slot
  g.st == .saving && (SMap.find s.stash slot).isNone && (s.part (slotPart slot)).owner.isNone && !s.waitInFlight slot && !(s.team g.team).trail &&
  (g.restoring || s.allTaken g.team)

/-- The first routine of a pre-emption gives the saved team its number. -/
def State.beginSave (s : State) (tm : Nat) : State :=
  match (s.team tm).pre with
  | .wanted a =>
    let (id, s) := s.fresh
    let s := s.updTeam tm fun t => { t with pre := .saving a id }
    { s with saved := SMap.set s.saved id { team := { s.team tm with area := a.toNat } } }
  | _ => s

/-- SAVE_ROUTINE_START (R176): the group is set aside and the routine runs in its slot, at SAVEPC, or at RESTPC for a restored group (R177);
a scratchpad WAIT is recorded with the group (R107). -/
def State.startRoutine (s : State) (slot : Nat) : State :=
  let g := s.group slot
  let s := if g.restoring then s else s.beginSave g.team
  let t := s.team g.team
  let x := s.svcCore (slotCluster slot)
  let p := s.part (slotPart slot)
  let (uid, s) := s.fresh
  let s := s.setPart (slotPart slot) { p with owner := some slot }
  let s := { s with stash := SMap.set s.stash slot g, watch := s.watch.filter fun w => !(w.slot == slot && w.uid == g.uid) }
  s.setGroup slot (routineGroup uid g p (if g.restoring then x.restpc else x.savepc) t.preArea s.cycle)

/-! ### The end of a routine -/

/-- The calls of a team's groups, with the words of their slots; Linium frees the slots (R356). -/
def Cluster.takeCalls (c : Cluster) (mine : Nat → Nat → Bool) : List (Call × List DWord) × Cluster :=
  let ks := c.calls.filter fun p => mine p.2.slot p.2.uid
  let words (k : Nat) : List DWord :=
    ((List.range 8).map fun i => Memory.dword c.page (0x1000 + 64 * k + 8 * i)) ++
    ((List.range 256).map fun i => Memory.dword c.page (0x2000 + 0x800 * k + 8 * i))
  let page := ks.foldl (fun p k => Memory.write p (0x1000 + 64 * k.1 + 7) (Memory.read p (0x1000 + 64 * k.1 + 7) 1 % 128) 1) c.page
  ((ks.map fun k => (k.2, words k.1)) ++ (c.callWait.filter fun x => mine x.slot x.uid).map (fun x => (x, [])),
   { c with calls := c.calls.filter fun p => !mine p.2.slot p.2.uid, callWait := c.callWait.filter fun x => !mine x.slot x.uid, page := page })

/-- The record of a saved call in the pending-call area (07 Table 6): header, then lane entries. -/
def State.putCall (s : State) (area r : Nat) (ws : List DWord) : State :=
  ws.zipIdx.foldl (fun s w => s.homeStore (area + 0x6000 + 0x840 * r + 8 * w.2) w.1.toNat 8) s

/-- A group is saved, the stores of its routine being performed: its slot is EMPTY (R162). -/
def State.groupSaved (s : State) (tm id gidx : Nat) : State :=
  let t := s.team tm
  let slot := t.slotOf gidx
  let g := s.prog slot
  let s := { s with
    groups := SMap.del s.groups slot, stash := SMap.del s.stash slot
    saved := SMap.upd s.saved id {} fun sv => { sv with groups := SMap.set sv.groups gidx g } }
  (s.putSaved t t.preArea g).updTeam tm fun t => { t with saved := t.saved ++ [gidx], saveAfter := SMap.del t.saveAfter gidx }

/-- A TEAM IS SAVED: all groups are (R176, R359). The header and the pending calls are in its area; the team leaves its cores, and PRSTAT shows 3
where the routine has stored VALID. -/
def State.teamSaved (s : State) (tm id area : Nat) : State :=
  let t := s.team tm
  let sv := s.savedTeam id
  let cl := t.core / 8
  let (calls, c) := (s.cluster cl).takeCalls fun slot uid => sv.groups.any fun p => p.2.uid == uid && t.slotOf p.1 == slot
  let s := s.setCluster cl c
  let records := calls.filter fun x => !x.2.isEmpty
  let s := records.zipIdx.foldl (fun s x => s.putCall area x.2 x.1.2) s
  let s := s.putHeader t area id records.length
  let u := { t with pre := .none_, area := area, saved := [], saveAfter := [], slots := [] }
  let s := { s with saved := SMap.set s.saved id { sv with team := u, calls := calls, valid := true } }
  let live := (SMap.get s.launches t.launch {}).live
  let s := (s.setTeam tm u).freeTeam tm
  let s := { s with launches := SMap.upd s.launches t.launch {} fun la => { la with live := live } }
  if (s.headerW area 0).getLsbD 63 then s.setSvc cl { s.svcCore cl with prBusy := false, prState := 3 } else s

/-- The groups of a team whose routines' stores have been performed are saved, and with the last of them the team (R162, R176). -/
def State.saveDone (s : State) (tm : Nat) : State :=
  match (s.team tm).pre with
  | .saving area id =>
    let past := ((s.team tm).saveAfter.filter fun p => s.accsDone p.2).map Prod.fst
    if past.isEmpty then s
    else
      let s := past.foldl (fun s i => s.groupSaved tm id i) s
      if (s.team tm).saved.length = (s.team tm).slots.length then s.teamSaved tm id area.toNat else s
  | _ => s

/-- A save routine has ended in a slot, which stays in SAVING until the routine's stores are performed (R162). -/
def State.saveRan (s : State) (slot : Nat) : State :=
  let tm := (s.group slot).team
  let after := s.openAccs slot fun _ => true
  let s := s.updGroup slot fun g => { g with st := .saving, blocks := [] }
  (s.updTeam tm fun t => { t with saveAfter := SMap.set t.saveAfter (s.prog slot).gidx after }).saveDone tm

/-- A restored group goes on: WHY 6, its recorded wake completes its WAIT, a scratchpad WAIT is issued again, and its tokens are complete
(R107, R108, R177). -/
def State.groupRestored (s : State) (slot : Nat) (g : Group) : State :=
  let k := s.core (slotCore slot)
  let sp := match g.wait with
    | some w => w.sp
    | none => false
  let bs := g.blocks.filter fun b => match b with
    | .fence _ => false
    | _ => true
  let g : Group := { g with st := if bs.isEmpty then .ready else .blocked, blocks := bs, ftok := [], wakewhy := wakeWord k.gated 6, restoring := false,
                            readySince := s.cycle, recWake := none }
  let old := (SMap.get s.stash slot {}).recWake
  let s := { s with stash := SMap.del s.stash slot }
  let s := s.setGroup slot g
  match old with
  | some (st, v) => s.endWait slot st v
  | none => if sp then { s with waits := s.waits ++ [(slot, g.uid)] } else s

/-! ### The second copy of a pair (R362, R367) -/

/-- A wait of a leading group as its trailing group has it. -/
def Block.trailing (g : Group) : Block → Block
  | .tget d _ => .lvq d.seq
  | .tstamp d => .lvq d.seq
  | .wait => (match g.wait with
    | some w => if w.sp then .wait else .lvq w.d.seq
    | none => .wait)
  | .scall => .lvq (g.seq - 1)
  | b => b

/-- The trailing group that goes with a leading one: `old` is what it was, with its own context and CKPTCNT (R404). -/
def Group.trailCopy (g old : Group) (uid : Nat) : Group :=
  { g with
    team := old.team, uid := uid, ctx := old.ctx, ckptcnt := old.ckptcnt, blocks := g.blocks.map (Block.trailing g)
    wait := g.wait.filter fun w => w.sp
    lvq := [], pairAt := none, pairGo := .no, slacked := false, pairFlt := false, pairTrap := none }

/-- The tiles of a team by its local cores. -/
def State.takeTiles (s : State) (tm : Nat) : SMap (SMap Word) :=
  let t := s.team tm
  (List.range t.cores).map fun j =>
    let k := s.core (t.core + j)
    (j, (List.range t.acc).flatMap fun i => (k.tiles.filter fun e => e.1 / 4096 == k.physTile tm i).map fun e => (4096 * i + e.1 % 4096, e.2))

/-- The matrix operations of a team by its local cores. -/
def State.takeOps (s : State) (tm : Nat) : List (Nat × MatOp) :=
  let t := s.team tm
  (List.range t.cores).flatMap fun j => ((s.core (t.core + j)).mq.filter fun o => o.team == tm).map fun o => (j, o)

/-- An operation as one of a copy's. -/
def State.bindOp (s : State) (tm base : Nat) (o : MatOp) : MatOp :=
  let sl := (s.team tm).slotOf o.gidx
  { o with id := base + o.id, team := tm, slot := sl, uid := (s.group sl).uid, st := if o.st = .held then .held else .queued, stores := [], after := [],
           rows := if o.st = .held then o.rows else 0, aVals := [] }

/-- What a team shares, laid into a copy: scratchpad, sync unit, shape; nothing is poisoned and nothing is on its way (R53, R368). -/
def Team.lay (t u : Team) (bind : MatOp → MatOp) : Team :=
  { t with
    vblk := u.vblk, sblk := u.sblk, chunks := u.chunks, spad := u.spad, spadPsn := [], badPar := []
    cv := u.cv.map fun (r : Nat × CvReg) => (r.1, { r.2 with
      signs := r.2.signs.map fun (x : Sign) => { x with after := [] }
      held := r.2.held.map fun (x : Sign) => { x with after := [] }, pend := r.2.pend.map bind })
    barArr := u.barArr, barG := u.barG, barAfter := [], bars := u.bars.map fun (b : Nat × NamedBar) => (b.1, { b.2 with after := [], closing := b.2.closing.map fun c => (c.1, []), held := b.2.held.map fun (x : BarArr) => { x with after := [] } })
    carve := u.carve, carveAfter := [], tseq := u.tseq }

/-- One local core of a copy: its tiles and its operations. -/
def State.layCore (s : State) (tm base : Nat) (tiles : SMap (SMap Word)) (ops : List (Nat × MatOp)) (j : Nat) : State :=
  let t := s.team tm
  let k := s.core (t.core + j)
  let mine := (List.range t.acc).map (k.physTile tm)
  let k := { k with
    tiles := k.tiles.filter fun e => !mine.contains (e.1 / 4096)
    mq := k.mq ++ (ops.filter fun o => o.1 == j).map fun o => s.bindOp tm base o.2 }
  let k := (SMap.get tiles j []).foldl (fun (k : Core) e => { k with tiles := SMap.set k.tiles (4096 * k.physTile tm (e.1 / 4096) + e.1 % 4096) e.2 }) k
  (s.setCore (t.core + j) k).acquireInval (t.core + j)

/-- WHAT A COPY OF A PAIR HOLDS BESIDE ITS GROUPS, laid from a state (R367, R368). -/
def State.layCopy (s : State) (tm : Nat) (u : Team) (tiles : SMap (SMap Word)) (ops : List (Nat × MatOp)) : State :=
  let base := s.nextId
  let s := { s with nextId := 2 * base + 1 }
  let s := s.updTeam tm fun t => t.lay u (s.bindOp tm base)
  (List.range u.cores).foldl (fun s j => s.layCore tm base tiles ops j) s

/-- A group of a copy put in its slot; a scratchpad WAIT is issued again (R107). -/
def State.putCopyGroup (s : State) (slot : Nat) (g : Group) : State :=
  let s := s.setGroup slot g
  match g.wait with
  | some w => if w.sp then { s with waits := s.waits ++ [(slot, g.uid)] } else s
  | none => s

/-- The trailing copy of a restored team, when every group of it is restored (R367). -/
def State.mirrorTeam (s : State) (tm : Nat) : State :=
  match (s.team tm).pair with
  | none => s
  | some tr =>
    let s := (s.team tm).slots.foldl (fun (s : State) p =>
      let slot := (s.team tr).slotOf p.1
      let (uid, s) := s.fresh
      let g := s.group p.2
      let h := g.trailCopy (s.group slot) uid
      let s := s.updGroup p.2 fun g => { g with lvq := g.lvq.filter fun e => h.blocks.contains (.lvq e.seq) }
      s.putCopyGroup slot h) s
    s.layCopy tr (s.team tm) (s.takeTiles tm) (s.takeOps tm)

/-- A ROUTINE ENDS, its lanes having exited: its registers stay in the partition's file, which is free again (R176). -/
def State.routineEnd (s : State) (slot : Nat) : State :=
  let r := s.group slot
  let p := s.part (slotPart slot)
  let s := s.setPart (slotPart slot) { p with rv := r.v, rs := r.s, owner := none }
  let g := SMap.get s.stash slot {}
  let s := if r.restoring then s.groupRestored slot g else s.saveRan slot
  let was := (s.team r.team).restored
  let s := s.updTeam r.team fun t => { t with restored := t.restored && t.slots.any fun p => (s.group p.2).restoring }
  if was && !(s.team r.team).restored && (s.team r.team).paired then s.mirrorTeam r.team else s

end Sys2Proof.Machine
end

