-- ==== Sys2Proof/Machine/Issue.lean ====
section
/-! DEFINITION. Fetching an instruction (R215, R217), the selection of a group and its batch (R160, R163), and the end of a run with what a marker delivers (R161, R162, R174, R175, R306, R331, R334, R413). -/

namespace Sys2Proof.Machine

open Sys2Proof

/-! ### Events -/

/-- An event that its agent makes when it is due; one that is not due is none, and changes nothing (log 4). -/
def event (s : State) (due : Bool) (t : State) : Out := if due then .next t else .next s

/-! ### Fetch -/

/-- The instruction cache of a core holding the line of an address; a line of a peer's memory holds free values (R24). -/
def State.fillIcache (s : State) (core pa : Nat) : State :=
  let k := s.core core
  if (SMap.find k.icache (pa / 128)).isSome then s
  else
    let a := lineOf pa
    let inHbm := pRange pa == .hbm
    let ws := (List.range 32).map fun i => if inHbm then s.word (a + 4 * i) else (Config.farWord s.freeCtr (a + 4 * i)).setWidth 32
    let s := s.setCore core { k with icache := SMap.set k.icache (pa / 128) ws }
    if inHbm then s else s.bump

/-- A word of the instruction cache. -/
def State.icacheWord (s : State) (core pa : Nat) : Word :=
  ((SMap.get (s.core core).icache (pa / 128) []).getD (pa / 4 % 32) 0)

/-- What a fetch answers: the words, or the state after a fault was raised or a walk was asked for. -/
inductive Fetched
  | ok (ws : List Word) (s : State)
  | stop (s : State)

/-- The words from an address on, each fetched with the rights of a fetch (R215). -/
def fetchWords (slot : Nat) (pc : DWord) : Nat → Nat → State → Fetched
  | 0, _, s => .ok [] s
  | n + 1, k, s =>
    let g := s.group slot
    let a := pc + BitVec.ofNat 64 (4 * k)
    let bad (cls : BitVec 8) (nc : Bool) (lv : Nat) (pte : DWord) (s : State) : Fetched :=
      .stop (s.raise slot .retry
        { cls := cls, lanes := g.batch, kind := 4, space := 0, addr := a, noncan := nc, level := lv, pte := pte, pc := pc })
    match s.checkGlobal slot (g.asid == 0) g.asid .fetch 4 4 a with
    | .wait p => .stop (s.admitPages (slotCluster slot) g.asid (s.descOf slot) (fetchReq g.uid) [p])
    | .fault cls _ _ nc lv pte => bad cls nc lv pte (s.dropX (slotCluster slot) (fetchReq g.uid))
    | .ok pa e =>
      let used (s : State) : State := (s.dropX (slotCluster slot) (fetchReq g.uid)).useTlbs (slotCore slot) e.toList
      let held := (SMap.find (s.core (slotCore slot)).icache (pa / 128)).isSome
      match if held then .ok s else s.lineRead (slotCluster slot) pa 4 with
      | .wait s => .stop s
      | .bad cls s => bad cls false 0 0 (used s)
      | .ok s =>
        let s := (used s).fillIcache (slotCore slot) pa
        match fetchWords slot pc n (k + 1) s with
        | .ok ws s' => .ok (s.icacheWord (slotCore slot) pa :: ws) s'
        | .stop s' => .stop s'

/-- The outcome of fetching and decoding at the batch's PC. -/
inductive FetchRes
  /-- the instruction, with the slot as the one that issues -/
  | instr (i : Instr) (s : State)
  | stop (s : State)

/-- FETCH AND DECODE of the batch of a slot: word 0 gives the length (R201); a rejected encoding raises its fault (R217). A group of a pair
may have to wait (R364). -/
def State.fetch (s : State) (slot : Nat) : FetchRes :=
  let pc := (s.group slot).batchPc
  if (s.group slot).trapHere then .stop (s.takeTrap slot)
  else if s.pairHold slot then .stop s
  else match fetchWords slot pc 1 0 s with
  | .stop s => .stop s
  | .ok w0 s =>
    match fetchWords slot pc ((wordForm (w0.getD 0 0)).words - 1) 1 s with
    | .stop s => .stop s
    | .ok ws s =>
      match decode (w0 ++ ws) with
      | .ok (i, _) => .instr i { s with cur := slot }
      | .error .illegalOpcode => .stop (s.raiseCode slot clsOpcode pc (s.group slot).batch)
      | .error _ => .stop (s.raiseCode slot clsEncoding pc (s.group slot).batch)

/-! ### Choosing -/

/-- Runs of the group since a lane last issued. -/
def Group.laneAge (g : Group) (l : Lane) : Nat := g.runs - g.lastRun[l]

/-- The lanes that can issue. -/
def Group.liveMask (g : Group) : LaneMask := ~~~ (g.exited ||| g.callParked)

/-- The lanes of a mask at a PC. -/
def Group.lanesAt (g : Group) (m : LaneMask) (p : DWord) : LaneMask := maskOf fun l => laneIn m l && g.pc[l] == p

/-- The least PC of some lanes. -/
def Group.lowPc (g : Group) (m : LaneMask) : DWord :=
  (lanesIn m).foldl (fun p l => if (g.pc[l]).toNat < p.toNat then g.pc[l] else p) g.pc[lowLane m]

/-- choose_batch (R160). -/
def Group.chooseBatch (g : Group) : LaneMask :=
  let m := g.liveMask
  let age := (lanesIn m).foldl (fun a l => max a (g.laneAge l)) 0
  if 8 ≤ age then g.lanesAt m (g.lowPc (maskOf fun l => laneIn m l && g.laneAge l == age)) else g.lanesAt m (g.lowPc m)

/-- The slots of a partition in a state. -/
def State.slotsIn (s : State) (p : Nat) (st : SlotState) : List Nat := ((List.range 4).map (4 * p + ·)).filter fun k => (s.group k).st == st

/-- A group that a team checkpoint holds at its marker: a leading one, or a trailing one that has come as far (R367). -/
def State.ckptHeld (s : State) (slot : Nat) : Bool :=
  let g := s.group slot
  let t := s.team g.team
  !g.routine && t.paired && (s.team (s.leadTeam g)).wantCkpt &&
  (!t.trail || (let h := s.group (s.partner g); decide (h.seq ≤ g.seq) && h.pairAt.isNone && !g.trapHere))

/-- select (R163). -/
def State.selectSlot (s : State) (p : Nat) : Option Nat :=
  let cand := (s.slotsIn p .ready).filter fun k => !s.ckptHeld k && (s.group k).liveMask != 0
  let aged := cand.filter fun k => decide (3000000 < s.cycle - (s.group k).readySince)
  match aged with
  | a :: as => some (as.foldl (fun x k => if (s.group k).readySince < (s.group x).readySince then k else x) a)
  | [] =>
    let prio (k : Nat) : Nat := (s.group k).prio
    let best := cand.foldl (fun m k => max m (prio k)) 0
    ((List.range 4).map fun i => 4 * p + ((s.part p).last + 1 + i) % 4).find? fun k => cand.contains k && prio k == best

/-- LAT of WAKEWHY filled at the first issue after a wake (R114). -/
def Group.fillLat (g : Group) (now : Nat) : Group :=
  match g.wokeAt with
  | none => g
  | some t => { g with wokeAt := none, wakewhy := (BitVec.ofNat 16 (min 0xFFFF (now - t)) : BitVec 16) ++ g.wakewhy.extractLsb' 0 16 }

/-- A RUN STARTS: the group's batch is chosen, the last-result file is undefined (R32, R160); a run that a precise fault interrupted goes
on instead (R136, R34). -/
def State.startRun (s : State) (slot : Nat) : State :=
  let g := (s.group slot).fillLat s.cycle
  let p := s.part (slotPart slot)
  let s := s.setPart (slotPart slot) { p with last := slot % 4 }
  let s := s.setCore (slotCore slot) { s.core (slotCore slot) with gated := false }
  match g.midRun with
  | some k =>
    if k.batch &&& g.liveMask = 0 then
      let s := s.setPart (slotPart slot) { p with last := slot % 4, l0 := k.l0, l1 := k.l1 }
      s.setGroup slot { g with st := .issuing, batch := g.chooseBatch, count := 0, ended := false, runs := g.runs + 1, haz := [], midRun := none }
    else
      let s := s.setPart (slotPart slot) { p with last := slot % 4, l0 := k.l0, l1 := k.l1 }
      s.setGroup slot
        ({ g with st := .issuing, batch := k.batch, count := k.count, ended := false, haz := [], midRun := none }.rebatch)
  | none =>
    let s := s.setPart (slotPart slot) { p with last := slot % 4, l0 := LEntry.undef, l1 := LEntry.undef }
    s.setGroup slot { g with st := .issuing, batch := g.chooseBatch, count := 0, ended := false, runs := g.runs + 1, haz := [] }

/-- The slot that a partition would select, when its issue stage is free. -/
def State.selectable (s : State) (p : Nat) : Option Nat := if (s.slotsIn p .issuing).isEmpty then s.selectSlot p else none

/-- The group that is selected runs; a fault that came for its marker before its results had returned is delivered first. -/
def State.selectRun (s : State) (slot : Nat) : State :=
  if s.trapStands slot && !(s.group slot).inh then s.takePend slot else s.startRun slot

/-- ISSUE_SELECT (R163) in a partition. -/
def execIssueSelect (p : Nat) (s : State) : Out :=
  event s (s.selectable p).isSome (match s.selectable p with
    | some slot => s.selectRun slot
    | none => s)

/-! ### Markers -/

/-- A wait of the group that a user interrupt may end: none, a sleep (R109, R334). -/
def Group.takesInterrupt (g : Group) : Bool :=
  g.blocks.all fun b => match b with
    | .nsleep _ => true
    | _ => false

/-- A user interrupt can be delivered to the group (R334). -/
def Group.uiDue (g : Group) : Bool := (g.uipend &&& ~~~ g.uimask) != 0 && g.canDeliver false

/-- USER_INTERRUPT_DELIVER: the group's lanes stand at UIVEC; a sleep ends early (R109, R334). The spec names no TRAPADDR. -/
def State.deliverInterrupt (s : State) (slot : Nat) : State :=
  let s := s.mirrorTrap slot false 0 (s.free 0) 0 0
  let g := s.group slot
  let s' := (s.setGroup slot (g.deliver none ⟨false, 0, s.free 0, g.pc⟩)).bump
  g.blocks.foldl (fun s b => s.unblock slot b 5) s'

/-- NOPREEMPT_OVERRUN at a marker: every section is closed (R175). -/
def State.overrun (s : State) (slot : Nat) : State :=
  let g := s.group slot
  let m := g.chooseBatch
  (s.markerFault slot { cls := clsNpOverrun, kind := 7, space := 3, addr := 0, pc := g.lowPc m, lanes := m, aux := 0 }).updGroup slot Group.npClose

/-- A user interrupt that can be delivered to the group in a slot at a marker is (R109, R334). -/
def State.uiTake (s : State) (slot : Nat) : State :=
  let g := s.group slot
  if g.uiDue && g.takesInterrupt && g.st != .saving && g.st != .empty && !g.routine && !(s.team g.team).trail then s.deliverInterrupt slot else s

/-- WHAT A MARKER DELIVERS to the group in a slot that has come to it: the faults raised against it, an overrun, abandoned operations and
copies' underflows, a pre-emption, and a user interrupt (R162, R174, R175, R306, R326, R334, R413). -/
def State.atRunEnd (s : State) (slot : Nat) : State :=
  let s := s.settle slot
  let s := if (s.group slot).npover then s.overrun slot else s
  let s := if s.trapStands slot then s.takePend slot else s
  (s.preTake (s.group slot).team).uiTake slot

/-- The group is left with call-parked lanes only: it is parked until a reply (R162, R346). -/
def Group.callHeld (g : Group) : Group :=
  if g.blocks.isEmpty && !g.gone && g.liveMask == 0 then { g with blocks := [.scall] } else g

/-- The instruction-cache lines that the group's cctl named since its last marker are invalidated at this one (R215, R276). -/
def State.dropIcache (s : State) (slot : Nat) : State :=
  let g := s.group slot
  let core := s.core (slotCore slot)
  if g.icAll then (s.setCore (slotCore slot) { core with icache := [] }).updGroup slot fun g => { g with icAll := false, icInv := [] }
  else if g.icInv.isEmpty then s
  else
    (s.setCore (slotCore slot) { core with icache := core.icache.filter fun x => !g.icInv.contains x.1 }).updGroup slot fun g =>
      { g with icInv := [] }

/-- RUN_END (R161): the run is over, its hazards end, and the group drains or blocks; a routine whose lanes have exited ends (R176, R177). -/
def State.endRun (s : State) (slot : Nat) : State :=
  let s := (s.dropIcache slot).updGroup slot fun g =>
    let g := g.callHeld
    { g with haz := [], batch := 0, count := 0, ended := false, st := if g.blocks.isEmpty then .draining else .blocked }
  let tm := (s.group slot).team
  if (s.group slot).routine && (s.group slot).gone then (((s.routineEnd slot).preTake tm).uiTake slot).poll tm
  else (s.atRunEnd slot).poll tm

/-- RUN_END is due. -/
def State.runEndDue (s : State) (slot : Nat) : Bool := let g := s.group slot; g.st == .issuing && g.ended

/-- RUN_END of the group in a slot. -/
def execRunEnd (slot : Nat) (s : State) : Out := event s (s.runEndDue slot) (s.endRun slot)

/-- RUNMAX_MARKER is due: 1024 instructions have issued (R161). -/
def State.runmaxDue (s : State) (slot : Nat) : Bool := let g := s.group slot; g.st == .issuing && !g.ended && decide (1024 ≤ g.count)

/-- RUNMAX_MARKER: the run ends as at an instruction with SW = 1. -/
def execRunmaxMarker (slot : Nat) (s : State) : Out :=
  event s (s.runmaxDue slot) (s.updGroup slot fun g => { g with ended := true })

/-- RESULTS_DRAINED is due: the results of a draining group have returned (R162, R67). -/
def State.drainedDue (s : State) (slot : Nat) : Bool :=
  let g := s.group slot
  g.st == .draining && !g.gone && !s.resultsOut slot

/-- RESULTS_DRAINED: the group is READY, or takes a pre-emption. -/
def execResultsDrained (slot : Nat) (s : State) : Out :=
  event s (s.drainedDue slot)
    ((s.updGroup slot fun g => { g with st := .ready, readySince := s.cycle }).preTake (s.group slot).team)

/-- NOPREEMPT_OVERRUN is due: a section has been open for NPMAX cycles (R175). -/
def State.npDue (s : State) (slot : Nat) : Bool :=
  let g := s.group slot
  g.st != .empty && !g.npover && g.npLate s.cycle

/-- NOPREEMPT_OVERRUN: raised at the next marker, or at once by a group that stands at one (R175). -/
def execNopreemptOverrun (slot : Nat) (s : State) : Out :=
  event s (s.npDue slot)
    (match (s.group slot).st with
      | .blocked | .draining => (s.overrun slot).preTake (s.group slot).team
      | _ => s.updGroup slot fun g => { g with npover := true })

end Sys2Proof.Machine
end

