-- ==== Sys2Proof/Machine/Calls.lean ====
section
/-! DEFINITION. The call gate: harts' results and exceptions, the call page (R345), records and replies (R346 to R349), and the restart of a shard (R354, R106). -/

namespace Sys2Proof

/-- The causes of the RISC-V privileged specification: an access fault and a page fault of a load, or of a store or AMO. -/
def HartOp.accessFault : HartOp → Nat
  | .load => 5
  | _ => 7
/-- A page fault. -/
def HartOp.pageFault : HartOp → Nat
  | .load => 13
  | _ => 15
/-- The mode of a hart. -/
def Agent.mode : Agent → Mode
  | .service _ m => m
  | .control _ m => m
/-- The agent is a service core. -/
def Agent.isService : Agent → Bool
  | .service _ _ => true
  | .control _ _ => false
/-- The privileged origins among the harts (R22). -/
def Agent.priv : Agent → Bool
  | .service _ m => m != .user
  | .control _ m => m == .machine
/-- A writer of registers. -/
def Agent.writer : Agent → Machine.Writer
  | .service c m => { priv := m != .user, machine := m == .machine, shard := some c }
  | .control _ m => { priv := m != .user, machine := m == .machine, shard := none }

/-- The cluster of a service core. -/
def Agent.cluster : Agent → Nat
  | .service c _ => c
  | .control _ _ => 0

end Sys2Proof

namespace Sys2Proof.Machine

open Sys2Proof

/-! ### Harts -/

/-- A control core. -/
def State.hart (s : State) (h : Nat) : Hart := SMap.get s.harts h {}
/-- A control core replaced. -/
def State.setHart (s : State) (h : Nat) (x : Hart) : State := { s with harts := SMap.set s.harts h x }

/-- A load or AMO of a hart returns a value. -/
def State.hartGot (s : State) (a : Agent) (v : DWord) : State :=
  match a with
  | .service c _ => s.setSvc c { s.svcCore c with got := v, exc := (0, 0) }
  | .control h _ => s.setHart h { s.hart h with got := v, exc := (0, 0) }

/-- An access of a hart is done without an exception. -/
def State.hartOk (s : State) (a : Agent) : State :=
  match a with
  | .service c _ => s.setSvc c { s.svcCore c with exc := (0, 0) }
  | .control h _ => s.setHart h { s.hart h with exc := (0, 0) }

/-- AN EXCEPTION of a hart: its cause and stval, by the RISC-V privileged specification. -/
def State.hartExc (s : State) (a : Agent) (cause : Nat) (tval : DWord) : State :=
  match a with
  | .service c _ => s.setSvc c { s.svcCore c with exc := (cause, tval) }
  | .control h _ => s.setHart h { s.hart h with exc := (cause, tval) }

/-- The cause of an illegal instruction. -/
def illegalInstr : Nat := 2

/-! ### The call page -/

/-- The header of a call slot. -/
def callHeader (k : Nat) : Nat := 0x1000 + 64 * k
/-- The entry of a lane. -/
def callEntry (k l : Nat) : Nat := 0x2000 + 0x800 * k + 64 * l

/-- A 64-bit word of the call page. -/
def Cluster.pw (c : Cluster) (a : Nat) : DWord := Memory.dword c.page a
/-- Bytes of the call page written. -/
def Cluster.pset (c : Cluster) (a x n : Nat) : Cluster := { c with page := Memory.write c.page a x n }
/-- The DONE bits of a call slot. -/
def Cluster.doneBits (c : Cluster) (k : Nat) : LaneMask := (c.pw (callHeader k + 16)).setWidth 32

/-- The bytes that read zero and ignore writes (15 Table 3). -/
def pageReserved (a : Nat) : Bool := decide (0x1700 ≤ a ∧ a < 0x2000)

/-- What the gate sees of a store to the page: bits of DONE that go from 0 to 1 while their lanes are call-parked, and stores to the entry
of a lane whose bit is set and which has not been loaded (R348, R349). -/
def Cluster.seen (old new : Cluster) (k : Nat) (x : Call) (a n : Nat) : Call :=
  let hit := maskOf fun l => meets (callEntry k l.val) 64 a n
  { x with due := x.due ||| (new.doneBits k &&& ~~~ old.doneBits k &&& x.left), dirty := x.dirty ||| (hit &&& x.due) }

/-- A STORE TO THE CALL PAGE at its arbiter (R345, R348); a header whose V becomes 0 frees its slot (R346). -/
def State.pageStore (s : State) (cl a x n : Nat) : State :=
  if pageReserved a then s
  else
    let c := s.cluster cl
    let c' := c.pset a x n
    let live := c.calls.filter fun p => (c'.pw (callHeader p.1)).getLsbD 63
    s.setCluster cl { c' with calls := live.map fun p => (p.1, c.seen c' p.1 p.2 a n) }

/-- A load from the call page. -/
def State.pageLoad (s : State) (cl a n : Nat) : DWord := BitVec.ofNat 64 (Memory.read (s.cluster cl).page a n)

/-- CALLBASE of a cluster: the physical address of its call page (R345). -/
def callBase (cl : Nat) : Nat := 0xF00000000000 + clusterBlock cl + 0x800000

/-- CALL_PAGE_ACCESS is due: the service core of a cluster reaches its page. -/
def callPageDue (r : HartReq) : Bool :=
  match r.agent with
  | .service c _ => decide (c < 128 ∧ callBase c ≤ r.pa ∧ r.pa < callBase c + 0x10000)
  | .control _ _ => false

/-- The word that an AMO of a hart leaves. -/
def hartNew (r : HartReq) (old : Nat) : Nat := atomWord r.op r.ty r.n old r.data.toNat 0

/-- An access of a service core to its call page (R345); any other size or alignment is an access fault (R28). -/
def State.callPage (s : State) (k : HartOp) (r : HartReq) : State :=
  let cl := r.agent.cluster
  let a := r.pa - callBase cl
  let old := s.pageLoad cl a r.n
  if (r.n != 4 && r.n != 8) || decide (r.pa % r.n ≠ 0) then s.hartExc r.agent k.accessFault (BitVec.ofNat 64 r.pa)
  else
    match k with
    | .load => s.hartGot r.agent old
    | .store => (s.pageStore cl a r.data.toNat r.n).hartOk r.agent
    | .amo => (s.pageStore cl a (hartNew r old.toNat) r.n).hartGot r.agent old

/-- CALL_PAGE_ACCESS (R345). -/
def execCallPageAccess (k : HartOp) (r : HartReq) (s : State) : Out := event s (callPageDue r) (s.callPage k r)

/-! ### Records -/

/-- The lowest free slot of the call page. -/
def Cluster.freeCall (c : Cluster) : Option Nat := (List.range 28).find? fun k => (SMap.find c.calls k).isNone

/-- The first waiting call, when its earlier accesses are performed and a slot is free (R346, R329). -/
def State.callReady (s : State) (cl : Nat) : Option (Call × Nat) :=
  let c := s.cluster cl
  match c.callWait, c.freeCall with
  | x :: _, some k => if s.accsDone x.after then some (x, k) else none
  | _, _ => none

/-- SEQ of a cluster's next record (15 Table 4). -/
def Cluster.nextSeq (c : Cluster) (cl : Nat) : Nat := cl * 2 ^ 57 + c.callSeq

/-- Words of a header (15 Table 4). -/
def State.headerWords (s : State) (x : Call) (seq : Nat) : List Nat :=
  let g := s.prog x.slot
  [2 ^ 63 + b2n x.all 62 + g.ctx % 2 ^ 20 * 2 ^ 32 + g.asid % 2 ^ 16 * 2 ^ 16 + g.gidx % 256 * 256 + slotCore x.slot % 8 * 32 +
     slotPart x.slot % 32,
   x.slot % 4 * 2 ^ 32 + x.lanes.toNat, 0, seq, x.pc.toNat, s.tstamp.toNat, g.rcb, 0]

/-- NUM and ARG0 to ARG5 of a lane as the first four words of its entry (15 Table 5). -/
def Call.entryWords (x : Call) (l : Lane) : List Nat :=
  let w (k : Nat) : Nat := ((SMap.get x.args k (lanesOf 0))[l]).toNat
  [w 0, w 1 + w 2 * 2 ^ 32, w 3 + w 4 * 2 ^ 32, w 5 + w 6 * 2 ^ 32]

/-- Words written from an offset of the page on. -/
def Cluster.putWords (c : Cluster) (a : Nat) (ws : List Nat) : Cluster := ws.zipIdx.foldl (fun c w => c.pset (a + 8 * w.2) w.1 8) c

/-- A CALL TAKES A SLOT (R346): lane entries, then the header with V last, then CALLPEND. -/
def State.assignCall (s : State) (cl : Nat) (x : Call) (k : Nat) : State :=
  let c := s.cluster cl
  let seq := c.nextSeq cl
  let c := (lanesIn x.lanes).foldl (fun (c : Cluster) l => c.putWords (callEntry k l.val) (x.entryWords l)) c
  let c := c.putWords (callHeader k) (s.headerWords x seq)
  let s := s.setCluster cl { c with calls := SMap.set c.calls k x, callWait := c.callWait.drop 1, callSeq := c.callSeq + 1 }
  let v := s.svcCore cl
  s.setSvc cl { v with callpend := v.callpend ||| BitVec.ofNat 28 (2 ^ k) }

/-- CALL_SLOT_ASSIGN on a cluster (R346). -/
def execCallSlotAssign (cl : Nat) (s : State) : Out :=
  match s.callReady cl with
  | some (x, k) => .next (s.assignCall cl x k)
  | none => .next s

/-! ### Replies -/

/-- The lanes of a call that resume now: those whose bit has been set, with ALL only when all have (R348). -/
def Call.resuming (x : Call) : LaneMask :=
  let m := x.due &&& x.left
  if x.all && m != x.left then 0 else m

/-- A reply is due: the caller is resident, and lanes resume. -/
def State.replyDue (s : State) (cl k : Nat) : Option Call :=
  match SMap.find (s.cluster cl).calls k with
  | some x => if (s.group x.slot).uid == x.uid && x.resuming != 0 then some x else none
  | none => none

/-- REPLIES LOADED (R348, R349): v16, v17 and v18 of each resuming lane; the lanes stand after the scall. -/
def State.resumeCall (s : State) (cl k : Nat) (x : Call) : State :=
  let c := s.cluster cl
  let m := x.resuming
  let word (l : Lane) (j : Nat) : BitVec 128 :=
    if laneIn x.dirty l then (s.free (3 * l.val + j)).setWidth 128
    else
      match j with
      | 0 => ((c.pw (callEntry k l.val + 32)).setWidth 32 : Word).setWidth 128
      | 1 => ((c.pw (callEntry k l.val + 40)).setWidth 32 : Word).setWidth 128
      | _ => ((c.pw (callEntry k l.val + 32)).extractLsb' 32 32 : Word).setWidth 128
  let s := s.setCluster cl { c with
    calls := SMap.set c.calls k { x with left := x.left &&& ~~~ m, due := x.due &&& ~~~ m, dirty := x.dirty &&& ~~~ m } }
  let pair := (s.team (s.group x.slot).team).paired
  let s := s.updGroup x.slot fun g =>
    let w (n : BitVec 8) (j : Nat) (g : Group) : Group :=
      g.writeDest { opnd := .v n, width := 32, lanes := m, seq := if pair then g.seq - 1 else g.seq } fun l => word l j
    { (w 18 2 (w 17 1 (w 16 0 g))) with callParked := g.callParked &&& ~~~ m }
  let s := if x.dirty = 0 then s else s.bump
  if (s.group x.slot).blocks.contains .scall then s.unblock x.slot .scall 3 else s

/-- CALL_REPLY_RESUME of a call slot (R348). -/
def execCallReplyResume (cl k : Nat) (s : State) : Out :=
  match s.replyDue cl k with
  | some x => .next (s.resumeCall cl k x)
  | none => .next s

/-- A reply written for some lanes of a slot: VALUE and STATUS, then their DONE bits by one AMO (R348). -/
def State.replyTo (s : State) (cl k : Nat) (m : LaneMask) (status : Nat) (value : Lane → DWord) : State :=
  let s := (lanesIn m).foldl (fun (s : State) l =>
    (s.pageStore cl (callEntry k l.val + 32) (value l).toNat 8).pageStore cl (callEntry k l.val + 40) status 4) s
  s.pageStore cl (callHeader k + 16) ((s.cluster cl).doneBits k ||| m).toNat 4

/-! ### Restart of a shard -/

/-- RESTARTED (15 Table 7). -/
def stRestarted : Nat := 512

/-- Step 1 of R354 for one slot: every lane of ACTIVE whose DONE bit is 0 is answered RESTARTED with SEQ. -/
def State.restartCall (s : State) (cl k : Nat) (x : Call) : State :=
  let c := s.cluster cl
  s.replyTo cl k (x.lanes &&& ~~~ c.doneBits k) stRestarted fun _ => c.pw (callHeader k + 24)

/-- The slices that a cluster's service core gleans (R102). -/
def State.gleaned (s : State) (cl : Nat) : List Nat :=
  (s.slices.map Prod.fst).filter fun k => decide (k / 32 = cl / 16 ∧ (s.slice k).gcore = cl % 16)

/-- RESTART for every slot linked at a slice (R106). -/
def State.restartSlots (s : State) (home : Nat) : State :=
  (s.linked home).foldl (fun s a => s.glWake home a 2 (s.slotValue a) false) s

/-- THE RESTART OF A SHARD (R354): pending lanes are answered RESTARTED, then its gleaned slots; an action that it had deferred is gone. -/
def State.shardRestart (s : State) (cl : Nat) : State :=
  let s := (s.cluster cl).calls.foldl (fun (s : State) p => s.restartCall cl p.1 p.2) s
  let s := (s.gleaned cl).foldl (fun s k => s.restartSlots k) s
  { s with deferred := s.deferred.filter fun d => d.cl != cl }

/-- SHARD_RESTART of a cluster's shard (R354). -/
def execShardRestart (cl : Nat) (s : State) : Out := event s (decide (cl < 128)) (s.shardRestart cl)

end Sys2Proof.Machine
end

