-- ==== Sys2Proof/Machine/Walker.lean ====
section
/-! DEFINITION. The walker (R16, R17, R118 to R124), first touch and the silo (R128 to R130), shadow adds (R127), shootdowns (R131, R132), and translation for the service core's context window (R357). -/

namespace Sys2Proof.Machine

open Sys2Proof

/-! ### Reading tables -/

/-- What a table entry is at its level (05 Table 3). -/
inductive PteKind
  | invalid
  | table (next : Nat)
  | leaf (ty frame : Nat)
  | unbacked
deriving DecidableEq, Repr

/-- Log2 of the size of a page whose leaf stands at a level (R16). -/
def levelSize (lv : Nat) : Nat := if lv = 1 then 42 else if lv = 2 then 29 else 16

/-- The index of an address at a level (01 Table 3). -/
def levelIndex (lv va : Nat) : Nat := va / 2 ^ levelSize lv % 8192

/-- CLASSIFICATION of an entry (R17, R120). -/
def pteKind (lv : Nat) (x : DWord) : PteKind :=
  let ty := bits x 6 4
  let frame := bits x 51 16 * 2 ^ 16
  if !x.getLsbD 0 || bits x 55 52 != 0 || bits x 15 7 != 0 then .invalid
  else if ty = 0 then (if lv < 3 ∧ bits x 3 1 = 0 ∧ bits x 63 56 = 0 then .table frame else .invalid)
  else if ty = 1 ∨ ty = 2 then (if frame % 2 ^ levelSize lv = 0 then .leaf ty frame else .invalid)
  else if ty = 3 ∧ lv = 3 then .unbacked
  else .invalid

/-- The TLB entry of a leaf. -/
def leafEntry (asid lv page : Nat) (x : DWord) : TlbEntry :=
  { asid := asid, va := page * 2 ^ 16 / 2 ^ levelSize lv * 2 ^ levelSize lv, size := levelSize lv, frame := bits x 51 16 * 2 ^ 16,
    ty := bits x 6 4, ex := x.getLsbD 3, wr := x.getLsbD 2, rd := x.getLsbD 1, seed := bits x 63 56, hot := bits x 63 56 }

/-- Why the fabric or the home refuses a table entry to a walk, if it does (R22, R26, R124): the walker acts for the groups of an ASID, of which 0 is
privileged in origin. A table outside HBM is refused as in a reserved range (log 80). `cap` is MEMCAP when the request was routed (R139). -/
def pteRefused (asid cap a : Nat) : Option (BitVec 8) :=
  if pRange a != .hbm || (isFirmware a && asid != 0) then some clsProtection
  else if cap ≤ a then some clsCapacity
  else none

/-! ### Walks -/

/-- A walk of a cluster. -/
def Cluster.walk (c : Cluster) (asid page : Nat) : Option Walk := c.walks.find? (·.for_ asid page)

/-- Walks take the free walk slots in the order of their entries (R123). -/
def Cluster.startWalks (c : Cluster) : Cluster :=
  { c with walks := (c.walks.foldl (fun (p : Nat × List Walk) w =>
      if w.running then (p.1, p.2 ++ [w])
      else if p.1 < 64 then (p.1 + 1, p.2 ++ [{ w with running := true }]) else (p.1, p.2 ++ [w]))
      ((c.walks.filter (·.running)).length, [])).2 }

/-- A walk replaced. -/
def Cluster.setWalk (c : Cluster) (w : Walk) : Cluster := { c with walks := c.walks.map fun x => if x.for_ w.asid w.page then w else x }

/-- The walks that a leaf answers: those of its pages. -/
def TlbEntry.answers (e : TlbEntry) (w : Walk) : Bool := w.asid == e.asid && (w.page * 2 ^ 16) / 2 ^ e.size == e.va / 2 ^ e.size

/-- Walks of an address space have ended: its descriptor entry may free (R118). -/
def State.walksEnd (s : State) (cl asid : Nat) (c : Cluster) : State := (s.setCluster cl c.startWalks).dropDesc cl asid

/-- A WALK ENDS with a leaf at a level: it is installed, and every waiting request of its pages replays (R123). -/
def State.endWalk (s : State) (cl : Nat) (e : TlbEntry) (level : Nat) (x : DWord) : State :=
  let c := s.cluster cl
  let told (w : Walk) : List (Nat × Nat × Nat × XFault) := w.req.map fun r => (r, w.asid, w.page, { cls := 0, level := level, pte := x })
  let c := { c with
    xres := c.xres ++ ((c.walks.filter fun w => e.answers w && w.cas.isNone) ++ c.missWait.filter e.answers).flatMap told
    walks := c.walks.filter fun w => !e.answers w || w.cas.isSome, missWait := c.missWait.filter fun w => !e.answers w }
  (s.installTlb cl e).walksEnd cl e.asid c

/-- A WALK ENDS without a leaf: each joined request gets the class, the level and the entry (R123, R124). -/
def State.failWalk (s : State) (cl : Nat) (w : Walk) (f : XFault) : State :=
  let c := s.cluster cl
  let c := { c with
    walks := c.walks.filter fun x => !x.for_ w.asid w.page
    xres := c.xres ++ w.req.map fun r => (r, w.asid, w.page, f) }
  s.walksEnd cl w.asid c

/-- A walk that begins again from the root. -/
def Walk.again (w : Walk) : Walk := { w with level := 1, rooted := false, cas := none, redo := false }

/-- The root of a walk: from the descriptor cache, or from the descriptor that the context names (R118). -/
def State.rootWalk (s : State) (cl : Nat) (w : Walk) : Option (Walk × State) :=
  let c := s.cluster cl
  let take (d : Desc) (s : State) : Option (Walk × State) := if d.en then some ({ w with rooted := true, level := 1, table := d.root }, s) else none
  match SMap.find c.desc w.asid with
  | some d => take d s
  | none =>
    match s.readDesc w.desc with
    | some (a, d) => if a = w.asid then take d (s.setCluster cl { c with desc := SMap.set c.desc a d }) else none
    | none => none

/-- A descriptor with EN 0 is installed all the same (R118). -/
def State.rootFail (s : State) (cl : Nat) (w : Walk) : State :=
  let c := s.cluster cl
  let s := match SMap.find c.desc w.asid, s.readDesc w.desc with
    | none, some (a, d) => if a = w.asid then s.setCluster cl { c with desc := SMap.set c.desc a d } else s
    | _, _ => s
  s.failWalk cl w { cls := clsPage, level := 0, pte := 0 }

/-- A walk that has been rooted. -/
def State.rooted (s : State) (cl : Nat) (w : Walk) : Option (Walk × State) := if w.rooted then some (w, s) else s.rootWalk cl w

/-- The entry that a walk reads next. -/
def Walk.pteAddr (w : Walk) : Nat := w.table + 8 * levelIndex w.level (w.page * 2 ^ 16)

/-! ### The silo -/

/-- A saturating counter of 16 bits of a die raised: k is 0 EMPTY, 1 DISCARD, 2 RACE, 3 FILLS. -/
def State.siloCount (s : State) (d k : Nat) : State :=
  let x := s.die d
  s.setDie d (match k with
    | 0 => { x with empty := sat16 (x.empty + 1) }
    | 1 => { x with discard := sat16 (x.discard + 1) }
    | 2 => { x with race := sat16 (x.race + 1) }
    | _ => { x with fills := sat16 (x.fills + 1) })

/-- The address of a silo entry. -/
def Die.siloAddr (x : Die) (i : Nat) : Nat := x.base * 2 ^ 15 + 8 * (i % 4096)

/-- The entry below HEAD of a silo may be written now: no granule that is sealed holds it (R152). -/
def State.siloFree (s : State) (d : Nat) : Bool := let x := s.die d; !s.sealed (x.siloAddr (x.head + 2 ^ 32 - 1))

/-- A FRAME TAKEN from a silo; frames at or above MEMCAP are discarded (R128, R130). -/
def State.siloPop (s : State) (d : Nat) : Nat → Option Nat × State
  | 0 => (none, s)
  | n + 1 =>
    let x := s.die d
    if x.frames = 0 ∨ !x.en then (none, s)
    else
      let f := (s.dword (x.siloAddr x.head)).toNat
      let s := s.setSilo d { x with head := (x.head + 1) % 2 ^ 32 }
      if s.hub.memcap ≤ f then (s.siloCount d 1).siloPop d n else (some f, s)

/-- A frame pushed back: HEAD is lowered and its entry rewritten (R130). -/
def State.siloPush (s : State) (d f : Nat) : State :=
  let x := s.die d
  let h := (x.head + 2 ^ 32 - 1) % 2 ^ 32
  (s.setSilo d { x with head := h }).homeStore (x.siloAddr h) f 8

/-- An anonymous leaf with its frame (R128). -/
def backed (old : DWord) (f : Nat) : DWord :=
  BitVec.ofNat 64 (bits old 63 52 * 2 ^ 52 + f / 2 ^ 16 % 2 ^ 36 * 2 ^ 16 + bits old 15 7 * 2 ^ 7 + 16 + bits old 3 0)

/-! ### The steps -/

/-- A first-touch CAS sent to an entry's home (R128, R144). -/
def State.casReq (s : State) (cl a : Nat) (old : DWord) (f : Nat) : CasReq :=
  { addr := a, old := old, frame := f, cap := s.hub.memcap, route := s.routeAt cl }

/-- What a walk does with the entry that it has read (R120, R124): it goes on, ends, or asks the first-touch unit for a frame. -/
def State.walkEntry (s : State) (cl : Nat) (w : Walk) (a : Nat) (x : DWord) : State :=
  match pteKind w.level x with
  | .invalid => s.failWalk cl w { cls := clsPage, level := w.level, pte := x }
  | .table t => s.setCluster cl ((s.cluster cl).setWalk { w with level := w.level + 1, table := t })
  | .leaf _ _ => s.endWalk cl (leafEntry w.asid w.level w.page x) w.level x
  | .unbacked =>
    match s.siloPop (cl / 16) 4097 with
    | (none, s) => (s.siloCount (cl / 16) 0).failWalk cl w { cls := clsSilo, level := w.level, pte := x }
    | (some f, s) => s.setCluster cl ((s.cluster cl).setWalk { w with cas := some (s.casReq cl a x f) })

/-- A WALK STEP (R124): one table entry is read at its home. -/
def State.walkStep (s : State) (cl : Nat) (w : Walk) : State :=
  match s.rooted cl w with
  | none => s.rootFail cl w
  | some (w, s) =>
    let a := w.pteAddr
    match pteRefused w.asid s.hub.memcap a with
    | some k => s.failWalk cl w { cls := k, level := w.level, pte := 0 }
    | none =>
      match s.lineRead cl a 8 with
      | .wait s => s
      | .bad k s => s.failWalk cl w { cls := k, level := w.level, pte := 0 }
      | .ok s => s.walkEntry cl w a (s.dword a)

/-- WALK_STEP is due: the walk has a slot, and no CAS of it is in flight. -/
def State.walkDue (s : State) (cl asid page : Nat) : Option Walk :=
  match (s.cluster cl).walk asid page with
  | some w => if !w.running || w.cas.isSome then none else some w
  | none => none

/-- WALK_STEP of a cluster's walk for a page (R124). -/
def execWalkStep (cl asid page : Nat) (s : State) : Out :=
  match s.walkDue cl asid page with
  | some w => .next (s.walkStep cl w)
  | none => .next s

/-- A first-touch CAS that its home refuses: the scale region of a window too is not written (R23, R49). -/
def State.casRefused (s : State) (asid : Nat) (q : CasReq) : Option (BitVec 8) :=
  (pteRefused asid q.cap q.addr).or (if s.scaleHit q.addr 8 then some clsProtection else none)

/-- THE RESULT OF A FIRST-TOUCH CAS at the entry's home (R128). -/
def State.casResult (s : State) (cl : Nat) (w : Walk) (q : CasReq) : State :=
  let d := cl / 16
  let a := q.addr
  match s.casRefused w.asid q with
  | some k => (s.siloPush d q.frame).failWalk cl w { cls := k, level := w.level, pte := 0 }
  | none =>
    let s := s.needLine a
    if s.linePsn a then ((s.deliverPsn (s.homeNow a) a).siloPush d q.frame).failWalk cl w { cls := s.poisonClass a, level := w.level, pte := 0 }
    else if s.dword a = q.old then
      let x := backed q.old q.frame
      let s := (s.homeStore a x.toNat 8).siloCount d 3
      if w.redo then s.setCluster cl ((s.cluster cl).setWalk w.again)
      else (s.setCluster cl ((s.cluster cl).setWalk { w with cas := none })).endWalk cl (leafEntry w.asid 3 w.page x) 3 x
    else
      let s := (s.siloPush d q.frame).siloCount d 2
      s.setCluster cl ((s.cluster cl).setWalk (if w.redo then w.again else { w with cas := none, level := 3 }))

/-- FIRST_TOUCH_CAS_RESULT is due: neither the entry's granule nor the silo's page, to which the frame may return, is sealed (R148, R152). -/
def State.casDue (s : State) (cl asid page : Nat) : Option (Walk × CasReq) :=
  match (s.cluster cl).walk asid page with
  | some w => match w.cas with
    | some q => if (s.fateBy q.route q.addr).passes && !s.fillHeld q.addr && s.siloFree (cl / 16) then some (w, q) else none
    | none => none
  | none => none

/-- FIRST_TOUCH_CAS_RESULT (R128); one refused with MOVED is sent again (R149). -/
def execFirstTouchCasResult (cl asid page : Nat) (s : State) : Out :=
  match s.casDue cl asid page with
  | some (w, q) =>
    if s.fateBy q.route q.addr = .moved then
      let s := s.movedAt cl
      .next (s.setCluster cl ((s.cluster cl).setWalk { w with cas := some (s.casReq cl q.addr q.old q.frame) }))
    else .next (s.casResult cl w q)
  | none => .next s

/-- A MISS ADMITTED (R123): the first waiting one joins the entry of its page, or takes a free entry. -/
def Cluster.admitNext (c : Cluster) : Cluster :=
  match c.missWait with
  | [] => c
  | w :: ws =>
    let c := { c with missWait := ws }
    if c.walks.any (·.for_ w.asid w.page) then
      { c with walks := c.walks.map fun x => if x.for_ w.asid w.page then w.req.foldl (fun x r => x.join r) x else x }
    else ({ c with walks := c.walks ++ [{ w with running := false }] }).startWalks

/-- MISS_MERGE_ADMIT is due. -/
def Cluster.admitDue (c : Cluster) : Bool :=
  match c.missWait with
  | [] => false
  | w :: _ => c.walks.any (·.for_ w.asid w.page) || decide (c.walks.length < 256)

/-- MISS_MERGE_ADMIT on a cluster (R123). -/
def execMissMergeAdmit (cl : Nat) (s : State) : Out :=
  event s (s.cluster cl).admitDue (s.setCluster cl (s.cluster cl).admitNext)

/-! ### Shadow adds -/

/-- A SHADOW ADD at its counter's home (R127): saturating at 0xFFFF, or dropped and counted: also where the home refuses it or the line is poisoned (R49,
R54; log 80). SHDROP has no width, and is not bounded (log 80). -/
def State.shadowAdd (s : State) (x : Nat × Nat × Nat × Nat × Nat) : State :=
  let (cl, base, lim, n, k) := x
  let a := base + 2 * n
  let drop := decide (base = 0 ∨ lim ≤ n ∨ s.hub.memcap ≤ a) || pRange a != .hbm || s.scaleHit a 2 || (s.needLine a).linePsn a
  if drop then
    let c := s.cluster cl
    s.setCluster cl { c with shdrop := c.shdrop + 1 }
  else (s.needLine a).homeStore a (sat16 (Memory.read s.mem a 2 + k)) 2

/-- SHADOW_ADD of the `i`-th add on its way; it waits while its granule is sealed, and is sent again after MOVED (R148, R149). -/
def execShadowAdd (i : Nat) (s : State) : Out :=
  match s.shadows[i]? with
  | some x =>
    let a := x.2.1 + 2 * x.2.2.2.1
    event s (s.passes x.1 a && !s.fillHeld a && !s.behindRing a 2 && !s.ringHolds (s.homeNow a) a 2)
      (s.sendFrom x.1 a fun s => { s with shadows := s.shadows.eraseIdx i }.shadowAdd x)
  | none => .next s

/-! ### Shootdowns -/

/-- A shootdown matches an entry (R131). -/
def tlbMatches (scope asid va : Nat) (e : TlbEntry) : Bool :=
  match scope with
  | 0 => true
  | 1 => e.asid == asid
  | _ => e.hit asid va

/-- Matching entries leave a cluster's TLBs, micro-TLBs first; their counters become shadow adds (R126, R127, R132). -/
def State.dropTlb (s : State) (cl scope asid va : Nat) : State :=
  let s := (List.range 8).foldl (fun (s : State) j =>
    ((s.core (8 * cl + j)).utlb.filter (tlbMatches scope asid va)).foldl (fun s e => s.foldMicro (8 * cl + j) e) s) s
  ((s.cluster cl).tlb.filter (tlbMatches scope asid va)).foldl (fun s e => s.evictTlb cl e) s

/-- A walk could install an entry that matches: for one page, a walk of the ASID within the largest page that may hold it. -/
def walkMatches (scope asid va : Nat) (w : Walk) : Bool :=
  match scope with
  | 0 => true
  | 1 => w.asid == asid
  | _ => w.asid == asid && w.page * 2 ^ 16 / 2 ^ 42 == va / 2 ^ 42

/-- Matching walks are discarded and made again; one whose CAS is in flight after it (R128, R132). -/
def Cluster.redoWalks (c : Cluster) (scope asid va : Nat) : Cluster :=
  { c with
    walks := c.walks.map fun w => if walkMatches scope asid va w then (if w.cas.isSome then { w with redo := true } else w.again) else w
    xres := c.xres.filter fun x => !walkMatches scope asid va { asid := x.2.1, page := x.2.2.1, desc := 0, req := [] }
    desc := if scope = 1 then SMap.del c.desc asid else c.desc }

/-- A shootdown may have removed the translation of an address. -/
def scopeHas (scope asid va : Nat) (of : Nat) (ea : DWord) : Bool :=
  match scope with
  | 0 => true
  | 1 => of == asid
  | _ => of == asid && ea.toNat / 2 ^ 42 == va / 2 ^ 42

/-- The same of the addresses of an access. -/
def Access.scoped (a : Access) (cls : List Nat) (scope asid va : Nat) : Bool :=
  a.space == .global && cls.contains (slotCluster a.slot) && a.ea.toList.any fun x => scopeHas scope asid va a.asid x

/-- The accesses of some clusters that are not performed and may have used a removed translation. -/
def State.tlbUsers (s : State) (cls : List Nat) (scope asid va : Nat) : List Nat :=
  (s.accs.filter fun p => !p.2.performed && !p.2.stale && p.2.scoped cls scope asid va).map Prod.fst

/-- A group of a slot with a WAIT whose translation a shootdown may have removed. -/
def Group.waitScoped (g : Group) (cls : List Nat) (slot scope asid va : Nat) : Bool :=
  cls.contains (slotCluster slot) && (match g.wait with
    | some w => !w.sp && scopeHas scope asid va g.asid w.ea
    | none => false)

/-- The WAIT requests of some clusters that are on their way and may have used a removed translation. -/
def State.waitUsers (s : State) (cls : List Nat) (scope asid va : Nat) : List (Nat × Nat) :=
  s.waits.filter fun x => (s.group x.1).uid == x.2 && (s.group x.1).waitScoped cls x.1 scope asid va

/-- What waits for the answer to a record is translated again when it is performed again (R132, R412). -/
def State.staleRedos (s : State) (cls : List Nat) (scope asid va : Nat) : State :=
  let mark (p : Nat × Group) : Nat × Group :=
    if p.2.waitScoped cls p.1 scope asid va && !s.waits.contains (p.1, p.2.uid) then (p.1, { p.2 with wait := p.2.wait.map fun w => { w with stale := true } })
    else p
  { s with
    redos := s.redos.map fun p => if p.2.scoped cls scope asid va then (p.1, { p.2 with stale := true }) else p
    groups := s.groups.map mark }

/-- The copies of some clusters that may have used a removed translation. -/
def State.copyUsers (s : State) (cls : List Nat) (scope asid : Nat) : List Nat :=
  (s.copies.filter fun p => cls.contains (slotCluster p.2.slot) && (scope == 0 || p.2.asid == asid)).map Prod.fst

/-- The clusters of a mask. -/
def clustersOf (m : BitVec 128) : List Nat := (List.range 128).filter m.getLsbD

/-- Bit `t` of a byte set or cleared. -/
def setBit (b : BitVec 8) (t : Nat) (v : Bool) : BitVec 8 := if v then b ||| BitVec.ofNat 8 (2 ^ t) else b &&& ~~~ BitVec.ofNat 8 (2 ^ t)

/-- A SHOOTDOWN STARTS (R131, R132): entries and walks go at once; what used them is waited for. -/
def State.shootdown (s : State) (c : Nat) (v : DWord) : State :=
  let scope := bits v 63 62
  let t := bits v 61 59
  let va := bits v 54 16 * 2 ^ 16
  let asid := bits v 15 0
  let x := s.svcCore c
  let cls := clustersOf x.tlbinvm
  let s := s.setSvc c { x with tlbinv := v, tlbBusy := setBit x.tlbBusy t true, tlbDone := setBit x.tlbDone t false }
  let s := cls.foldl (fun (s : State) cl =>
    let s := s.dropTlb cl scope asid va
    s.setCluster cl ((s.cluster cl).redoWalks scope asid va)) s
  let s := s.staleRedos cls scope asid va
  { s with shoots := s.shoots ++ [{ core := c, token := t, scope := scope, asid := asid, va := va, clusters := cls,
                                    accs := s.tlbUsers cls scope asid va, copies := s.copyUsers cls scope asid,
                                    waits := s.waitUsers cls scope asid va }] }

/-- A shootdown is complete in every named cluster (R132). -/
def State.shootOver (s : State) (d : Shootdown) : Bool :=
  s.accsDone d.accs && d.waits.all (fun w => !s.waits.contains w) && d.copies.all (fun k => (SMap.find s.copies k).isNone) &&
  d.clusters.all fun cl => !(s.cluster cl).walks.any fun w => w.redo && walkMatches d.scope d.asid d.va w

/-- The token of a shootdown is complete: BUSY clears and DONE is set. -/
def State.shootDone (s : State) (d : Shootdown) : State :=
  let x := s.svcCore d.core
  { s.setSvc d.core { x with tlbBusy := setBit x.tlbBusy d.token false, tlbDone := setBit x.tlbDone d.token true } with
    shoots := s.shoots.erase d }

/-- The shootdown of a core's token, when it is complete. -/
def State.shootDue (s : State) (c t : Nat) : Option Shootdown := s.shoots.find? fun d => d.core == c && d.token == t && s.shootOver d

/-- SHOOTDOWN_COMPLETE of a token of a service core (R132). -/
def execShootdownComplete (c t : Nat) (s : State) : Out :=
  match s.shootDue c t with
  | some d => .next (s.shootDone d)
  | none => .next s

/-! ### The context window -/

/-- The check of `n` bytes that a service core reaches in an address space (R357): a translation fault or an ASID that is not live is
reported as PAGE, everything else as its class. -/
def State.winChk (s : State) (cl asid : Nat) (r : Right) (n : Nat) (va : DWord) : LaneChk :=
  if (SMap.find (s.cluster cl).desc asid).isNone then .fault clsPage 0 va false 0 0
  else
    match s.xlateIn cl winReq asid va.toNat with
    | .wait => .wait (va.toNat / 2 ^ 16)
    | .fault _ nc lv pte => .fault clsPage 0 va nc lv pte
    | .ok e =>
      let pa := e.pa va.toNat
      if e.ty = 2 ∨ !e.permits r then .fault clsProtection 0 va false 0 0
      else
        match s.refuse true r e.ty pa n with
        | some k => .fault k 0 va false 0 0
        | none => if r != .store && (s.needLine pa).linePsn pa then .fault clsPoison 0 va false 0 0 else .ok pa (some e)

/-- The lines of a range of addresses: where each part starts, and its bytes. -/
def lineParts (a n : Nat) : List (Nat × Nat) :=
  if n = 0 then []
  else (List.range ((a + n - 1) / 128 - a / 128 + 1)).map fun k =>
    let lo := max a ((a / 128 + k) * 128)
    (lo, min (a + n) ((a / 128 + k + 1) * 128) - lo)

/-- The check of a range that a service core reaches through the window. -/
def State.winRange (s : State) (cl asid : Nat) (r : Right) (va n : Nat) : CopyChk :=
  copyChks ((lineParts va n).map fun p => s.winChk cl asid r p.2 (BitVec.ofNat 64 p.1))

/-- The places that a range reaches through the window, after its check. -/
def State.winPlaces (s : State) (cl asid : Nat) (r : Right) (va n : Nat) : List (Nat × Nat) :=
  (lineParts va n).map fun p => ((s.winChk cl asid r p.2 (BitVec.ofNat 64 p.1)).pa, p.2)

/-- The poison that a refused read through the window met, counted at its homes (R55). -/
def State.winPoison (s : State) (cl asid va n : Nat) (cls : BitVec 8) : State :=
  if cls = clsPoison then
    (lineParts va n).foldl (fun s p => match s.xlateIn cl winReq asid p.1 with
      | .ok e => s.unitPoison (e.pa p.1)
      | _ => s) s
  else s

/-- Bytes written through the window, after its check. -/
def State.winWrite (s : State) (cl asid va : Nat) (bs : List Byte) : State :=
  (lineParts va bs.length).foldl (fun s' p =>
    let pa := (s.winChk cl asid .store p.2 (BitVec.ofNat 64 p.1)).pa
    let part := ((bs.drop (p.1 - va)).take p.2).zipIdx.map fun x => (x.2, x.1)
    (s'.unitWrite pa part (decide (p.2 = 128))).unstage pa) s

/-- Misses of the window admitted to the walker. -/
def State.winMiss (s : State) (cl asid : Nat) (pages : List Nat) : State :=
  s.admitPages cl asid ((SMap.get (s.cluster cl).desc asid { en := false, root := 0, shadow := 0, shlimit := 0, addr := 0 }).addr) winReq pages

end Sys2Proof.Machine
end

