-- ==== Sys2Proof/Machine/TeamEvents.lean ====
section
/-! DEFINITION. The task unit's own actions: the order of placement and reservation (R170, R171), the restore of a saved team (R177), retirement and the completion word (R172), task servers (R173), GROW (R179), time-outs of convergence registers (R240), and what service cores ask through LAUNCHP, PREQ and UISEND (R358 to R360). -/

namespace Sys2Proof.Machine

open Sys2Proof

/-! ### Placement -/

/-- A team that waits for its placement: the next team of a launch, or a saved team. -/
inductive Waiting
  | launch (id : Nat)
  | saved (id : Nat)
deriving DecidableEq, Repr

/-- A launch. -/
def State.launch (s : State) (id : Nat) : Launch := SMap.get s.launches id {}

/-- Teams of a launch. -/
def Launch.total (la : Launch) : Nat := let r : LaunchRec := la.words; r.x * r.y * r.z

/-- ROOT of a descriptor at an address. -/
def State.rootAt (s : State) (desc : Nat) : Nat := match s.readDesc desc with
  | some (_, d) => d.root
  | none => 0

/-- The clusters that launches other than one have reserved (R171). -/
def State.reservedFor (s : State) (id c : Nat) : Bool :=
  s.launches.any fun p => p.1 != id && p.2.reserved && (s.maskClusters p.2.rcb).contains c

/-- The chunks that core `j` of a saved team needs (R169, R177). -/
def SavedTeam.needs (v : SavedTeam) (j : Nat) : Nat :=
  let gs := (v.groups.filter fun p => p.1 % v.team.cores == j && !p.2.gone).map Prod.snd
  v.team.chunks + groupChunks gs

/-- The groups of core `j` of a saved team. -/
def SavedTeam.count (v : SavedTeam) (j : Nat) : Nat := (v.groups.filter fun p => p.1 % v.team.cores == j).length

/-- The launch of a saved team. -/
def SavedTeam.launchId (v : SavedTeam) : Nat := v.team.launch

/-- Where a waiting team would be placed, if it fits (R170, R171, R118, R177). -/
def State.placeAt (s : State) (w : Waiting) : Option Nat :=
  match w with
  | .launch id =>
    let la := s.launch id
    let r : LaunchRec := la.words
    if la.next < la.total && s.accsDone la.rel then s.findCore (s.fits r) la.rcb la.asid (s.rootAt la.desc) (s.reservedFor id) else none
  | .saved a =>
    let v := s.savedTeam a
    let la := s.launch v.launchId
    let c := v.team.cores
    let k := if v.team.paired then 2 * c else c
    if v.valid && v.want.isSome then
      s.findCore (s.fitsShape k v.team.acc (fun j => v.needs (j % c)) fun j => v.count (j % c)) la.rcb la.asid (s.rootAt la.desc)
        (s.reservedFor v.launchId)
    else none

/-- Priority and submission order of a waiting team: a lower pair goes first (R171). -/
def State.rank (s : State) (w : Waiting) : Nat × Nat :=
  match w with
  | .launch id => (15 - s.regionPrio (s.launch id).rcb, id)
  | .saved a => let v := s.savedTeam a; (15 - s.regionPrio (s.launch v.launchId).rcb, v.want.getD 0)

/-- The waiting teams. -/
def State.waitings (s : State) : List Waiting :=
  s.launches.map (fun p => Waiting.launch p.1) ++ (s.saved.filter fun p => p.2.valid && p.2.want.isSome).map fun p => Waiting.saved p.1

/-- The team that is placed next: the first in order of those that fit (R171). -/
def State.nextPlaced (s : State) : Option (Waiting × Nat) :=
  (s.waitings.filterMap fun w => (s.placeAt w).map fun f => (w, f)).foldl (fun o x =>
    match o with
    | none => some x
    | some y =>
      let a := s.rank x.1
      let b := s.rank y.1
      if a.1 < b.1 || (a.1 == b.1 && decide (a.2 < b.2)) then some x else some y) none

/-- A group of a saved team placed in a slot, whose routine will load its registers (R177). -/
def State.placeSavedGroup (s : State) (tm : Nat) (g : Group) : State :=
  let t := s.team tm
  let slot := s.pickSlot (t.core + g.gidx % t.cores)
  let g := { g with st := .saving, team := tm, v := [], s := [], q := [], restoring := true }
  (s.setGroup slot (s.starts g)).setTeam tm { t with slots := SMap.set t.slots g.gidx slot }

/-- The descriptor of an address space loaded into a cluster at a placement (R118). -/
def State.loadDesc (s : State) (cl asid desc : Nat) : State :=
  let c := s.cluster cl
  match SMap.find c.desc asid, s.readDesc desc with
  | none, some (a, d) => s.setCluster cl { c with desc := SMap.set c.desc a d }
  | _, _ => s

/-- A call of a saved team placed in a cluster's call page, with its DONE bits; without a free slot it waits for one (R356). -/
def State.placeCall (s : State) (cl slot : Nat) (x : Call) (ws : List DWord) : State :=
  let c := s.cluster cl
  let x := { x with slot := slot }
  match (if ws.isEmpty then none else c.freeCall) with
  | none => s.setCluster cl { c with callWait := c.callWait ++ [x] }
  | some k =>
    let c := ((ws.take 8).zipIdx).foldl (fun (c : Cluster) w => c.pset (callHeader k + 8 * w.2) w.1.toNat 8) c
    let c := ((ws.drop 8).zipIdx).foldl (fun (c : Cluster) w => c.pset (callEntry k 0 + 8 * w.2) w.1.toNat 8) c
    let c := c.pset (callHeader k) ((ws.getD 0 0) ||| BitVec.ofNat 64 (2 ^ 63)).toNat 8
    let s := s.setCluster cl { c with calls := SMap.set c.calls k { x with due := c.doneBits k &&& x.left } }
    let v := s.svcCore cl
    s.setSvc cl { v with callpend := v.callpend ||| BitVec.ofNat 28 (2 ^ k) }

/-- The place of a trailing group, which the restore of its leading group fills (R367). -/
def State.placeTrailing (s : State) (tr asid : Nat) (g : Group) : State :=
  let t := s.team tr
  let slot := s.pickSlot (t.core + g.gidx % t.cores)
  let (uid, s) := s.fresh
  let h : Group :=
    { st := .saving, team := tr, gidx := g.gidx, uid := uid, vblk := g.vblk, sblk := g.sblk, sids := g.sids, asid := asid, rcb := g.rcb,
      ctx := (Config.context uid) % 2 ^ 20, ckptcnt := g.ckptcnt, exited := g.exited }
  (s.setGroup slot h).setTeam tr { t with slots := SMap.set t.slots g.gidx slot }

/-- The trailing copy of a saved team that is placed: its cores lie behind those of the leading one, and a checkpoint is due (R362, R367). -/
def State.placeSecond (s : State) (tm : Nat) (v : SavedTeam) (asid : Nat) : State :=
  let t := s.team tm
  if !t.paired then s
  else
    let (tr, s) := s.fresh
    let s := s.setTeam tr { t with core := t.core + t.cores, pair := some tm, trail := true, slots := [], restored := false }
    let s := s.updTeam tm fun t => { t with pair := some tr, wantCkpt := true }
    let s := v.groups.foldl (fun s p => s.placeTrailing tr asid p.2) s
    let f := t.core + t.cores
    let s := (List.range t.cores).foldl (fun s j => s.setCore (f + j) ((s.core (f + j)).giveTiles tr t.acc)) s
    { s with launches := SMap.upd s.launches v.launchId {} fun la => { la with live := la.live ++ [tr] } }

/-- A SAVED TEAM PLACED (R177): its shape, the state of the sync unit, its groups, whose routines will run, its calls; an acquire. -/
def State.placeSaved (s : State) (a f : Nat) : State :=
  let v := s.savedTeam a
  let la := s.launch v.launchId
  let (tm, s) := s.fresh
  let t := { v.team with core := f, slots := [], spad := [], spadPsn := [], badPar := [], restored := true, cvLimit := s.cvTimeout la.rcb }
  let s := s.setTeam tm t
  let s := v.groups.foldl (fun s p => s.placeSavedGroup tm p.2) s
  let s := s.loadDesc (f / 8) la.asid la.desc
  let s := (List.range t.cores).foldl (fun s j => s.setCore (f + j) ((s.core (f + j)).giveTiles tm t.acc)) s
  let s := (List.range t.cores).foldl (fun s j => (s.trimL1 (f + j)).acquireInval (f + j)) s
  let s := (s.areaCalls v).foldl (fun (s : State) x =>
    match (s.team tm).slots.find? fun p => (s.group p.2).uid == x.1.uid with
    | some p => s.placeCall (f / 8) p.2 x.1 x.2
    | none => s) s
  let live := (s.launch v.launchId).live
  let s := { s with
    saved := SMap.del s.saved a
    launches := SMap.upd s.launches v.launchId {} fun la => { la with live := live ++ [tm] } }
  s.placeSecond tm v la.asid

/-- A TEAM OF A LAUNCH PLACED, a paired one as two copies (R170, R362), with its first checkpoint due (R367). -/
def State.placeNext (s : State) (id f : Nat) : State :=
  let la := s.launch id
  let r : LaunchRec := la.words
  let (tm, s) := s.placeTeam id r la.next f
  if !r.paired then s
  else
    let (tm', s) := s.placeTeam id r la.next (f + r.cores)
    let s := s.updTeam tm fun t => { t with pair := some tm', wantCkpt := true }
    s.updTeam tm' fun t => { t with pair := some tm, trail := true }

/-- TEAM_PLACE is due for the waiting team. -/
def State.placeDue (s : State) (w : Waiting) : Option Nat :=
  match s.nextPlaced with
  | some (x, f) => if x = w then some f else none
  | none => none

/-- TEAM_PLACE: the next team of a launch, or with `restore` the saved team of an area (R170, R171, R177). -/
def execTeamPlace (restore : Bool) (id : Nat) (s : State) : Out :=
  match s.placeDue (if restore then .saved id else .launch id) with
  | some f => .next (if restore then s.placeSaved id f else s.placeNext id f)
  | none => .next s

/-- LAUNCH_RESERVE is due: the next team has waited more than 3,000,000 cycles (R171). -/
def State.reserveDue (s : State) (id : Nat) : Bool :=
  match SMap.find s.launches id with
  | some la => !la.reserved && decide (la.next < la.total) && decide (3000000 < s.cycle - la.since)
  | none => false

/-- LAUNCH_RESERVE of a launch (R171). -/
def execLaunchReserve (la : Nat) (s : State) : Out :=
  event s (s.reserveDue la) { s with launches := SMap.upd s.launches la {} fun x => { x with reserved := true } }

/-! ### Routines -/

/-- SAVE_ROUTINE_START in a slot (R176); a restored group's routine starts in the same way (R177). -/
def execSaveRoutineStart (slot : Nat) (s : State) : Out := event s (s.routineDue slot) (s.startRoutine slot)

/-! ### Retirement -/

/-- Where the completion word of a launch is (R172): nothing to write, an address, a walk to wait for, or the class of a failure. -/
inductive CwChk
  | none_
  | ok (pa : Nat) (e : TlbEntry)
  | wait (page : Nat)
  | fault (cls : BitVec 8)
deriving DecidableEq, Repr

/-- The check of CWADDR with the launch's rights on a cluster (R172). -/
def State.cwChk (s : State) (cl id : Nat) : CwChk :=
  let la := s.launch id
  let a := (la.words.getD 8 0).toNat
  if a = 0 then .none_
  else
    match s.xlateIn cl (launchReq id) la.asid a with
    | .wait => .wait (a / 2 ^ 16)
    | .fault k _ _ _ => .fault k
    | .ok e =>
      if e.ty = 2 ∧ la.asid ≠ 0 then .fault clsPrivilege
      else if !e.permits .store then .fault clsProtection
      else
        match s.refuse (la.asid == 0) .store e.ty (e.pa a) 4 with
        | some k => .fault k
        | none => .ok (e.pa a) e

/-- The teams that retire together: both copies of a pair (R362). -/
def State.retiring (s : State) (tm : Nat) : List Nat := match (s.team tm).pair with
  | some p => [tm, p]
  | none => [tm]

/-- The team of an access's group. -/
def State.teamOf (s : State) (a : Access) : Option Nat := if (s.prog a.slot).uid = a.uid then some (s.prog a.slot).team else none

/-- A team's groups have all exited, with nothing left that holds it (R172); a pre-emption takes it first. -/
def State.retireReady (s : State) (tm : Nat) : Bool :=
  (SMap.find s.teams tm).isSome && !(s.team tm).trail && (s.retiring tm).all fun k =>
    s.teamOver k && !s.retireHeld k && (s.team k).pre == .none_ && !(s.team k).restored && !s.accs.any fun a => a.2.trail && s.teamOf a.2 == some k

/-- The last team of its launch. -/
def State.isLast (s : State) (tm : Nat) : Bool :=
  let la := s.launch (s.team tm).launch
  decide (la.total ≤ la.next) && la.live.all fun k => (s.retiring tm).contains k

/-- The stores that the end of a launch waits for (R172, R402). -/
def State.launchStores (s : State) (tm : Nat) : List Nat := (s.launch (s.team tm).launch).stores ++ (s.retiring tm).flatMap s.teamStores

/-- TEAM_RETIRE is due: for the last team also every store of the launch is performed, and its word's home can take it (R172). -/
def State.retireDue (s : State) (tm : Nat) : Bool :=
  s.retireReady tm && s.commitFree tm &&
  (!s.isLast tm || (s.accsDone (s.launchStores tm) &&
    (match s.cwChk ((s.team tm).core / 8) (s.team tm).launch with
      | .ok pa _ => s.unitFree ((s.team tm).core / 8) pa 4 true
      | _ => true)))

/-- LAUNCH_COMPLETION_WRITE, and the unit of LPOOL (R172, R328). -/
def State.endLaunch (s : State) (cl id : Nat) (w : CwChk) : State :=
  let la := s.launch id
  let s := match w with
    | .ok pa e => (s.useTlbsIn cl [e]).unitWrite pa (valueBytes (la.words.getD 9 0).toNat 4) false
    | .fault k => s.machineCheck cl (.launch la.addr k)
    | _ => s
  { s.charge useLaunch la.rcb (-1) with launches := SMap.del s.launches id }

/-- A TEAM RETIRES (R172). -/
def State.retire (s : State) (tm : Nat) : State :=
  let id := (s.team tm).launch
  let cl := (s.team tm).core / 8
  let last := s.isLast tm
  let s := s.commitTeam tm
  match (if last then s.cwChk cl id else .none_) with
  | .wait p => s.admitPages cl (s.launch id).asid (s.launch id).desc (launchReq id) [p]
  | w =>
    let stores := s.launchStores tm
    let s := (s.retiring tm).foldl (fun s k => s.freeTeam k) s
    let s := { s with launches := SMap.upd s.launches id {} fun la => { la with stores := stores } }
    if last then s.endLaunch cl id w else s

/-- TEAM_RETIRE (R172). -/
def execTeamRetire (tm : Nat) (s : State) : Out :=
  let cl := (s.team tm).core / 8
  event s (s.retireDue tm) (match (if s.isLast tm then s.cwChk cl (s.team tm).launch else .none_) with
    | .ok pa _ => s.sendFrom cl pa fun s => s.retire tm
    | _ => s.retire tm)

/-! ### Task servers -/

/-- TSRV of a region (07 Table 5). -/
def State.tsrv (s : State) (rcb : Nat) : Nat := bits (s.rcbW rcb 12) 51 7 * 128

/-- TASK_SERVER_REQUEST is due: a task of the region has been ready for 1 ms with no group of it blocked in tget there (R173). -/
def State.serverDue (s : State) (cl rcb : Nat) : Bool :=
  ((s.cluster cl).ready.any fun t => t.rcb == rcb && decide (1000000 ≤ s.tstamp.toNat - t.readyAt)) && (s.serving cl rcb).isEmpty &&
  s.tsrv rcb != 0 && (s.svcCore cl).tsreq == 0

/-- TASK_SERVER_REQUEST: TSREQ of the cluster's service core (R173, R344). -/
def execTaskServerRequest (cl rcb : Nat) (s : State) : Out :=
  event s (s.serverDue cl rcb) (s.setSvc cl { s.svcCore cl with tsreq := BitVec.ofNat 64 rcb })

/-! ### GROW -/

/-- The GROW that a group is blocked in: blocks, destination, since. -/
def Group.growing (g : Group) : Option (Nat × Nat × Dest × Nat) := g.blocks.findSome? fun b => match b with
  | .grow v q d t => some (v, q, d, t)
  | _ => none

/-- The slots of a core blocked in GROW, with the cycle of each request. -/
def State.growQueue (s : State) (core : Nat) : List (Nat × Nat) :=
  (s.groups.filter fun p => slotCore p.1 == core && p.2.growing.isSome).map fun p => ((p.2.growing.getD (0, 0, ⟨.zero, 0, 0, 0⟩, 0)).2.2.2, p.1)

/-- The earliest request of a list; of two of one cycle that of the lower slot. -/
def earliest (l : List (Nat × Nat)) : Option Nat :=
  (l.foldl (fun (o : Option (Nat × Nat)) x => match o with
    | none => some x
    | some y => if x.1 < y.1 || (x.1 == y.1 && decide (x.2 < y.2)) then some x else some y) none).map Prod.snd

/-- A GROW completes with a result. -/
def State.endGrow (s : State) (slot : Nat) (ok : Bool) : State :=
  match (s.group slot).growing with
  | none => s
  | some (v, q, d, t) =>
    let s := if ok then s.growGroup slot v q else s
    (s.putUniform slot (.grow v q d t) d (if ok then 0 else 1)).unblock slot (.grow v q d t) 0

/-- A blocked GROW fits now. -/
def State.growOk (s : State) (slot : Nat) : Bool := match (s.group slot).growing with
  | some (v, q, _, _) => (s.group slot).st == .blocked && s.growFits slot v q
  | none => false

/-- Every non-exited group on a core is blocked in GROW. -/
def State.allGrowing (s : State) (core : Nat) : Bool :=
  s.groups.all fun p => slotCore p.1 != core || p.2.gone || (p.2.growing.isSome && p.2.st == .blocked)

/-- What GROW_GRANT does on a core (R179): the earliest request is granted when it fits; where it does not and every group is blocked, the lowest
group is denied. -/
def State.growNext (s : State) (core : Nat) : Option (Nat × Bool) :=
  let q := s.growQueue core
  match earliest q with
  | some k =>
    if s.growOk k then some (k, true)
    else if s.allGrowing core then some ((q.map Prod.snd).foldl min k, false) else none
  | none => none

/-- GROW_GRANT on a core (R179). -/
def execGrowGrant (core : Nat) (s : State) : Out :=
  match s.growNext core with
  | some (k, ok) => .next (s.endGrow k ok)
  | none => .next s

/-- GROW_TIMEOUT is due: blocked for 3,000,000 cycles (R179). -/
def State.growLate (s : State) (slot : Nat) : Bool := match (s.group slot).growing with
  | some (_, _, _, t) => (s.group slot).st == .blocked && decide (3000000 ≤ s.cycle - t)
  | none => false

/-- GROW_TIMEOUT of a slot: DENIED (R179). -/
def execGrowTimeout (slot : Nat) (s : State) : Out := event s (s.growLate slot) (s.endGrow slot false)

/-! ### Time-outs of convergence registers -/

/-- CV_TIMEOUT of a register of a team (R240). -/
def execCvTimeout (tm n : Nat) (s : State) : Out := event s (s.cvLate tm n) (s.cvFault tm n)

/-! ### Launch port, pre-emption, user interrupts -/

/-- The status of a submission in LAUNCHST (R358). -/
def State.setLaunchSt (s : State) (c st : Nat) : State := s.setSvc c { s.svcCore c with launchBusy := false, launchSt := st }

/-- The words of a record at a physical address, where there is memory. -/
def State.readWords (s : State) (pa n : Nat) : Option (List DWord) :=
  if pRange pa != .hbm || decide (s.hub.memcap < pa + 8 * n) || (s.needLine pa).linePsn pa then none
  else some ((List.range n).map fun k => s.dword (pa + 8 * k))

/-- LAUNCH_PORT_LAUNCH (R358): the record is checked as tlaunch's is, at depth 1. -/
def State.portLaunch (s : State) (c pa : Nat) : State :=
  match s.readWords pa 16 with
  | none => s.setLaunchSt c 6
  | some w =>
    match s.submitStatus w none 1 with
    | 0 =>
      let r : LaunchRec := w
      (s.enqueueLaunch w (BitVec.ofNat 64 pa) 1 (r.w 6).toNat (r.w 7).toNat c true []).setLaunchSt c 0
    | n => s.setLaunchSt c n

/-- LAUNCH_PORT_RESTORE (R358): the header of an area is read, and the saved team that it holds waits for its placement; an area without one is a
bad record. -/
def State.portRestore (s : State) (c a : Nat) : State :=
  match s.readWords a 64 with
  | none => s.setLaunchSt c 6
  | some _ =>
    match s.areaTeam a with
    | none => s.setLaunchSt c 6
    | some (id, v) =>
      let (n, s) := s.fresh
      ({ s with saved := SMap.set s.saved id { s.readArea a v with want := some n } }).setLaunchSt c 0

/-- A write of LAUNCHP; none is an illegal instruction (R358). -/
def State.writeLaunchp (s : State) (c : Nat) (v : DWord) : Option State :=
  if (s.svcCore c).launchBusy || bits v 63 52 != 0 || bits v 6 1 != 0 then none
  else some (if v.getLsbD 0 then s.portRestore c (bits v 51 7 * 128) else s.portLaunch c (bits v 51 7 * 128))

/-- The team whose group 0 is in a slot (R359); of a pair, the leading copy. -/
def State.preTeam (s : State) (slot : Nat) : Option Nat :=
  let g := s.prog slot
  if g.st != .empty && g.gidx == 0 && !(s.team g.team).trail then some g.team else none

/-- PREQ_WRITE; none is an illegal instruction (R359). -/
def State.writePreq (s : State) (c : Nat) (v : DWord) : Option State :=
  let x := s.svcCore c
  if x.prBusy || bits v 63 52 != 0 || v.getLsbD 11 || !v.getLsbD 0 then none
  else
    let slot := 1024 * c + 128 * bits v 10 8 + 4 * bits v 7 3 + bits v 2 1
    match s.preTeam slot with
    | none => some (s.setSvc c { x with prState := 4 })
    | some tm =>
      let s := s.setSvc c { x with prBusy := true, prState := 1 }
      let s := s.updTeam tm fun t => { t with pre := .wanted (BitVec.ofNat 64 (bits v 51 12 * 4096)) }
      some (s.preTake tm)

/-- The slot whose program's group has a context. -/
def State.ctxSlot (s : State) (ctx : Nat) : Option Nat := s.groups.findSome? fun p => if (s.prog p.1).ctx = ctx then some p.1 else none

/-- The saved team and the group of a saved context. -/
def State.ctxSaved (s : State) (ctx : Nat) : Option (Nat × Nat) :=
  s.saved.findSome? fun p => (p.2.groups.find? fun g => g.2.ctx == ctx).map fun g => (p.1, g.1)

/-- UIPEND bits set in a resident group; one that sleeps takes the interrupt at once (R109, R334). -/
def State.raiseUi (s : State) (slot : Nat) (m : Word) : State :=
  let s := if (s.team (s.prog slot).team).trail then s else s.updProg slot fun g => { g with uipend := g.uipend ||| m }
  let g := s.group slot
  if g.st == .blocked && !g.routine && g.uiDue && g.takesInterrupt && !g.blocks.isEmpty then s.deliverInterrupt slot else s

/-- A group of a saved team changed, and with it what its area records (R108, R360). -/
def State.updSaved (s : State) (id gidx : Nat) (f : Group → Group) : State :=
  let v := s.savedTeam id
  let g := f (SMap.get v.groups gidx {})
  { s.putSaved v.team v.team.area g with saved := SMap.set s.saved id { v with groups := SMap.set v.groups gidx g } }

/-- UIPEND bits set in a context, wherever it is (R108, R360, R395). -/
def State.uiTo (s : State) (ctx gidx : Nat) (m : Word) : State :=
  match s.ctxSlot ctx with
  | some k => if (s.prog k).gidx = gidx then s.raiseUi k m else s
  | none =>
    match s.ctxSaved ctx with
    | some (a, i) => if i = gidx then s.updSaved a i fun g => { g with uipend := g.uipend ||| m } else s
    | none => s

/-- UISEND_WRITE; none is an illegal instruction (R360). -/
def State.writeUisend (s : State) (v : DWord) : Option State :=
  if bits v 63 52 != 0 || bits v 31 16 != 0 || bits v 7 3 != 0 then none
  else some (s.uiTo (bits v 51 32) (bits v 15 8) (BitVec.ofNat 32 (2 ^ (8 + bits v 2 0))))

end Sys2Proof.Machine
end

