-- ==== Sys2Proof/Machine/Domains.lean ====
section
/-! DEFINITION. Mailboxes and doorbells (R361, R385, R387, R394), region timers (R395), domains and their reset (R396 to R398), boot (R380 to R384), power (R400, R401), and the events of these units. -/

namespace Sys2Proof.Machine

open Sys2Proof

/-! ### Mailboxes -/

/-- The base of a shard's mailbox: in the firmware range, a multiple of 128 (R361). -/
def mailboxBase (shard : Nat) : Nat := Config.mailbox shard % 2 ^ 32 / 128 * 128

/-- The slot that a count names (R361). -/
def mailboxSlot (shard x : Nat) : Nat := mailboxBase shard + 0x80 + 128 * (x % 256)

/-- TAIL. -/
def State.mailTail (s : State) (shard : Nat) : Nat := (s.dword (mailboxBase shard)).toNat
/-- HEAD. -/
def State.mailHead (s : State) (shard : Nat) : Nat := (s.dword (mailboxBase shard + 0x40)).toNat

/-- FULL of a slot. -/
def State.slotFull (s : State) (shard x : Nat) : Bool := (s.dword (mailboxSlot shard x)).getLsbD 63

/-- A doubleword stored by a device agent or a hart at its home. -/
def State.storeD (s : State) (pa : Nat) (x : DWord) : State := (s.needLine pa).homeStore pa x.toNat 8

/-- A count claimed on TAIL (R361). -/
def State.claimMail (s : State) (shard : Nat) : Nat × State :=
  let x := s.mailTail shard
  (x, s.storeD (mailboxBase shard) (BitVec.ofNat 64 (x + 1)))

/-- A message written into the slot of a claimed count: the body, then word 0 with FULL (R361). -/
def State.fillMail (s : State) (m : HubMsg) (x : Nat) : State :=
  let a := mailboxSlot m.shard x
  let s := m.body.zipIdx.foldl (fun s w => s.storeD (a + 8 + 8 * w.2) w.1) s
  s.storeD a (m.word0 ||| BitVec.ofNat 64 (2 ^ 63))

/-- The words of a shard's mailbox that a message in the slot of a count touches. -/
def mailWords (shard x : Nat) : List (Nat × Nat) := [(mailboxBase shard, 8), (mailboxBase shard + 0x40, 8), (mailboxSlot shard x, 128)]

/-- The mailbox can be reached from a routing point: no granule or ring holds its words (R102, R148). -/
def State.mailOpen (s : State) (point shard x : Nat) : Bool := s.allFree point true (mailWords shard x)

/-- The slot that the next sender claims is free. -/
def State.mailRoom (s : State) (shard : Nat) : Bool := !s.slotFull shard (s.mailTail shard)

/-- A message sent (R361). -/
def State.sendMail (s : State) (m : HubMsg) : State := let (x, s) := s.claimMail m.shard; s.fillMail m x

/-- MAILBOX_SEND by a sender into a shard's mailbox, once its slot is free: word 0 with the sender, TYPE and sequence, and the body (R361). -/
def execMailboxSend (sender shard ty sq : Nat) (body : List DWord) (s : State) : Out :=
  event s (decide (shard < 128 ∧ sender < 128) && s.mailRoom shard && s.mailOpen sender shard (s.mailTail shard))
    (s.sendAll sender (mailWords shard (s.mailTail shard)) fun s => s.sendMail { shard := shard, word0 := BitVec.ofNat 64 (sender % 128 * 2 ^ 56 + ty % 2 ^ 16 * 2 ^ 32 + sq % 2 ^ 32), body := body.take 15 })

/-- MAILBOX_RECEIVE by a shard: word 0 of the slot at HEAD is read and cleared, and HEAD goes on (R361). -/
def execMailboxReceive (shard : Nat) (s : State) : Out :=
  let x := s.mailHead shard
  event s (decide (shard < 128) && s.slotFull shard x && s.mailOpen shard shard x)
    (s.sendAll shard (mailWords shard x) fun s =>
     let v := s.dword (mailboxSlot shard x)
     let s := (s.storeD (mailboxSlot shard x) 0).storeD (mailboxBase shard + 0x40) (BitVec.ofNat 64 (x + 1))
     s.setSvc shard { s.svcCore shard with got := v })

/-! ### Doorbells -/

/-- The message of a doorbell write: sender 127, TYPE 1, the data in bytes 8 to 11; the rest is not stated (R387). -/
def State.doorbellMsg (s : State) (shard : Nat) (x : Word) : HubMsg :=
  { shard := shard, word0 := BitVec.ofNat 64 (127 * 2 ^ 56 + 2 ^ 32) ||| ((s.free 0).setWidth 32 : Word).setWidth 64
    body := (((s.free 1).extractLsb' 32 32 : Word) ++ x) :: (List.range 14).map fun k => s.free (2 + k) }

/-- A doorbell message is held for a shard. -/
def State.heldFor (s : State) (shard : Nat) : Option HubMsg := s.io.held.find? fun m => m.shard == shard

/-- MSI_DOORBELL: a write of a shard's doorbell (R387). -/
def State.doorbell (s : State) (shard : Nat) (x : Word) : State :=
  let m := s.doorbellMsg shard x
  let s := s.bump
  if (s.heldFor shard).isNone && s.mailRoom shard && s.mailOpen hubPorts shard (s.mailTail shard) &&
      !(mailWords shard (s.mailTail shard)).any (fun p => s.fateFrom hubPorts p.1 == .moved) then s.sendMail m
  else { s with io := { s.io with held := s.io.held ++ [m] } }

/-- MSI_DOORBELL: a write from any agent. -/
def execMsiDoorbell (c : Nat) (x : Word) (s : State) : Out := event s (decide (c < 128)) (s.doorbell c x)

/-- DOORBELL_DELIVER: the first held write of a doorbell, once a slot is free (R387). -/
def execDoorbellDeliver (c : Nat) (s : State) : Out :=
  match s.heldFor c with
  | some m =>
    event s (s.mailRoom c && s.mailOpen hubPorts c (s.mailTail c))
      (s.sendAll hubPorts (mailWords c (s.mailTail c)) fun s => { s with io := { s.io with held := s.io.held.erase m } }.sendMail m)
  | none => .next s

/-! ### The ZMSG functions of the control cores' firmware -/

/-- SBI_ERR_INVALID_PARAM and SBI_ERR_DENIED. -/
def sbiInvalid : DWord := BitVec.ofInt 64 (-3)
/-- SBI_ERR_DENIED. -/
def sbiDenied : DWord := BitVec.ofInt 64 (-4)

/-- The 128 bytes at an address as word 0 and the body of a message. -/
def State.msgAt (s : State) (shard pa : Nat) : HubMsg :=
  { shard := shard, word0 := s.dword pa, body := (List.range 15).map fun k => s.dword (pa + 8 + 8 * k) }

/-- A message for the ZMSG LAUNCH function; the spec gives it no form. -/
def State.launchMsg (s : State) (shard : Nat) : HubMsg :=
  { shard := shard, word0 := s.free 0, body := (List.range 15).map fun k => s.free (1 + k) }

/-- The outcome of a ZMSG function in a0 of the calling hart. -/
def State.zmsg (s : State) (h shard : Nat) (m : HubMsg) : State :=
  if 127 < shard then s.hartGot (.control h .machine) sbiInvalid
  else if !s.mailRoom shard then s.hartGot (.control h .machine) sbiDenied
  else (s.sendMail m).hartGot (.control h .machine) 0

/-- A ZMSG function of a running hart, once the mailbox can be reached. -/
def zmsgEvent (h shard : Nat) (s : State) (go : State → State) : Out :=
  event s ((s.hart h).running && (decide (127 < shard) || s.mailOpen hubPorts shard (s.mailTail shard)))
    (if 127 < shard then go s else s.sendAll hubPorts (mailWords shard (s.mailTail shard)) go)

/-- ZMSG_MSG_SEND (R385). -/
def execZmsgMsgSend (h shard pa : Nat) (s : State) : Out := zmsgEvent h shard s fun s => s.zmsg h shard (s.msgAt shard pa)

/-- ZMSG_LAUNCH (R385). -/
def execZmsgLaunch (h shard _pa : Nat) (s : State) : Out := zmsgEvent h shard s fun s => (s.zmsg h shard (s.launchMsg shard)).bump

/-! ### Messages between chips -/

/-- An outbox of a peer port. -/
def State.outbox (s : State) (p : Nat) : Outbox := SMap.get s.io.outbox p {}
/-- An outbox replaced. -/
def State.setOutbox (s : State) (p : Nat) (x : Outbox) : State := { s with io := { s.io with outbox := SMap.set s.io.outbox p x } }

/-- A window that a port carries is fenced. -/
def State.portFenced (s : State) (p : Nat) : Bool := s.hub.peerwin.any fun w => w.2.en && w.2.port == p && w.2.fenced

/-- PMSG_SEND: a write of PMSGGO by a shard (R394). -/
def State.writePmsggo (s : State) (p : Nat) (shard : Option Nat) (v : DWord) : State :=
  let x := s.outbox p
  match shard with
  | none => s
  | some c =>
    if x.busy || bits v 62 7 != 0 then s.setOutbox p { x with lost := true }
    else if !v.getLsbD 63 then s
    else if s.portFenced p then s.setOutbox p { x with lost := true, target := bits v 6 0, src := c }
    else s.setOutbox p { x with busy := true, target := bits v 6 0, src := c }

/-- PMSG_ACK of a port: the acknowledgement of the delivery (R394). -/
def execPmsgAck (p : Nat) (s : State) : Out := event s (s.outbox p).busy (s.setOutbox p { s.outbox p with busy := false })

/-- The message that a peer's hub delivers here: PEER, the source shard and board position, TYPE and sequence as sent (R394). -/
def peerMsg (shard src pos : Nat) (w0 : DWord) (body : List DWord) : HubMsg :=
  { shard := shard, word0 := BitVec.ofNat 64 (src % 128 * 2 ^ 56 + 2 ^ 55 + pos % 8 * 2 ^ 52 + bits w0 47 32 * 2 ^ 32 + bits w0 31 0), body := body.take 15 }

/-- PEER_MESSAGE_RECEIVE on a port (R394): a count is claimed on receipt; the message is written once its slot is free, and until then the
port takes no other. -/
def execPeerMessageReceive (p shard src pos : Nat) (w0 : DWord) (body : List DWord) (s : State) : Out :=
  match SMap.get s.io.heldPeer p [] with
  | m :: _ =>
    let x := m.claim.getD 0
    event s (!s.slotFull m.shard x && s.mailOpen hubPorts m.shard x)
      (s.sendAll hubPorts (mailWords m.shard x) fun s => { s with io := { s.io with heldPeer := SMap.set s.io.heldPeer p [] } }.fillMail m x)
  | [] =>
    let m := peerMsg shard src pos w0 body
    event s (decide (shard < 128 ∧ p < 3) && s.mailOpen hubPorts shard (s.mailTail shard))
      (s.sendAll hubPorts (mailWords shard (s.mailTail shard)) fun s =>
       let (x, s) := s.claimMail shard
       if s.slotFull shard x then { s with io := { s.io with heldPeer := SMap.set s.io.heldPeer p [{ m with claim := some x }] } }
       else s.fillMail m x)

/-! ### Region timers -/

/-- The timers that a region's block holds and enables (R395). -/
def State.rcbTimers (s : State) (rcb : Nat) : List Timer :=
  (List.range 4).filterMap fun t =>
    let ctl := s.rcbW rcb (17 + 2 * t)
    if ctl.getLsbD 63 then some { rcb := rcb, idx := t, deadline := (s.rcbW rcb (16 + 2 * t)).toNat, ctl := ctl } else none

/-- TMRSYNC_LOAD: the timers of a region replace those that the unit holds for it, if there is room (R395). -/
def State.writeTmrsync (s : State) (v : DWord) : State :=
  let rcb := v.toNat
  let rest := s.io.timers.filter fun t => t.rcb != rcb
  let new := s.rcbTimers rcb
  if 4096 < rest.length + new.length then { s with io := { s.io with tmrFull := true } }
  else { s with io := { s.io with timers := rest ++ new } }

/-- A loaded timer. -/
def State.timer (s : State) (rcb idx : Nat) : Option Timer := s.io.timers.find? fun t => t.rcb == rcb && t.idx == idx

/-- The word of a timer with WR. -/
def Timer.word (t : Timer) : Nat := bits t.ctl 51 2 * 4

/-- A word that a device agent's atomic add may change: HBM below MEMCAP, not in a scale region, not poisoned. -/
def State.addable (s : State) (pa : Nat) : Bool :=
  pRange pa == .hbm && decide (pa < s.hub.memcap) && !s.scaleHit pa 4 && !(s.needLine pa).linePsn pa

/-- REGION_TIMER_FIRE is due: the deadline has passed, and a word's home can take the add. -/
def State.timerDue (s : State) (rcb idx : Nat) : Option Timer :=
  match s.timer rcb idx with
  | some t => if decide (t.deadline ≤ s.tstamp.toNat) && (!t.ctl.getLsbD 62 || s.unitFree hubPorts t.word 4 true) then some t else none
  | none => none

/-- A TIMER FIRES (R395): UIPEND bit `idx` of a group, or 1 added to a word at its home. -/
def State.fireTimer (s : State) (t : Timer) : State :=
  let s := { s with io := { s.io with timers := s.io.timers.erase t } }
  if t.ctl.getLsbD 62 then
    if s.addable t.word then (s.needLine t.word).homeStore t.word ((s.word t.word).toNat + 1) 4 else s
  else s.uiTo (bits t.ctl 51 32) (bits t.ctl 15 8) (BitVec.ofNat 32 (2 ^ t.idx))

/-- REGION_TIMER_FIRE of a timer of a region (R395). -/
def execRegionTimerFire (rcb idx : Nat) (s : State) : Out :=
  match s.timerDue rcb idx with
  | some t => .next (if t.ctl.getLsbD 62 then s.sendFrom hubPorts t.word fun s => s.fireTimer t else s.fireTimer t)
  | none => .next s

/-! ### Domains -/

/-- A domain; EN of domain 0 resets to 1 (17 Table 3). -/
def State.dom (s : State) (d : Nat) : Dom := SMap.get s.doms d { en := decide (d = 0) }
/-- A domain replaced. -/
def State.setDom (s : State) (d : Nat) (x : Dom) : State := { s with doms := SMap.set s.doms d x }

/-- The first of domains 1 to 7 that is enabled and has a property; domain 0 where there is none (R396). -/
def State.domainOf (s : State) (f : Dom → Bool) : Nat := ((List.range' 1 7).find? fun d => (s.dom d).en && f (s.dom d)).getD 0

/-- The domain of a hart; one that no other domain names is of domain 0 (log 85). -/
def State.hartDomain (s : State) (h : Nat) : Nat := s.domainOf fun x => x.harts.getLsbD h

/-- The domain of a cluster. -/
def State.clusterDomain (s : State) (cl : Nat) : Nat := s.domainOf fun x => x.clmask.getLsbD cl

/-- An entry of a domain's function list names a PCIe function (R396). -/
def State.listsFunction (s : State) (x : Dom) (port rid : Nat) : Bool :=
  (List.range x.funcn).any fun i =>
    let w := (s.word (4 * x.funclist + 4 * i)).toNat
    decide (2 ^ 31 ≤ w ∧ w / 2 ^ 16 % 4 = port ∧ w % 2 ^ 16 = rid)

/-- The domain of a PCIe function. -/
def State.functionDomain (s : State) (port rid : Nat) : Nat := s.domainOf fun x => s.listsFunction x port rid

/-- A file of IMSICs takes the interrupts of a domain (R397): the supervisor file of a hart of domain 0, guest file `d` of a hart of domain `d`. -/
def State.takesFrom (s : State) (d file : Nat) : Bool := decide (file < 144) && s.hartDomain (file / 9) == d && file % 9 == 1 + d

/-- An identity, 1 to 255, becomes pending in an IMSIC file (R386). -/
def State.pendId (s : State) (file id : Nat) : State :=
  if 0 < id ∧ id < 256 then
    { s with io := { s.io with imsic := SMap.set s.io.imsic file (SMap.get s.io.imsic file 0 ||| BitVec.ofNat 256 (2 ^ id)) } }
  else s

/-- Word `k` of DOMTAB (17 Table 3). -/
def Dom.reg (x : Dom) (k : Nat) : Nat :=
  match k with
  | 0 => b2n x.en 63 + b2n x.scrub 61 + b2n x.busy 60 + x.harts.toNat
  | 1 => x.clmask.toNat % 2 ^ 64
  | 2 => x.clmask.toNat / 2 ^ 64
  | 3 => x.frames
  | 4 => x.qsets.toNat
  | 5 => x.weight
  | 6 => x.funclist * 4
  | _ => x.funcn

/-- The domain after a write of one word. -/
def Dom.put (x : Dom) (k : Nat) (v m : DWord) : Dom :=
  let old := BitVec.ofNat 64 (x.reg k)
  match k with
  | 0 => { x with en := (merge old v m).getLsbD 63, scrub := (merge old v m).getLsbD 61, harts := BitVec.ofNat 16 (mbits old v m 15 0) }
  | 1 => { x with clmask := BitVec.ofNat 128 (x.clmask.toNat / 2 ^ 64 * 2 ^ 64 + (merge old v m).toNat) }
  | 2 => { x with clmask := BitVec.ofNat 128 (x.clmask.toNat % 2 ^ 64 + (merge old v m).toNat * 2 ^ 64) }
  | 3 => { x with frames := mbits old v m 39 0 }
  | 4 => { x with qsets := merge old v m }
  | 5 => { x with weight := max 1 (mbits old v m 7 0) }
  | 6 => { x with funclist := mbits old v m 51 2 }
  | _ => { x with funcn := mbits old v m 8 0 }

/-- Two domains share a cluster, a hart or a queue set. -/
def Dom.overlaps (x y : Dom) : Bool := (x.clmask &&& y.clmask) != 0 || (x.harts &&& y.harts) != 0 || (x.qsets &&& y.qsets) != 0

/-- A domain would overlap another enabled one (R396). -/
def State.domClash (s : State) (d : Nat) (x : Dom) : Bool := x.en && (List.range 8).any fun e => e != d && (s.dom e).en && x.overlaps (s.dom e)

/-- The domain that owns the frame of an address, by the frame-owner table (R396). -/
def State.frameOwner (s : State) (pa : Nat) : Nat := Memory.read s.mem (Config.frameOwners % 2 ^ 32 + pa / 2 ^ 16) 1

/-- The clusters of a domain. -/
def Dom.clusters (x : Dom) : List Nat := clustersOf x.clmask

/-- A launch belongs to a domain that is reset: its region does, or one of its teams is on the domain's clusters. -/
def State.launchIn (s : State) (d : Nat) (x : Dom) (la : Launch) : Bool :=
  s.rcbDom la.rcb == d || la.live.any fun tm => (SMap.find s.teams tm).isSome && x.clmask.getLsbD ((s.team tm).core / 8)

/-- Step 1 of R398: teams, tasks, launches and calls go. -/
def State.dropDomain (s : State) (d : Nat) (x : Dom) : State :=
  let las := s.launches.filter fun p => s.launchIn d x p.2
  let tms := (s.teams.filter fun p => x.clmask.getLsbD (p.2.core / 8) || las.any fun q => q.1 == p.2.launch).map Prod.fst
  let s := tms.foldl (fun s tm => s.discardTeam tm) s
  let gone (la : Nat) : Bool := las.any fun q => q.1 == la
  { s with
    launches := s.launches.filter fun p => !gone p.1
    saved := s.saved.filter fun p => !gone p.2.team.launch
    ckpts := s.ckpts.filter fun p => !tms.contains p.1
    clusters := s.clusters.map fun (c : Nat × Cluster) => if x.clmask.getLsbD c.1 then (c.1, { c.2 with ready := [] }) else c }

/-- Step 2 of R398 at one slice: entries, linked slots and arms of the domain are freed with no wake; those of others on its frames end with
CANCELLED. -/
def State.cancelAt (s : State) (d : Nat) (x : Dom) (home : Nat) : State :=
  let mine := (s.slice home).mon.filter fun e => e.dom == d
  let s := mine.foldl (fun s e => s.freeMon home e) s
  let other := (s.slice home).mon.filter fun e => s.frameOwner e.addr == d
  let s := other.foldl (fun s e => (s.sendWake e 3 0 false).freeMon home e) s
  let s := (s.linked home).foldl (fun (s : State) a =>
    let e := s.slotEntry a
    if e.dom = d then s.unlinkSlot home a
    else if s.frameOwner e.addr = d then s.glWake home a 3 0 false else s) s
  let arms := (s.slice home).svc
  let s := s.setSlice home { s.slice home with svc := arms.filter fun e => !x.clmask.getLsbD e.core }
  ((s.slice home).svc.filter fun e => s.frameOwner e.addr == d).foldl (fun s e => s.fireArm home e 3 (s.valueAt e.addr e.w64)) s

/-- DOMAIN_RESET: steps 1 to 3 of R398, with BUSY set. -/
def State.resetDomain (s : State) (d : Nat) : State :=
  let x := s.dom d
  let s := s.setDom d { x with busy := true }
  let s := s.dropDomain d x
  let s := (s.slices.map Prod.fst).foldl (fun s k => s.cancelAt d x k) s
  x.clusters.foldl (fun s c => s.shardRestart c) s

/-- A write of a word of DOMTAB (R396): W0 holds a command field and takes whole writes only (R411). -/
def State.writeDomtab (s : State) (d k : Nat) (v m : DWord) : State :=
  let x := s.dom d
  let y := x.put k v m
  if x.busy || (k == 0 && !whole m) || s.domClash d y then s
  else
    let s := s.setDom d y
    if k = 0 ∧ v.getLsbD 62 ∧ d ≠ 0 then s.resetDomain d else s

/-- The byte store without the frames of a domain. -/
def State.scrubbed (s : State) (d : Nat) : Memory := s.mem.filter fun p => !(decide (p.1 < 2 ^ 43) && s.frameOwner p.1 == d)

/-- Steps 4 and 5 of R398: queue sets disabled, harts reset, frames zeroed and their lines no longer poisoned. -/
def State.endReset (s : State) (d : Nat) : State :=
  let x := s.dom d
  let sets := (List.range 64).filter fun q => x.qsets.getLsbD q
  let s := { s with
    io := { s.io with qoff := (s.io.qoff ++ sets).eraseDups }
    harts := s.harts.map fun (h : Nat × Hart) => if x.harts.getLsbD h.1 then (h.1, { h.2 with running := false, mode := .machine }) else h }
  let s := if x.scrub then { s with
      mem := s.scrubbed d
      lines := s.lines.map fun (l : Nat × Line) => if s.frameOwner (128 * l.1) == d then (l.1, { l.2 with psn := false, dec := false }) else l } else s
  s.setDom d { s.dom d with busy := false }

/-- DOMAIN_RESET_COMPLETE of a domain (R398). -/
def execDomainResetComplete (d : Nat) (s : State) : Out := event s (s.dom d).busy (s.endReset d)

/-! ### Control cores -/

/-- CCBOOT: ENTRY. -/
def Hart.reg (h : Hart) : Nat := h.entry * 4

/-- A write of CCBOOT (R384): whole writes only; RUN releases a hart that does not run. -/
def State.writeCcboot (s : State) (h : Nat) (v m : DWord) : State :=
  if !whole m then s
  else
    let x := { s.hart h with entry := bits v 51 2 }
    s.setHart h (if v.getLsbD 63 && !x.running then
        { x with running := true, mode := .machine, pc := BitVec.ofNat 64 (x.entry * 4), a0 := BitVec.ofNat 64 h, a1 := Config.deviceTree }
      else x)

/-! ### Boot -/

/-- The bytes of a list of 64-byte digests as a number with its length. -/
def logBytes (l : List (BitVec 512)) : Nat × Nat := (l.foldr (fun h x => h.toNat + 2 ^ 512 * x) 0, 64 * l.length)

/-- MEAS extended by a digest, which is appended to the log (R382): MEAS is the first operand of the concatenation. -/
def Boot.measure (b : Boot) (h : BitVec 512) : Boot :=
  { b with meas := Config.sha512 (b.meas.toNat + h.toNat * 2 ^ 512) 128, log := b.log ++ [h] }

/-- MEASURE of a stage's digest, once a stage runs (R382). -/
def execMeasure (h : BitVec 512) (s : State) : Out := event s (s.boot.stage != 0) { s with boot := s.boot.measure h }

/-- ATTEST with a nonce (R382). -/
def Boot.answer (b : Boot) (nonce : BitVec 512) : BitVec 1056 :=
  let (l, n) := logBytes b.log
  Config.sign (Config.sha512 (b.meas.toNat + nonce.toNat * 2 ^ 512 + (Config.sha512 l n).toNat * 2 ^ 1024) 192)

/-- ATTEST (R382). -/
def execAttest (nonce : BitVec 512) (s : State) : Out :=
  event s (s.boot.stage != 0) { s with boot := { s.boot with attest := s.boot.answer nonce :: s.boot.attest } }

/-- BOOT_IMAGE_VERIFY of an image slot: the key slot that verified it, or a CODE (R381). -/
def verifyImage (k : Nat) : Nat ⊕ Nat :=
  if !Config.imageHeader k then .inr 1
  else
    match (List.range 4).find? fun f => Config.fuseKey f == Config.imageKey k && !Config.fuseRevoked f with
    | none => .inr 2
    | some f => if !Config.imageSigned k then .inr 3 else if Config.imageSvn k < Config.fuseSvn then .inr 4 else .inl f

/-- The boot SRAM (R380). -/
def bootSram : Nat := 0xF01001800000

/-- The service cores released at an entry, in machine mode, with a0 the hart's number (R380). -/
def releaseCores (entry : DWord) : SMap SvcCore :=
  (List.range 128).map fun c => (c, { running := true, pc := entry, mode := .machine, a0 := BitVec.ofNat 64 c })

/-- The ROM runs an image slot: it lies in the boot SRAM, is measured, and the service cores are released (R380 to R382). -/
def State.runImage (s : State) (k f : Nat) : State :=
  let n := min (Config.imageSize k) (2 ^ 22)
  let b := { s.boot with slot := f, bslot := decide (k = 1), stage := 1 }
  { s with
    mem := Memory.write s.mem bootSram (Config.imageBytes k) n
    boot := b.measure (Config.sha512 (Config.imageBytes k) n)
    svc := releaseCores (Config.imageEntry k) }

/-- The boot ROM: slot A, then slot B; if both fail the cores stay in reset and CODE names the cause (R381). -/
def State.bootRom (s : State) : State :=
  match verifyImage 0 with
  | .inl f => s.runImage 0 f
  | .inr _ =>
    match verifyImage 1 with
    | .inl f => s.runImage 1 f
    | .inr c => { s with boot := { s.boot with code := c } }

/-- PACKAGE_RESET: every state goes but the non-volatile counts, and the boot ROM runs (R374, R380). -/
def execPackageReset (s : State) : Out :=
  .next ({ State.reset with freeCtr := s.freeCtr + 1, nextId := s.nextId, mgmt := { State.reset.mgmt with nv := s.mgmt.nv } }.bootRom)

/-- HBM_TRAINING_COMPLETE of a stack: LIVE, or CODE 5 where it does not train (R138, R147, R380, R381). -/
def execHbmTrainingComplete (k : Nat) (ok : Bool) (s : State) : Out :=
  event s (decide (k < 8) && s.boot.stage != 0 && !s.hub.live.getLsbD k && !s.hub.parked.getLsbD k)
    (if ok then { s with hub := { s.hub with live := s.hub.live ||| BitVec.ofNat 8 (2 ^ k) } } else { s with boot := { s.boot with code := 5 } })

/-- BOOTSTAT (17 Table 2). -/
def Boot.reg (b : Boot) : Nat := b.code * 256 + b.slot * 16 + b2n b.bslot 3 + b.stage * 2 + b2n b.ok 0

/-- A write of BOOTSTAT (R381): STAGE rises, OK is set, by a service core in machine mode. -/
def State.writeBootstat (s : State) (w : Writer) (v m : DWord) : State :=
  if !w.machine || w.shard.isNone then s
  else
    let st := mbits (BitVec.ofNat 64 s.boot.reg) v m 2 1
    { s with boot := { s.boot with stage := max s.boot.stage st, ok := s.boot.ok || (v &&& m).getLsbD 0 } }

/-! ### Power -/

/-- PWRCTL (17 Table 4). -/
def Mgmt.pwrctl (x : Mgmt) : Nat := x.capw * 2 ^ 32 + 15 * 2 ^ 16 + x.fcur * 256 + b2n x.thr 0

/-- A write of PWRCTL. -/
def Mgmt.writePwrctl (x : Mgmt) (v m : DWord) : Mgmt :=
  { x with capw := mbits (BitVec.ofNat 64 x.pwrctl) v m 47 32, thr := w1c x.thr v m 0 }

/-- The power limit that CAPW acts as (17 Table 4). -/
def Mgmt.cap (x : Mgmt) : Nat := min 3200 (max 1200 x.capw)

/-- THERM of a die. -/
def Mgmt.thermOf (x : Mgmt) (d : Nat) : Therm := SMap.get x.therm d {}

/-- THERM as a register (17 Table 5). -/
def Therm.reg (t : Therm) : Nat := 115 * 2 ^ 24 + t.tthr * 2 ^ 16 + t.temp.toNat

/-- A write of THERM. -/
def Mgmt.writeTherm (x : Mgmt) (d : Nat) (v m : DWord) : Mgmt :=
  let t := x.thermOf d
  { x with therm := SMap.set x.therm d { t with tthr := mbits (BitVec.ofNat 64 t.reg) v m 23 16 } }

/-- A write of CLPWR is refused: it powers off a cluster of an enabled domain, or one that holds a team (R401). -/
def State.clpwrBad (s : State) (x : BitVec 128) : Bool :=
  (clustersOf (x &&& ~~~ s.mgmt.clpwr)).any fun c => (List.range 8).any (fun d => (s.dom d).en && (s.dom d).clmask.getLsbD c) ||
    s.teams.any fun t => t.2.core / 8 == c

/-- A write of word `k` of CLPWR (R401). -/
def State.writeClpwr (s : State) (k : Nat) (v m : DWord) : State :=
  let old := s.mgmt.clpwr
  let x : BitVec 128 := if k = 0 then (old.extractLsb' 64 64 : DWord) ++ merge (old.setWidth 64) v m
    else merge (old.extractLsb' 64 64) v m ++ (old.setWidth 64 : DWord)
  if s.clpwrBad x then s else { s with mgmt := { s.mgmt with clpwr := x } }

/-- The throttle temperature of a die in units of 0.125 °C (17 Table 5). -/
def Therm.limit (t : Therm) : Int := 8 * (min 105 t.tthr : Nat)

/-- The temperatures of the dies as sensors give them. -/
def Mgmt.sensed (x : Mgmt) (temps : List (BitVec 16)) : Mgmt :=
  { x with therm := (List.range 9).map fun d => (d, { x.thermOf d with temp := temps.getD d (x.thermOf d).temp }) }

/-- One step of the arithmetic clock (R400). -/
def Mgmt.throttle (x : Mgmt) : Mgmt :=
  let hot := (List.range 9).any fun d => decide ((x.thermOf d).limit ≤ (x.thermOf d).temp.toInt)
  let cool := (List.range 9).all fun d => decide ((x.thermOf d).temp.toInt ≤ (x.thermOf d).limit - 40)
  if hot || decide (x.cap < x.power) then { x with fcur := max 15 (x.fcur - 1), thr := true }
  else if cool && decide (x.power < x.cap) then { x with fcur := min 30 (x.fcur + 1) } else x

/-- THROTTLE_STEP, every 100 µs, with the package power averaged over 1 ms and the temperatures (R400). -/
def execThrottleStep (power : Nat) (temps : List (BitVec 16)) (s : State) : Out :=
  event s (decide (100000 ≤ s.tstamp.toNat - s.mgmt.stepped))
    { s with mgmt := { ({ s.mgmt with power := power }.sensed temps).throttle with stepped := s.tstamp.toNat } }

/-- THERMAL_SHUTDOWN: a die has come to TSHUT; no clock is left and only the non-volatile counts are kept (R400). -/
def execThermalShutdown (d : Nat) (temp : BitVec 16) (s : State) : Out :=
  event s (decide (d < 9 ∧ 920 ≤ temp.toInt))
    { State.reset with freeCtr := s.freeCtr, nextId := s.nextId, stopped := true, mgmt := { State.reset.mgmt with nv := s.mgmt.nv } }

end Sys2Proof.Machine
end

