-- ==== Sys2Proof/Machine/Regs.lean ====
section
/-! DEFINITION. The register map of the MMIO space and the custom CSRs of the service cores (R7, R8, R28, R29, R344, R411): what a read answers, what a write does, and the events of harts that write registers. -/

namespace Sys2Proof

/-- A hart of the package. -/
def Agent.exists_ : Agent → Bool
  | .service c _ => decide (c < 128)
  | .control h _ => decide (h < 16)

end Sys2Proof

namespace Sys2Proof.Machine

open Sys2Proof

/-! ### The map -/

/-- A 64-bit register of the MMIO space. -/
inductive Reg
  /-- an offset that holds no register -/
  | hole
  /-- PAIRINJ, SCBSTAT0, SCBSTAT1 of a cluster (R369) -/
  | pair (cl k : Nat)
  /-- a leaky bucket, by its own offset (R373) -/
  | bucket (off : Nat)
  /-- monitor register of a slice, by its offset / 8 (R99) -/
  | mon (home k : Nat)
  | link (k : Nat)
  | silo (d k : Nat)
  | tstamp
  | boardpos
  | peerwin (k : Nat)
  /-- MEMCAP, STACKMAP, MPHASE, MCURSOR, MIGSHARE, MIGSTAT, MIGWORD (R138) -/
  | fallow (k : Nat)
  | fwin (n k : Nat)
  | tmrsync
  | tmrstat
  | domtab (d k : Nat)
  | ccboot (h : Nat)
  | bootstat
  /-- a doubleword of the boot SRAM, by its physical address (R380) -/
  | sram (pa : Nat)
  | pwrctl
  | therm (d : Nat)
  | clpwr (k : Nat)
  /-- two words of the non-volatile store (R374) -/
  | nv (i : Nat)
  | doorbell (c : Nat)
  /-- a doubleword of an outbox's buffer, PMSGGO, PMSGST (R394) -/
  | outbox (p k : Nat)
  | pmsggo (p : Nat)
  | pmsgst (p : Nat)
  /-- a doubleword of the interrupt-file block, by page and offset in it (01 Table 7, R386) -/
  | imsic (page o : Nat)
  /-- a register of a unit that another document describes -/
  | foreign (off : Nat)
deriving DecidableEq, Repr

/-- The base of the MMIO space (01 Table 4). -/
def mmioBase : Nat := 0xF00000000000

/-- A register of a cluster's block, at an offset of it. -/
def clusterReg (cl o : Nat) : Reg :=
  if 0x700000 ≤ o ∧ o < 0x700018 then .pair cl ((o - 0x700000) / 8)
  else if o = 0x700018 then .bucket (clusterBucket cl)
  else .hole

/-- A register of a home slice's block. -/
def sliceReg (k o : Nat) : Reg :=
  if 0x40000 ≤ o ∧ o < 0x45000 then .mon k ((o - 0x40000) / 8)
  else if 0x50000 ≤ o ∧ o < 0x50200 then .bucket (bankBucket k ((o - 0x50000) / 8))
  else .hole

/-- A register of a die's fabric block. -/
def fabricReg (d o : Nat) : Reg :=
  if 0x10000 ≤ o ∧ o < 0x10800 ∧ o % 0x100 = 0 then .link (8 * d + (o - 0x10000) / 0x100)
  else if 0x20000 ≤ o ∧ o < 0x21000 then .bucket (laneBucket (8 * d + (o - 0x20000) / 0x200) ((o - 0x20000) % 0x200 / 8))
  else if 0x100000 ≤ o ∧ o < 0x100020 then .silo d ((o - 0x100000) / 8)
  else .hole

/-- A register of the hub's chip-wide block. -/
def hubReg (o : Nat) : Reg :=
  if o = 0 then .tstamp
  else if o = 8 then .boardpos
  else if 0x100 ≤ o ∧ o < 0x140 then .peerwin ((o - 0x100) / 8)
  else if 0x1000 ≤ o ∧ o < 0x1038 then .fallow ((o - 0x1000) / 8)
  else if 0x2000 ≤ o ∧ o < 0x2200 then .fwin ((o - 0x2000) / 0x20) (o % 0x20 / 8)
  else if o = 0x3000 then .tmrsync
  else if o = 0x3008 then .tmrstat
  else if 0x4000 ≤ o ∧ o < 0x4200 then .domtab ((o - 0x4000) / 0x40) (o % 0x40 / 8)
  else if 0x5000 ≤ o ∧ o < 0x5080 then .ccboot ((o - 0x5000) / 8)
  else .hole

/-- A register of the security and boot block, or a doubleword of the boot SRAM. -/
def bootReg (o : Nat) : Reg :=
  if o = 0 then .bootstat
  else if 0x800000 ≤ o ∧ o < 0xC00000 then .sram (bootSram + (o - 0x800000))
  else .hole

/-- A register of the management block. -/
def mgmtReg (o : Nat) : Reg :=
  if o = 0x1000 then .pwrctl
  else if 0x1100 ≤ o ∧ o < 0x1148 then .therm ((o - 0x1100) / 8)
  else if o = 0x1200 ∨ o = 0x1208 then .clpwr ((o - 0x1200) / 8)
  else if 0x100000 ≤ o then .nv ((o - 0x100000) / 8)
  else .hole

/-- A register of the hub's I/O block. -/
def ioReg (o : Nat) : Reg :=
  if 0x3000000 ≤ o ∧ o < 0x3000300 ∧ o % 0x100 = 0 then .link (64 + (o - 0x3000000) / 0x100)
  else if 0x3001000 ≤ o ∧ o < 0x3001300 ∧ o % 0x100 < 0x80 then .bucket (laneBucket (64 + (o - 0x3001000) / 0x100) (o % 0x100 / 8))
  else if 0x3002000 ≤ o ∧ o < 0x3005000 then
    let p := (o - 0x3002000) / 0x1000
    let k := o % 0x1000
    if k < 0x80 then .outbox p (k / 8) else if k = 0x80 then .pmsggo p else if k = 0x88 then .pmsgst p else .hole
  else if 0x3000000 ≤ o then .hole
  else .foreign (0x1010000000 + o)

/-- The register at an offset of the MMIO space that is a multiple of 8 (01 Table 7). -/
def regAt (off : Nat) : Reg :=
  let d := off / 2 ^ 32
  let r := off % 2 ^ 32
  if d < 8 then
    if r < 0x10000000 then clusterReg (16 * d + r / 2 ^ 24) (r % 2 ^ 24)
    else if r < 0x12000000 then sliceReg (32 * d + (r - 0x10000000) / 2 ^ 20) (r % 2 ^ 20)
    else fabricReg d (r - 0x20000000)
  else if r < 0x1000000 then hubReg r
  else if r < 0x2000000 then bootReg (r - 0x1000000)
  else if r < 0x3000000 then mgmtReg (r - 0x2000000)
  else if r < 0x8000000 then
    (if 0x7000000 ≤ r ∧ r < 0x7080000 ∧ r % 0x1000 = 0 then .doorbell ((r - 0x7000000) / 0x1000)
      else if 0x4000000 ≤ r then .imsic ((r - 0x4000000) / 0x1000) (r % 0x1000) else .foreign off)
  else if r < 0x20000000 then ioReg (r - 0x10000000)
  else .foreign off

/-- Bits `hi` to `lo` of a register. -/
def field (hi lo : Nat) : DWord := BitVec.ofNat 64 (2 ^ (hi + 1) - 2 ^ lo)

/-- The bits of a register that lie in fields with the code priv (R7). TMRSYNC, TMRSTAT and the boot SRAM have no access code in the spec: the model refuses
user mode to them (log 82). -/
def Reg.privBits : Reg → DWord
  | .hole | .tstamp | .boardpos | .doorbell _ | .nv _ | .imsic _ _ | .foreign _ => 0
  | .pair _ 0 => field 63 62 ||| field 39 0
  | .pair _ 1 => ~~~ 0
  | .pair _ _ => field 63 32 ||| field 25 16 ||| field 10 0
  | .bucket _ => field 63 62 ||| field 47 0
  | .mon _ k => (match k with
    | 0 => field 11 8 ||| field 3 2 ||| field 0 0
    | 1 => field 10 0
    | 2 => field 26 16
    | 3 => field 63 16
    | 4 => field 63 60 ||| field 51 4
    | 5 => field 31 0
    | 6 | 7 => ~~~ 0
    | _ => 0)
  | .link _ => field 63 40
  | .silo _ k => (match k with
    | 0 => field 27 16 ||| field 11 8 ||| field 0 0
    | 1 => field 51 15
    | 2 => field 63 32
    | 3 => ~~~ 0
    | _ => 0)
  | .peerwin _ => field 7 7 ||| field 3 2 ||| field 0 0
  | .fallow k => (match k with
    | 0 => field 51 16
    | 1 => field 15 8
    | 2 => field 63 63
    | 3 => 0
    | 4 => field 5 0
    | 5 => field 63 16 ||| field 1 0
    | _ => field 51 3)
  | .fwin _ k => (match k with
    | 0 => field 7 4 ||| field 2 2 ||| field 0 0
    | 3 => field 51 3
    | _ => field 51 16)
  | .domtab _ k => (match k with
    | 0 => field 63 61 ||| field 15 0
    | 3 => field 39 0
    | 5 => field 7 0
    | 6 => field 51 2
    | 7 => field 8 0
    | _ => ~~~ 0)
  | .ccboot _ => field 63 63 ||| field 51 2
  | .bootstat => field 2 0
  | .pwrctl => field 47 32 ||| field 0 0
  | .therm _ => field 23 16
  | .clpwr _ | .outbox _ _ | .pmsggo _ | .pmsgst _ | .tmrsync | .tmrstat | .sram _ => ~~~ 0

/-- A register with a field of access W, and the command registers: only a whole write acts (R411). -/
def Reg.command : Reg → Bool
  | .pmsggo _ | .tmrsync | .ccboot _ => true
  | .fallow k => k == 2
  | .mon _ k => k == 7
  | .domtab _ k => k == 0
  | _ => false

/-! ### Reads -/

/-- PAIRINJ, SCBSTAT0 and SCBSTAT1 (R369). -/
def Cluster.pairReg (c : Cluster) (k : Nat) : Nat :=
  match k with
  | 0 => b2n c.injEn 63 + b2n c.injDone 62 + c.injMask.toNat * 2 ^ 32 + c.injNth.toNat
  | 1 => c.released * 2 ^ 32 + c.mismatch * 2 ^ 16 + c.rollback
  | _ => c.once * 2 ^ 48 + c.slack * 2 ^ 32 + c.scbPeak * 2 ^ 16 + c.lvqPeak

/-- The fallowing registers (06 Tables 2 to 8). -/
def Hub.fallowReg (h : Hub) (k : Nat) : Nat :=
  match k with
  | 0 => h.memcap
  | 1 => h.dead.toNat * 2 ^ 16 + h.retire.toNat * 2 ^ 8 + h.live.toNat
  | 2 => h.mstate * 2 ^ 32 + h.phase.toNat
  | 3 => h.mend * 2 ^ 32 + h.mnext
  | 4 => h.share
  | 5 => h.poisong * 2 ^ 40 + h.moveds * 2 ^ 16 + b2n h.mdone 1 + b2n h.refused 0
  | _ => h.migword

/-- Words of a format window. -/
def Fwin.reg (w : Fwin) (k : Nat) : Nat :=
  match k with
  | 0 => w.ctl
  | 1 => w.base * 2 ^ 16
  | 2 => w.fin * 2 ^ 16
  | _ => w.sbase * 8

/-- A count of the non-volatile store (R374). -/
def Mgmt.nvCount (x : Mgmt) (i : Nat) : Nat := SMap.get x.nv (Config.nvUnit i) 0

/-- The value of a register. -/
def State.readReg (s : State) : Reg → DWord
  | .hole | .tmrsync | .doorbell _ | .pmsggo _ => 0
  | .pair cl k => BitVec.ofNat 64 ((s.cluster cl).pairReg k)
  | .bucket off => BitVec.ofNat 64 (s.bucket off).reg
  | .mon home k => BitVec.ofNat 64 ((s.slice home).monReg k)
  | .link k => BitVec.ofNat 64 (s.link k).reg
  | .silo d k => BitVec.ofNat 64 ((s.die d).siloReg k)
  | .tstamp => s.tstamp
  | .boardpos => Config.boardPos.setWidth 64
  | .peerwin k => BitVec.ofNat 64 (s.peerwin k).reg
  | .fallow k => BitVec.ofNat 64 (s.hub.fallowReg k)
  | .fwin n k => BitVec.ofNat 64 ((s.fwin n).reg k)
  | .tmrstat => BitVec.ofNat 64 (b2n s.io.tmrFull 0)
  | .domtab d k => BitVec.ofNat 64 ((s.dom d).reg k)
  | .ccboot h => BitVec.ofNat 64 (s.hart h).reg
  | .bootstat => BitVec.ofNat 64 s.boot.reg
  | .sram pa => s.dword pa
  | .pwrctl => BitVec.ofNat 64 s.mgmt.pwrctl
  | .therm d => BitVec.ofNat 64 (s.mgmt.thermOf d).reg
  | .clpwr k => s.mgmt.clpwr.extractLsb' (64 * k) 64
  | .nv i => BitVec.ofNat 64 (s.mgmt.nvCount (2 * i) + s.mgmt.nvCount (2 * i + 1) * 2 ^ 32)
  | .outbox p k => Memory.dword (s.outbox p).buf (8 * k)
  | .pmsgst p => BitVec.ofNat 64 (b2n (s.outbox p).busy 63 + b2n (s.outbox p).lost 62)
  | .imsic p o => Config.foreignReg s.freeCtr (0x1004000000 + 0x1000 * p + o)
  | .foreign off => Config.foreignReg s.freeCtr off

/-- The doubleword at an offset of the MMIO space that is a multiple of 8. -/
def State.mmioDword (s : State) (off : Nat) : DWord := s.readReg (regAt off)

/-- A READ of 4 or 8 bytes of the MMIO space (R28, R411). -/
def State.mmioRead (s : State) (off n : Nat) : DWord :=
  let x := s.mmioDword (off / 8 * 8)
  if n = 8 then x else ((x.extractLsb' (off % 8 * 8) 32 : Word)).setWidth 64

/-! ### Writes -/

/-- A write of PAIRINJ or a counter (R369): EN = 1 with NTH or XMASK 0 changes nothing. -/
def Cluster.writePair (c : Cluster) (k : Nat) (v m : DWord) : Cluster :=
  let old := BitVec.ofNat 64 (c.pairReg k)
  let x := merge old v m
  match k with
  | 0 =>
    let arm := (v &&& m).getLsbD 63
    if arm && (bits x 39 32 == 0 || bits x 31 0 == 0) then c
    else
      { c with injEn := x.getLsbD 63, injDone := w1c c.injDone v m 62, injMask := BitVec.ofNat 8 (bits x 39 32), injNth := BitVec.ofNat 32 (bits x 31 0),
               injCount := if arm then 0 else c.injCount }
  | 1 => { c with released := bits x 63 32, mismatch := bits x 31 16, rollback := bits x 15 0 }
  | _ => { c with once := bits x 63 48, slack := bits x 47 32, scbPeak := bits x 25 16, lvqPeak := bits x 10 0 }

/-- A write of a fallowing register (R139 to R143). -/
def State.writeFallow (s : State) (k : Nat) (v m : DWord) : State :=
  match k with
  | 0 => s.writeMemcap v m
  | 1 => s.writeStackmap v m
  | 2 => if v.getLsbD 63 then s.go else s
  | 4 => s.writeMigshare v m
  | 5 => s.writeMigstat v m
  | 6 => s.writeMigword v m
  | _ => s

/-- A write to a unit that another document describes: what software has programmed there is not stated here (R27, R388, R392). -/
def State.foreignWrite (s : State) : State :=
  { s.bump with
    hub := { s.hub with bridge := Config.bridges s.freeCtr }
    io := { s.io with flows := Config.flowTables s.freeCtr, hash := Config.hashTables s.freeCtr, qshard := Config.queueShards s.freeCtr } }

/-- A write to the interrupt-file block (R386, R397): the register at offset 0 of a file's page sets the identity that the data names; the RISC-V AIA gives it
that place (log 92). -/
def State.msiWrite (s : State) (page o : Nat) (v m : DWord) : State :=
  if o = 0 ∧ bits m 31 0 ≠ 0 ∧ Config.imsicFile page < 144 then s.pendId (Config.imsicFile page) (bits v 31 0) else s.foreignWrite

/-- A WRITE OF THE BITS OF A MASK TO A REGISTER, by a writer that may make it (R7, R8, R411). -/
def State.writeReg (s : State) (w : Writer) (v m : DWord) : Reg → State
  | .pair cl k => s.setCluster cl ((s.cluster cl).writePair k v m)
  | .bucket off => { s with buckets := SMap.set s.buckets off ((s.bucket off).write v m) }
  | .mon home k => s.writeMon home k v m
  | .link k => s.setLink k ((s.link k).write v m)
  | .silo d k => s.writeSilo d k v m
  | .peerwin k => s.writePeerwin k v m
  | .fallow k => if k = 2 ∧ !whole m then s else s.writeFallow k v m
  | .fwin n k => if k = 0 then s.writeFwinCtl n v m else s.writeFwinBase n k v m
  | .tmrsync => if whole m then s.writeTmrsync v else s
  | .tmrstat => { s with io := { s.io with tmrFull := w1c s.io.tmrFull v m 0 } }
  | .domtab d k => s.writeDomtab d k v m
  | .ccboot h => s.writeCcboot h v m
  | .bootstat => s.writeBootstat w v m
  | .sram pa => { s with mem := Memory.write s.mem pa (merge (s.dword pa) v m).toNat 8 }
  | .pwrctl => { s with mgmt := s.mgmt.writePwrctl v m }
  | .therm d => { s with mgmt := s.mgmt.writeTherm d v m }
  | .clpwr k => s.writeClpwr k v m
  | .doorbell c => if bits m 31 0 = 0 then s else s.doorbell c (v.setWidth 32)
  | .outbox p k => s.setOutbox p { s.outbox p with buf := Memory.write (s.outbox p).buf (8 * k) (merge (Memory.dword (s.outbox p).buf (8 * k)) v m).toNat 8 }
  | .pmsggo p => if whole m then s.writePmsggo p w.shard v else s
  | .pmsgst p => s.setOutbox p { s.outbox p with lost := w1c (s.outbox p).lost v m 62 }
  | .imsic p o => s.msiWrite p o v m
  | .foreign _ => s.foreignWrite
  | .hole | .tstamp | .boardpos | .nv _ => s

/-- The bits that a write of 4 or 8 bytes gives. -/
def writeMask (off n : Nat) : DWord := if n = 8 then ~~~ 0 else BitVec.ofNat 64 ((2 ^ 32 - 1) * 2 ^ (off % 8 * 8))

/-- A WRITE of 4 or 8 bytes to the MMIO space (R28, R411). -/
def State.mmioWrite (s : State) (w : Writer) (off n : Nat) (v : DWord) : State :=
  let v := if n = 8 then v else BitVec.ofNat 64 (v.toNat % 2 ^ 32 * 2 ^ (off % 8 * 8))
  s.writeReg w v (writeMask off n) (regAt (off / 8 * 8))

/-- An access of a hart to the MMIO space that raises an access fault (R7, R26, R28): from user mode, one that touches a field with the code priv. -/
def mmioRefused (a : Agent) (off n : Nat) : Bool :=
  (n != 4 && n != 8) || decide (off % n ≠ 0) || !mmioAssigned off ||
  (a.mode == .user && (regAt (off / 8 * 8)).privBits &&& writeMask off n != 0)

/-! ### CSRs -/

/-- The custom CSRs (15 Table 2): assigned, read only. -/
def csrKnown (n : Nat) : Bool :=
  [0x5C0, 0x5C1, 0x5C2, 0x5C4, 0x5C5, 0x5C6, 0x5C7, 0x5D0, 0x5D1, 0x5D2, 0x5D3, 0x5D4, 0x5D5, 0x5E0, 0x5E1, 0x5E2, 0x5E3, 0x5E4, 0x5E5, 0x5E6,
   0x5E7, 0x5E8, 0x5E9, 0x5EA, 0x5EB].contains n
/-- The CSRs marked RO. -/
def csrRo (n : Nat) : Bool := [0x5C4, 0x5C5, 0x5C6, 0x5C7, 0x5E2, 0x5E4, 0x5E6, 0x5EB].contains n

/-- The value of a custom CSR of a core (R344). -/
def State.csrRead (s : State) (c n : Nat) : DWord :=
  let x := s.svcCore c
  let k := s.cluster c
  match n with
  | 0x5C0 => x.monarm
  | 0x5C1 => x.monopnd
  | 0x5C2 => x.monstat.setWidth 64
  | 0x5C4 => SMap.get x.monval 0 0
  | 0x5C5 => SMap.get x.monval 1 0
  | 0x5C6 => SMap.get x.monval 2 0
  | 0x5C7 => SMap.get x.monval 3 0
  | 0x5D0 => x.tlbinv
  | 0x5D1 => x.tlbinvm.setWidth 64
  | 0x5D2 => x.tlbinvm.extractLsb' 64 64
  | 0x5D3 => BitVec.ofNat 64 (x.tlbDone.toNat * 256 + x.tlbBusy.toNat)
  | 0x5D4 => BitVec.ofNat 64 (k.ftail * 2 ^ 32 + k.fhead)
  | 0x5E0 => x.ctxwin
  | 0x5E1 => x.callpend.setWidth 64
  | 0x5E2 => BitVec.ofNat 64 (callBase c)
  | 0x5E4 => BitVec.ofNat 64 (b2n x.launchBusy 63 + x.launchSt)
  | 0x5E6 => BitVec.ofNat 64 (b2n x.prBusy 63 + x.prState)
  | 0x5E7 => x.savepc
  | 0x5E8 => x.restpc
  | 0x5EA => x.tsreq
  | 0x5EB => BitVec.ofNat 64 ((x.mchk.head?.map Prod.fst).getD 0)
  | _ => 0

/-- The number of places from HEAD on that a write of HEAD frees: up to the first unanswered record (R136). -/
def Cluster.freed (c : Cluster) : Nat → Nat → Nat
  | 0, h => h
  | n + 1, h => if c.unanswered h then h else c.freed n ((h + 1) % 64)

/-- FQPTR_HEAD_WRITE (R136). -/
def Cluster.writeHead (c : Cluster) (h : Nat) : Cluster :=
  let n := (h + 64 - c.fhead) % 64
  if (c.ftail + 64 - c.fhead) % 64 < n then c else { c with fhead := c.freed n c.fhead }

/-- An arm slot disarmed (R115): its entry leaves the array that holds it. -/
def State.disarm (s : State) (c idx : Nat) : State :=
  { s with
    armReqs := s.armReqs.filter fun e => !(e.entry.core == c && e.entry.idx == idx)
    slices := s.slices.map fun (k : Nat × Slice) => (k.1, { k.2 with svc := k.2.svc.filter fun e => !(e.core == c && e.idx == idx) }) }

/-- MONARM_ARM and MONARM_DISARM (R115). -/
def State.writeMonarm (s : State) (c : Nat) (v : DWord) : State :=
  let idx := bits v 63 62
  let s := s.disarm c idx
  let x := s.svcCore c
  let s := s.setSvc c { x with monarm := v &&& 0xFC0FFFFFFFFFFFFD }
  if v.getLsbD 0 then
    let e : SvcEntry :=
      { core := c, idx := idx, w64 := v.getLsbD 61, cmp := BitVec.ofNat 3 (bits v 60 58), addr := bits v 51 2 * 4,
        opnd := if v.getLsbD 61 then x.monopnd else (x.monopnd.setWidth 32 : Word).setWidth 64 }
    { s with armReqs := s.armReqs ++ [{ entry := e, cap := s.hub.memcap, route := s.routeAt c }] }
  else s

/-- MONSTAT after a write: FIRED is W1C, the statuses take the written bits. -/
def monstatWrite (old v : Word) : Word := (old &&& 0x80808080 &&& ~~~ v) ||| (v &&& 0x07070707)

/-- A write of TLBINV; none is an illegal instruction. An empty mask completes at once (R131). -/
def State.writeTlbinv (s : State) (c : Nat) (v : DWord) : Option State :=
  let x := s.svcCore c
  if bits v 63 62 = 3 ∨ x.tlbBusy.getLsbD (bits v 61 59) then none
  else
    let t := s.shootdown c (v &&& 0xF87FFFFFFFFFFFFF)
    some (if x.tlbinvm = 0 then (match t.shoots.getLast? with
      | some d => t.shootDone d
      | none => t) else t)

/-- A write of FLTACK; none is an illegal instruction (R136). -/
def State.writeFltack (s : State) (c : Nat) (v : DWord) : Option State :=
  let i := bits v 5 0
  let act := bits v 7 6
  if act = 3 ∨ !(s.cluster c).unanswered i then none else some (s.answer c i act)

/-- A WRITE OF A CUSTOM CSR by the service core of a cluster in supervisor or machine mode; none is an illegal instruction (R344). -/
def State.csrWrite (s : State) (c n : Nat) (v : DWord) : Option State :=
  let x := s.svcCore c
  if !csrKnown n || csrRo n then none
  else
    match n with
    | 0x5C0 => some (s.writeMonarm c v)
    | 0x5C1 => some (s.setSvc c { x with monopnd := v })
    | 0x5C2 => some (s.setSvc c { x with monstat := monstatWrite x.monstat (v.setWidth 32) })
    | 0x5D0 => s.writeTlbinv c v
    | 0x5D1 => some (s.setSvc c { x with tlbinvm := (x.tlbinvm.extractLsb' 64 64 : DWord) ++ v })
    | 0x5D2 => some (s.setSvc c { x with tlbinvm := v ++ (x.tlbinvm.setWidth 64 : DWord) })
    | 0x5D3 => some (s.setSvc c { x with tlbDone := x.tlbDone &&& ~~~ (v.extractLsb' 8 8) })
    | 0x5D4 => some (s.setCluster c ((s.cluster c).writeHead (bits v 5 0)))
    | 0x5D5 => s.writeFltack c v
    | 0x5E0 => some (s.setSvc c { x with ctxwin := v &&& 0xC07FFF000000FFFF })
    | 0x5E1 => some (s.setSvc c { x with callpend := x.callpend &&& ~~~ (v.setWidth 28) })
    | 0x5E3 => s.writeLaunchp c v
    | 0x5E5 => s.writePreq c v
    | 0x5E7 => some (s.setSvc c { x with savepc := v })
    | 0x5E8 => some (s.setSvc c { x with restpc := v })
    | 0x5E9 => s.writeUisend v
    | _ => some (s.setSvc c { x with tsreq := x.tsreq &&& ~~~ v })

/-! ### The CSRs of RISC-V that the spec speaks of -/

/-- The numbers that RISC-V gives to sie, sip, stimecmp, satp, vstimecmp, time and mhartid (log 58). -/
def csrSie : Nat := 0x104
/-- sip. -/
def csrSip : Nat := 0x144
/-- stimecmp. -/
def csrStimecmp : Nat := 0x14D
/-- satp. -/
def csrSatp : Nat := 0x180
/-- vstimecmp. -/
def csrVstimecmp : Nat := 0x24D
/-- time. -/
def csrTime : Nat := 0xC01
/-- mhartid. -/
def csrHartid : Nat := 0xF14

/-- The CSRs of a hart, beside those of Table 2, that software writes and the spec speaks of (R342, R343, R384). -/
def csrPlain : Agent → Nat → Bool
  | .service _ _, n => n == csrSie || n == csrStimecmp || n == csrSatp
  | .control _ _, n => n == csrStimecmp || n == csrVstimecmp

/-- A write of one of them; none is an illegal instruction, from user mode. satp keeps MODE Bare, whatever is written (R342). -/
def State.plainWrite (s : State) (a : Agent) (n : Nat) (v : DWord) : Option State :=
  if a.mode = .user ∨ !csrPlain a n then none
  else
    match a with
    | .service c _ =>
      if n = csrSie then some (s.setSvc c { s.svcCore c with sie := v })
      else if n = csrStimecmp then some (s.setSvc c { s.svcCore c with stimecmp := v }) else some s
    | .control h _ => some (s.setHart h (if n = csrStimecmp then { s.hart h with stimecmp := v } else { s.hart h with vstimecmp := v }))

/-! ### A hart's write -/

/-- An access of a hart to its own cluster's call page. -/
def ownPage (a : Agent) (off : Nat) : Bool :=
  match a with
  | .service c _ => decide (clusterBlock c + 0x800000 ≤ off ∧ off < clusterBlock c + 0x810000)
  | .control _ _ => false

/-- A hart's store to a register completes; one that has lowered MEMCAP only when the lower value is settled (R139). -/
def State.hartStored (s t : State) (a : Agent) : State :=
  if t.hub.memcap < s.hub.memcap then { t with hub := { t.hub with capHarts := t.hub.capHarts ++ [a] } } else t.hartOk a

/-- A REGISTER WRITTEN BY A HART: its effect, or the exception that the hart takes, which changes nothing else (R7, R28, R344). -/
def State.hartWrite (s : State) (a : Agent) (r : RegAddr) (v : DWord) : State :=
  match r with
  | .mmio off n =>
    if mmioRefused a off n then s.hartExc a 7 (BitVec.ofNat 64 (mmioBase + off)) else s.hartStored (s.mmioWrite a.writer off n v) a
  | .csr n =>
    match (if csrPlain a n then s.plainWrite a n v else match a with
      | .service c m => if m = .user then none else s.csrWrite c n v
      | .control _ _ => none) with
    | some t => t.hartOk a
    | none => s.hartExc a illegalInstr 0

/-- The row of the table of operations that a register write belongs to. -/
inductive WriteRow
  | memcapRaise | memcapLower | stackmap | mphaseGo | migword | fwinEnable | fwinDisable | peerwinClear | grptrHead | glWake | glTimeout | glRestart
  | pairinjArm | bootStage | bootOk | ccbootRun | domainReset | pmsgSend | tmrsyncLoad | clpwr | portLaunch | portRestore | preq | uisend
  | fltRetry | fltDeliver | fltEnd | fqptrHead | tlbAll | tlbAsid | tlbPage | monArm | monDisarm | other
deriving DecidableEq, Repr

/-- The row of a write to an MMIO register: `v` and `m` as the register takes them. -/
def State.mmioRow (s : State) (v m : DWord) : Reg → WriteRow
  | .fallow 0 => if s.hub.memcap ≤ mbits (BitVec.ofNat 64 s.hub.memcap) v m 51 16 * 2 ^ 16 then .memcapRaise else .memcapLower
  | .fallow 1 => if bits m 15 8 = 0 then .other else .stackmap
  | .fallow 2 => if whole m ∧ v.getLsbD 63 then .mphaseGo else .other
  | .fallow 6 => .migword
  | .fwin n 0 =>
    let w := s.fwin n
    let en := (merge (BitVec.ofNat 64 w.ctl) v m).getLsbD 0
    if en && !w.en then .fwinEnable else if w.en && !en then .fwinDisable else .other
  | .peerwin _ => if (v &&& m).getLsbD 7 then .peerwinClear else .other
  | .mon _ 5 => .grptrHead
  | .mon _ 7 =>
    if !whole m then .other
    else
      match bits v 63 62 with
      | 1 => .glWake
      | 2 => .glTimeout
      | 3 => .glRestart
      | _ => .other
  | .pair _ 0 => if (v &&& m).getLsbD 63 then .pairinjArm else .other
  | .bootstat => if (v &&& m).getLsbD 0 then .bootOk else if bits m 2 1 = 0 then .other else .bootStage
  | .ccboot _ => if whole m ∧ v.getLsbD 63 then .ccbootRun else .other
  | .domtab _ 0 => if whole m ∧ v.getLsbD 62 then .domainReset else .other
  | .pmsggo _ => if whole m then .pmsgSend else .other
  | .tmrsync => if whole m then .tmrsyncLoad else .other
  | .clpwr _ => .clpwr
  | _ => .other

/-- The row of a CSR write. -/
def csrRow (n : Nat) (v : DWord) : WriteRow :=
  match n with
  | 0x5C0 => if v.getLsbD 0 then .monArm else .monDisarm
  | 0x5D0 => (match bits v 63 62 with
    | 0 => .tlbAll
    | 1 => .tlbAsid
    | 2 => .tlbPage
    | _ => .other)
  | 0x5D4 => .fqptrHead
  | 0x5D5 => (match bits v 7 6 with
    | 0 => .fltRetry
    | 1 => .fltDeliver
    | 2 => .fltEnd
    | _ => .other)
  | 0x5E3 => if v.getLsbD 0 then .portRestore else .portLaunch
  | 0x5E5 => .preq
  | 0x5E9 => .uisend
  | _ => .other

/-- The row of a hart's write; none for its own call page and a doorbell, which have other rows. -/
def State.writeRow (s : State) (a : Agent) (r : RegAddr) (v : DWord) : Option WriteRow :=
  match r with
  | .mmio off n =>
    if ownPage a off then none
    else if mmioRefused a off n then some .other
    else
      let v := if n = 8 then v else BitVec.ofNat 64 (v.toNat % 2 ^ 32 * 2 ^ (off % 8 * 8))
      match regAt (off / 8 * 8) with
      | .doorbell _ => none
      | x => some (s.mmioRow v (writeMask off n) x)
  | .csr n =>
    if 0x5C0 ≤ n ∧ n ≤ 0x5FF then
      (match a with
        | .service _ .user => some .other
        | .service _ _ => some (csrRow n v)
        | .control _ _ => some .other)
    else if csrPlain a n then some .other
    else none

/-- A row's event: a hart's write of that row. -/
def writeEvent (w : WriteRow) (a : Agent) (r : RegAddr) (v : DWord) (s : State) : Out :=
  event s (a.exists_ && s.writeRow a r v == some w) (s.hartWrite a r v)

/-- REGISTER_WRITE (R7). -/
def execRegisterWrite (a : Agent) (r : RegAddr) (v : DWord) (s : State) : Out := writeEvent .other a r v s
/-- MEMCAP_RAISE (R139). -/
def execMemcapRaise (a : Agent) (r : RegAddr) (v : DWord) (s : State) : Out := writeEvent .memcapRaise a r v s
/-- MEMCAP_LOWER (R139). -/
def execMemcapLower (a : Agent) (r : RegAddr) (v : DWord) (s : State) : Out := writeEvent .memcapLower a r v s
/-- STACKMAP_RETIRE_WRITE (R140). -/
def execStackmapRetireWrite (a : Agent) (r : RegAddr) (v : DWord) (s : State) : Out := writeEvent .stackmap a r v s
/-- MPHASE_GO (R141). -/
def execMphaseGo (a : Agent) (r : RegAddr) (v : DWord) (s : State) : Out := writeEvent .mphaseGo a r v s
/-- MIGWORD_WRITE (R143). -/
def execMigwordWrite (a : Agent) (r : RegAddr) (v : DWord) (s : State) : Out := writeEvent .migword a r v s
/-- FWIN_ENABLE (R48). -/
def execFwinEnable (a : Agent) (r : RegAddr) (v : DWord) (s : State) : Out := writeEvent .fwinEnable a r v s
/-- FWIN_DISABLE (R50). -/
def execFwinDisable (a : Agent) (r : RegAddr) (v : DWord) (s : State) : Out := writeEvent .fwinDisable a r v s
/-- PEERWIN_FENCED_CLEAR (R377). -/
def execPeerwinFencedClear (a : Agent) (r : RegAddr) (v : DWord) (s : State) : Out := writeEvent .peerwinClear a r v s
/-- GRPTR_HEAD_WRITE (R102). -/
def execGrptrHeadWrite (a : Agent) (r : RegAddr) (v : DWord) (s : State) : Out := writeEvent .grptrHead a r v s
/-- GLCMD_WAKE (R103). -/
def execGlcmdWake (a : Agent) (r : RegAddr) (v : DWord) (s : State) : Out := writeEvent .glWake a r v s
/-- GLCMD_TIMEOUT (R103). -/
def execGlcmdTimeout (a : Agent) (r : RegAddr) (v : DWord) (s : State) : Out := writeEvent .glTimeout a r v s
/-- GLCMD_RESTART (R103). -/
def execGlcmdRestart (a : Agent) (r : RegAddr) (v : DWord) (s : State) : Out := writeEvent .glRestart a r v s
/-- PAIRINJ_ARM (R369). -/
def execPairinjArm (a : Agent) (r : RegAddr) (v : DWord) (s : State) : Out := writeEvent .pairinjArm a r v s
/-- BOOTSTAT_STAGE_WRITE (R381). -/
def execBootstatStageWrite (a : Agent) (r : RegAddr) (v : DWord) (s : State) : Out := writeEvent .bootStage a r v s
/-- BOOTSTAT_OK_WRITE (R381). -/
def execBootstatOkWrite (a : Agent) (r : RegAddr) (v : DWord) (s : State) : Out := writeEvent .bootOk a r v s
/-- CCBOOT_RUN (R384). -/
def execCcbootRun (a : Agent) (r : RegAddr) (v : DWord) (s : State) : Out := writeEvent .ccbootRun a r v s
/-- DOMAIN_RESET (R398). -/
def execDomainReset (a : Agent) (r : RegAddr) (v : DWord) (s : State) : Out := writeEvent .domainReset a r v s
/-- PMSG_SEND (R394). -/
def execPmsgSend (a : Agent) (r : RegAddr) (v : DWord) (s : State) : Out := writeEvent .pmsgSend a r v s
/-- TMRSYNC_LOAD (R395). -/
def execTmrsyncLoad (a : Agent) (r : RegAddr) (v : DWord) (s : State) : Out := writeEvent .tmrsyncLoad a r v s
/-- CLPWR_WRITE (R401). -/
def execClpwrWrite (a : Agent) (r : RegAddr) (v : DWord) (s : State) : Out := writeEvent .clpwr a r v s
/-- LAUNCH_PORT_LAUNCH (R358). -/
def execLaunchPortLaunch (a : Agent) (r : RegAddr) (v : DWord) (s : State) : Out := writeEvent .portLaunch a r v s
/-- LAUNCH_PORT_RESTORE (R358). -/
def execLaunchPortRestore (a : Agent) (r : RegAddr) (v : DWord) (s : State) : Out := writeEvent .portRestore a r v s
/-- PREQ_WRITE (R359). -/
def execPreqWrite (a : Agent) (r : RegAddr) (v : DWord) (s : State) : Out := writeEvent .preq a r v s
/-- UISEND_WRITE (R360). -/
def execUisendWrite (a : Agent) (r : RegAddr) (v : DWord) (s : State) : Out := writeEvent .uisend a r v s
/-- FLTACK_RETRY (R136). -/
def execFltackRetry (a : Agent) (r : RegAddr) (v : DWord) (s : State) : Out := writeEvent .fltRetry a r v s
/-- FLTACK_DELIVER (R136). -/
def execFltackDeliver (a : Agent) (r : RegAddr) (v : DWord) (s : State) : Out := writeEvent .fltDeliver a r v s
/-- FLTACK_END_DOMAIN (R136). -/
def execFltackEndDomain (a : Agent) (r : RegAddr) (v : DWord) (s : State) : Out := writeEvent .fltEnd a r v s
/-- FQPTR_HEAD_WRITE (R136). -/
def execFqptrHeadWrite (a : Agent) (r : RegAddr) (v : DWord) (s : State) : Out := writeEvent .fqptrHead a r v s
/-- TLBINV_ALL (R131). -/
def execTlbinvAll (a : Agent) (r : RegAddr) (v : DWord) (s : State) : Out := writeEvent .tlbAll a r v s
/-- TLBINV_ASID (R131). -/
def execTlbinvAsid (a : Agent) (r : RegAddr) (v : DWord) (s : State) : Out := writeEvent .tlbAsid a r v s
/-- TLBINV_PAGE (R131). -/
def execTlbinvPage (a : Agent) (r : RegAddr) (v : DWord) (s : State) : Out := writeEvent .tlbPage a r v s
/-- MONARM_ARM (R115). -/
def execMonarmArm (a : Agent) (r : RegAddr) (v : DWord) (s : State) : Out := writeEvent .monArm a r v s
/-- MONARM_DISARM (R115). -/
def execMonarmDisarm (a : Agent) (r : RegAddr) (v : DWord) (s : State) : Out := writeEvent .monDisarm a r v s

/-- The local interrupts that are pending for the service core of a cluster, as bits 16 to 23 of its sip (15 Table 1, R343). -/
def State.localInterrupts (s : State) (c : Nat) : Nat :=
  let x := s.svcCore c
  let k := s.cluster c
  let glean := s.slices.any fun p => p.2.greq && decide (p.1 / 32 = c / 16 ∧ p.2.gcore = c % 16)
  b2n (x.monstat &&& 0x80808080 != 0) 16 + b2n ((List.range 64).any k.unanswered) 17 + b2n glean 18 + b2n x.refill 19 + b2n (x.callpend != 0) 20 +
    b2n (x.tsreq != 0) 21 + b2n (!x.mchk.isEmpty) 22 + b2n (x.tlbDone != 0) 23

/-- sip as a service core reads it: the device's own interrupts, the timer's, whose condition Sstc gives (R342, R343); the other bits are RISC-V's and not
given (log 57). -/
def State.sip (s : State) (c : Nat) : DWord :=
  BitVec.ofNat 64 ((s.free 0).toNat % 2 ^ 5 + b2n (decide ((s.svcCore c).stimecmp.toNat ≤ s.tstamp.toNat)) 5 + (s.free 0).toNat / 2 ^ 6 % 2 ^ 10 * 2 ^ 6 +
    s.localInterrupts c)

/-- The number that mhartid holds (R13, R342). -/
def agentNumber : Agent → Nat
  | .service c _ => c
  | .control h _ => h

/-- A custom CSR or sip: what a service core in supervisor or machine mode reads of its own (R343, R344). -/
def csrShown (n : Nat) : Bool := csrKnown n || n == csrSip

/-- The CSRs of a hart beside sip and those of Table 2 that the spec speaks of, with their values: time, which reads TSTAMP, mhartid in machine mode, and above
user mode stimecmp, vstimecmp of a control core, sie of a service core, and its satp, whose MODE stays Bare and which therefore reads 0 (R13, R342, R343,
R384). -/
def State.stdCsr (s : State) (a : Agent) (n : Nat) : Option DWord :=
  if n = csrTime then some s.tstamp
  else if n = csrHartid then (if a.mode = .machine then some (BitVec.ofNat 64 (agentNumber a)) else none)
  else if a.mode = .user then none
  else
    match a with
    | .service c _ =>
      if n = csrSie then some (s.svcCore c).sie else if n = csrStimecmp then some (s.svcCore c).stimecmp else if n = csrSatp then some 0 else none
    | .control h _ => if n = csrStimecmp then some (s.hart h).stimecmp else if n = csrVstimecmp then some (s.hart h).vstimecmp else none

/-- MCHK_READ (R13, R344): a read of a custom CSR, of sip, or of another that the spec speaks of; that of MCHK consumes the oldest message. Anything else is an
illegal instruction: from user mode, or of a number that the range does not list. -/
def State.readCsr (s : State) (a : Agent) (n : Nat) : State :=
  match s.stdCsr a n, a with
  | some x, _ => s.hartGot a x
  | none, .control _ _ => s.hartExc a illegalInstr 0
  | none, .service c m =>
    if m = .user ∨ !csrShown n then s.hartExc a illegalInstr 0
    else if n = csrSip then s.bump.hartGot a (s.sip c)
    else
      let t := s.hartGot a (s.csrRead c n)
      if n = 0x5EB then t.setSvc c { t.svcCore c with mchk := (t.svcCore c).mchk.drop 1 } else t

/-- A CSR read that the spec describes. -/
def csrReadable (a : Agent) (n : Nat) : Bool :=
  csrPlain a n || n == csrTime || n == csrHartid || decide (0x5C0 ≤ n ∧ n ≤ 0x5FF) || (match a with
    | .service _ _ => n == csrSip
    | .control _ _ => false)

/-- MCHK_READ and the reads of the other custom CSRs, of sip and of mhartid. -/
def execMchkRead (h : HartName) (m : Mode) (n : Nat) (s : State) : Out :=
  event s ((h.agent m).exists_ && csrReadable (h.agent m) n) (s.readCsr (h.agent m) n)

end Sys2Proof.Machine
end

