-- ==== Sys2Proof/Machine/HomeEvents.lean ====
section
/-! DEFINITION. Requests at their homes (R57 to R61, R72 to R74, R148): reads, writes and atomics of groups and harts, the end of an access (R56, R64, R412), responses and L1 fills (R43), line fills (R44, R46), and writes that wait on a gleaning ring (R102). -/

namespace Sys2Proof.Machine

open Sys2Proof

/-! ### The end of an access -/

/-- A record of a group's access that met poison, a malformed block, or a refusal: of the class first in 05 Table 12, with its lanes and the lowest
one's address (R54, R134, R412); a qunpk or a scalar access fails in every active lane (R208, R266). -/
def Access.late (a : Access) (id : Nat) : LateFault :=
  let (cls, m) := a.fault
  let lanes := if a.once || a.kind == .qunpk then a.lanes else m
  { cls := cls, kind := (match a.kind with
      | .load | .qunpk | .prefetch => 0
      | .store => 1
      | .atomic _ _ => 2),
    space := if a.space == .spad then 1 else 0, addr := a.ea[lowLane m], pc := a.pc, lanes := lanes, aux := 0, mode := .redo id }

/-- What ACT 0 performs again: of a store only what was refused (R412). -/
def Access.again (a : Access) : Access :=
  match a.kind with
  | .store => { a with pieces := a.pieces.filter (·.refused) }
  | _ => a

/-- An access leaves: with a fault it waits for the answer to its record; one performed again alone lets its group go on (R412). A prefetch is dropped
without a fault (R275). -/
def State.closeAccess (s : State) (id : Nat) (a : Access) : State :=
  let s := { s with accs := SMap.del s.accs id }
  if a.bad && a.kind != .prefetch then
    let s := if a.redo then s.updUid a.slot a.uid fun g => { g with blocks := g.blocks.erase (.redo id) } else s
    if s.holds a.slot a.uid then ({ s with redos := SMap.set s.redos id a.again }).lateFor a.slot a.uid (a.late id) else s
  else if a.redo && s.holds a.slot a.uid then s.unblock a.slot (.redo id) 0 else s

/-- The teams whose save routines made an access. -/
def State.savingTeams (s : State) (id : Nat) : List Nat := (s.teams.filter fun t => t.2.saveAfter.any fun p => p.2.contains id).map Prod.fst

/-- AN ACCESS IS PERFORMED when every request of it is (R56): an acquire acts on L1 (R64); one with no result to return leaves; barriers, draining
groups and saved teams that waited for it go on. -/
def State.performed (s : State) (id : Nat) : State :=
  match SMap.find s.accs id with
  | none => s
  | some a =>
    if !a.performed then s
    else
      let a := a.judged
      let s := { s with accs := SMap.set s.accs id a }
      let s := if a.fwd.isSome && !a.bad then s.updUid a.slot a.uid fun g => g.note ⟨.zero, a.bits, a.lanes, a.seq⟩ fun l => a.ret[l] else s
      let s := if a.ord.getLsbD 0 && !a.bad && a.kind != .store then s.acquireInval (slotCore a.slot) else s
      let s := if a.dest.isSome || a.kind == .prefetch || (a.forwarding && !a.bad) then s else s.closeAccess id a
      let s := if a.waits && s.holds a.slot a.uid then s.settle a.slot else s
      let s := if s.holds a.slot a.uid then s.poll (s.prog a.slot).team else s
      (s.savingTeams id).foldl (fun s tm => s.saveDone tm) s

/-! ### Requests of groups -/

/-- One request of an access replaced. -/
def State.setPiece (s : State) (id i : Nat) (a : Access) (p : Piece) : State :=
  { s with accs := SMap.set s.accs id { a with pieces := a.pieces.set i p } }

/-- A request done, with the access as it then is. -/
def State.donePiece (s : State) (id i : Nat) (a : Access) (p : Piece) : State := (s.setPiece id i a { p with done := true }).performed id

/-- A request refused at its home (R23, R49). -/
def State.refusePiece (s : State) (id i : Nat) (a : Access) (p : Piece) (cls : BitVec 8) : State :=
  s.donePiece id i (a.meet (if p.mask = 0 then a.lanes else p.mask) cls) { p with refused := true }

/-- The block of the MMIO space that an offset lies in (01 Table 7). -/
def mmioBlock (off : Nat) : Nat :=
  let d := off / 2 ^ 32
  let r := off % 2 ^ 32
  d * 2 ^ 32 + (if d < 8 then (if r < 0x10000000 then r / 2 ^ 24 * 2 ^ 24 else if r < 0x12000000 then r / 2 ^ 20 * 2 ^ 20 else 0x20000000)
    else if r < 0x4000000 then r / 2 ^ 24 * 2 ^ 24 else if r < 0x8000000 then 0x4000000 else r / 2 ^ 28 * 2 ^ 28)

/-- Two requests that one agent must have performed in the order it issued them, beside R58: to one MMIO block (R28), stores to one root port
(R389), and behind one that was refused with MOVED in its granule until its replay is performed (R149). -/
def holdsBack (b a : Access) (q p : Piece) : Bool :=
  ((q.moved || q.replay) && granuleOf q.addr == granuleOf p.addr) ||
  (match pRange q.addr, pRange p.addr with
    | .mmio x, .mmio y => mmioBlock x == mmioBlock y
    | .pcie x _, .pcie y _ => x == y && b.kind == .store && a.kind == .store
    | _, _ => false)

/-- An earlier request of the group holds a request back. -/
def State.heldBack (s : State) (id : Nat) (a : Access) (p : Piece) : Bool :=
  s.accs.any fun b => decide (b.1 < id) && b.2.slot == a.slot && b.2.uid == a.uid && b.2.space == a.space &&
    b.2.pieces.any fun q => !q.done && holdsBack b.2 a q p

/-- A word of the request is the core's own store on its way, and a store shown to L1 before the request is not performed: the request follows it, so
that no thread reads back in the word's order (R60). -/
def State.ownAhead (s : State) (id : Nat) (a : Access) (p : Piece) : Bool :=
  let k := s.core (slotCore a.slot)
  p.words.any (fun w => match k.word w with
    | some x => x.own && (x.valid || a.kind == .store)
    | none => false) && s.coreStore id a p

/-- A request of an access that its arbiter or target may take up: not performed, everything that it follows performed (R58, R60, R63 to R65, R68,
R149), and not held in a store compare buffer (R365). -/
def State.pieceOpen (s : State) (id i : Nat) : Option (Access × Piece) :=
  match SMap.find s.accs id with
  | none => none
  | some a =>
    match a.pieces[i]? with
    | none => none
    | some p =>
      if p.done || p.moved || p.stalled || a.trail || !s.accsDone a.after || !s.clear a.slot a.uid a.behind ||
        s.earlier id a p (fun _ => true) || s.waitBefore a p || s.heldBack id a p ||
        (a.space == .global && (a.scb.contains (p.addr / 128) || s.behindRing p.addr p.size || s.fillHeld p.addr || s.ownAhead id a p)) then none
      else some (a, p)

/-- The request is for this package's memory or registers. -/
def Piece.isLocal (p : Piece) : Bool :=
  match pRange p.addr with
  | .hbm => true
  | .mmio _ => true
  | _ => false

/-- A request to HBM that its home slice does not perform now: a capacity fault, a stall or MOVED (06 Table 10). -/
inductive Turned
  | no
  | refused (cls : BitVec 8)
  | stallOld
  | stallNew
  | moved
deriving DecidableEq, Repr

/-- What the slice that a request was sent to does with it: `cap` is MEMCAP when it was routed, `wr` writes (R23, R49, R148). -/
def State.turned (s : State) (home cap pa n : Nat) (wr : Bool) : Turned :=
  if cap ≤ pa then .refused clsCapacity
  else
    match s.homeFate home pa with
    | .moved => .moved
    | .stallOld => .stallOld
    | .stallNew => .stallNew
    | .perform => if wr && s.scaleHit pa n then .refused clsWindow else .no

/-- A request turned away: refused, on the list of those that stall, or to be sent again. -/
def State.turnPiece (s : State) (id i : Nat) (a : Access) (p : Piece) : Turned → State
  | .refused k => s.refusePiece id i a p k
  | .stallOld =>
    let s := s.setPiece id i a { p with stalled := true }
    { s with hub := { s.hub with stallOld := s.hub.stallOld ++ [(id, i)] } }
  | .stallNew =>
    let s := s.setPiece id i a { p with stalled := true }
    { s with hub := { s.hub with stallNew := s.hub.stallNew ++ [(id, i)] } }
  | .moved =>
    let s := s.setPiece id i a { p with moved := true }
    { s with hub := { s.hub with moveds := sat24 s.hub.moveds } }
  | .no => s

/-- A line as it is at its home, for the L1 of a core: a poisoned line carries poison in every word (R53). -/
def State.lineWords (s : State) (line : Nat) : SMap L1Word :=
  let l := SMap.get s.lines line {}
  (List.range 32).map fun k => (k, { data := s.word (128 * line + 4 * k), valid := true, own := false, psn := l.psn, pcause := l.pcause })

/-- A LINE ENTERS L1 with what a load reads at the home (R43): every word that is not valid and is no store of the core on its way is filled; the words
that the load itself returns take its value, so that no thread reads an earlier one after it (R60). A set that is full gives up a line, none with a
store on its way; where it has no other, the line does not enter (R42, R60). Which line a set gives up is not architectural: Config.victim (log 86). -/
def State.fillL1 (s : State) (core : Nat) (p : Piece) : State :=
  let line := p.addr / 128
  let put (k : Core) : Core :=
    let old := SMap.get k.l1 line []
    { k with l1 := SMap.set k.l1 line ((s.lineWords line).foldl (fun (m : SMap L1Word) w =>
        let o := SMap.get m w.1 {}
        if o.own || (o.valid && !(p.words.contains (128 * line + 4 * w.1))) then m else SMap.set m w.1 w.2) old) }
  let k := s.core core
  if (SMap.find k.l1 line).isSome then s.setCore core (put k)
  else
    let s := s.trimSet core line (s.l1Chunks core - 1)
    let k := s.core core
    if (k.l1Row line).length < s.l1Chunks core then s.setCore core (put k) else s

/-- A READ of a request performed at its home (R54, R61). -/
def State.readPiece (s : State) (id i : Nat) (a : Access) (p : Piece) : State :=
  match pRange p.addr with
  | .mmio off =>
    let x := s.mmioRead off p.size
    s.bump.donePiece id i (a.take p x.toNat) p
  | _ =>
    let s := s.needLine p.addr
    let bad := s.linePsn p.addr && a.kind != .prefetch
    let s := if bad then (s.deliverPsn (s.homeNow p.addr) p.addr).strike (s.prog a.slot).team else s
    let a := if bad then a.meet p.mask (s.poisonClass p.addr) else if a.kind == .prefetch then a else a.take p (s.seen a p.addr p.size (Memory.read s.mem p.addr p.size))
    let s := if a.cached then s.fillL1 (slotCore a.slot) p else s
    s.donePiece id i a p

/-- Bytes of a line that an access writes. -/
def Access.lineBytes (a : Access) (line : Nat) : Nat :=
  ((a.pieces.filter fun p => p.addr / 128 == line).map fun p => (a.storeBytes p).length).sum

/-- The request is the last of a store that covers its whole line (R53). -/
def Access.coversLine (a : Access) (i : Nat) (p : Piece) : Bool :=
  a.lineBytes (p.addr / 128) == 128 && (a.pieces.zipIdx.all fun q => q.2 == i || q.1.done || q.1.addr / 128 != p.addr / 128)

/-- L1 when a request that writes has been performed at the home: a word that its core does not show as its own store on the way, or that a held store
changed, is no longer valid (R43, R58). -/
def State.l1Written (s : State) (a : Access) (p : Piece) : State :=
  let core := slotCore a.slot
  s.setCore core (p.words.foldl (fun k w => k.updWord w fun x =>
    if x.own && !(a.held && a.kind == .store) then x else { x with valid := false }) (s.core core))

/-- A group as a writer of registers: of ASID 0. -/
def groupWriter : Writer := { priv := true, machine := false, shard := none }

/-- A value that bytes give, lowest first. -/
def bytesValue (bs : SMap Byte) : Nat := bs.foldl (fun x b => x + b.2.toNat * 256 ^ b.1) 0

/-- A store of a contained team held in the commit buffer (R370). -/
def State.holdStore (s : State) (tm pa : Nat) (bs : SMap Byte) : State :=
  s.updTeam tm fun t => { t with commit := bs.foldl (fun m b => SMap.set m (pa + b.1) b.2) t.commit }

/-- A store finds the commit buffer of its cluster full: 8 MiB (R370, R371). -/
def State.commitFull (s : State) (tm n : Nat) : Bool := decide (2 ^ 23 < s.heldBytes ((s.team tm).core / 8) + n)

/-- A WRITE of a request performed at its home (R45, R53, R57, R95); a store that lowers MEMCAP completes later (R139); a contained team's store
to HBM is held (R370). -/
def State.writePiece (s : State) (id i : Nat) (a : Access) (p : Piece) : State :=
  let bs := a.storeBytes p
  match pRange p.addr with
  | .mmio off =>
    let cap := s.hub.memcap
    let s := s.mmioWrite groupWriter off p.size (BitVec.ofNat 64 (bytesValue bs))
    if s.hub.memcap < cap then s.setPiece id i a { p with stalled := true } else s.donePiece id i a p
  | _ =>
    let hold := (s.containedOf a).filter fun tm => !s.commitFull tm bs.length
    match hold with
    | some tm => (s.holdStore tm p.addr bs).donePiece id i a p
    | none =>
    let s := match s.containedOf a with
      | some tm => s.commitTeam tm
      | none => s
    let home := s.homeNow p.addr
    let s := (s.needLine p.addr).homeWrite home p.addr bs (a.coversLine i p) none
    (((s.l1Written a p).unstage p.addr).donePiece id i a p).cleanOwn (slotCore a.slot)

/-- The lanes of a request, ascending. -/
def Piece.laneList (p : Piece) : List Lane := lanesIn p.mask

/-- The old values that lanes receive. -/
def Access.giveOld (a : Access) (olds : List (Lane × Nat)) : Access :=
  { a with ret := olds.foldl (fun r x => r.set x.1.val (BitVec.ofNat 128 x.2)) a.ret }

/-- The old values of one half joined to those of the other (R74). -/
def Access.giveHalf (a : Access) (k : Nat) (olds : List (Lane × Nat)) : Access :=
  { a with ret := olds.foldl (fun r x => r.set x.1.val (BitVec.ofNat 128 (putBytes (r[x.1]).toNat (2 * k) 2 x.2))) a.ret }

/-- hadd2: two half-words, low half first (R74). -/
def isHalves (op : Nat) : Bool := op == 9

/-- One pass of an atomic over a word that holds `x`: the new word, the access with the old values, and whether the request is over (R59, R73, R74). -/
def Access.atomPass (a : Access) (op : Nat) (ty : BitVec 4) (p : Piece) (x : Nat) : Nat × Access × Piece :=
  let b (l : Lane) : Nat := (a.data[l]).toNat % 2 ^ (8 * p.size)
  let c (l : Lane) : Nat := (a.data2[l]).toNat % 2 ^ (8 * p.size)
  if isHalves op then
    let k := if p.low then 1 else 0
    (halfLanes b k p.laneList x, a.giveHalf k (halfOlds b k p.laneList x), if p.low then { p with done := true } else { p with low := true })
  else
    let (y, olds) := atomLanes op ty p.size b c p.laneList x
    (y, a.giveOld olds, { p with done := true })

/-- No pass of the access has been made. -/
def Access.untouched (a : Access) : Bool := a.pieces.all fun p => !p.done && !p.low

/-- An atomic whose words are judged before its first pass: what its lanes meet there (R54, R412); each is a read of poison at its home (R55). -/
def State.judge (s : State) (a : Access) : State × Access :=
  a.pieces.foldl (fun (x : State × Access) p =>
    let s := x.1.needLine p.addr
    if s.linePsn p.addr then
      ((s.deliverPsn (s.homeNow p.addr) p.addr).strike (s.prog a.slot).team, x.2.meet p.mask (s.poisonClass p.addr))
    else (s, x.2)) (s, a)

/-- Every request of an access done. -/
def Access.allDone (a : Access) : Access := { a with pieces := a.pieces.map fun p => { p with done := true } }

/-- An access that met poison before anything of it was performed is over, and nothing of it is performed (R412). -/
def State.overBad (s : State) (id : Nat) (a : Access) : State := ({ s with accs := SMap.set s.accs id a.allDone }).performed id

/-- AN ATOMIC of a request performed at its home: one pass (R73, R74). Poison is judged once, for every word of the instruction (R412). -/
def State.atomPiece (s : State) (id i : Nat) (a : Access) (p : Piece) (op : Nat) (ty : BitVec 4) : State :=
  let (s, a) := if a.untouched then s.judge a else (s, a)
  if a.bad then s.overBad id a
  else
    let home := s.homeNow p.addr
    let s := s.needLine p.addr
    let (y, a, p') := a.atomPass op ty p (Memory.read s.mem p.addr p.size)
    let s := s.homeWrite home p.addr (valueBytes y p.size) false none
    let s := ((s.setPiece id i a p').l1Written a p).unstage p.addr
    (s.performed id).cleanOwn (slotCore a.slot)

/-- A request performed at its home. -/
def State.doPiece (s : State) (id i : Nat) (a : Access) (p : Piece) : State :=
  match a.kind with
  | .load | .qunpk | .prefetch => s.readPiece id i a p
  | .store => s.writePiece id i a p
  | .atomic op ty => s.atomPiece id i a p op ty

/-- The request writes a word. -/
def AccKind.writes : AccKind → Bool
  | .store => true
  | .atomic _ _ => true
  | _ => false

/-- A request at the slice that is its home, of a granule that is not on its way: a write waits for the ring (R102), otherwise it is performed. -/
def State.homePiece (s : State) (id i : Nat) (a : Access) (p : Piece) : State :=
  let home := s.homeNow p.addr
  if a.kind.writes && pRange p.addr == .hbm && s.ringHolds home p.addr p.size then
    let s := s.setPiece id i a { p with stalled := true }
    let sl := s.slice home
    s.setSlice home { sl with stall := sl.stall ++ [{ acc := id, piece := i }] }
  else s.doPiece id i a p

/-- A request that comes to the slice that it was sent to (R148); an atomic whose low pass has been made is there already (R150). -/
def State.arrivePiece (s : State) (id i : Nat) (a : Access) (p : Piece) : State :=
  match pRange p.addr with
  | .hbm =>
    if p.low then s.homePiece id i a p
    else
      match s.turned p.home p.cap p.addr p.size a.kind.writes with
      | .no => s.homePiece id i a p
      | t => s.turnPiece id i a p t
  | _ => s.doPiece id i a p

/-- The address, as the program gave it, of the unit in which a part of a request lies. -/
def Access.unitEa (a : Access) (q : LanePart) : DWord := (if h : q.lane < 32 then a.ea[q.lane] else 0) + BitVec.ofNat 64 q.voff - BitVec.ofNat 64 q.off

/-- The parts of an access, each with the size of its unit. -/
def Access.unitParts (a : Access) : List (Nat × LanePart) := a.pieces.flatMap fun p => p.parts.map fun q => (p.size, q)

/-- AN ACCESS THAT IS PERFORMED AGAIN, whose translation a shootdown has removed, is translated again (R132, R412): a miss goes to the walker, a refusal
is met by its lanes, and otherwise its requests go to where the pages are now. -/
def State.translateAgain (s : State) (id : Nat) (a : Access) : State :=
  let cl := slotCluster a.slot
  let r : Right := match a.kind with
    | .store => .store
    | .atomic _ _ => .atomic
    | _ => .load
  let chk (x : Nat × LanePart) : LaneChk := s.checkGlobal a.slot a.priv a.asid r x.1 x.1 (a.unitEa x.2)
  let cs := a.unitParts.map fun x => (x, chk x)
  let pages := (cs.filterMap fun c => match c.2 with
    | .wait p => some p
    | _ => none).eraseDups
  if !pages.isEmpty then s.admitPages cl a.asid (s.descOf a.slot) (dataReq a.uid) pages
  else
    let s := s.dropX cl (dataReq a.uid)
    let bad := cs.filterMap fun c => match c.2 with
      | .fault k _ _ _ _ _ => some (k, (BitVec.ofNat 32 (2 ^ c.1.2.lane) : LaneMask))
      | _ => none
    if !bad.isEmpty then
      let b : Access := { a with stale := false, found := bad, pieces := a.pieces.map fun p => { p with done := true, refused := true } }
      { s with accs := SMap.set s.accs id b }.performed id
    else
      let ps := cs.foldl (fun ps c => addPart ps c.2.pa c.1.1 c.1.2) []
      let es := cs.filterMap fun c => match c.2 with
        | .ok _ e => e
        | _ => none
      { s.useTlbs (slotCore a.slot) es with accs := SMap.set s.accs id { a with stale := false, pieces := s.routed cl ps } }

/-! ### Grants among domains (R399) -/

/-- The domains whose groups' requests wait at a slice and may be taken up there. -/
def State.waitingAt (s : State) (home : Nat) : List Nat :=
  s.accs.flatMap fun x => if x.2.space != .global then []
    else (List.range x.2.pieces.length).filterMap fun i => (s.pieceOpen x.1 i).bind fun y =>
      if pRange y.2.addr == .hbm && y.2.home == home then some (s.clusterDomain (slotCluster y.1.slot)) else none

/-- The grants that a domain has left at a slice. -/
def State.creditOf (s : State) (home d : Nat) : Nat := SMap.get (s.slice home).credit d 0

/-- A slice may grant a request of a domain: its quantum of this round is not used up, or that of no other waiting domain has anything left (R399). -/
def State.grantable (s : State) (home d : Nat) : Bool := decide (0 < s.creditOf home d) || (s.waitingAt home).all fun e => s.creditOf home e == 0

/-- A GRANT by deficit round robin, with quanta of WEIGHT, while several domains wait: it is taken from the domain's quantum, and a new round gives every waiting domain its own (R399). -/
def State.grantFor (s : State) (home d : Nat) : State :=
  let w := s.waitingAt home
  if w.all (· == d) then s
  else
    let sl := s.slice home
    let c := if s.creditOf home d = 0 then w.foldl (fun m e => SMap.set m e (s.dom e).weight) [] else sl.credit
    s.setSlice home { sl with credit := SMap.set c d (SMap.get c d 0 - 1) }

/-- The slice that a request to HBM waits at grants it. -/
def State.pieceGrant (s : State) (a : Access) (p : Piece) : Bool :=
  pRange p.addr != .hbm || s.grantable p.home (s.clusterDomain (slotCluster a.slot))

/-- A request granted by its slice. -/
def State.granted (s : State) (a : Access) (p : Piece) : State :=
  if pRange p.addr == .hbm then s.grantFor p.home (s.clusterDomain (slotCluster a.slot)) else s

/-- An event of a group's request at a home, of a kind. -/
def pieceEvent (kind : AccKind → Bool) (id i : Nat) (s : State) : Out :=
  match s.pieceOpen id i with
  | some (a, p) =>
    event s (a.space == .global && kind a.kind && p.isLocal && (a.stale || s.pieceGrant a p))
      (if a.stale then s.translateAgain id a else (s.granted a p).arrivePiece id i a p)
  | none => .next s

/-! ### Requests of harts -/

/-- The right that a hart's access asks for. -/
def hartRight : HartOp → Right
  | .load => .load
  | .store => .store
  | .amo => .atomic

/-- The context window of a service core (R357). -/
def inWindow (a : Agent) (pa : Nat) : Bool := a.isService && decide (0xD00000000000 ≤ pa ∧ pa < 0xD00000000000 + 2 ^ 40)

/-- The routing point of a hart: a service core's cluster, or the hub's ports (R144). -/
def agentPoint : Agent → Nat
  | .service c _ => c
  | .control _ _ => hubPorts

/-- A hart's access that is made here: aligned unless it names a register (R28), of memory or of the MMIO space, not its own call page or a doorbell or the context window, and
not held by a sealed granule or a ring (R102, R148). -/
def State.hartDue (s : State) (k : HartOp) (r : HartReq) : Bool :=
  r.agent.exists_ && [1, 2, 4, 8].contains r.n && (decide (r.pa % r.n = 0) || (match pRange r.pa with
    | .mmio _ => true
    | _ => false)) && !inWindow r.agent r.pa &&
  (match pRange r.pa with
    | .hbm => s.unitFree (agentPoint r.agent) r.pa r.n (k != .load)
    | .mmio off => k != .store && !ownPage r.agent off
    | .peer _ _ | .pcie _ _ => (s.refuse r.agent.priv (hartRight k) 1 r.pa r.n).isSome
    | .reserved => true)

/-- The copies that harts' caches hold of a line (R45). -/
def Line.copyTo (l : Line) (a : Agent) : Line :=
  match a with
  | .control _ _ => { l with hub := true }
  | .service c _ =>
    if !l.svcv || l.svcid == c then { l with svcv := true, svcid := c } else { l with svcm := true }

/-- A hart's access to HBM that its home refuses or that meets poison (R22, R23, R49, R54). -/
def State.hartBad (s : State) (k : HartOp) (r : HartReq) : Bool :=
  (s.refuse r.agent.priv (hartRight k) 1 r.pa r.n).isSome || (k != .store && (s.needLine r.pa).linePsn r.pa)

/-- A HART'S ACCESS performed at its home or register (R45, R54, R85); what is refused is an access-fault exception. The spec does not say what an AMO to
a register outside the call page does: the model refuses it, as R271 does a group's (log 82). -/
def State.hartAccess (s : State) (k : HartOp) (r : HartReq) : State :=
  let a := r.agent
  let trap (s : State) : State := s.hartExc a k.accessFault (BitVec.ofNat 64 r.pa)
  match pRange r.pa with
  | .hbm =>
    if s.hartBad k r then
      let s := s.needLine r.pa
      trap (if (s.refuse a.priv (hartRight k) 1 r.pa r.n).isNone then s.deliverPsn (s.homeNow r.pa) r.pa else s)
    else
      let s := s.needLine r.pa
      let old := BitVec.ofNat 64 (Memory.read s.mem r.pa r.n)
      let put (x : Nat) : State := (s.homeWrite (s.homeNow r.pa) r.pa (valueBytes x r.n) false (some a)).unstage r.pa |>.race none r.pa r.n
      match k with
      | .load => (if r.cached then s.setLine r.pa ((s.line r.pa).copyTo a) else s).hartGot a old
      | .store => (put r.data.toNat).hartOk a
      | .amo => (put (hartNew r old.toNat)).hartGot a old
  | .mmio off => if k == .load && decide (r.pa % r.n = 0) && !mmioRefused a off r.n then (s.hartGot a (s.mmioRead off r.n)).bump else trap s
  | _ => trap s

/-- A hart's access as an event. -/
def hartEvent (k : HartOp) (r : HartReq) (s : State) : Out := event s (s.hartDue k r) (s.sendFrom (agentPoint r.agent) r.pa fun s => s.hartAccess k r)

/-! ### The events -/

/-- HOME_READ (R61). -/
def execHomeRead (q : HomeReq) (s : State) : Out :=
  match q with
  | .piece id i => pieceEvent (fun k => k == .load || k == .qunpk || k == .prefetch) id i s
  | .hart r => hartEvent .load r s

/-- HOME_WRITE (R57). -/
def execHomeWrite (q : HomeReq) (s : State) : Out :=
  match q with
  | .piece id i => pieceEvent (fun k => k == .store) id i s
  | .hart r => hartEvent .store r s

/-- HOME_ATOMIC (R73). -/
def execHomeAtomic (q : HomeReq) (s : State) : Out :=
  match q with
  | .piece id i => pieceEvent (fun k => k.writes && k != .store) id i s
  | .hart r => hartEvent .amo r s

/-- The first write that waits on the ring of a slice, when a place is free (R102). -/
def State.ringNext (s : State) (home : Nat) : Option (RingStall × Access × Piece) :=
  match (s.slice home).stall with
  | [] => none
  | r :: _ =>
    if (s.slice home).ringFull then none
    else
      match SMap.find s.accs r.acc with
      | some a => (a.pieces[r.piece]?).map fun p => (r, a, p)
      | none => none

/-- RING_STALL_RELEASE of a slice (R102): the POISON records that wait are appended first; the write is performed and its record appended. -/
def execRingStallRelease (home : Nat) (s : State) : Out :=
  if !(s.slice home).owed.isEmpty then .next (s.payRecs home (s.slice home).owed.length)
  else match s.ringNext home with
  | some (r, a, p) =>
    let sl := s.slice home
    let s := s.setSlice home { sl with stall := sl.stall.erase r }
    let p := { p with stalled := false }
    .next ((s.setPiece r.acc r.piece a p).doPiece r.acc r.piece { a with pieces := a.pieces.set r.piece p } p)
  | none => .next s

/-- MOVED_REPLAY of a request (R149): the routing point of its cluster reloads its descriptor and sends it again. -/
def execMovedReplay (acc i : Nat) (s : State) : Out :=
  match SMap.find s.accs acc with
  | none => .next s
  | some a =>
    match a.pieces[i]? with
    | none => .next s
    | some p =>
      let cl := slotCluster a.slot
      let t := s.refreshDesc cl
      event s (p.moved && !p.done)
        (t.setPiece acc i a { p with moved := false, replay := true, home := t.routeTo cl p.addr, phase := (t.routeAt cl).phase, next := (t.routeAt cl).next, cap := t.hub.memcap })

/-- HOME_LINE_FILL of a line from a bank (R44, R46): its home holds it again, corrected or poisoned as its ECC has it; copies that harts' caches
held of a line that was evicted are gone (R45). -/
def State.homeFill (s : State) (pa bank : Nat) (e : FlitCheck) : State :=
  let home := s.homeNow pa
  let cl := dieCluster0 (home / 32)
  let s := (s.evictLine pa).fillLine home pa (e == .bad)
  let sl := s.slice home
  match e with
  | .good => s
  | .corrected => (s.setSlice home { sl with ecc := sl.ecc + 1 }).bucketEvent (bankBucket home bank) 1 cl false
  | .bad => s.bucketEvent (bankBucket home bank) 64 cl true

/-- HOME_LINE_FILL (R44): of a granule that does not move, from a stack that answers. -/
def execHomeLineFill (pa bank : Nat) (e : FlitCheck) (s : State) : Out :=
  event s (pRange pa == .hbm && decide (bank < 64) && !s.sealed pa && !s.deadAt pa) (s.homeFill (lineOf pa) bank e)

/-! ### Replacement and L1 errors -/

/-- A home slice replaces a line (R44, R45); of a stack that is dead its data are lost, and the line is poisoned when it is next filled or moved (R154). -/
def State.evictHome (s : State) (pa : Nat) : State := if s.sealed pa then s else s.evictLine (lineOf pa)

/-- A core's L1 replaces a line that has no store of the core on its way (R42, R60). -/
def State.evictL1 (s : State) (core pa : Nat) : State :=
  let k := s.core core
  if (SMap.get k.l1 (pa / 128) []).any fun w => w.2.own then s else s.setCore core { k with l1 := SMap.del k.l1 (pa / 128) }

/-- A PARITY ERROR on a word of L1: the word is invalidated, and fetched again when it is next read (R43). -/
def State.l1Parity (s : State) (core pa : Nat) : State := s.setCore core ((s.core core).updWord pa fun x => { x with valid := false })

/-! ### Responses -/

/-- The value of a lane of a response, as its destination has it (R180, R267). -/
def Access.value (a : Access) (l : Lane) : BitVec 128 :=
  match a.kind, a.enc with
  | .qunpk, some e => let (codes, rec_) := a.block; (qunpkLane e a.mode codes rec_ l).1
  | _, _ =>
    let x := a.ret[if a.once then lowLane a.lanes else l]
    if a.bits < 32 then BitVec.ofNat 128 (extend32 a.bits a.signed x.toNat) else x.setWidth a.bits |>.setWidth 128

/-- The flags that a response raises (R267). -/
def Access.flags (a : Access) : Flags :=
  match a.kind, a.enc with
  | .qunpk, some e => let (codes, rec_) := a.block; orLanes a.lanes fun l => (qunpkLane e a.mode codes rec_ l).2
  | _, _ => 0

/-- An entry of the last-result file whose result has come back, or will not (R213, R412). -/
def LEntry.resolve (e : LEntry) (id : Nat) (v : Option (Lane → BitVec 128)) (all : Bool) (low : Lane) : LEntry :=
  if e.pend != some id then e
  else
    match v with
    | none => LEntry.undef
    | some x => { e with pend := none, val := Vector.ofFn fun l => (x (if all || !laneIn e.valid l then low else l)).setWidth 64 }

/-- The last-result file of a partition after a response. -/
def Part.resolve (p : Part) (id : Nat) (v : Option (Lane → BitVec 128)) (all : Bool) (low : Lane) : Part :=
  { p with l0 := p.l0.resolve id v all low, l1 := p.l1.resolve id v all low }

/-- A saved run's last-result file after a response. -/
def RunSave.resolve (k : RunSave) (id : Nat) (v : Option (Lane → BitVec 128)) (all : Bool) (low : Lane) : RunSave :=
  { k with l0 := k.l0.resolve id v all low, l1 := k.l1.resolve id v all low }

/-- A RESULT RETURNS to the group that issued for it: its destination, its flags unless an swr of FSTAT was issued after it (R192), the
last-result file (R32, R213, R214). -/
def State.giveResult (s : State) (slot uid id : Nat) (d : Dest) (v : Option (Lane → BitVec 128)) (fl : Flags) : State :=
  let all := match d.opnd with
    | .s _ => true
    | _ => false
  let low := lowLane d.lanes
  let s := s.updUid slot uid fun g =>
    let g := match v with
      | some x => ((g.writeDest d x).orFlags (if d.seq < g.fstatSeq then 0 else fl)).noteFlags d.seq fl
      | none => g
    { g with midRun := g.midRun.map fun k => k.resolve id v all low, trapSave := g.trapSave.map fun k => k.resolve id v all low }
  s.setPart (slotPart slot) ((s.part (slotPart slot)).resolve id v all low)

/-- LOAD_RESPONSE of an access (R43): its result is written, or its fault is raised. -/
def State.respond (s : State) (id : Nat) (a : Access) : State :=
  let s := match a.dest with
    | some d =>
      let v (l : Lane) : BitVec 128 := if laneIn a.undef l then s.free l.val ++ s.free (32 + l.val) else a.value l
      s.bump.giveResult a.slot a.uid id d (if a.bad then none else some v) a.flags
    | none => s
  let s := s.closeAccess id a
  if s.holds a.slot a.uid then (s.settle a.slot).poll (s.prog a.slot).team else s

/-- LOAD_RESPONSE is due: the access is performed and has a result to bring, or was a prefetch. -/
def State.responseDue (s : State) (id : Nat) : Option Access :=
  match SMap.find s.accs id with
  | some a => if a.performed && (a.dest.isSome || a.kind == .prefetch) then some a else none
  | none => none

/-- LOAD_RESPONSE of an access (R43). -/
def execLoadResponse (acc : Nat) (s : State) : Out :=
  match s.responseDue acc with
  | some a => .next (s.respond acc a)
  | none => .next s

end Sys2Proof.Machine
end

