-- ==== Sys2Proof/Machine/SpadEvents.lean ====
section
/-! DEFINITION. The bank arbiter of a core (R39 to R41, R74, R107), the forwarding of atomf (R279), and the completion of fence tokens (R79, R339). -/

namespace Sys2Proof.Machine

open Sys2Proof

/-! ### Banks: 0 to 31 data, 32 + g the parity bank of group g -/

/-- The first byte of the scratchpad of a team that lies in a core. -/
def Team.shareAt (t : Team) (core : Nat) : Nat := (core - t.core) * (t.chunks * 4096)

/-- A scratchpad word of a team lies in a core. -/
def Team.inShare (t : Team) (core a : Nat) : Bool := t.covers core && decide (t.shareAt core ≤ a ∧ a < t.shareAt core + t.chunks * 4096)

/-- The bank of a word. -/
def bankOf (a : Nat) : Nat := a / 4 % 32
/-- The group of a word's bank. -/
def groupOfBank (b : Nat) : Nat := b / 8
/-- The row of a word in its core's share of a team's scratchpad. -/
def Team.rowOf (t : Team) (core a : Nat) : Nat := (a - t.shareAt core) / 128
/-- The data banks of a group. -/
def groupBanks (g : Nat) : List Nat := (List.range 8).map (8 * g + ·)
/-- The parity bank of a group. -/
def parityBank (g : Nat) : Nat := 32 + g

/-- A pending request at a bank arbiter. -/
structure SpadReq where
  src : SpadSrc
  team : Nat
  addr : Nat
  size : Nat
  row : Nat
  write : Bool
  /-- the banks that gave an uncorrectable error to a direct access of it (R41) -/
  rebuild : List Nat
  /-- cycle of arrival, kind of requester, partition, instruction, request (R39) -/
  key : List Nat
deriving DecidableEq, Repr

/-- The banks of a request's words. -/
def SpadReq.banks (q : SpadReq) : List Nat := (List.range ((q.size + 3) / 4)).map fun k => bankOf (q.addr + 4 * k)
/-- Its group. -/
def SpadReq.group (q : SpadReq) : Nat := groupOfBank (bankOf q.addr)
/-- Its data banks and the parity bank that a write needs, or every bank of the group for a write whose old word must be rebuilt. -/
def SpadReq.writeBanks (q : SpadReq) : List Nat :=
  (if q.rebuild.isEmpty then q.banks else groupBanks q.group) ++ [parityBank q.group]
/-- The other seven banks of the group, and its parity bank, that rebuild the word of a bank (R39). -/
def SpadReq.others (q : SpadReq) (b : Nat) : List Nat := ((groupBanks q.group).filter fun c => c != b) ++ [parityBank q.group]

/-- Lexicographic order. -/
def keyLt : List Nat → List Nat → Bool
  | _, [] => false
  | [], _ => true
  | a :: as, b :: bs => if a = b then keyLt as bs else decide (a < b)

/-- A request placed in priority order. -/
def SpadReq.insert (q : SpadReq) : List SpadReq → List SpadReq
  | [] => [q]
  | p :: ps => if keyLt q.key p.key then q :: p :: ps else p :: SpadReq.insert q ps

/-- The team of an access's group. -/
def State.accTeam (s : State) (a : Access) : Nat := if (s.group a.slot).uid = a.uid then (s.group a.slot).team else (s.prog a.slot).team

/-- The kinds of requesters in their order: copy engine 0, matrix load pipes 1, cluster port 2, partitions 3 (R39). -/
def portKey (core slot : Nat) : List Nat := if slotCore slot = core then [3, slotPart slot % 32] else [2, slotPart slot]

/-- The banks whose error a request has met. -/
def Core.badBanks (k : Core) (src : SpadSrc) : List Nat := ((k.rebuild.find? fun r => r.1 == src).map Prod.snd).getD []

/-- A request of a team for a place of its scratchpad in a core's share. -/
def State.spadReq (s : State) (core tm : Nat) (src : SpadSrc) (a n : Nat) (write : Bool) (key : List Nat) : Option SpadReq :=
  let t := s.team tm
  if !t.inShare core a then none
  else some { src := src, team := tm, addr := a, size := n, row := t.rowOf core a, write := write, rebuild := (s.core core).badBanks src, key := key }

/-- The request of an access that a core's arbiter may grant. -/
def State.spadPiece (s : State) (core id i : Nat) : Option SpadReq :=
  match s.pieceOpen id i with
  | none => none
  | some (a, p) =>
    if a.space != .spad then none
    else s.spadReq core (s.accTeam a) (.piece id i) p.addr p.size a.kind.writes (a.cycle :: portKey core a.slot ++ [id, i])

/-- The scratchpad WAIT of a slot that a core's arbiter may grant. -/
def State.spadWait (s : State) (core slot uid : Nat) : Option SpadReq :=
  let g := s.group slot
  match g.wait with
  | none => none
  | some w =>
    if g.uid != uid || !w.sp || !s.accsDone w.after || !s.clear slot uid w.behind then none
    else s.spadReq core g.team (.wait slot uid) w.addr (if w.w64 then 8 else 4) false (w.cycle :: portKey core slot ++ [2 ^ 64, 0])

/-- The piece of a copy that may be performed: what the copy follows is performed (R81). -/
def State.copyOpen (s : State) (id i : Nat) : Option (Copy × CopyPiece) :=
  match SMap.find s.copies id with
  | none => none
  | some k => (k.pieces[i]?).bind fun p =>
      if p.done || k.mirror.isSome || !s.accsDone k.after || !s.clear k.slot k.uid k.behind then none else some (k, p)

/-- The source or the destination of a copy's piece at a core's arbiter. -/
def State.spadCopy (s : State) (core id i : Nat) : Option SpadReq :=
  match s.copyOpen id i with
  | none => none
  | some (k, p) =>
    if p.rd.isNone then (if k.srcSp then s.spadReq core k.team (.copyRead id i) p.src 16 false [p.since, 0, 0, id, i] else none)
    else if k.dstSp then s.spadReq core k.team (.copyWrite id i) p.dst 16 true [p.since, 0, 0, id, i] else none

/-- A lane that an atomf forwards, at a core's arbiter: the write of its old value, or its arrival in a later cycle (R279). -/
def State.spadForward (s : State) (core id : Nat) (a : Access) (l : Nat) : Option SpadReq :=
  match a.fwd, SMap.find a.fwdAt l with
  | some (x, d), some (wrote, t) =>
    if wrote && decide (s.cycle ≤ t) then none
    else
      let addr := if wrote then d.toNat else if h : l < 32 then (x[l]).toNat else 0
      s.spadReq core (s.accTeam a) (.forward id l) addr (if wrote then 4 else a.bits / 8) true (t :: portKey core a.slot ++ [id, l])
  | _, _ => none

/-- The places that an operation of the matrix unit of a core asks for. -/
def State.spadMatrix (s : State) (core : Nat) : List SpadReq :=
  s.cores.flatMap fun k => k.2.mq.flatMap fun o => o.wants.filterMap fun a =>
    s.spadReq core o.team (.matrix k.1 o.id a) a 16 false [o.asked, 1, k.1, o.id, a]

/-- The pending requests of a core's arbiter, in priority order (R39). -/
def State.spadReqs (s : State) (core : Nat) : List SpadReq :=
  let ps := s.accs.flatMap fun a => if a.2.space == .spad then (List.range a.2.pieces.length).filterMap fun i => s.spadPiece core a.1 i else []
  let fs := s.accs.flatMap fun a => if a.2.forwarding then (a.2.fwdAt.filter fun l => !a.2.fwdDone.getLsbD l.1).filterMap fun l => s.spadForward core a.1 a.2 l.1 else []
  let ws := s.waits.filterMap fun w => s.spadWait core w.1 w.2
  let cs := s.copies.flatMap fun k => (List.range k.2.pieces.length).filterMap fun i => s.spadCopy core k.1 i
  (cs ++ s.spadMatrix core ++ fs ++ ps ++ ws).foldl (fun l q => q.insert l) []

/-! ### Granting (R39) -/

/-- What an arbiter has granted so far in a cycle: free banks, rows read directly by bank, the requests granted directly, those granted as
rebuilt with the bank that is, and the banks that writes hold. -/
structure Grants where
  free : List Nat
  reads : List (Nat × Nat × Nat) := []
  direct : List SpadReq := []
  rebuilt : List (SpadReq × Nat) := []
  held : List Nat := []
deriving DecidableEq, Repr

/-- A direct read shares a read of its bank and row, or takes its bank. -/
def Grants.canRead (g : Grants) (q : SpadReq) : Bool := q.banks.all fun b => g.reads.contains (b, q.team, q.row) || g.free.contains b

/-- The instruction whose write a request is, if it is one. -/
def SpadReq.writer (q : SpadReq) : Option Nat := match q.src with
  | .piece id _ => if q.write then some id else none
  | _ => none

/-- The requests of one write instruction in one row of one group (R39). -/
def partners (qs : List SpadReq) (q : SpadReq) : List SpadReq :=
  if q.writer.isNone then [q]
  else qs.filter fun x => x.writer == q.writer && x.team == q.team && x.row == q.row && x.group == q.group && x.rebuild.isEmpty == q.rebuild.isEmpty

/-- PHASE 1 of R39 for one request. -/
def Grants.phase1 (qs : List SpadReq) (g : Grants) (q : SpadReq) : Grants :=
  if g.direct.contains q then g
  else if q.write then
    let ps := partners qs q
    let bs := (ps.flatMap SpadReq.writeBanks).eraseDups
    if bs.all g.free.contains then
      { g with direct := g.direct ++ ps, free := g.free.filter fun b => !bs.contains b, held := g.held ++ bs }
    else g
  else if q.rebuild.isEmpty && g.canRead q then
    { g with direct := g.direct ++ [q], free := g.free.filter fun b => !q.banks.contains b,
             reads := g.reads ++ q.banks.map fun b => (b, q.team, q.row) }
  else g

/-- The bank of a read that must be rebuilt: the one that gave an error, or the one that it has lost (R39, R41); none where two are. -/
def Grants.lost (g : Grants) (q : SpadReq) : Option Nat :=
  match (if q.rebuild.isEmpty then q.banks.filter fun b => !g.free.contains b else q.rebuild) with
  | [b] => some b
  | _ => none

/-- PHASE 2 of R39 for one request: a read that lost a bank, or whose word met an error (R41); no row with a bad parity word. -/
def Grants.phase2 (bad : SpadReq → Bool) (g : Grants) (q : SpadReq) : Grants :=
  match g.lost q with
  | none => g
  | some b =>
    if q.write || g.direct.contains q || bad q || !(q.others b).all g.free.contains then g
    else { g with rebuilt := g.rebuilt ++ [(q, b)], free := g.free.filter fun c => !(q.others b).contains c }

/-- What a core's arbiter grants in a cycle (R39). -/
def State.grants (s : State) (core : Nat) : Grants :=
  let k := s.core core
  let held := match k.arbAt with
    | some c => if c + 1 = s.cycle then k.held else []
    | none => []
  let qs := s.spadReqs core
  let g := qs.foldl (Grants.phase1 qs) { free := (List.range 36).filter fun b => !held.contains b }
  qs.foldl (Grants.phase2 fun q => (s.team q.team).badPar.contains (core, q.row, q.group)) g

/-! ### Performing a grant -/

/-- The parity word of a row of a group must be recomputed (R41). -/
def State.parityBad (s : State) (tm core row g : Nat) : State :=
  s.updTeam tm fun t => { t with badPar := if t.badPar.contains (core, row, g) then t.badPar else t.badPar ++ [(core, row, g)] }

/-- A READ of a scratchpad word granted (R40, R54). -/
def State.spadReadPiece (s : State) (tm id i : Nat) (a : Access) (p : Piece) : State :=
  let t := s.team tm
  let a := if t.spadBad p.addr p.size then a.meet p.mask clsPoison else a.take p (t.spadRead p.addr p.size)
  s.donePiece id i a p

/-- An atomic whose scratchpad words are judged before its first pass (R54, R412). -/
def State.judgeSpad (s : State) (tm : Nat) (a : Access) : Access :=
  a.pieces.foldl (fun a p => if (s.team tm).spadBad p.addr p.size then a.meet p.mask clsPoison else a) a

/-- AN ATOMIC of a scratchpad word granted (R73, R74); poison is judged once, for every word of the instruction (R412). -/
def State.spadAtom (s : State) (tm id i : Nat) (a : Access) (p : Piece) (op : Nat) (ty : BitVec 4) : State :=
  let a := if a.untouched then s.judgeSpad tm a else a
  if a.bad then s.overBad id a
  else
    let (y, a, p') := a.atomPass op ty p ((s.team tm).spadRead p.addr p.size)
    ((s.spadWrite tm p.addr (valueBytes y p.size)).setPiece id i a p').performed id

/-- A scratchpad WAIT checked and registered in its granted cycle (R107). -/
def State.spadCheck (s : State) (slot uid : Nat) (w : WaitReq) : State :=
  let g := s.group slot
  let t := s.team g.team
  let n := wordBytes w.w64
  let v := BitVec.ofNat 64 (t.spadRead w.addr n)
  let s := { s with waits := s.waits.filter fun x => x != (slot, uid) }
  let wake (st : Nat) (v : DWord) (psn : Bool) : State :=
    { s with wakes := s.wakes ++ [{ waiter := slot, ctx := g.ctx, status := st, val := v, psn := psn }] }
  if t.spadBad w.addr n then wake 0 0 true
  else if satisfies w.cmp v w.opnd w.w64 then wake 0 v false
  else if w.deadline ≠ 0 ∧ w.deadline.toNat ≤ s.tstamp.toNat then wake 1 v false
  else { s with watch := s.watch ++ [{ slot := slot, uid := uid, team := g.team, addr := w.addr, w64 := w.w64, cmp := w.cmp, opnd := w.opnd,
                                       deadline := w.deadline }] }

/-- The piece of a copy replaced. -/
def State.setCopyPiece (s : State) (id i : Nat) (k : Copy) (p : CopyPiece) (bad : Bool) : State :=
  { s with copies := SMap.set s.copies id { k with pieces := k.pieces.set i p, psn := k.psn || bad } }

/-- The source and the destination of a copy have bytes in common, so that its result is not defined (R10, R81). -/
def Copy.shares (k : Copy) : Bool := k.srcSp == k.dstSp && k.pieces.any fun p => k.pieces.any fun q => decide (p.src < q.dst + 16 ∧ q.dst < p.src + 16)

/-- The bytes that a piece of a copy writes: what was read, or free values where the result is not defined (R10, R81); nothing in place of what was
refused. -/
def State.copyBytes (s : State) (k : Copy) : CopyRead → SMap Byte
  | .ok x | .poison x _ => valueBytes (if k.shares then (s.free 0 ++ s.free 1).toNat else x) 16
  | .refused => []

/-- THE SOURCE of a copy's piece in the scratchpad granted (R81, R54); the poison of a scratchpad word has no PCAUSE, and the model copies it with 0
(log 83). -/
def State.copyReadSpad (s : State) (id i : Nat) (k : Copy) (p : CopyPiece) : State :=
  let t := s.team k.team
  let r : CopyRead := if t.spadBad p.src 16 then .poison (t.spadRead p.src 16) 0 else .ok (t.spadRead p.src 16)
  s.setCopyPiece id i k { p with rd := some r, since := s.cycle } false

/-- Sixteen bytes of a scratchpad poisoned by a copy that could not read their source (R54, R81). -/
def State.spoilSpad (s : State) (tm a : Nat) : State := (List.range 4).foldl (fun s j => s.spadPoison tm (a + 4 * j)) (s.strike tm)

/-- THE DESTINATION of a copy's piece in the scratchpad granted: what was not read whole is written poisoned (R54, R81). -/
def State.copyWriteSpad (s : State) (id i : Nat) (k : Copy) (p : CopyPiece) : State :=
  match p.rd with
  | none => s
  | some r =>
    let s := (s.spadWrite k.team p.dst (s.copyBytes k r)).bump
    match r with
    | .ok _ => s.setCopyPiece id i k { p with done := true } false
    | _ => (s.spoilSpad k.team p.dst).setCopyPiece id i k { p with done := true } true

/-- The arrival of a lane at the barrier word; a poisoned word stays as it is and raises its fault (R54). -/
def State.arriveFwd (s : State) (acc : Nat) (l : Nat) (a : Access) (d : Word) : State :=
  let tm := s.accTeam a
  let t := s.team tm
  let m : LaneMask := maskOf fun k => k.val == l
  let s := { s with accs := SMap.set s.accs acc { a with fwdDone := a.fwdDone ||| m } }
  let s :=
    if t.spadBad d.toNat 4 then
      s.lateFor a.slot a.uid
        { cls := clsPoison, kind := 2, space := 1, addr := d.setWidth 64, pc := a.pc, lanes := m, aux := 0, mode := .skip 0 }
    else s.spadWrite tm d.toNat (valueBytes (t.spadRead d.toNat 4 + 1) 4)
  s.performed acc

/-- THE FORWARDING of a lane of an atomf granted: the write of the old value at C, and as a second grant the add of 1 at D (R279). -/
def State.forwardSpad (s : State) (acc l : Nat) (a : Access) : State :=
  match a.fwd, SMap.find a.fwdAt l with
  | some (_, d), some (true, _) => s.arriveFwd acc l a d
  | some (x, _), some (false, _) =>
    if h : l < 32 then
      let s := s.spadWrite (s.accTeam a) (x[l]).toNat (valueBytes (a.ret[l]).toNat (a.bits / 8))
      { s with accs := SMap.set s.accs acc { a with fwdAt := SMap.set a.fwdAt l (true, s.cycle) } }
    else s
  | _, _ => s

/-- SIXTEEN BYTES that a matrix unit asked for granted, with their poison (R303). -/
def State.matrixSpad (s : State) (core op tm a : Nat) : State :=
  let t := s.team tm
  let k := s.core core
  s.setCore core { k with mq := k.mq.map fun (o : MatOp) =>
    if o.id = op then { o with wants := o.wants.erase a, got := SMap.set o.got a (t.spadRead a 16, t.spadBad a 16) } else o }

/-- A granted request performed (R39, R40). -/
def State.grantSpad (s : State) (core : Nat) (q : SpadReq) : State :=
  let k := s.core core
  let s := if q.rebuild.isEmpty then s else s.setCore core { k with rebuild := k.rebuild.filter fun r => r.1 != q.src }
  match q.src with
  | .wait slot uid => (match (s.group slot).wait with
    | some w => s.spadCheck slot uid w
    | none => s)
  | .copyRead id i => (match s.copyOpen id i with
    | some (k, p) => s.copyReadSpad id i k p
    | none => s)
  | .copyWrite id i => (match s.copyOpen id i with
    | some (k, p) => s.copyWriteSpad id i k p
    | none => s)
  | .forward id l => (match SMap.find s.accs id with
    | some a => s.forwardSpad id l a
    | none => s)
  | .matrix c op a => s.matrixSpad c op q.team a
  | .piece id i =>
    match s.pieceOpen id i with
    | some (a, p) =>
      (match a.kind with
      | .load | .qunpk | .prefetch => s.spadReadPiece q.team id i a p
      | .store => (s.spadWrite q.team p.addr (a.storeBytes p)).donePiece id i a p
      | .atomic op ty => s.spadAtom q.team id i a p op ty)
    | none => s

/-- A request whose word must be rebuilt before it is granted (R41). -/
def State.markRebuild (s : State) (core : Nat) (q : SpadReq) (banks : List Nat) : State :=
  let k := s.core core
  s.setCore core { k with rebuild := (k.rebuild.filter fun r => r.1 != q.src) ++ [(q.src, banks)] }

/-- The words of a request that lie in some banks poisoned (R41). -/
def State.poisonReq (s : State) (q : SpadReq) (banks : List Nat) : State :=
  (List.range ((q.size + 3) / 4)).foldl (fun s k =>
    if banks.contains (bankOf (q.addr + 4 * k)) then s.spadPoison q.team (q.addr + 4 * k) else s) (s.strike q.team)

/-- The banks of some that met an uncorrectable error of the cycle in the row of a request; an error is a team, a row and a bank. -/
def SpadReq.errors (q : SpadReq) (errs : List (Nat × Nat × Nat)) (bs : List Nat) : List Nat := bs.filter fun b => errs.contains (q.team, q.row, b)

/-- The request writes each of its words whole, so that the old words do not matter. -/
def State.wholeWords (s : State) (q : SpadReq) : Bool :=
  match q.src with
  | .piece id i => (match SMap.find s.accs id with
    | some a => (match a.kind, a.pieces[i]? with
      | .store, some p => decide ((a.storeBytes p).length = p.size)
      | _, _ => false)
    | none => false)
  | .copyWrite _ _ => true
  | .forward id l => (match SMap.find s.accs id with
    | some a => (SMap.get a.fwdAt l (false, 0)).1 == false && decide (4 ≤ a.bits / 8)
    | none => false)
  | _ => false

/-- A direct grant with the errors of its cycle (R41): a word that met one is repeated as a rebuild, unless two words of the row did or it was one
already; an error in the parity word is noted. -/
def State.directGrant (core : Nat) (errs : List (Nat × Nat × Nat)) (s : State) (q : SpadReq) : State :=
  let s := if q.write && !(q.errors errs [parityBank q.group]).isEmpty then s.parityBad q.team core q.row q.group else s
  match q.errors errs q.banks, s.wholeWords q with
  | [], _ | _, true => s.grantSpad core q
  | [b], false => if q.rebuild.isEmpty then s.markRebuild core q [b] else (s.poisonReq q q.banks).grantSpad core q
  | bs, false => (s.poisonReq q bs).grantSpad core q

/-- A rebuilt grant with the errors of its cycle (R41): a rebuild that fails poisons the word; where only the parity word failed and the word itself
has shown no error, the request waits. -/
def State.rebuiltGrant (core : Nat) (errs : List (Nat × Nat × Nat)) (s : State) (x : SpadReq × Nat) : State :=
  let (q, b) := x
  let s := if (q.errors errs [parityBank q.group]).isEmpty then s else s.parityBad q.team core q.row q.group
  let bad := q.errors errs (q.others b)
  if bad.isEmpty then s.grantSpad core q
  else if bad == [parityBank q.group] && q.rebuild.isEmpty then s
  else (s.poisonReq q (b :: bad)).grantSpad core q

/-- The errors of a cycle in the cluster's bucket (R373): each corrected one 1, each uncorrectable one 64. -/
def State.spadErrors (s : State) (core corr bad : Nat) : State :=
  let cl := coreCluster core
  let s := (List.range corr).foldl (fun s _ => s.bucketEvent (clusterBucket cl) 1 cl false) s
  (List.range bad).foldl (fun s _ => s.bucketEvent (clusterBucket cl) 64 cl true) s

/-- A core's arbiter acts once a cycle, when a request is pending. -/
def State.arbDue (s : State) (core : Nat) : Bool := (s.core core).arbAt != some s.cycle && !(s.spadReqs core).isEmpty

/-- SCRATCHPAD_ARBITRATION of a core in a cycle (R39 to R41). -/
def State.arbitrate (s : State) (core corr : Nat) (errs : List (Nat × Nat × Nat)) : State :=
  let g := s.grants core
  let s := s.setCore core { s.core core with arbAt := some s.cycle, held := g.held }
  let s := g.direct.foldl (State.directGrant core errs) s
  let s := g.rebuilt.foldl (State.rebuiltGrant core errs) s
  s.spadErrors core corr errs.length

/-- SCRATCHPAD_ARBITRATION: `corr` errors corrected, `errs` uncorrectable ones as team, row and bank, where 32 + g is P[g]. -/
def execScratchpadArbitration (core corr : Nat) (errs : List (Nat × Nat × Nat)) (s : State) : Out :=
  event s (s.arbDue core) (s.arbitrate core corr errs)

/-- The banks of a group are not held by a write (R39). -/
def State.groupFree (s : State) (core g : Nat) : Bool :=
  match (s.core core).arbAt with
  | some c => s.cycle != c && (c + 1 != s.cycle || ((parityBank g :: groupBanks g).all fun b => !(s.core core).held.contains b))
  | none => true

/-- PARITY_ROW_RECOMPUTE of a row of a group of a team on a core (R41). -/
def execParityRowRecompute (core tm row g : Nat) (s : State) : Out :=
  event s ((s.team tm).badPar.contains (core, row, g) && s.groupFree core g)
    (s.updTeam tm fun t => { t with badPar := t.badPar.erase (core, row, g) })

/-! ### atomf (R279) -/

/-- The request of a lane has been performed. -/
def Access.laneDone (a : Access) (l : Lane) : Bool := a.pieces.all fun p => p.done || !laneIn p.mask l

/-- A lane of an atomf whose atomic is performed may be forwarded. -/
def State.forwardDue (s : State) (acc : Nat) (l : Lane) : Option Access :=
  match SMap.find s.accs acc with
  | none => none
  | some a =>
    if a.fwd.isSome && !a.bad && laneIn a.lanes l && !laneIn a.fwdDone l && a.laneDone l && !a.trail && s.holds a.slot a.uid &&
      (SMap.find a.fwdAt l.val).isNone then some a else none

/-- ATOMF_FORWARD of a lane (R279): its write, and behind it its arrival, go to the bank arbiter. -/
def execAtomfForward (acc : Nat) (l : Lane) (s : State) : Out :=
  match s.forwardDue acc l with
  | some a => .next { s with accs := SMap.set s.accs acc { a with fwdAt := SMap.set a.fwdAt l.val (false, s.cycle) } }
  | none => .next s

/-! ### Fence tokens -/

/-- FENCE_TOKEN_COMPLETE is due: everything that the token recorded is performed (R79). -/
def State.tokenDue (s : State) (slot tok : Nat) : Bool :=
  match SMap.find (s.group slot).ftok tok with
  | some l => l.all (s.itemDone slot)
  | none => false

/-- The waits of a group that a token completes: those for it, those for all, and a tstampr (R79, R339). -/
def State.tokenWaits (s : State) (slot : Nat) : List Block :=
  (s.group slot).blocks.filter fun b => match b with
    | .fence t => (s.group slot).tokensDone t
    | .tstamp _ => (SMap.find (s.group slot).ftok 16).isNone
    | _ => false

/-- FENCE_TOKEN_COMPLETE: the token is complete, and what waits for it goes on; tstampr writes TSTAMP as it then is (R79, R339). -/
def State.completeToken (s : State) (slot tok : Nat) : State :=
  let s := s.updGroup slot fun g => { g with ftok := SMap.del g.ftok tok }
  (s.tokenWaits slot).foldl (fun s b =>
    let s := match b with
      | .tstamp d => s.putUniform slot b d s.tstamp
      | _ => s
    s.unblock slot b 0) s

/-- FENCE_TOKEN_COMPLETE of a token of the group in a slot (R79). -/
def execFenceTokenComplete (slot tok : Nat) (s : State) : Out := event s (s.tokenDue slot tok) (s.completeToken slot tok)

end Sys2Proof.Machine
end

