-- ==== Sys2Proof/Machine/WaitEvents.lean ====
section
/-! DEFINITION. The events of waiting groups: the check of a WAIT (R93), wakes (R97, R108), time-outs (R98, R107), withdrawal for a user interrupt (R109), the end of a sleep (R111), clock gating (R112), the check of a service arm (R115, R116), and a fault record that waited for its queue (R135). -/

namespace Sys2Proof.Machine

open Sys2Proof

/-- WAIT_CHECK is due for the WAIT of a slot: it is on its way to a home, what it follows is performed, no write to its word waits on a ring, and it does not
stall on a granule that moves (R58, R64, R65, R93, R102, R148). -/
def State.waitDue (s : State) (slot : Nat) : Option WaitReq :=
  let g := s.group slot
  match g.wait with
  | none => none
  | some w =>
    if !w.sp && s.waits.contains (slot, g.uid) && s.accsDone w.after && s.clear slot g.uid w.behind &&
      (w.stale || ((s.fateBy w.route w.addr).passes && !s.fillHeld w.addr && !s.behindRing w.addr 8)) then some w
    else none

/-- A WAIT whose translation a shootdown has removed is translated again before its check (R132, R412). -/
def State.waitAgain (s : State) (slot : Nat) (w : WaitReq) : State :=
  let g := s.group slot
  let cl := slotCluster slot
  let n := wordBytes w.w64
  match s.checkGlobal slot (g.asid == 0) g.asid .load n n w.ea with
  | .wait p => s.admitPages cl g.asid (s.descOf slot) (dataReq g.uid) [p]
  | .fault k _ _ _ _ _ =>
    let s := { s.dropX cl (dataReq g.uid) with waits := s.waits.filter fun x => x != (slot, g.uid) }
    (s.updGroup slot fun g => { g with blocks := g.blocks.erase .wait }).lateFault slot (w.fault k)
  | .ok pa e =>
    let s := (s.dropX cl (dataReq g.uid)).useTlbs (slotCore slot) e.toList
    s.updGroup slot fun g => { g with wait := some { w with addr := pa, stale := false, cap := s.hub.memcap, route := s.routeAt cl } }

/-- The WAIT of a slot sent again after MOVED (R149). -/
def State.waitMoved (s : State) (slot : Nat) (w : WaitReq) : State :=
  let s := s.movedAt (slotCluster slot)
  s.updGroup slot fun g => { g with wait := some { w with cap := s.hub.memcap, route := s.routeAt (slotCluster slot) } }

/-- The WAIT of a slot checked and registered at its home (R93). -/
def State.checkWait (s : State) (slot : Nat) (w : WaitReq) : State :=
  let g := s.group slot
  let s := { s with waits := s.waits.filter fun x => x != (slot, g.uid) }
  let s := if w.addr < w.cap then s.needLine w.addr else s
  s.waitHome (s.homeNow w.addr) w (w.entry slot g.ctx (s.rcbDom g.rcb))

/-- WAIT_CHECK of the WAIT of a slot (R93). -/
def execWaitCheck (slot : Nat) (s : State) : Out :=
  match s.waitDue slot with
  | some w =>
    .next (if w.stale then s.waitAgain slot w else if s.fateBy w.route w.addr = .moved then s.waitMoved slot w else s.checkWait slot w)
  | none => .next s

/-! ### Wakes -/

/-- The status of a wake, with the model's number for a POISON reply. -/
def Wake.code (w : Wake) : Nat := if w.psn then stPoison else w.status

/-- L1 after a WAIT on a word of memory: the word is not valid, so that no later load of the thread reads an earlier value (R58, R60). -/
def State.waitSeen (s : State) (slot : Nat) (g : Group) : State :=
  match g.wait with
  | some w => if w.sp then s else
    s.setCore (slotCore slot) ((dwordsOfWait w).foldl (fun k a => k.updWord a fun x => if x.own then x else { x with valid := false }) (s.core (slotCore slot)))
  | none => s
where
  /-- the words that a wait reads -/
  dwordsOfWait (w : WaitReq) : List Nat := if w.w64 then [w.addr, w.addr + 4] else [w.addr]

/-- A wake accepted at the slot of its context: the WAIT ends, or the wake is kept with a group that is being saved (R108). -/
def State.acceptWake (s : State) (slot : Nat) (w : Wake) : State :=
  let g := s.prog slot
  let s := s.waitSeen slot g
  if g.wait.isNone then s
  else if (s.group slot).routine || (s.group slot).st == .saving then s.updProg slot fun g => { g with recWake := some (w.code, w.val) }
  else s.endWait slot w.code w.val

/-- A wake whose context has left its slot, routed by the service core: to its new slot, or into its save area (R108). -/
def State.rerouteWake (s : State) (w : Wake) : State :=
  match s.ctxSlot w.ctx with
  | some k => { s with wakes := s.wakes ++ [{ w with waiter := k }] }
  | none =>
    match s.ctxSaved w.ctx with
    | some (a, i) => s.updSaved a i fun g => if g.wait.isSome then { g with recWake := some (w.code, w.val) } else g
    | none => s

/-- The slot of a wake still holds its context. -/
def State.wakeHere (s : State) (w : Wake) : Bool :=
  decide ((s.prog w.waiter).ctx = w.ctx) && ((SMap.find s.groups w.waiter).isSome || (SMap.find s.stash w.waiter).isSome)

/-- WAKE_ARRIVAL of the `i`-th wake on its way (R97, R108). -/
def State.wakeArrives (s : State) (i : Nat) (w : Wake) : State :=
  let s := { s with wakes := s.wakes.eraseIdx i }
  if s.wakeHere w then s.acceptWake w.waiter w else s.rerouteWake w

/-- WAKE_ARRIVAL (R108). -/
def execWakeArrival (i : Nat) (s : State) : Out :=
  match s.wakes[i]? with
  | some w => .next (s.wakeArrives i w)
  | none => .next s

/-! ### Time-outs -/

/-- A deadline that has passed; 0 is none (R98). -/
def State.passed (s : State) (d : DWord) : Bool := d != 0 && decide (d.toNat ≤ s.tstamp.toNat)

/-- A table entry whose deadline has passed (R98). -/
def State.lateEntry (s : State) (home i : Nat) : Option MonEntry :=
  match (s.slice home).mon[i]? with
  | some e => if s.passed e.deadline then some e else none
  | none => none

/-- A watch table entry whose deadline has passed (R107). -/
def State.lateWatch (s : State) (i : Nat) : Option Watch :=
  match s.watch[i]? with
  | some e => if s.passed e.deadline then some e else none
  | none => none

/-- The watch table entry of a scratchpad WAIT ends with TIMEOUT (R107). -/
def State.watchTimeout (s : State) (e : Watch) : State :=
  { s with
    watch := s.watch.erase e
    wakes := s.wakes ++ [{ waiter := e.slot, ctx := (s.prog e.slot).ctx, status := 1,
                           val := BitVec.ofNat 64 ((s.team e.team).spadRead e.addr (wordBytes e.w64)), psn := false }] }

/-- MONITOR_TIMEOUT of the `i`-th entry of a slice's table, or with `sp` of the watch tables (R98, R107). -/
def execMonitorTimeout (sp : Bool) (home i : Nat) (s : State) : Out :=
  if sp then
    match s.lateWatch i with
    | some e => .next (s.watchTimeout e)
    | none => .next s
  else
    match s.lateEntry home i with
    | some e => .next ((s.sendWake e 1 (s.valueAt e.addr e.w64) false).freeMon home e)
    | none => .next s

/-! ### User interrupts of waiting groups -/

/-- A wait that a user interrupt may end, with the WAIT among them (R109). -/
def Block.interruptible : Block → Bool
  | .wait => true
  | .nsleep _ => true
  | _ => false

/-- In a pair, the trailing group has come to the WAIT as well. -/
def State.withdrawPairDue (s : State) (g : Group) : Bool :=
  let t := s.team g.team
  !t.paired || t.pair.isNone || (!t.trail && (match g.wait with
    | some w => w.sp || (s.group (s.partner g)).blocks.contains (.lvq w.d.seq)
    | none => false))

/-- The WAIT of a leading group withdrawn from its pair: it is no effect, and the trailing group no longer waits for it (R109, R366). -/
def State.withdrawPair (s : State) (slot : Nat) : State :=
  let g := s.group slot
  let t := s.team g.team
  match g.wait with
  | none => s
  | some w =>
    if !t.paired || t.pair.isNone || w.sp then s
    else
      let p := s.partner g
      let s := (s.dropEntry slot w.d.seq).updTeam g.team fun t => { t with effects := t.effects.filter fun x => !(x.gidx == g.gidx && x.result.seq == w.d.seq) }
      let s := (s.updGroup slot fun g => { g with sides := g.sides - 1 }).updGroup p fun g => { g with sides := g.sides - 1 }
      s.unblock p (.lvq w.d.seq) 0

/-- WAIT_WITHDRAW is due: the group is parked in WAIT with no wake on its way, and an interrupt can be delivered (R109). -/
def State.withdrawDue (s : State) (slot : Nat) : Bool :=
  let g := s.group slot
  g.st == .blocked && !g.routine && g.blocks.contains .wait && g.blocks.all Block.interruptible && g.wait.isSome && g.uiDue &&
  (!s.wakes.any fun w => w.waiter == slot && w.ctx == g.ctx) && s.withdrawPairDue g

/-- The entry of a group's WAIT is taken out of where it is: the tables, the linked spill slots, the watch table, or on its way. -/
def State.dropWait (s : State) (slot : Nat) : State :=
  let g := s.group slot
  let slotpa := (g.wait.map fun w => w.slotpa).getD 0
  let s := { s with
    waits := s.waits.filter fun x => x != (slot, g.uid)
    watch := s.watch.filter fun w => !(w.slot == slot && w.uid == g.uid) }
  s.slices.foldl (fun (s : State) (k : Nat × Slice) =>
    let s := (k.2.mon.filter fun e => e.waiter == slot && e.ctx == g.ctx).foldl (fun s e => s.freeMon k.1 e) s
    if slotpa != 0 && s.isLinked k.1 slotpa && (s.slotEntry slotpa).ctx == g.ctx then s.unlinkSlot k.1 slotpa else s) s

/-- WAIT_WITHDRAW: the interrupt is taken, and the WAIT is issued again after uiret (R109). The lanes return to the WAIT also where later instructions of its
run have issued, and these issue again after it; the spec does not speak of them (log 83). -/
def State.withdraw (s : State) (slot : Nat) : State :=
  let old := s.group slot
  let s := (s.withdrawPair slot).dropWait slot
  let s := s.updGroup slot fun g =>
    match g.wait with
    | some w => { g with wait := none, pc := Vector.ofFn fun l => if laneIn w.lanes l then w.pc else g.pc[l] }
    | none => g
  let s := s.deliverInterrupt slot
  match old.wait with
  | some w => if (s.team old.team).paired then s.updGroup (s.partner old) fun h => { h with pairTrap := h.pairTrap.map fun x => { x with back := w.lanes, pc := w.pc } } else s
  | none => s

/-- WAIT_WITHDRAW of the group in a slot (R109). -/
def execWaitWithdraw (slot : Nat) (s : State) : Out := event s (s.withdrawDue slot) (s.withdraw slot)

/-! ### Sleeping and gating -/

/-- The sleep of a slot's group that is over (R111). -/
def State.sleepOver (s : State) (slot : Nat) : Option Block :=
  (s.parked slot).find? fun b => match b with
    | .nsleep t => decide (t ≤ s.tstamp.toNat)
    | _ => false

/-- NSLEEP_EXPIRY of the group in a slot (R111). -/
def execNsleepExpiry (slot : Nat) (s : State) : Out :=
  match s.sleepOver slot with
  | some b => .next (s.unblock slot b 4)
  | none => .next s

/-- The matrix unit of a core is idle (R112). -/
def Core.matrixIdle (k : Core) : Bool :=
  !(k.mq.any fun o => o.st == .running) && (match k.queued with
    | [] => true
    | o :: _ => o.st == .frozen || o.st == .held)

/-- CLOCK_GATE is due: every group of the core is BLOCKED in a wait, and its matrix unit is idle (R112). -/
def State.gateDue (s : State) (core : Nat) : Bool :=
  !(s.core core).gated && (s.core core).matrixIdle &&
  s.groups.all fun p => slotCore p.1 != core || p.2.st == .empty || (p.2.st == .blocked && !p.2.blocks.isEmpty)

/-- CLOCK_GATE of a core (R112). -/
def execClockGate (core : Nat) (s : State) : Out := event s (s.gateDue core) (s.setCore core { s.core core with gated := true })

/-! ### Service arms -/

/-- The `i`-th arm on its way may be checked: it does not stall on a granule that moves, nor behind a write (R102, R148). -/
def State.armDue (s : State) (i : Nat) : Option ArmReq :=
  match s.armReqs[i]? with
  | some q =>
    if (s.fateBy q.route q.entry.addr).passes && !s.fillHeld q.entry.addr && !s.behindRing q.entry.addr 8 then some q else none
  | none => none

/-- An arm sent again after MOVED (R149). -/
def State.armMoved (s : State) (i : Nat) (q : ArmReq) : State :=
  let s := s.movedAt q.entry.core
  { s with armReqs := s.armReqs.set i { q with cap := s.hub.memcap, route := s.routeAt q.entry.core } }

/-- THE CHECK OF A SERVICE ARM at its home: CAPACITY, the condition, FULL, or an entry in the array of 32 (R115, R116). -/
def State.checkArm (s : State) (i : Nat) (q : ArmReq) : State :=
  let e := q.entry
  let s := { s with armReqs := s.armReqs.eraseIdx i }
  if q.cap ≤ e.addr then s.setMonstat e.core e.idx 4 none
  else
    let s := s.needLine e.addr
    let home := s.homeNow e.addr
    let sl := s.slice home
    let v := s.valueAt e.addr e.w64
    if satisfies e.cmp v e.opnd e.w64 then s.setMonstat e.core e.idx 0 (some v)
    else if 32 ≤ sl.svc.length then s.setMonstat e.core e.idx 5 none
    else s.setSlice home { sl with svc := sl.svc ++ [e] }

/-- SERVICE_ARM_CHECK of the `i`-th arm on its way (R115). -/
def execServiceArmCheck (i : Nat) (s : State) : Out :=
  match s.armDue i with
  | some q => .next (if s.fateBy q.route q.entry.addr = .moved then s.armMoved i q else s.checkArm i q)
  | none => .next s

/-! ### The fault queue -/

/-- A fault record waits and its cluster's queue has a place (R135). -/
def Cluster.admits (c : Cluster) : Option PendFault := if c.fqFull then none else c.fwait.head?

/-- FAULT_QUEUE_ADMIT of a cluster (R135). -/
def execFaultQueueAdmit (cl : Nat) (s : State) : Out :=
  match (s.cluster cl).admits with
  | some f => .next (s.setCluster cl ({ s.cluster cl with fwait := (s.cluster cl).fwait.tail }.putFault f))
  | none => .next s

end Sys2Proof.Machine
end

