-- ==== Sys2Proof/Machine/Fallow.lean ====
section
/-! DEFINITION. Fallowing a memory stack (R138 to R157): the settling of a lowered MEMCAP (R139), the migration state machine (R147), the move of one granule (R150 to R153), a stack that dies (R154), and the end of a window's drop (R50). -/

namespace Sys2Proof.Machine

open Sys2Proof

/-- The hub changed. -/
def State.updHub (s : State) (f : Hub → Hub) : State := { s with hub := f s.hub }

/-! ### A lowered MEMCAP (R139) -/

/-- A request routed under an earlier MEMCAP is in flight. -/
def State.oldRouted (s : State) : Bool :=
  s.accs.any (fun a => a.2.space == Space.global && !a.2.stale && a.2.pieces.any fun p => !p.done && pRange p.addr == .hbm && p.cap != s.hub.memcap) ||
  s.waitRoutes.any (fun w => w.2 != s.hub.memcap) || s.unitRoutes.any fun r => r.2 != s.hub.memcap

/-- The entries, linked slots and service arms of a slice on words at or above MEMCAP end with CAPACITY (R110, R115). -/
def State.capEntries (s : State) (home : Nat) : State :=
  let s := ((s.slice home).mon.filter fun e => decide (s.hub.memcap ≤ e.addr)).foldl (fun s e => (s.sendWake e 4 0 false).freeMon home e) s
  let s := ((s.linked home).filter fun a => decide (s.hub.memcap ≤ (s.slotEntry a).addr)).foldl (fun s a => s.glWake home a 4 0 false) s
  ((s.slice home).svc.filter fun e => decide (s.hub.memcap ≤ e.addr)).foldl (fun s e =>
    let sl := s.slice home
    (s.setSlice home { sl with svc := sl.svc.erase e }).setMonstat e.core e.idx 4 none) s

/-- The stores that wrote MEMCAP complete: those of harts, and those of groups. -/
def State.capStores (s : State) : State :=
  let s := s.hub.capHarts.foldl (fun s a => s.hartOk a) s
  let s := s.updHub fun h => { h with capHarts := [] }
  s.accs.foldl (fun s x => (List.range x.2.pieces.length).foldl (fun s i =>
    match SMap.find s.accs x.1 with
    | some a => match a.pieces[i]? with
      | some p => if p.stalled && !p.done && pRange p.addr != .hbm then s.donePiece x.1 i a { p with stalled := false } else s
      | none => s
    | none => s) s) s

/-- MEMCAP_LOWER_SETTLE (R139). -/
def execMemcapLowerSettle (s : State) : Out :=
  event s (s.hub.lowering && !s.oldRouted)
    (let s := (s.slices.map Prod.fst).foldl (fun s k => s.capEntries k) s
     let s := s.capWindows.updHub fun h => { h with lowering := false }
     s.capStores)

/-- FWIN_DROP_COMPLETE of a window (R50): its decoded lines have been dropped. -/
def execFwinDropComplete (n : Nat) (s : State) : Out :=
  event s (s.fwin n).busy
    ({ s with lines := s.lines.map fun (l : Nat × Line) =>
         if l.2.dec && l.2.win == n then (l.1, { l.2 with valid := false, dirty := false, dec := false }) else l }.setFwin n { s.fwin n with busy := false })

/-! ### The state machine (R147) -/

/-- MIGRATION_ENTER_DONE (R143, R147). -/
def execMigrationEnterDone (s : State) : Out :=
  event s (s.hub.mstate == 1) ((s.refreshAll.updHub fun h => { h with mstate := 2 }).writeMigTarget.closeBegin)

/-- MIGRATION_IDLE_EXPIRY (R142). -/
def execMigrationIdleExpiry (s : State) : Out :=
  event s (s.hub.mstate == 2 && s.hub.idleUntil != 0 && decide (s.hub.idleUntil ≤ s.cycle)) (s.updHub fun h => { h with idleUntil := 0 }).closeBegin

/-- The stable descriptor with the new hash only: the stack leaves LIVE and is powered down (R147). -/
def Hub.closed (h : Hub) : Hub :=
  { h with mstate := 0, phase := h.phase + 1, prev := some h.live, live := h.newLive, parked := h.parked ||| h.retire, retire := 0, mdone := true }

/-- MIGRATION_CLOSE_DONE (R143, R147). -/
def execMigrationCloseDone (s : State) : Out :=
  event s (s.hub.mstate == 3) ((s.updHub Hub.closed).refreshAll.writeMigTarget.closeBegin)

/-! ### Moving one granule (R150) -/

/-- The old home of a granule. -/
def State.oldHome (s : State) (g : Nat) : Nat := homeUnder s.hub.live (g * 2 ^ 16)
/-- The new home of a granule. -/
def State.newHome (s : State) (g : Nat) : Nat := homeUnder s.hub.newLive (g * 2 ^ 16)

/-- The engine may take the next granule. -/
def State.granuleDue (s : State) : Bool :=
  s.hub.mstate == 2 && s.hub.granule.isNone && s.hub.idleUntil == 0 && decide (s.hub.mnext < s.hub.mend)

/-- MIGRATE_GRANULE (R150): the next granule is sealed, or passed over when its homes are the same; SHARE is taken with it (R142). -/
def State.takeGranule (s : State) : State :=
  let g := s.hub.mnext
  if s.oldHome g = s.newHome g then (s.updHub fun h => { h with mnext := g + 1 }).closeBegin
  else s.updHub fun h => { h with granule := some g, drained := false, sealedAt := s.cycle, newPsn := [], shareNow := h.share }

/-- MIGRATE_GRANULE (R150). -/
def execMigrateGranule (s : State) : Out := event s s.granuleDue s.takeGranule

/-- An accepted request for a granule that is not performed: a write that waits on a ring, or an atomic between its halves (R74, R102, R150). -/
def State.granuleBusy (s : State) (g home : Nat) : Bool :=
  s.accs.any (fun a => a.2.space == Space.global && a.2.pieces.any fun p => !p.done && p.low && granuleOf p.addr == g) ||
  (s.slice home).stall.any fun r => match SMap.find s.accs r.acc with
    | some a => (match a.pieces[r.piece]? with
      | some p => granuleOf p.addr == g
      | none => false)
    | none => false

/-- The ring of a slice holds an unconsumed record for a doubleword of a granule (R150). -/
def State.ringHas (s : State) (home g : Nat) : Bool :=
  let sl := s.slice home
  sl.owed.any (fun r => granuleOf (r.1 % 2 ^ 52) == g) || (List.range ((sl.tail + 2 ^ 32 - sl.head) % 2 ^ 32)).any fun k =>
    let w0 := s.dword (sl.grbase * 16 + 16 * ((sl.head + k) % sl.ringSize))
    !w0.getLsbD 1 && granuleOf (bits w0 51 3 * 8) == g

/-- GRANULE_DRAINED is due (R150). -/
def State.drainGranule (s : State) : Option Nat :=
  match s.hub.granule with
  | some g => if s.hub.drained || s.granuleBusy g (s.oldHome g) || s.ringHas (s.oldHome g) g then none else some g
  | none => none

/-- A line moved: with its data and poison; one that is lost is poisoned with the cause of its loss (R150, R154, R155). -/
def Line.moved (l : Line) (lost : Option Nat) : Line := { psn := l.psn || lost.isSome, pcause := lost.getD l.pcause }

/-- The lines of a granule, as addresses. -/
def granuleLines (g : Nat) : List Nat := (List.range 512).map fun k => g * 2 ^ 16 + 128 * k

/-- PCAUSE of a line of a granule that is lost in the move: its dead stack does not give it, or its read or the comparison failed (R150, R154, R155). -/
def State.lineLost (s : State) (failed : List Nat) (pa : Nat) : Option Nat :=
  if s.deadAt pa && !(s.line pa).valid then some (s.deadCause pa) else if failed.contains (pa / 128 % 512) then some 2 else none

/-- THE COPY OF A GRANULE (R150): `failed` are the lines, by place, whose read or comparison failed. The page is reported once if a line becomes
poisoned (R55). -/
def State.copyGranule (s : State) (g : Nat) (failed : List Nat) : State :=
  let n := s.newHome g
  let lost := (granuleLines g).filterMap fun pa => (s.lineLost failed pa).map fun c => (pa, c)
  let fresh := (lost.filter fun x => !(s.line x.1).psn).map Prod.fst
  let first := lost.filter fun x => fresh.contains x.1
  let s := (granuleLines g).foldl (fun s pa =>
    let c := (lost.find? fun x => x.1 == pa).map Prod.snd
    if (SMap.find s.lines (pa / 128)).isSome || c.isSome then s.setLine pa ((s.line pa).moved c) else s) s
  let sl := s.slice n
  let (k, f) := first.foldl (fun (x : Nat × Option (Nat × Nat)) y => countFirst x.1 x.2 y) (sl.created, sl.firstCreated)
  let s := if first.isEmpty then s
    else first.foldl (fun s _ => s.machineCheck (16 * (n / 32)) (.poison g)) (s.setSlice n { sl with created := k, firstCreated := f })
  let any := (granuleLines g).any fun pa => (s.line pa).psn
  s.updHub fun h => { h with drained := true, newPsn := fresh, poisong := if any then sat24 h.poisong else h.poisong }

/-- GRANULE_DRAINED (R150). -/
def execGranuleDrained (failed : List Nat) (s : State) : Out :=
  match s.drainGranule with
  | some g => .next (s.copyGranule g failed)
  | none => .next s

/-! ### Rehoming (R152, R153) -/

/-- A table entry moves to the new home's table, is spilled there, or completes with FULL; none while a deadline record must wait for the ring. -/
def State.moveEntry (s : State) (o n : Nat) (e : MonEntry) : Option State :=
  let so := s.slice o
  let sn := s.slice n
  let out := s.setSlice o { so with mon := so.mon.erase e }
  if sn.mon.length < min 1024 sn.limit then
    some (out.setSlice n { sn with mon := sn.mon ++ [e], peak := max sn.peak (sn.mon.length + 1) })
  else
    let full := (out.charge useMon e.rcb (-1)).sendWake e 5 (s.valueAt e.addr e.w64) false
    if !sn.spen || e.slotpa = 0 || s.slotLive e.slotpa then some full
    else if e.deadline ≠ 0 ∧ sn.ringBusy then none
    else
      match (out.charge useMon e.rcb (-1)).spill n e with
      | some t => some t
      | none => some full

/-- A linked slot moves to the new home's bucket, with a deadline record; none while that must wait for the ring. -/
def State.moveSlot (s : State) (o n slot : Nat) : Option State :=
  let e := s.slotEntry slot
  if e.deadline ≠ 0 ∧ (s.slice n).ringBusy then none
  else
    let t := (s.unlinkSlot o slot).linkSlot n e
    some (if e.deadline = 0 then t else t.deadlineRec n slot e.deadline)

/-- A service arm moves, or completes with FULL (R153). -/
def State.moveArm (s : State) (o n : Nat) (e : SvcEntry) : State :=
  let so := s.slice o
  let sn := s.slice n
  let out := s.setSlice o { so with svc := so.svc.erase e }
  if sn.svc.length < 32 then out.setSlice n { sn with svc := sn.svc ++ [e] } else out.setMonstat e.core e.idx 5 none

/-- What a rehoming does next: the first entry of the granule, then its linked slots, then nothing more. -/
inductive Rehome
  | finished
  | waits
  | moved (s : State)

/-- One entry or slot of a granule moved (R152). -/
def State.rehomeOne (s : State) (o n g : Nat) : Rehome :=
  match (s.slice o).mon.find? fun e => granuleOf e.addr == g with
  | some e => match s.moveEntry o n e with
    | some t => .moved t
    | none => .waits
  | none =>
    match (s.linked o).find? fun a => granuleOf (s.slotEntry a).addr == g with
    | some a => match s.moveSlot o n a with
      | some t => .moved t
      | none => .waits
    | none => .finished

/-- Entries and slots moved while the new home's ring has room; whether all are. -/
def State.rehome (o n g : Nat) : Nat → State → State × Bool
  | 0, s => (s, false)
  | k + 1, s =>
    match s.rehomeOne o n g with
    | .finished => (s, true)
    | .waits => (s, false)
    | .moved t => State.rehome o n g k t

/-- A stalled request performed at the new home (R148). -/
def State.handOver (s : State) (n : Nat) (r : Nat × Nat) : State :=
  match SMap.find s.accs r.1 with
  | none => s
  | some a =>
    match a.pieces[r.2]? with
    | none => s
    | some p =>
      let p := { p with stalled := false, home := n }
      let a := { a with pieces := a.pieces.set r.2 p }
      ({ s with accs := SMap.set s.accs r.1 a }).arrivePiece r.1 r.2 a p

/-- The idle time after a move of so many cycles (R142). -/
def Hub.idleTime (h : Hub) (d : Nat) : Nat := d * (100 - h.shareNow) / h.shareNow

/-- THE HAND-OVER (R150, R152, R153): arms, waiters of lines that became poisoned, stalled requests in order, NEXT, and the idle time. -/
def State.finishGranule (s : State) (o n g : Nat) : State :=
  let s := ((s.slice o).svc.filter fun e => granuleOf e.addr == g).foldl (fun s e => s.moveArm o n e) s
  let s := s.hub.newPsn.foldl (fun s pa => s.afterPoison n pa) s
  let rs := s.hub.stallOld ++ s.hub.stallNew
  let idle := s.hub.idleTime (s.cycle - s.hub.sealedAt)
  let s := s.updHub fun h =>
    { h with mnext := g + 1, granule := none, drained := false, newPsn := [], stallOld := [], stallNew := [],
             idleUntil := if idle = 0 then 0 else s.cycle + idle }
  let s := rs.foldl (fun s r => s.handOver n r) s
  if s.hub.idleUntil = 0 then s.closeBegin else s

/-- GRANULE_HANDOVER is due: the granule has been copied, and an entry can move or none is left. -/
def State.handoverDue (s : State) : Option Nat :=
  match s.hub.granule with
  | some g =>
    if !s.hub.drained then none
    else match s.rehomeOne (s.oldHome g) (s.newHome g) g with
      | .waits => none
      | _ => some g
  | none => none

/-- GRANULE_HANDOVER: while entries wait for the new home's ring, the granule stays sealed (R152). -/
def State.handover (s : State) (g : Nat) : State :=
  let o := s.oldHome g
  let n := s.newHome g
  let (t, all) := State.rehome o n g ((s.slice o).mon.length + (s.slice o).live + 1) s
  if all then t.finishGranule o n g else t

/-- GRANULE_HANDOVER (R150). -/
def execGranuleHandover (s : State) : Out :=
  match s.handoverDue with
  | some g => .next (s.handover g)
  | none => .next s

/-! ### A stack that dies (R154) -/

/-- STACK_DEAD of a live stack: its DEAD bit, and a machine check to the steward. -/
def execStackDead (k : Nat) (s : State) : Out :=
  event s (decide (k < 8) && s.hub.live.getLsbD k && !s.hub.dead.getLsbD k)
    ((s.updHub fun h => { h with dead := h.dead ||| BitVec.ofNat 8 (2 ^ k) }).machineCheck (Config.steward % 128) (.stack k))

end Sys2Proof.Machine
end

