-- ==== Sys2Proof/Machine/CopyEvents.lean ====
section
/-! DEFINITION. Dependence counters at their homes (R317 to R320, R322 to R324, R326), and the pieces and the end of a copy (R54, R81, R82, R280 to R284). -/

namespace Sys2Proof.Machine

open Sys2Proof

/-! ### Counters -/

/-- The address of a counter's entry (R317). -/
def State.counterAt (s : State) (rcb i : Nat) : Nat := bits (s.rcbW rcb 10) 51 3 * 8 + 16 * i

/-- ARMED of an entry. -/
def State.armedAt (s : State) (pa : Nat) : Bool := (s.dword pa).getLsbD 36
/-- COUNT of an entry. -/
def State.countAt (s : State) (pa : Nat) : Int := (s.word pa).toInt

/-- An entry's home can take an operation on it: it does not stall on a granule that moves, nor on a ring (R102, R148). -/
def State.counterFree (s : State) (cl pa : Nat) : Bool :=
  s.unitFree cl pa 16 true

/-- Why an entry's home refuses an operation on it, or what it meets there (R23, R49, R54). -/
def State.counterBad (s : State) (pa : Nat) : Option (BitVec 8) :=
  if s.hub.memcap ≤ pa then some clsCapacity
  else if s.scaleHit pa 16 then some clsWindow
  else if (s.needLine pa).linePsn pa then some (s.poisonClass pa)
  else none

/-- COUNT as stored; a count that needs more than 32 bits has no stated value. -/
def State.countWord (s : State) (z : Int) : Nat := if z < 2 ^ 31 then (BitVec.ofInt 32 z).toNat else (s.free 0).toNat % 2 ^ 32

/-- W0 of an entry (14 Table 4). -/
def entryWord (asid prio count : Nat) (armed : Bool) : Nat := asid % 2 ^ 16 * 2 ^ 48 + (if armed then 2 ^ 36 else 0) + prio % 16 * 2 ^ 32 + count

/-- The two words of an entry written as one access of its home. -/
def State.putEntry (s : State) (pa w0 w1 : Nat) : State :=
  (s.needLine pa).homeWrite (s.homeNow pa) pa (valueBytes (w0 + 2 ^ 64 * w1) 16) false none

/-- What an arm does (R318, R320): the status, and the state. -/
def State.armCounter (s : State) (a : PendArm) : Nat × State :=
  let pa := s.counterAt a.rcb a.idx
  let armed := s.armedAt pa
  let count := s.countAt pa
  if armed ∧ 0 < count then (2, s)
  else if a.clr then
    let w0 := (s.dword pa).toNat
    (0, { s.putEntry pa (w0 / 2 ^ 32 * 2 ^ 32 - (if armed then 2 ^ 36 else 0)) (s.dword (pa + 8)).toNat with bound := SMap.del s.bound pa })
  else if !s.room useTask a.rcb then (3, s)
  else
    let net := a.init + (if armed then 0 else count)
    let s := s.charge useTask a.rcb 1
    let t := { a.task with since := s.cycle }
    let put (c : Nat) : State := { s.putEntry pa (entryWord t.asid t.prio c true) t.addr.toNat with bound := SMap.set s.bound pa t }
    if net ≤ 0 then (1, (put 0).ready (slotCluster a.slot) t) else (0, (put (s.countWord net)).bump)

/-- A result of an instruction that waits for it is given to its group, which may then drain (R162, R213). -/
def State.giveUniform (s : State) (slot uid id : Nat) (d : Dest) (x : DWord) : State :=
  let s := s.giveResult slot uid id d (some (uniform x)) 0
  if s.holds slot uid then (s.settle slot).poll (s.prog slot).team else s

/-- COUNTER_ARM is due: the release is over, and the entry's home can take it (R322). -/
def State.armReady (s : State) (id : Nat) : Option PendArm :=
  match SMap.find s.arms id with
  | some a => if s.accsDone a.after && s.counterFree (slotCluster a.slot) (s.counterAt a.rcb a.idx) then some a else none
  | none => none

/-- The record of a counter operation that the entry's home refuses (R23, R49, R54): the spec names the class, and the model takes the other fields from an
index that is out of range (log 84). -/
def counterLate (cls : BitVec 8) (idx : Nat) (pc : DWord) (m : LaneMask) : LateFault :=
  { cls := cls, kind := 7, space := 3, addr := BitVec.ofNat 64 idx, pc := pc, lanes := m, aux := 0, mode := .skip 0 }

/-- COUNTER_ARM of an arm on its way (R318, R322); one that is refused writes no status. -/
def State.doArm (s : State) (id : Nat) (a : PendArm) : State :=
  let s := { s with arms := SMap.del s.arms id }
  match s.counterBad (s.counterAt a.rcb a.idx) with
  | some k => (s.giveResult a.slot a.uid id a.dest none 0).lateFor a.slot a.uid (counterLate k a.idx a.pc a.dest.lanes)
  | none =>
    let (st, s) := s.armCounter a
    s.giveUniform a.slot a.uid id a.dest (BitVec.ofNat 64 st)

/-- COUNTER_ARM (R318). -/
def execCounterArm (id : Nat) (s : State) : Out :=
  match s.armReady id with
  | some a => .next (s.sendFrom (slotCluster a.slot) (s.counterAt a.rcb a.idx) fun s => s.doArm id a)
  | none => .next s

/-- The outcome of decrements of one counter: COUNT, whether it reached 0 while armed, and the lanes that underflowed. -/
structure DecRes where
  count : Int
  ready : Bool := false
  under : LaneMask := 0
deriving DecidableEq, Repr

/-- decrement of R318 for a lane. -/
def DecRes.dec (armed : Bool) (r : DecRes) (l : Lane) : DecRes :=
  let low := if armed then decide (r.count ≤ 0) else decide (r.count = -(2 ^ 31 : Int))
  if low then { r with under := r.under ||| maskOf fun k => k == l }
  else { r with count := r.count - 1, ready := r.ready || (armed && decide (r.count - 1 = 0)) }

/-- The task that a counter's entry is bound to; the fields of an entry that no tarm has armed are not stated (R317). -/
def State.boundTask (s : State) (rcb pa : Nat) : Task :=
  match SMap.find s.bound pa with
  | some t => { t with since := s.cycle }
  | none =>
    { addr := s.dword (pa + 8), entry := s.free 1, prio := bits (s.dword pa) 35 32, succA := (s.free 2).setWidth 32, succB := (s.free 3).setWidth 32,
      rcb := rcb, asid := bits (s.dword pa) 63 48, cwaddr := s.free 4, since := s.cycle, spawned := false, rank := 0 }

/-- The record of an underflow (R326). -/
def PendDec.record (d : PendDec) (m : LaneMask) : LateFault :=
  { cls := clsUnderflow, kind := 7, space := 3, addr := BitVec.ofNat 64 d.idx, pc := d.pc, lanes := m, aux := d.aux, mode := .skip 0 }

/-- A fault of a decrement raised: of a copy at once, with no group parked; otherwise at the marker of the group's run (R326). -/
def State.decFault (s : State) (d : PendDec) (f : LateFault) : State :=
  if d.copy then
    let g := if (s.group d.slot).uid = d.uid then s.group d.slot else s.prog d.slot
    if g.uid = d.uid then
      s.postFaultFor d.slot g .free { cls := f.cls, lanes := f.lanes, kind := f.kind, space := f.space, addr := f.addr, aux := f.aux, pc := f.pc }
    else s
  else s.lateFor d.slot d.uid f

/-- THE DECREMENTS of one counter by one instruction or copy, applied in ascending lane order as one access (R318, R323, R326). -/
def State.decrement (s : State) (d : PendDec) : State :=
  let pa := s.counterAt d.rcb d.idx
  match s.counterBad pa with
  | some k => s.decFault d (counterLate k d.idx d.pc d.lanes)
  | none =>
  let armed := s.armedAt pa
  let ls := if d.once then [lowLane d.lanes] else lanesIn d.lanes
  let r := ls.foldl (DecRes.dec armed) { count := s.countAt pa }
  let t := s.boundTask d.rcb pa
  let s := if r.count = s.countAt pa then s
    else (s.needLine pa).homeStore pa ((s.dword pa).toNat / 2 ^ 32 * 2 ^ 32 + (BitVec.ofInt 32 r.count).toNat) 8
  let s := if r.ready then (s.bump).ready (slotCluster d.slot) { t with rank := d.idx } else s
  if r.under = 0 then s else s.decFault d (d.record (if d.once then d.lanes else r.under))

/-- COUNTER_DECREMENT is due: the release is over, and the entry's home can take it (R323). -/
def State.decReady (s : State) (id : Nat) : Option PendDec :=
  match SMap.find s.decs id with
  | some d => if s.accsDone d.after && s.counterFree (slotCluster d.slot) (s.counterAt d.rcb d.idx) then some d else none
  | none => none

/-- COUNTER_DECREMENT of decrements on their way (R318). -/
def State.doDec (s : State) (id : Nat) (d : PendDec) : State :=
  let s := { s with decs := SMap.del s.decs id }.decrement d
  if s.holds d.slot d.uid then (s.settle d.slot).poll (s.prog d.slot).team else s

/-- COUNTER_DECREMENT (R318). -/
def execCounterDecrement (id : Nat) (s : State) : Out :=
  match s.decReady id with
  | some d => .next (s.sendFrom (slotCluster d.slot) (s.counterAt d.rcb d.idx) fun s => s.doDec id d)
  | none => .next s

/-! ### The pieces of a copy -/

/-- What a read of a piece gives that a peer or a PCI Express device answers: 0 done, 3 poisoned, else refused; such poison has no PCAUSE, and the model
copies it with 0 (log 83). -/
def farRead (data : BitVec 128) (st : Nat) : CopyRead := if st = 0 then .ok data.toNat else if st = 3 then .poison data.toNat 0 else .refused

/-- THE READ of a piece in global memory; `data` and `st` are the answer from outside the package. -/
def State.copyRead (s : State) (k : Copy) (pa : Nat) (data : BitVec 128) (st : Nat) : CopyRead × State :=
  if (s.refuse k.priv .load 1 pa 16).isSome then (.refused, s)
  else if pRange pa == .hbm then
    let s := s.needLine pa
    let x := (s.team k.team).overlay pa 16 (Memory.read s.mem pa 16)
    if s.linePsn pa then (.poison x (s.line pa).pcause, s.deliverPsn (s.homeNow pa) pa)
    else (.ok x, s)
  else (farRead data st, s)

/-- THE WRITE of a piece in global memory; whether it was refused (R81, R54). A word that a wait watches meets the bytes first and the poison of its line
after them, of which order the spec does not speak (log 83). -/
def State.copyWrite (s : State) (k : Copy) (pa : Nat) (r : CopyRead) (st : Nat) : Bool × State :=
  if (s.refuse k.priv .store 1 pa 16).isSome then (true, s)
  else if pRange pa == .hbm then
    let s := s.needLine pa
    let home := s.homeNow pa
    let s := ((s.homeWrite home pa (s.copyBytes k r) false none).race none pa 16).bump
    (false, match r with
      | .ok _ => s
      | .poison _ c => s.poisonLine home pa c
      | .refused => s.poisonLine home pa 0)
  else (st != 0, s)

/-- The end of a piece in global memory that is next: its address, and whether it is written. -/
def Copy.nextEnd (k : Copy) (p : CopyPiece) : Option (Nat × Bool) :=
  match p.rd with
  | none => if k.srcSp then none else some (p.src, false)
  | some _ => if k.dstSp then none else some (p.dst, true)

/-- COPY_PIECE is due: what the copy follows is performed, and the next end of the piece lies in global memory and may be performed (R81). -/
def State.copyDue (s : State) (id i : Nat) : Option (Copy × CopyPiece) :=
  match s.copyOpen id i with
  | none => none
  | some (k, p) =>
    match k.nextEnd p with
    | some (pa, wr) => if s.unitFree (slotCluster k.slot) pa 16 wr then some (k, p) else none
    | none => none

/-- COPY_PIECE: the piece read at its source, or written at its destination, as one access there (R81). -/
def State.copyPiece (s : State) (id i : Nat) (k : Copy) (p : CopyPiece) (data : BitVec 128) (st : Nat) : State :=
  match p.rd with
  | none =>
    s.sendFrom (slotCluster k.slot) p.src fun s =>
      let (r, s) := s.copyRead k p.src data st
      s.setCopyPiece id i k { p with rd := some r, since := s.cycle } false
  | some r =>
    s.sendFrom (slotCluster k.slot) p.dst fun s =>
      let (no, s) := s.copyWrite k p.dst r st
      s.setCopyPiece id i k { p with done := true } (no || (match r with
        | .ok _ => false
        | _ => true))

/-- COPY_PIECE of a copy; `data` and `st` answer for an end outside the package (R81). -/
def execCopyPiece (id i : Nat) (data : BitVec 128) (st : Nat) (s : State) : Out :=
  match s.copyDue id i with
  | some (k, p) => .next (s.copyPiece id i k p data st)
  | none => .next s

/-! ### The end of a copy -/

/-- COPY_COMPLETE is due: every piece is performed, and a decrement's counter can take it; a copy whose leading copy's it is ends with that
(R82, R280). -/
def State.copyOver (s : State) (id : Nat) : Option Copy :=
  match SMap.find s.copies id with
  | none => none
  | some k =>
    let free := match k.tdc with
      | some i => s.counterFree (slotCluster k.slot) (s.counterAt (s.prog k.slot).rcb i.toNat)
      | none => true
    let all := match k.mirror with
      | some m => (SMap.find s.copies m).isNone
      | none => k.pieces.all fun p => p.done
    if all && free && s.accsDone k.after then some k else none

/-- The arrival of a copy with ARV (R282); whether its word was poisoned, and stays as it was (R54). -/
def State.copyArrive (s : State) (k : Copy) : Bool × State :=
  match k.arv with
  | none => (false, s)
  | some w =>
    let t := s.team k.team
    if t.spadBad w.toNat 4 then (true, s) else (false, s.spadWrite k.team w.toNat (valueBytes (t.spadRead w.toNat 4 + 1) 4))

/-- The decrement of a copy with TDC (R282, R326). -/
def State.copyDecrement (s : State) (k : Copy) : State :=
  match k.tdc with
  | none => s
  | some i =>
    let g := if (s.group k.slot).uid = k.uid then s.group k.slot else s.prog k.slot
    s.decrement { slot := k.slot, uid := k.uid, rcb := g.rcb, idx := i.toNat, lanes := k.lanes, pc := k.pc, aux := g.taskrec.setWidth 32,
                  copy := true, once := true, after := [], waits := false }

/-- copy_end for the tag (R280). -/
def Group.copyEnd (g : Group) (t : Nat) (psn : Bool) : Group :=
  let x := g.tag t
  { g with tags := SMap.set g.tags t { pend := x.pend - 1, done := decide (x.pend - 1 = 0), psn := x.psn || psn } }

/-- A wait of a group on tags that is over: the value for D, and the tag whose DONE it clears (R284). -/
def Group.tagResult (g : Group) : Block → Option (Dest × DWord × Option Nat)
  | .tagAny mask clr d => match tagsIn mask fun t => (g.tag t).done with
    | t :: _ => some (d, BitVec.ofNat 64 t, if clr then some t else none)
    | [] => none
  | .tagAll mask d => if (tagsIn mask fun t => (g.tag t).pend != 0).isEmpty then some (d, BitVec.ofNat 64 (g.doneBits mask), none) else none
  | _ => none

/-- The waits of a group on its tags that are over end, each an acquire of the destinations (R82, R284). -/
def State.wakeTags (s : State) (slot uid : Nat) : State :=
  let g := if (s.group slot).uid = uid then s.group slot else s.prog slot
  if g.uid != uid then s
  else g.blocks.foldl (fun s b =>
    match g.tagResult b with
    | some (d, x, clr) =>
      let s := s.putUniform slot b d x
      let s := match clr with
        | some t => s.updUid slot uid fun g => g.clearTag t
        | none => s
      (s.acquireInval (slotCore slot)).unblock slot b 2
    | none => s) s

/-- COPY_COMPLETE: the arrival or decrement as a release, then the tag (R280). -/
def State.copyDone (s : State) (id : Nat) (k : Copy) : State :=
  let (bad, s) := if k.mirror.isSome then (false, s) else s.copyArrive k
  let s := if k.mirror.isSome then s else s.copyDecrement k
  let s := { s with copies := (SMap.del s.copies id).map fun (c : Nat × Copy) =>
    if c.2.mirror = some id then (c.1, { c.2 with psn := c.2.psn || k.psn || bad }) else c }
  let s := s.updUid k.slot k.uid fun g => { g with lvq := g.lvq.map fun (e : LvqEntry) => if e.copy = some id then { e with copyPsn := k.psn || bad } else e }
  let s := s.updUid k.slot k.uid fun g => g.copyEnd k.tag (k.psn || bad)
  (s.wakeTags k.slot k.uid).poll k.team

/-- COPY_COMPLETE of a copy (R280). -/
def execCopyComplete (id : Nat) (s : State) : Out :=
  match s.copyOver id with
  | some k =>
    .next (match k.tdc with
      | some i => s.sendFrom (slotCluster k.slot) (s.counterAt (s.prog k.slot).rcb i.toNat) fun s => s.copyDone id k
      | none => s.copyDone id k)
  | none => .next s

end Sys2Proof.Machine
end

