-- ==== Sys2Proof/Machine/Linium.lean ====
section
/-! DEFINITION. The services of Linium (R347, R350 to R355, R360): actions of a call record, quotas, the journal, and what each service does. What NVMe, Ethernet and the control cores answer comes with the event. -/

namespace Sys2Proof.Machine

open Sys2Proof

/-! ### Status numbers (15 Table 7) and services (15 Table 6) -/

def ePerm : Nat := 1
def eNoent : Nat := 2
def eIo : Nat := 5
def eBadf : Nat := 9
def eAgain : Nat := 11
def eNomem : Nat := 12
def eFault : Nat := 14
def eInval : Nat := 22
def eNospc : Nat := 28
def eNosys : Nat := 38
def eMsgsize : Nat := 90
def eInprogress : Nat := 115
def eStale : Nat := 116

/-- How the lanes of a service merge (R347). -/
inductive Merge
  | no
  | yes
  | bulk
deriving DecidableEq, Repr

/-- A row of the service table: argument positions used, merging, journaled, cycles fixed and per lane, and the errors that come from
outside the shard. -/
structure Service where
  num : Nat
  args : Nat
  merge : Merge
  journaled : Bool
  fixed : Nat
  perLane : Nat
  errors : List Nat
deriving DecidableEq, Repr

/-- 15 Table 6. -/
def services : List Service :=
  [⟨0, 5, .no, false, 900, 300, []⟩, ⟨1, 3, .bulk, true, 2400, 120, []⟩, ⟨2, 2, .no, true, 1500, 200, []⟩,
   ⟨3, 5, .yes, true, 6000, 100, [eInval, ePerm]⟩, ⟨4, 0, .yes, false, 400, 20, []⟩, ⟨8, 6, .yes, false, 3000, 250, [eBadf, eInval, eIo]⟩,
   ⟨9, 6, .no, true, 3500, 300, [eBadf, eInval, eNospc, eIo]⟩, ⟨10, 1, .yes, false, 2000, 50, [eBadf, eIo]⟩,
   ⟨16, 6, .no, true, 2800, 350, [eBadf, eMsgsize, eAgain]⟩, ⟨17, 4, .no, true, 2200, 350, [eBadf, eAgain]⟩,
   ⟨18, 6, .no, true, 3200, 400, [eBadf, eMsgsize, eAgain]⟩, ⟨19, 4, .no, true, 2400, 400, [eBadf, eAgain]⟩,
   ⟨32, 3, .no, true, 1200, 150, [eInval, eAgain]⟩, ⟨33, 3, .yes, false, 800, 40, []⟩, ⟨40, 3, .yes, false, 1000, 100, [eBadf]⟩]

/-- The row of a number. -/
def service (num : Nat) : Option Service := services.find? (·.num == num)

/-! ### A record -/

/-- A record as the shard reads it: its cluster, slot, and caller. -/
structure Rec where
  cl : Nat
  k : Nat
  seq : Nat
  asid : Nat
  rcb : Nat
  lanes : LaneMask
deriving DecidableEq, Repr

/-- The record of a slot that holds one. -/
def State.callRec (s : State) (cl k : Nat) : Option Rec :=
  let c := s.cluster cl
  match SMap.find c.calls k with
  | some _ =>
    some { cl := cl, k := k, seq := (c.pw (callHeader k + 24)).toNat, asid := bits (c.pw (callHeader k)) 31 16,
           rcb := (c.pw (callHeader k + 48)).toNat, lanes := (c.pw (callHeader k + 8)).setWidth 32 }
  | none => none

/-- NUM of a lane. -/
def State.recNum (s : State) (r : Rec) (l : Lane) : Nat := bits ((s.cluster r.cl).pw (callEntry r.k l.val)) 31 0
/-- ARG `i` of a lane. -/
def State.recArg (s : State) (r : Rec) (l : Lane) (i : Nat) : Word :=
  ((s.cluster r.cl).pw (callEntry r.k l.val + 8 + 8 * (i / 2))).extractLsb' (32 * (i % 2)) 32
/-- A value spread over two positions, low half first (R350). -/
def State.recArg2 (s : State) (r : Rec) (l : Lane) (i : Nat) : Nat := (s.recArg r l i).toNat + 2 ^ 32 * (s.recArg r l (i + 1)).toNat

/-- The size class of a size (R351). -/
def sizeClass (n : Nat) : Nat :=
  if n ≤ 65536 then (((List.range 13).map fun k => 16 * 2 ^ k).find? fun c => decide (n ≤ c)).getD 65536 else (n + 65535) / 65536 * 65536

/-- A lane's arguments are refused with EINVAL (R350, R351, R355): a position not used holds a value, or a value has no meaning. -/
def State.recBadArgs (s : State) (r : Rec) (l : Lane) (v : Service) : Bool :=
  ((List.range 6).any fun i => decide (v.args ≤ i) && s.recArg r l i != 0) ||
  (v.num == 0 && decide (32 ≤ (s.recArg r l 2).toNat)) ||
  (v.num == 1 && (decide (s.recArg2 r l 0 = 0) || decide (1 < (s.recArg r l 2).toNat))) ||
  (v.num == 33 && decide (2 ^ 20 ≤ (s.recArg r l 0).toNat ∨ 256 ≤ (s.recArg r l 1).toNat ∨ 8 ≤ (s.recArg r l 2).toNat))

/-- The lanes of a lane's action (R347). -/
def State.actionLanes (s : State) (r : Rec) (l : Lane) (v : Service) : LaneMask :=
  let one := maskOf fun x => x == l
  if s.recBadArgs r l v then one
  else
    let like (x : Lane) : Bool := laneIn r.lanes x && s.recNum r x == v.num && !s.recBadArgs r x v
    match v.merge with
    | .no => one
    | .yes => maskOf fun x => like x && (List.range 6).all fun i => s.recArg r x i == s.recArg r l i
    | .bulk => maskOf fun x => like x && s.recArg r x 2 == s.recArg r l 2 && sizeClass (s.recArg2 r x 0) == sizeClass (s.recArg2 r l 0)

/-! ### Taking a record -/

/-- The record may be served: TAKEN, or the least SEQ among the slots of CALLPEND (R347). -/
def State.mayTake (s : State) (r : Rec) : Bool :=
  let c := s.cluster r.cl
  (c.pw (callHeader r.k)).getLsbD 61 ||
  ((s.svcCore r.cl).callpend.getLsbD r.k && (c.calls.all fun p =>
    !(s.svcCore r.cl).callpend.getLsbD p.1 || decide (r.seq ≤ (c.pw (callHeader p.1 + 24)).toNat)))

/-- A RECORD TAKEN (R347): TAKEN is set, its CALLPEND bit clears, and the shard keeps the NUM of each lane (R355). -/
def State.takeRec (s : State) (r : Rec) : State :=
  let w := (s.cluster r.cl).pw (callHeader r.k)
  let s := if w.getLsbD 61 then s else s.pageStore r.cl (callHeader r.k) (w.toNat + 2 ^ 61) 8
  let x := s.svcCore r.cl
  let nums : SMap Nat := (lanesIn r.lanes).map fun l => (l.val, s.recNum r l)
  s.setSvc r.cl { x with
    callpend := x.callpend &&& ~~~ BitVec.ofNat 28 (2 ^ r.k)
    taken := if x.taken.any (·.seq == r.seq) then x.taken else { seq := r.seq, nums := nums } :: x.taken }

/-! ### Quotas (R352, R167) -/

/-- SVCQ against the millisecond's use. -/
def useSvc : Nat := 5

/-- The millisecond of TSTAMP. -/
def State.ms (s : State) : Nat := s.tstamp.toNat / 1000000

/-- The cycles that a region has used in this millisecond. -/
def State.svcUsed (s : State) (rcb : Nat) : Nat := let p := SMap.get s.svcUse rcb (0, 0); if p.1 = s.ms then p.2 else 0

/-- The regions that an action is charged to: its own, and the ancestors that set SVCQ. -/
def State.svcCharged (s : State) (rcb : Nat) : List Nat :=
  match s.regionChain regionDepth rcb with
  | [] => []
  | r :: rs => r :: rs.filter fun a => s.rcbOvr a useSvc

/-- An action of a cost would exceed some quota. -/
def State.overQuota (s : State) (rcb cost : Nat) : Bool :=
  (s.svcCharged rcb).any fun r => s.rcbOvr r useSvc && decide (bits (s.rcbW r 6) 63 32 < s.svcUsed r + cost)

/-- An action's cycles counted. -/
def State.svcSpend (s : State) (rcb cost : Nat) : State :=
  { s with svcUse := (s.svcCharged rcb).foldl (fun m r => SMap.set m r (s.ms, s.svcUsed r + cost)) s.svcUse }

/-- The deferral of an action. -/
def State.deferral (s : State) (r : Rec) (l : Lane) : Option Deferred :=
  s.deferred.find? fun d => d.cl == r.cl && d.call == r.k && d.lane == l.val

/-! ### Actions -/

/-- An action of service `num` on lane `l` of a slot can be taken up now: the lowest lane whose DONE bit is 0 names it. -/
def State.serveDue (s : State) (num cl k : Nat) (l : Lane) : Option (Rec × Service) :=
  match s.callRec cl k, service num with
  | some r, some v =>
    let open_ := r.lanes &&& ~~~ (s.cluster cl).doneBits k
    if laneIn open_ l && lowLane open_ == l && s.recNum r l == num && s.mayTake r &&
        (match s.deferral r l with
          | some d => d.go
          | none => true) then some (r, v) else none
  | _, _ => none

/-- Journal entries of the lanes of an action, before the reply (R353): a shard keeps 65,536. -/
def State.journal (s : State) (r : Rec) (m : LaneMask) (num status : Nat) (value : Lane → DWord) : State :=
  let x := s.svcCore r.cl
  let es : List JEntry := (lanesIn m).map fun l => { seq := r.seq, lane := l.val, num := num, value := value l, status := status }
  s.setSvc r.cl { x with journal := (es.reverse ++ x.journal).take 65536 }

/-- A reply to some lanes of an action of a service, journaled where the service is (R348, R353). -/
def State.answerLanes (s : State) (r : Rec) (v : Service) (m : LaneMask) (status : Nat) (value : Lane → DWord) : State :=
  if m = 0 then s
  else (if v.journaled then s.journal r m v.num status value else s).replyTo r.cl r.k m status value

/-- ONE ACTION OF A SERVICE (R347, R350, R352): the record is taken; over its quota the action is deferred; refused arguments give EINVAL;
otherwise the body acts for the action's lanes. -/
def serve (num cl k : Nat) (l : Lane) (body : Rec → Service → LaneMask → State → State) (s : State) : Out :=
  match s.serveDue num cl k l with
  | none => .next s
  | some (r, v) =>
    let m := s.actionLanes r l v
    let bad := s.recBadArgs r l v
    let cost := if bad then 300 + 20 else v.fixed + v.perLane * countLanes m
    let s := s.takeRec r
    if (s.deferral r l).isNone && s.overQuota r.rcb cost then
      .next { s with deferred := s.deferred ++ [{ cl := cl, call := k, lane := l.val, ms := s.ms }] }
    else if bad then
      .next (({ s with deferred := s.deferred.filter fun d => !(d.cl == cl && d.call == k && d.lane == l.val) }.svcSpend r.rcb cost).replyTo cl k m eInval fun _ => 0)
    else
      let t := body r v m s
      -- a body that waits for a translation has answered nothing, and is taken up again
      if (t.cluster cl).doneBits k = (s.cluster cl).doneBits k then .next t
      else .next ({ t with deferred := t.deferred.filter fun d => !(d.cl == cl && d.call == k && d.lane == l.val) }.svcSpend r.rcb cost)

/-- SVCQ_RESUME is due: the action was deferred in an earlier millisecond (R352). -/
def State.resumable (s : State) (cl k l : Nat) : Option Deferred :=
  s.deferred.find? fun d => d.cl == cl && d.call == k && d.lane == l && !d.go && decide (d.ms < s.ms)

/-- SVCQ_RESUME (R352): the action may proceed. -/
def execSvcqResume (cl k l : Nat) (s : State) : Out :=
  match s.resumable cl k l with
  | some d => .next { s with deferred := s.deferred.map fun e => if e = d then { e with go := true } else e }
  | none => .next s

/-- A RANGE REACHED THROUGH THE WINDOW (R357): what is done when the check passes and the homes can take it, EFAULT to the lanes when it fails, or a miss. -/
def State.throughWindow (s : State) (r : Rec) (v : Service) (m : LaneMask) (rt : Right) (va n : Nat) (go : State → State) : State :=
  match s.winRange r.cl r.asid rt va n with
  | .ok es =>
    let l := s.winPlaces r.cl r.asid rt va n
    if s.allFree r.cl (rt != .load) l then s.sendAll r.cl l fun s => go ((s.dropX r.cl winReq).useTlbsIn r.cl es) else s
  | .wait ps => s.winMiss r.cl r.asid ps.eraseDups
  | .fault k _ _ _ _ _ => ((s.dropX r.cl winReq).winPoison r.cl r.asid va n k).answerLanes r v m eFault fun _ => 0

/-- A status that may come from outside: 0 or an error of the service. -/
def Service.allows (v : Service) (st : Nat) : Bool := st == 0 || v.errors.contains st

/-! ### The services -/

/-- A record in a slot of the named cluster with a DONE bit of 0 for the lane (R355). -/
def State.inProgress (s : State) (seq lane : Nat) : Bool :=
  let cl := seq / 2 ^ 57
  (s.cluster cl).calls.any fun p => (match s.callRec cl p.1 with
    | some r => decide (r.seq = seq) && r.lanes.getLsbD lane && !((s.cluster cl).doneBits p.1).getLsbD lane
    | none => false)

/-- The 16 bytes that CALL_STATUS writes. -/
def statusBytes (value : DWord) (status effect : Nat) : List Byte :=
  (List.range 8).map (fun k => BitVec.ofNat 8 (value.toNat / 256 ^ k)) ++ (List.range 4).map (fun k => BitVec.ofNat 8 (status / 256 ^ k)) ++
  (List.range 4).map fun k => BitVec.ofNat 8 (effect / 256 ^ k)

/-- CALL_STATUS for one lane (R355); `oldest` bounds the retained range of the answering shard. -/
def State.callStatus (s : State) (oldest : Nat) (r : Rec) (v : Service) (m : LaneMask) : State :=
  let l := lowLane m
  let seq := s.recArg2 r l 0
  let lane := (s.recArg r l 2).toNat
  let out := s.recArg2 r l 3
  let x := s.svcCore (seq / 2 ^ 57)
  let say (st : Nat) : State := s.answerLanes r v m st fun _ => 0
  if s.inProgress seq lane then say eInprogress
  else if seq < oldest then say eStale
  else
    match (x.taken.find? (·.seq == seq)).bind fun t => SMap.find t.nums lane with
    | none => say eInval
    | some num =>
      if !((service num).map (·.journaled)).getD false then say eNoent
      else
        s.throughWindow r v m .store out 16 (fun s =>
          let bs := match x.journal.find? fun e => e.seq == seq && e.lane == lane with
            | some e => statusBytes e.value e.status 1
            | none => statusBytes (s.free 0) (bits (s.free 1) 31 0) 0
          (s.winWrite r.cl r.asid out bs).bump.answerLanes r v m 0 fun _ => 0)

/-- A retained range that starts at a SEQ covers the records of the journal (R355). -/
def State.retains (s : State) (oldest seq : Nat) : Bool :=
  (s.svcCore (seq / 2 ^ 57)).journal.all fun e => decide (oldest ≤ e.seq)

/-- The action of a lane whose number is no service's can be taken up now. -/
def State.unlisted (s : State) (cl k : Nat) (l : Lane) : Option Rec :=
  match s.callRec cl k with
  | some r =>
    let open_ := r.lanes &&& ~~~ (s.cluster cl).doneBits k
    if laneIn open_ l && lowLane open_ == l && (service (s.recNum r l)).isNone && s.mayTake r &&
        (match s.deferral r l with
          | some d => d.go
          | none => true) then some r else none
  | none => none

/-- A call to an unassigned number returns ENOSYS with value 0, at the cost of a refused action (R350). -/
def State.refuseCall (s : State) (r : Rec) (l : Lane) : State :=
  let s := s.takeRec r
  if (s.deferral r l).isNone && s.overQuota r.rcb 320 then
    { s with deferred := s.deferred ++ [{ cl := r.cl, call := r.k, lane := l.val, ms := s.ms }] }
  else
    ({ s with deferred := s.deferred.filter fun d => !(d.cl == r.cl && d.call == r.k && d.lane == l.val) }.svcSpend r.rcb 320).replyTo r.cl r.k
      (maskOf fun x => x == l) eNosys fun _ => 0

/-- CALL_STATUS (R355). The refusal of a number that no service has is no row of the table; it is made by the same agent with this one. -/
def execCallStatus (cl k : Nat) (l : Lane) (oldest : Nat) (s : State) : Out :=
  match s.unlisted cl k l with
  | some r => .next (s.refuseCall r l)
  | none =>
  match s.callRec cl k with
  | some r => if s.retains oldest (s.recArg2 r l 0) then serve 0 cl k l (fun r v m s => s.callStatus oldest r v m) s else .next s
  | none => .next s

/-- HEAPLIM and HEAPUSED of a region. -/
def State.heapLim (s : State) (rcb : Nat) : Nat := (s.rcbW rcb 24).toNat
/-- HEAPUSED. -/
def State.heapUsed (s : State) (rcb : Nat) : Nat := (s.rcbW rcb 25).toNat

/-- The regions whose HEAPUSED an allocation changes: the caller's, and every ancestor with a limit (R351). -/
def State.heapCharged (s : State) (rcb : Nat) : List Nat :=
  match s.regionChain regionDepth rcb with
  | [] => []
  | r :: rs => r :: rs.filter fun a => decide (s.heapLim a ≠ 0)

/-- The words of HEAPUSED that a charge changes. -/
def State.heapWords (s : State) (rcb : Nat) : List (Nat × Nat) := (s.heapCharged rcb).map fun r => (r + 200, 8)

/-- HEAPUSED changed by a number of bytes: stores of the shard to the control blocks. -/
def State.heapCharge (s : State) (rcb : Nat) (d : Int) : State :=
  (s.heapCharged rcb).foldl (fun s r => (s.needLine (r + 200)).homeStore (r + 200) (((s.heapUsed r : Int) + d) % 2 ^ 64).toNat 8) s

/-- The greatest count of blocks of a class that the limits allow (R351). -/
def State.heapRoom (s : State) (rcb c n : Nat) : Nat :=
  (s.regionChain regionDepth rcb).foldl (fun m r => if s.heapLim r = 0 then m else min m ((s.heapLim r - s.heapUsed r) / c)) n

/-- The blocks of a run lie free in an address space. -/
def State.heapFree (s : State) (asid base n : Nat) : Bool :=
  s.heap.all fun b => b.asid != asid || decide (b.addr + b.size ≤ base ∨ base + n ≤ b.addr)

/-- One granted lane's block zeroed: the check of the write through the window. -/
def State.zeroChk (s : State) (r : Rec) (a c : Nat) : CopyChk := s.winRange r.cl r.asid .store a c

/-- alloc_bulk for the ranked lanes of an action (R351), `base` being the run that Linium chose: misses while a block is not translated. -/
def State.memAlloc (s : State) (base : Nat) (r : Rec) (v : Service) (mask : LaneMask) : State :=
  let ls := lanesIn mask
  let c := sizeClass (s.recArg2 r (lowLane mask) 0)
  let zero := (s.recArg r (lowLane mask) 2).getLsbD 0
  let m := s.heapRoom r.rcb c ls.length
  let granted := ls.take m
  let addr (l : Lane) : Nat := base + ls.idxOf l * c
  let chk (l : Lane) : CopyChk := if zero then s.zeroChk r (addr l) c else .ok []
  let misses := granted.flatMap fun l => match chk l with
    | .wait ps => ps
    | _ => []
  let places := s.heapWords r.rcb ++ (if zero then (granted.filter fun l => match chk l with
    | .ok _ => true
    | _ => false).flatMap fun l => s.winPlaces r.cl r.asid .store (addr l) c else [])
  if !misses.isEmpty then s.winMiss r.cl r.asid misses.eraseDups
  else if !s.allFree r.cl true places then s
  else s.sendAll r.cl places fun s =>
    let used := granted.flatMap fun l => match chk l with
      | .ok es => es
      | _ => []
    let bad (l : Lane) : Bool := match chk l with
      | .fault _ _ _ _ _ _ => true
      | _ => false
    let good := granted.filter fun l => !bad l
    let maskOfL (xs : List Lane) : LaneMask := maskOf fun l => xs.contains l
    let s := (s.dropX r.cl winReq).useTlbsIn r.cl used
    let s := if zero then good.foldl (fun s l => s.winWrite r.cl r.asid (addr l) (List.replicate c 0)) s else s
    let s := s.heapCharge r.rcb (c * good.length : Nat)
    let s := { s with heap := s.heap ++ good.map fun l => (⟨r.asid, addr l, c, r.rcb⟩ : HeapBlock) }
    let val (l : Lane) : DWord := BitVec.ofNat 64 (addr l)
    let s := if c ≤ 1024 then s.answerLanes r v (maskOfL good) 0 val
      else good.foldl (fun s l => s.answerLanes r v (maskOfL [l]) 0 val) s
    let s := s.answerLanes r v (maskOfL (granted.filter bad)) eFault fun _ => 0
    s.answerLanes r v (maskOfL (ls.drop m)) eNomem fun _ => 0

/-- The run that Linium chose for an action is one it may choose (R351). -/
def State.allocOk (s : State) (cl k : Nat) (l : Lane) (base : Nat) : Bool :=
  match s.callRec cl k, service 1 with
  | some r, some v =>
    let c := sizeClass (s.recArg2 r l 0)
    let n := min (countLanes (s.actionLanes r l v)) (s.heapRoom r.rcb c 32)
    s.recBadArgs r l v || (decide (base % min c 65536 = 0 ∧ base + n * c ≤ 2 ^ 55) && s.heapFree r.asid base (n * c))
  | _, _ => false

/-- MEM_ALLOC (R351). -/
def execMemAlloc (cl k : Nat) (l : Lane) (base : Nat) (s : State) : Out :=
  if s.allocOk cl k l base then serve 1 cl k l (fun r v m s => s.memAlloc base r v m) s else .next s

/-- MEM_FREE: a block of the caller's heap goes back; any other address is EINVAL (R350). -/
def State.memFree (s : State) (r : Rec) (v : Service) (m : LaneMask) : State :=
  let a := s.recArg2 r (lowLane m) 0
  match s.heap.find? fun b => b.asid == r.asid && b.addr == a with
  | some b =>
    if !s.allFree r.cl true (s.heapWords b.rcb) then s
    else s.sendAll r.cl (s.heapWords b.rcb) fun s => ({ s.heapCharge b.rcb (-(b.size : Int)) with heap := s.heap.erase b }).answerLanes r v m 0 fun _ => 0
  | none => s.answerLanes r v m eInval fun _ => 0

/-- MEM_FREE (R350). -/
def execMemFree (cl k : Nat) (l : Lane) (s : State) : Out := serve 2 cl k l (fun r v m s => s.memFree r v m) s

/-- The entry that ends the walk of an address in the tables of a root, with its level. -/
def State.leafOf (s : State) : Nat → Nat → Nat → Nat → Option (Nat × Nat)
  | 0, _, _, _ => none
  | n + 1, lv, table, va =>
    let a := table + 8 * levelIndex lv va
    match pteKind lv (s.dword a) with
    | .table t => s.leafOf n (lv + 1) t va
    | .invalid => none
    | _ => some (a, lv)

/-- The leaves of a range of pages. -/
def State.leavesOf (s : State) (root va n : Nat) : List Nat :=
  ((List.range ((va + n - 1) / 2 ^ 16 - va / 2 ^ 16 + 1)).filterMap fun k =>
    (s.leafOf 3 1 root ((va / 2 ^ 16 + k) * 2 ^ 16)).map Prod.fst).eraseDups

/-- MEM_PROTECT: the leaves of the range take the rights, and the old translations are shot down in every cluster (R350, R131). -/
def State.memProtect (s : State) (st : Nat) (r : Rec) (v : Service) (m : LaneMask) : State :=
  let l := lowLane m
  let va := s.recArg2 r l 0
  let n := s.recArg2 r l 2
  if st ≠ 0 ∨ n = 0 then s.answerLanes r v m st fun _ => 0
  else
    let root := (SMap.get (s.cluster r.cl).desc r.asid { en := false, root := 0, shadow := 0, shlimit := 0, addr := 0 }).root
    let rights := (Config.rightsOf (s.recArg r l 4)).toNat
    let leaves := (s.leavesOf root va n).map fun a => (a, 8)
    if !s.allFree r.cl true leaves then s
    else s.sendAll r.cl leaves fun s =>
    let s' := leaves.foldl (fun s' a =>
      let x := s.dword a.1
      (s'.needLine a.1).homeStore a.1 (bits x 63 4 * 16 + rights * 2 + bits x 0 0) 8) s
    let s' := (s'.clusters.map Prod.fst).foldl (fun (s' : State) cl =>
      let s' := s'.dropTlb cl 1 r.asid 0
      s'.setCluster cl ((s'.cluster cl).redoWalks 2 r.asid va)) s'
    s'.answerLanes r v m 0 fun _ => 0

/-- A service whose outcome comes from outside: the status must be one that it may give. -/
def serveOut (num cl k : Nat) (l : Lane) (st : Nat) (body : Rec → Service → LaneMask → State → State) (s : State) : Out :=
  match service num with
  | some v => if v.allows st then serve num cl k l body s else .next s
  | none => .next s

/-- MEM_PROTECT (R350). -/
def execMemProtect (cl k : Nat) (l : Lane) (st : Nat) (s : State) : Out := serveOut 3 cl k l st (fun r v m s => s.memProtect st r v m) s

/-- The heap bytes left under the limits of a region's chain (R350). -/
def State.heapLeft (s : State) (rcb : Nat) : Nat :=
  (s.regionChain regionDepth rcb).foldl (fun m r => if s.heapLim r = 0 then m else min m (s.heapLim r - s.heapUsed r)) (2 ^ 64 - 1)

/-- MEM_INFO (R350). -/
def execMemInfo (cl k : Nat) (l : Lane) (s : State) : Out :=
  serve 4 cl k l (fun r v m s => s.answerLanes r v m 0 fun _ => BitVec.ofNat 64 (s.heapLeft r.rcb)) s

/-- Data that comes in: written to the caller's buffer; VALUE is its length (R350). -/
def State.serveIn (s : State) (st : Nat) (data : List Byte) (buf len : Nat) (r : Rec) (v : Service) (m : LaneMask) : State :=
  if st ≠ 0 then s.answerLanes r v m st fun _ => 0
  else
    let d := data.take len
    s.throughWindow r v m .store buf len (fun s =>
      (s.winWrite r.cl r.asid buf d).answerLanes r v m 0 fun _ => BitVec.ofNat 64 d.length)

/-- Data that goes out: read from the caller's buffer; VALUE is the number of bytes taken (R350). -/
def State.serveOutData (s : State) (st n buf len : Nat) (r : Rec) (v : Service) (m : LaneMask) : State :=
  if st ≠ 0 then s.answerLanes r v m st fun _ => 0
  else s.throughWindow r v m .load buf len (fun s => s.answerLanes r v m 0 fun _ => BitVec.ofNat 64 (min n len))

/-- FILE_READ. -/
def execFileRead (cl k : Nat) (l : Lane) (st : Nat) (data : List Byte) (s : State) : Out :=
  serveOut 8 cl k l st (fun r v m s => s.serveIn st data (s.recArg2 r l 1) (s.recArg r l 3).toNat r v m) s
/-- FILE_WRITE. -/
def execFileWrite (cl k : Nat) (l : Lane) (st n : Nat) (s : State) : Out :=
  serveOut 9 cl k l st (fun r v m s => s.serveOutData st n (s.recArg2 r l 1) (s.recArg r l 3).toNat r v m) s
/-- FILE_SYNC. -/
def execFileSync (cl k : Nat) (l : Lane) (st : Nat) (s : State) : Out :=
  serveOut 10 cl k l st (fun r v m s => s.answerLanes r v m st fun _ => 0) s
/-- UDP_SEND. -/
def execUdpSend (cl k : Nat) (l : Lane) (st n : Nat) (s : State) : Out :=
  serveOut 16 cl k l st (fun r v m s => s.serveOutData st n (s.recArg2 r l 1) (s.recArg r l 3).toNat r v m) s
/-- UDP_RECV. -/
def execUdpRecv (cl k : Nat) (l : Lane) (st : Nat) (data : List Byte) (s : State) : Out :=
  serveOut 17 cl k l st (fun r v m s => s.serveIn st data (s.recArg2 r l 1) (s.recArg r l 3).toNat r v m) s
/-- RDG_SEND. -/
def execRdgSend (cl k : Nat) (l : Lane) (st n : Nat) (s : State) : Out :=
  serveOut 18 cl k l st (fun r v m s => s.serveOutData st n (s.recArg2 r l 1) (s.recArg r l 3).toNat r v m) s
/-- RDG_RECV. -/
def execRdgRecv (cl k : Nat) (l : Lane) (st : Nat) (data : List Byte) (s : State) : Out :=
  serveOut 19 cl k l st (fun r v m s => s.serveIn st data (s.recArg2 r l 1) (s.recArg r l 3).toNat r v m) s
/-- CTRL_NOTIFY. -/
def execCtrlNotify (cl k : Nat) (l : Lane) (st : Nat) (s : State) : Out :=
  serveOut 32 cl k l st (fun r v m s => s.answerLanes r v m st fun _ => 0) s
/-- HANDLE_INFO. -/
def execHandleInfo (cl k : Nat) (l : Lane) (st : Nat) (data : List Byte) (s : State) : Out :=
  serveOut 40 cl k l st (fun r v m s =>
    if st ≠ 0 then s.answerLanes r v m st fun _ => 0
    else
      let out := s.recArg2 r l 1
      s.throughWindow r v m .store out data.length (fun s => (s.winWrite r.cl r.asid out data).answerLanes r v m 0 fun _ => 0)) s

end Sys2Proof.Machine
end

