-- ==== Sys2Proof/Machine/MatrixEvents.lean ====
section
/-! DEFINITION. The matrix unit of a core (R295, R296, R298 to R303, R306, R307, R309, R310): the operation at the head of the queue begins, progress rows of an MMA, tile operations, the drain, and the ends of operations. -/

namespace Sys2Proof.Machine

open Sys2Proof

/-! ### Accesses of the unit (R303) -/

/-- The unit may serve an MMA's read of a line from what its pipes staged (R83, R303). -/
def State.served (s : State) (core : Nat) (o : MatOp) (line : Nat) : Bool :=
  o.mma.isSome && (SMap.find (s.core core).staged line).isSome && Config.stagedRead s.freeCtr line

/-- The checks of `n` bytes that an operation accesses (R303): bounds of the scratchpad, translation through the cluster TLB, rights, refused
ranges, and poison of what is read; a scratchpad place is judged as the bank arbiter gave it. -/
def State.matChk (s : State) (core : Nat) (o : MatOp) (sp : Bool) (r : Right) (n : Nat) (va : DWord) : LaneChk :=
  if sp then
    let t := s.team o.team
    if t.spadSize < va.toNat + n then .fault clsProtection 1 va false 0 0
    else if r == .load && (SMap.get o.got va.toNat (0, false)).2 then .fault clsPoison 1 va false 0 0
    else .ok va.toNat none
  else
    match s.xlateIn (coreCluster core) (matReq core) o.asid va.toNat with
    | .wait => .wait (va.toNat / 2 ^ 16)
    | .fault k nc lv pte => .fault k 0 va nc lv pte
    | .ok e =>
      let pa := e.pa va.toNat
      let (lv, pte) := (s.cluster (coreCluster core)).leafSeen (matReq core) o.asid va.toNat
      if e.ty = 2 ∧ o.asid ≠ 0 then .fault clsPrivilege 0 va false lv pte
      else if !e.permits r || pRange pa != .hbm then .fault clsProtection 0 va false lv pte
      else
        match s.refuse (o.asid == 0) r e.ty pa n with
        | some k => .fault k 0 va false lv pte
        | none =>
          if r == .load && !s.served core o (pa / 128) && (s.needLine pa).linePsn pa then .fault ((s.needLine pa).poisonClass pa) 0 va false 0 0
          else .ok pa (some e)

/-- The class of a fault that a check found. -/
def LaneChk.cls : LaneChk → Option (BitVec 8)
  | .fault k _ _ _ _ _ => some k
  | _ => none

/-- The address of a fault that a check found. -/
def LaneChk.addr : LaneChk → Nat
  | .fault _ _ a _ _ _ => a.toNat
  | _ => 0

/-- What the checks of a step find together: pages to walk first; else the fault with the class that R134 puts first, at the lowest failing address
(R306). -/
def matChks (l : List LaneChk) : CopyChk :=
  match l.filterMap fun x => match x with
    | .wait p => some p
    | _ => none with
  | p :: ps => .wait (p :: ps).eraseDups
  | [] =>
    match classOrder.find? fun k => l.any fun x => x.cls == some k with
    | none => .ok (l.filterMap fun x => match x with
        | .ok _ e => e
        | _ => none)
    | some k =>
      let bad := l.filter fun x => x.cls == some k
      match bad.find? fun x => bad.all fun y => decide (x.addr ≤ y.addr) with
      | some (.fault k sp a nc lv pte) => .fault k sp a nc lv pte
      | _ => .ok []

/-- The bytes that an operation accesses in one place: an address, and how many. -/
abbrev Span := DWord × Nat

/-- The checks of the places that a step accesses. -/
def State.spanChks (s : State) (core : Nat) (o : MatOp) (sp : Bool) (r : Right) (l : List Span) : CopyChk :=
  matChks (l.map fun x => s.matChk core o sp r x.2 x.1)

/-- The lines that a step reads at their homes: a place whose line was staged is not read again (R303). -/
def State.homeReads (s : State) (core : Nat) (o : MatOp) (l : List Span) : List Span :=
  l.filter fun x => match s.xlateIn (coreCluster core) (matReq core) o.asid x.1.toNat with
    | .ok e => pRange (e.pa x.1.toNat) == .hbm && !s.served core o (e.pa x.1.toNat / 128)
    | _ => false

/-- The physical address of a place that is translated. -/
def State.spanAt (s : State) (core : Nat) (o : MatOp) (x : Span) : Nat :=
  match s.xlateIn (coreCluster core) (matReq core) o.asid x.1.toNat with
  | .ok e => e.pa x.1.toNat
  | _ => 0

/-- The unit waits for no walk that it has asked for, nor for the bank arbiter, and no granule or ring holds what a step reads
(R39, R102, R123, R148). -/
def State.spansDue (s : State) (core : Nat) (o : MatOp) (sp : Bool) (r : Right) (l : List Span) : Bool :=
  match s.spanChks core o sp r l with
  | .wait ps => ps.any fun p => !((s.cluster (coreCluster core)).walks ++ (s.cluster (coreCluster core)).missWait).any fun w =>
      w.for_ o.asid p && w.req.contains (matReq core)
  | .fault _ _ _ _ _ _ => true
  | .ok _ =>
    if sp then o.wants.isEmpty
    else r != .load || (s.homeReads core o l).all fun x =>
      let pa := s.spanAt core o x
      s.unitFree (coreCluster core) pa x.2 false

/-- AN OPERATION FREEZES: one record, no group parks (R306). -/
def State.freezeOp (s : State) (core : Nat) (o : MatOp) (f : FaultInfo) : State :=
  let g := if (s.group o.slot).uid = o.uid then s.group o.slot else s.prog o.slot
  let s := (s.dropX (coreCluster core) (matReq core)).postFaultFor o.slot g (.matrix core o.id)
    { f with kind := 6, lanes := o.lanes, rows := o.rows % 64, pc := o.pc }
  s.updOp core o.id fun p => { p with st := .frozen, rows := o.rows, aVals := [], wants := [], got := [] }

/-- The translations that a step used (R126). -/
def State.useMat (s : State) (core : Nat) (es : List TlbEntry) : State :=
  let cl := coreCluster core
  let s := s.dropX cl (matReq core)
  let c := s.cluster cl
  if es.isEmpty then s else s.setCluster cl { c with tlb := c.tlb.map fun f => if es.any (·.same f) then f.touch else f }

/-- The poison that a read of some places meets is counted at its homes (R55), and reaches a contained team (R370). -/
def State.matPoison (s : State) (core : Nat) (o : MatOp) (l : List Span) (k : BitVec 8) : State :=
  if k == clsPoison || k == clsQ4x then
    ((s.homeReads core o l).map fun x => s.spanAt core o x / 128 * 128).eraseDups.foldl
      (fun s pa => if s.linePsn pa then s.deliverPsn (s.homeNow pa) pa else s) (s.strike o.team)
  else s

/-- THE READS of a step at their homes: the lines that a slice does not hold are filled (R44). -/
def State.reach (s : State) (core : Nat) (o : MatOp) (l : List Span) : State :=
  (s.homeReads core o l).foldl (fun s x => s.needLine (s.spanAt core o x)) s

/-- A STEP of an operation over the places `l` behind its checks `chk`: it asks the bank arbiter for scratchpad places (R39), goes again after MOVED (R149),
waits for walks, freezes, or goes on with the translations used. -/
def State.matStep (s : State) (core : Nat) (o : MatOp) (sp : Bool) (r : Right) (l : List Span) (chk : State → CopyChk) (go : State → State) : State :=
  let cl := coreCluster core
  match chk s with
  | .wait ps => s.admitPages cl o.asid o.desc (matReq core) ps
  | .fault k space a nc lv pte =>
    let s := if r == .load then (s.reach core o l).matPoison core o l k else s
    s.freezeOp core o { cls := k, lanes := o.lanes, space := space, addr := a, noncan := nc, level := lv, pte := pte, pc := o.pc }
  | .ok es =>
    let s := s.useMat core es
    if r != .load then go s
    else if sp then
      let l := (l.map fun x => x.1.toNat).filter fun a => (SMap.find o.got a).isNone
      if l.isEmpty then (go s).updOp core o.id fun o => { o with got := [] }
      else s.updOp core o.id fun o => { o with wants := l.eraseDups, asked := s.cycle }
    else
      s.sendAll cl ((s.homeReads core o l).map fun x => (s.spanAt core o x, x.2)) fun s => go (s.reach core o l)

/-! ### Staged lines -/

/-- The two side records of a line in a Q4X window: as the thresher attached them, or as they are in memory (R52). -/
def State.sidecar (s : State) (pa : Nat) : Nat :=
  let l := (s.needLine pa).line pa
  if l.dec then l.side.toNat
  else
    match s.windowOf (lineOf pa) with
    | some (_, w) => Memory.read s.mem (w.sideAddr (lineOf pa)) 16
    | none => 0

/-- A line as a pipe stages it: its bytes, and its sidecar from 128 on. -/
def State.stageOf (s : State) (line : Nat) : SMap Byte :=
  Memory.write (Memory.write [] 0 (Memory.read s.mem (128 * line) 128) 128) 128 (s.sidecar (128 * line)) 16

/-- The lines that a step reads are staged, but those that are served from what was staged (R303). -/
def State.stage (s : State) (core : Nat) (o : MatOp) (lines : List Nat) : State :=
  let k := s.core core
  s.setCore core { k with staged := lines.foldl (fun m ln => if s.served core o ln then m else SMap.set m ln (s.stageOf ln)) k.staged }

/-- Bytes that a pipe holds. -/
def Core.piped (k : Core) (pa n : Nat) : Nat := Memory.read (SMap.get k.staged (pa / 128) []) (pa % 128) n

/-- The side record of a block that a pipe holds with its line. -/
def Core.pipedSide (k : Core) (pa : Nat) : Nat := Memory.read (SMap.get k.staged (pa / 128) []) (128 + pa % 128 / 64 * 8) 8

/-! ### Operands of an MMA (R298) -/

/-- An operand of an MMA: which, its descriptor, its element type and K. -/
structure Operand where
  isA : Bool
  d : BitVec 128
  e : EType
  k : Nat
deriving DecidableEq, Repr

/-- The two operands of an MMA that has passed its checks. -/
def MmaOps.operands (m : MmaOps) : Operand × Operand :=
  let ea := (etype (descLayout m.a)).getD .bf16
  let eb := (etype (descLayout m.b)).getD .bf16
  let k := (pairK ea eb).getD 64
  (⟨true, m.a, ea, k⟩, ⟨false, m.b, eb, k⟩)

/-- The bytes of one read: a block of Q4X, or 16. -/
def Operand.unit (x : Operand) : Nat := if x.e = .q4x then 64 else 16

/-- SPC of an operand. -/
def Operand.sp (x : Operand) : Bool := layoutSpc (descLayout x.d)

/-- The address of a logical offset that is a multiple of 16 (R283, R298). -/
def Operand.at_ (x : Operand) (o : Nat) : DWord :=
  let span := layoutSpan (descLayout x.d)
  descBase x.d + BitVec.ofNat 64 (if span = 0 then o else swz o (16 * 2 ^ span))

/-- The stored row and position of an element: A(i, k), or B(k, i) (R298). -/
def Operand.place (x : Operand) (i k : Nat) : Nat × Nat := if layoutT (descLayout x.d) = x.isA then (k, i) else (i, k)

/-- The logical offset, in bytes, of a position of a stored row. -/
def Operand.offset (x : Operand) (p : Nat × Nat) : Nat := p.1 * descStride x.d + p.2 * x.e.bits / 8

/-- The places that hold row `i` of A, or column `i` of B. -/
def Operand.spans (x : Operand) (i : Nat) : List Span :=
  ((List.range x.k).map fun k => x.offset (x.place i k) / x.unit * x.unit).eraseDups.map fun o => (x.at_ o, x.unit)

/-- A Q4X block at a physical address outside every window, with side records in a poisoned line, or malformed (R303). -/
def State.q4Chk (s : State) (core : Nat) (o : MatOp) (va : DWord) (pa : Nat) : Option LaneChk :=
  match s.windowOf (lineOf pa) with
  | none => some (.fault clsQ4x 0 va false 0 0)
  | some (_, w) =>
    let sa := w.sideAddr (lineOf pa)
    let had := s.served core o (pa / 128)
    let k := if had then SMap.get (s.core core).staged (pa / 128) [] else s.stageOf (pa / 128)
    let t := s.needLine pa
    let blk := (s.team o.team).overlay pa 64 (Memory.read k (pa % 128) 64)
    if !(t.line pa).dec && !had && (t.linePsn sa || t.linePsn (sa + 15)) then some (.fault clsPoison 0 va false 0 0)
    else if q4xMalformed blk (Memory.read k (128 + pa % 128 / 64 * 8) 8) then some (.fault clsQ4x 0 va false 0 0)
    else none

/-- The checks of a place of an operand. -/
def State.operandChk (s : State) (core : Nat) (o : MatOp) (x : Operand) (p : Span) : LaneChk :=
  match s.matChk core o x.sp .load p.2 p.1 with
  | .ok pa e => if x.e = .q4x then (s.q4Chk core o p.1 pa).getD (.ok pa e) else .ok pa e
  | c => c

/-- The lines that places of an operand lie in. -/
def State.operandLines (s : State) (core : Nat) (o : MatOp) (x : Operand) (l : List Span) : List Nat :=
  if x.sp then [] else (l.map fun p => (s.matChk core o x.sp .load p.2 p.1).pa / 128).eraseDups

/-- Element A(i, k), or B(k, i): its exact value (R196, R198, R302). -/
def State.element (s : State) (core : Nat) (o : MatOp) (x : Operand) (i k : Nat) : FVal :=
  let p := x.place i k
  let off := x.offset p
  let pa := (s.matChk core o x.sp .load x.unit (x.at_ (off / x.unit * x.unit))).pa
  let blk := if x.sp then (SMap.get o.got pa (0, false)).1 else (s.team o.team).overlay pa x.unit ((s.core core).piped pa x.unit)
  match x.e with
  | .q4x => (q4Elem blk ((s.core core).pipedSide pa) (p.2 % 128)).val
  | .bf16 => FFmt.bf16.value (bytesAt blk (off % 16) 2)
  | .f16 => FFmt.f16.value (bytesAt blk (off % 16) 2)
  | .f8 => FFmt.f8.value (bytesAt blk (off % 16) 1)

/-! ### MMA (R302) -/

/-- The tile that an operation's fields name. -/
def MatOp.tile (o : MatOp) : Nat := match o.mma with
  | some m => m.c.toNat % 8
  | none => o.func.toNat % 8

/-- An operation has no defined order against an MMA on a tile of a core (R295). -/
def MatOp.loose (o : MatOp) (core t : Nat) : Bool := o.undef.contains (8 * core + t)

/-- The physical tile of an operation, as the first key of its elements. -/
def Core.tileBase (k : Core) (o : MatOp) : Nat := k.physTile o.team o.tile * 4096

/-- The places of A. -/
def Operand.all (x : Operand) : List Span := ((List.range 64).flatMap x.spans).eraseDups

/-- The step that loads A is due, or the one that loads a column of B: `l` is its places. -/
def State.operandDue (s : State) (core : Nat) (o : MatOp) (x : Operand) (l : List Span) : Bool := s.spansDue core o x.sp .load l

/-- The unit reads A, and the MMA runs. -/
def State.loadA (s : State) (core : Nat) (o : MatOp) (x : Operand) : State :=
  s.matStep core o x.sp .load x.all (fun s => matChks (x.all.map (s.operandChk core o x))) fun s =>
    let s := s.stage core o (s.operandLines core o x x.all)
    let a := (List.range 64).flatMap fun i => (List.range x.k).map fun k => s.element core o x i k
    (s.bump).updOp core o.id fun o => { o with st := .running, aVals := a }

/-- One output: groups of sixteen exact products, each rounded once (R302). -/
def mmaDot (a b : List FVal) : Nat → Nat → Nat
  | 0, acc => acc
  | f + 1, acc =>
    if a.isEmpty then acc
    else
      let sum := ((a.take 16).zip (b.take 16)).foldl (fun (x : FVal) p => (x.add .rne (p.1.mul p.2).val).val) (FFmt.f32.value acc)
      mmaDot (a.drop 16) (b.drop 16) f (FFmt.f32.result ⟨.rne, 0, 0, false⟩ ⟨sum, 0⟩).bits

/-- Column `r` of the output, from A, the column of B, and the tile. -/
def mmaColumn (k : Nat) (a b : List FVal) (acc : Nat → Nat) : List Nat :=
  (List.range 64).map fun i => mmaDot ((a.drop (i * k)).take k) b (k / 16) (acc i)

/-- The unit reads column `rows` of B, computes the column of C and writes it whole. -/
def State.mmaRow (s : State) (core : Nat) (o : MatOp) (m : MmaOps) : State :=
  let x := m.operands.2
  let l := x.spans o.rows
  s.matStep core o x.sp .load l (fun s => matChks (l.map (s.operandChk core o x))) fun s =>
    let s := s.stage core o (s.operandLines core o x l)
    let b := (List.range x.k).map fun k => s.element core o x o.rows k
    let c := s.core core
    let base := c.tileBase o
    let col := mmaColumn x.k o.aVals b fun i => if m.c.getLsbD 3 then 0 else (c.tileAt (base + 64 * i + o.rows)).toNat
    let c := col.zipIdx.foldl (fun (c : Core) y => c.setTile (base + 64 * y.2 + o.rows) (BitVec.ofNat 32 y.1)) c
    (s.bump.setCore core c).updOp core o.id fun o => { o with rows := o.rows + 1 }

/-! ### MATRIX_OP_START, MMA_ROW -/

/-- The running operation of a core. -/
def Core.running (k : Core) : Option MatOp := k.mq.find? fun o => o.st == .running && !o.ended

/-- The operation that may begin: the head of the queue, or a drain behind an operation that is frozen or held (R295, R306, R310). -/
def Core.startable (k : Core) : Option MatOp :=
  if k.running.isSome then none
  else
    match k.queued with
    | [] => none
    | o :: os => if o.st == .queued then some o else os.find? fun p => p.op == 0xD9 && p.st == .queued

/-- MATRIX_OP_START of a core is due. -/
def State.startDue (s : State) (core : Nat) : Option MatOp :=
  match (s.core core).startable with
  | none => none
  | some o =>
    match o.mma with
    | none => some o
    | some m => if s.accsDone o.after && s.operandDue core o m.operands.1 m.operands.1.all then some o else none

/-- The operation begins: an MMA by reading A (R302, R307). -/
def State.startOp (s : State) (core : Nat) (o : MatOp) : State :=
  match o.mma with
  | some m => s.loadA core o m.operands.1
  | none => s.updOp core o.id fun o => { o with st := .running }

/-- MATRIX_OP_START of a core (R295). -/
def execMatrixOpStart (core : Nat) (s : State) : Out :=
  match s.startDue core with
  | some o => .next (s.startOp core o)
  | none => .next s

/-- MMA_ROW of a core is due. -/
def State.rowDue (s : State) (core : Nat) : Option (MatOp × MmaOps) :=
  match (s.core core).running with
  | none => none
  | some o =>
    match o.mma with
    | none => none
    | some m => if s.operandDue core o m.operands.2 (m.operands.2.spans o.rows) then some (o, m) else none

/-- MMA_ROW of a core (R302): after the 64th column the MMA ends. -/
def execMmaRow (core : Nat) (s : State) : Out :=
  match s.rowDue core with
  | some (o, m) =>
    let t := s.mmaRow core o m
    .next (if (t.core core).running.any fun p => p.rows == 64 then t.endOp core o.id false else t)
  | none => .next s

/-! ### Tile operations (R309) -/

/-- The 16-byte places of `n` bytes. -/
def rowSpans (a : DWord) (n : Nat) : List Span := (List.range (n / 16)).map fun k => (a + BitVec.ofNat 64 (16 * k), 16)

/-- The address of a tile row in memory. -/
def MatOp.rowAt (o : MatOp) (i : Nat) : DWord := o.addr + BitVec.ofNat 64 (i * o.stride.toNat)

/-- The scratchpad form of an operation. -/
def MatOp.sp (o : MatOp) : Bool := o.op != 0xD9 && o.func.getLsbD 3

/-- The requests of a row of elements of `w` bytes: `at_` gives the physical address of a byte of the row. -/
def rowPieces (w n : Nat) (at_ : Nat → Nat) : List Piece :=
  (List.range (n * w / 4)).map fun k =>
    { addr := at_ (4 * k), size := 4,
      parts := (List.range (4 / w)).map fun q => let j := 4 * k / w + q; { lane := j / 2, off := q * w, n := w, voff := j % 2 * w } }

/-- A STORE of a row by the unit: elements of `w` bytes, plain (R309). -/
def State.storeRow (s : State) (core : Nat) (o : MatOp) (a : DWord) (w : Nat) (vals : List Nat) : State :=
  let at_ (b : Nat) : Nat := (s.matChk core o o.sp .store 16 (a + BitVec.ofNat 64 (b / 16 * 16))).pa + b % 16
  let ps := rowPieces w vals.length at_
  let (id, s) := s.fresh
  let x : Access :=
    { slot := o.slot, uid := o.uid, pc := o.pc, space := if o.sp then .spad else .global, kind := .store, lanes := o.lanes, ord := 0,
      priv := o.asid == 0, cached := false, bits := 8 * w, signed := false,
      pieces := if o.sp then ps else s.routed (coreCluster core) ps,
      data := Vector.ofFn fun l => BitVec.ofNat 128 (vals.getD (2 * l.val) 0 + vals.getD (2 * l.val + 1) 0 * 256 ^ w),
      dest := none, after := [], ea := Vector.ofFn fun l => a + BitVec.ofNat 64 (2 * w * l.val), run := 0, cycle := s.cycle, seq := o.seq,
      sentAt := s.tstamp.toNat, asid := o.asid }
  let x := s.pairStore o.team x
  (({ s with accs := SMap.set s.accs id x }).peaks (coreCluster core)).updOp core o.id fun o => { o with stores := o.stores ++ [id] }

/-- The store compare buffer has room for what a step of a copy's unit stores (R364, R403). -/
def State.scbRoom (s : State) (core : Nat) (o : MatOp) (lines : Nat) : Bool :=
  let t := s.team o.team
  !t.paired || o.sp || o.op == 0xD2 ||
  decide (s.scbWith (coreCluster core) t.trail (if t.trail then s.partner (s.prog o.slot) else o.slot, o.seq) lines ≤ 512)

/-- The elements of row `i` of a team's tile `t`; undefined where an MMA on it has no order against the operation (R295). -/
def State.tileRow (s : State) (core : Nat) (o : MatOp) (t i : Nat) : List Nat :=
  let base := (s.core core).physTile o.team t * 4096
  (List.range 64).map fun j => if o.loose core t then (s.free (64 * i + j)).toNat % 2 ^ 32 else ((s.core core).tileAt (base + 64 * i + j)).toNat

/-- Elements of a tile written, from a key on. -/
def State.putTile (s : State) (core : Nat) (o : MatOp) (key : Nat) (vals : List (Nat × Nat)) : State :=
  s.setCore core (vals.foldl (fun (k : Core) v => k.setTile (key + v.1) (if o.loose core o.tile then (s.free (key + v.1)).setWidth 32 else BitVec.ofNat 32 v.2)) (s.core core))

/-- fp_result of mcvt (R186, R188, R189, R309). -/
def MatOp.convert (o : MatOp) (x : Nat) : Nat :=
  let f := FFmt.ofCode o.ty.toNat
  (f.result { mode := RMode.ofBits o.mode, scale := o.dscale.toInt, clamp := o.clamp, nsat := o.func.getLsbD 4 } ⟨FFmt.f32.value x, 0⟩).bits

/-- ONE ROW of mld, mst or mcvt. -/
def State.tileStep (s : State) (core : Nat) (o : MatOp) : State :=
  let w := tileWidth o.op o.ty
  let a := o.rowAt o.rows
  let spans := rowSpans a (64 * w)
  let base := (s.core core).tileBase o
  let next (s : State) : State := s.updOp core o.id fun o => { o with rows := o.rows + 1 }
  if o.op = 0xD2 then
    s.matStep core o o.sp .load spans (fun s => s.spanChks core o o.sp .load spans) fun s =>
      let rd (j : Nat) : Nat :=
        let pl := (s.matChk core o o.sp .load 16 (a + BitVec.ofNat 64 (4 * j / 16 * 16))).pa
        let pa := pl + 4 * j % 16
        if o.sp then bytesAt (SMap.get o.got pl (0, false)).1 (4 * j % 16) 4 else (s.team o.team).overlay pa 4 (Memory.read s.mem pa 4)
      next (s.putTile core o (base + 64 * o.rows) ((List.range 64).map fun j => (j, rd j)))
  else
    s.matStep core o o.sp .store spans (fun s => s.spanChks core o o.sp .store spans) fun s =>
      let row := s.tileRow core o o.tile o.rows
      next (s.storeRow core o a w (if o.op = 0xD6 then row.map o.convert else row))

/-- The row of an mld, mst or mcvt may go on. -/
def State.tileStepDue (s : State) (core : Nat) (o : MatOp) : Bool :=
  s.scbRoom core o 3 &&
  s.spansDue core o o.sp (if o.op = 0xD2 then .load else .store) (rowSpans (o.rowAt o.rows) (64 * tileWidth o.op o.ty))

/-- Rows of an operation until it ends, waits or freezes. -/
def State.tileRows (core id last : Nat) (due : State → MatOp → Bool) (stepOf : State → MatOp → State) : Nat → State → State
  | 0, s => s
  | f + 1, s =>
    match (s.core core).running with
    | none => s
    | some o =>
      if o.id != id then s
      else if last ≤ o.rows then s.endOp core id false
      else if due s o then State.tileRows core id last due stepOf f (stepOf s o)
      else s

/-- mrd: the row goes back to its group (R309). -/
def State.doMrd (s : State) (core : Nat) (o : MatOp) : State :=
  let row := s.tileRow core o o.tile o.trow
  let v (l : Lane) : BitVec 128 := BitVec.ofNat 128 (row.getD (2 * l.val) 0 + row.getD (2 * l.val + 1) 0 * 2 ^ 32)
  let s := s.bump
  let s := match o.dest with
    | some d => s.giveResult o.slot o.uid o.id d (some v) 0
    | none => s
  let s := s.endOp core o.id false
  if s.holds o.slot o.uid then (s.settle o.slot).poll o.team else s

/-- mwr: the pairs of the active lanes (R309). -/
def State.doMwr (s : State) (core : Nat) (o : MatOp) : State :=
  let vals := (lanesIn o.lanes).flatMap fun l => [(2 * l.val, (o.vals[l]).toNat % 2 ^ 32), (2 * l.val + 1, (o.vals[l]).toNat / 2 ^ 32)]
  ((s.putTile core o ((s.core core).tileBase o + 64 * o.trow) vals).bump).endOp core o.id false

/-- mzero. -/
def State.doMzero (s : State) (core : Nat) (o : MatOp) : State :=
  ((s.putTile core o ((s.core core).tileBase o) ((List.range 4096).map fun k => (k, 0))).bump).endOp core o.id false

/-! ### mdrain (R310) -/

/-- The operations of a team that mdrain records: queued, held and frozen. -/
def Core.drained (k : Core) (tm : Nat) : List MatOp := k.queued.filter fun o => o.team == tm && o.st != .running && o.op != 0xD9

/-- The options of a record (13 Table 6). -/
def MatOp.opts (o : MatOp) : Nat :=
  match o.mma with
  | some m => m.c.toNat
  | none => o.func.toNat + o.ty.toNat * 2 ^ 8 + o.mode.toNat * 2 ^ 12 + (if o.rnden then 2 ^ 14 else 0) + o.dscale.toNat * 2 ^ 15 + o.clamp.toNat * 2 ^ 19

/-- The eight words of an operation's record (13 Table 6); `row` is where the row of an mwr goes. -/
def MatOp.record (o : MatOp) (row : DWord) : List Nat :=
  let w0 := o.tok.toNat * 2 ^ 32 + 2 ^ 31 + (if o.st = .frozen then 2 ^ 30 else 0) + o.rows % 128 * 2 ^ 16 + o.op % 256 * 2 ^ 8 + o.gidx % 256
  let ds : List Nat := match o.mma with
    | some m => [m.a.toNat % 2 ^ 64, m.a.toNat / 2 ^ 64, m.b.toNat % 2 ^ 64, m.b.toNat / 2 ^ 64]
    | none => [o.addr.toNat, o.stride.toNat + o.trow, 0, 0]
  [w0, o.opts * 2 ^ 32] ++ ds ++ [if o.op = 0xD5 then row.toNat else 0, 0]

/-- 64-bit words as 32-bit ones. -/
def halves (l : List Nat) : List Nat := l.flatMap fun x => [x % 2 ^ 32, x / 2 ^ 32 % 2 ^ 32]

/-- The row of a queued mwr as mdrain records it: the pairs of its active lanes, and in the others those that the tile row has, which it leaves (R309,
R310). -/
def State.mwrRow (s : State) (core : Nat) (o : MatOp) : List Nat :=
  let row := s.tileRow core o o.tile o.trow
  (List.finRange 32).flatMap fun l =>
    if laneIn o.lanes l then [(o.vals[l]).toNat % 2 ^ 32, (o.vals[l]).toNat / 2 ^ 32] else [row.getD (2 * l.val) 0, row.getD (2 * l.val + 1) 0]

/-- What mdrain writes at places of the record area: the records, the rows of mwrs, and the closing record, whose counters leave out the drain's own
token. -/
def State.drainRecords (s : State) (core : Nat) (o : MatOp) : List (DWord × List Nat) :=
  let ops := (s.core core).drained o.team
  let at_ (q : Nat) : DWord := o.addr3 + BitVec.ofNat 64 (o.part * 0x200 + q * 0x40)
  let row (q : Nat) : DWord := o.addr3 - 0x1000 + BitVec.ofNat 64 (Config.rowData o.part q)
  let c := (s.team o.team).tileSeq o.part
  let issue := if o.hasTok then c.issue - 1 else c.issue
  ops.zipIdx.flatMap (fun (p : MatOp × Nat) =>
    [(at_ p.2, halves (p.1.record (row p.2)))] ++
    (if p.1.op = 0xD5 then [(row p.2, s.mwrRow core p.1)] else [])) ++
  [(at_ ops.length, halves [0, issue.toNat * 2 ^ 16 + c.done.toNat, 0, 0, 0, 0, 0, 0])]

/-- The recorded operations leave the queue; their fault records are stale (R137). -/
def State.removeOps (s : State) (core : Nat) (ops : List MatOp) : State :=
  let k := s.core core
  let s := s.setCore core { k with mq := k.mq.filter fun p => !ops.any fun o => o.id == p.id }
  ops.foldl (fun s o =>
    let c := s.cluster (coreCluster core)
    match c.recordOf core o.id with
    | some i => s.setCluster (coreCluster core) (c.stale i)
    | none => s) s

/-- The places that a step of mdrain writes: a row of a tile, and after the last the records. -/
def State.drainSpans (s : State) (core : Nat) (o : MatOp) : List Span :=
  let n := 64 * (s.team o.team).acc
  if o.rows < n then rowSpans (tileArea o.addr o.addr2 o.part + BitVec.ofNat 64 (256 * o.rows)) 256
  else if o.addr3 = 0 then []
  else (s.drainRecords core o).flatMap fun r => rowSpans r.1 (4 * r.2.length)

/-- ONE STEP of mdrain. -/
def State.drainStep (s : State) (core : Nat) (o : MatOp) : State :=
  let n := 64 * (s.team o.team).acc
  s.matStep core o false .store (s.drainSpans core o) (fun s => s.spanChks core o false .store (s.drainSpans core o)) fun s =>
    let s :=
      if o.rows < n then
        s.storeRow core o (tileArea o.addr o.addr2 o.part + BitVec.ofNat 64 (256 * o.rows)) 4 (s.tileRow core o (o.rows / 64) (o.rows % 64))
      else if o.addr3 = 0 then s
      else ((s.drainRecords core o).foldl (fun s r => s.storeRow core o r.1 4 r.2) s).removeOps core ((s.core core).drained o.team)
    s.updOp core o.id fun o => { o with rows := o.rows + 1 }

/-- A step of mdrain may be made. -/
def State.drainDue (s : State) (core : Nat) (o : MatOp) : Bool := s.scbRoom core o 32 && s.spansDue core o false .store (s.drainSpans core o)

/-! ### TILE_OP_COMPLETE -/

/-- TILE_OP_COMPLETE of an operation is due: it runs and can go on, or it has ended and is finished. -/
def State.tileDue (s : State) (core id : Nat) : Option MatOp :=
  match (s.core core).mq.find? fun o => o.id == id with
  | none => none
  | some o =>
    if s.opOver core o then some o
    else if o.ended || o.st != .running || o.mma.isSome then none
    else if o.op = 0xD2 ∨ o.op = 0xD3 ∨ o.op = 0xD6 then (if s.tileStepDue core o then some o else none)
    else if o.op = 0xD9 then (if s.drainDue core o then some o else none)
    else some o

/-- A tile operation goes on: its rows, until it ends, waits for a walk or freezes. -/
def State.tileRun (s : State) (core : Nat) (o : MatOp) : State :=
  match o.op with
  | 0xD1 => s.doMzero core o
  | 0xD4 => s.doMrd core o
  | 0xD5 => s.doMwr core o
  | 0xD9 =>
    let n := 64 * (s.team o.team).acc + 1
    State.tileRows core o.id n (fun s o => s.drainDue core o) (fun s o => s.drainStep core o) (n + 1) s
  | _ => (State.tileRows core o.id 64 (fun s o => s.tileStepDue core o) (fun s o => s.tileStep core o) 65 s).bump

/-- TILE_OP_COMPLETE of an operation of a core (R309). -/
def execTileOpComplete (core id : Nat) (s : State) : Out :=
  match s.tileDue core id with
  | some o => .next (if o.ended then State.finishOps core 8 s else s.tileRun core o)
  | none => .next s

end Sys2Proof.Machine
end

