-- ==== Sys2Proof/Machine/LinkEvents.lean ====
section
/-! DEFINITION. Buckets, links and heartbeats (R373 to R377), what a lost link or a failed peer does to requests in flight (R25, R376), and the answers and requests of peers (R24, R73). -/

namespace Sys2Proof.Machine

open Sys2Proof

/-! ### Leaky buckets -/

/-- FILL of a bucket after a millisecond boundary (R373). -/
def Bucket.leaked (b : Bucket) : Bucket := { b with fill := b.fill - b.leak }

/-- LEAKY_BUCKET_LEAK is due: a millisecond boundary of TSTAMP has passed. -/
def State.leakDue (s : State) : Bool := decide (s.leakMs < s.ms)

/-- LEAKY_BUCKET_LEAK at one millisecond boundary (R373); the replays of a millisecond are counted anew (R376). -/
def State.leak (s : State) : State :=
  { s with
    leakMs := s.leakMs + 1
    buckets := s.buckets.map fun (b : Nat × Bucket) => (b.1, b.2.leaked)
    io := { s.io with links := s.io.links.map fun (l : Nat × Link) => (l.1, { l.2 with msReplays := 0 }) } }

/-- LEAKY_BUCKET_LEAK (R373). -/
def execLeakyBucketLeak (s : State) : Out := event s s.leakDue s.leak

/-! ### Requests in flight -/

/-- The outcome of a request that its target answers, or that is lost: done, a fault, or poison. -/
inductive Answer
  | value (x : DWord)
  | fault (cls : BitVec 8)
  | poison
deriving DecidableEq, Repr

/-- The old values of a remote atomic: every pass over a word that held `x` (R73, R74). -/
def Access.remoteAtom (a : Access) (op : Nat) (ty : BitVec 4) (p : Piece) (x : Nat) : Access × Piece :=
  let (y, a, p) := a.atomPass op ty p x
  if p.done then (a, p) else let (_, a, p) := a.atomPass op ty p y; (a, p)

/-- A request of a group answered from outside the package's memory. -/
def State.answerPiece (s : State) (id i : Nat) (a : Access) (p : Piece) : Answer → State
  | .fault k => s.refusePiece id i a p k
  | .poison => if a.kind == .prefetch || a.kind == .store then s.donePiece id i a p else s.donePiece id i (a.meet p.mask clsPoison) p
  | .value x =>
    match a.kind with
    | .load | .qunpk => s.donePiece id i (a.take p x.toNat) p
    | .store | .prefetch => s.donePiece id i a p
    | .atomic op ty => let (a, p) := a.remoteAtom op ty p x.toNat; s.donePiece id i a p

/-- What a lost request ends with: a load is poisoned, a store or an atomic raises PROTECTION (R25, R376). -/
def AccKind.lost : AccKind → Answer
  | .load | .qunpk | .prefetch => .poison
  | .store | .atomic _ _ => .fault clsProtection

/-- The requests of groups in flight that satisfy a condition. -/
def State.inFlight (s : State) (f : Access → Piece → Bool) : List (Nat × Nat) :=
  s.accs.flatMap fun a => if a.2.space != .global then []
    else (List.range a.2.pieces.length).filterMap fun i => match a.2.pieces[i]? with
      | some p => if !p.done && f a.2 p then some (a.1, i) else none
      | none => none

/-- Requests in flight that are lost. -/
def State.loseAll (s : State) (f : Access → Piece → Bool) : State :=
  (s.inFlight f).foldl (fun s x =>
    match SMap.find s.accs x.1 with
    | none => s
    | some a => match a.pieces[x.2]? with
      | some p => if p.done then s else s.answerPiece x.1 x.2 a p a.kind.lost
      | none => s) s

/-! ### Flits (R375) -/

/-- Lanes of a link: 64 of a bridge link, 16 of a peer port. -/
def linkLanes (k : Nat) : Nat := if k < 64 then 64 else 16

/-- The service core that hears of a link's buckets (16 Table 5). -/
def linkCluster (k : Nat) : Nat := if k < 64 then dieCluster0 (k / 8) else 0

/-- The port that carries the window of a peer. -/
def State.peerPort (s : State) (pa : Nat) : Option Nat :=
  match pRange pa with
  | .peer k _ => some (64 + (s.peerwin k).port)
  | _ => none

/-- The outcome that a peer's answer names (R24). -/
def peerAnswer (data : DWord) (st : Nat) : Answer :=
  match st with
  | 0 => .value data
  | 1 => .fault clsProtection
  | 2 => .fault clsCapacity
  | _ => .poison

/-- A hart's access answered from outside. -/
def State.answerHart (s : State) (k : HartOp) (r : HartReq) : Answer → State
  | .value x => if k == .store then s.hartOk r.agent else s.hartGot r.agent x
  | _ => s.hartExc r.agent k.accessFault (BitVec.ofNat 64 r.pa)

/-- A hart's access that leaves the package on its way to a target: well formed, not refused here. -/
def State.hartOut (s : State) (k : HartOp) (r : HartReq) : Bool :=
  r.agent.exists_ && [1, 2, 4, 8].contains r.n && decide (r.pa % r.n = 0) && (s.refuse r.agent.priv (hartRight k) 1 r.pa r.n).isNone

/-- A flit that answers a request may come on a link: the request is on its way to the peer that the port reaches. -/
def State.answerDue (s : State) (k : Nat) : FlitLoad → Bool
  | .nothing => true
  | .answer (.piece id i) _ _ _ =>
    match s.pieceOpen id i with
    | some (a, p) => a.space == .global && s.peerPort p.addr == some k
    | none => false
  | .answer (.hart r) op _ _ => s.hartOut op r && s.peerPort r.pa == some k

/-- What a flit brings, delivered (R375). -/
def State.deliverFlit (s : State) : FlitLoad → State
  | .nothing => s
  | .answer (.piece id i) _ data st =>
    match s.pieceOpen id i with
    | some (a, p) => s.answerPiece id i a p (peerAnswer data st)
    | none => s
  | .answer (.hart r) op data st => s.answerHart op r (peerAnswer data st)

/-- A flit that will be sent again (R375, R376). -/
def State.replayed (s : State) (k : Nat) : State :=
  let l := s.link k
  s.setLink k { l with replays := sat16 (l.replays + 1), msReplays := l.msReplays + 1 }

/-- A FLIT RECEIVED (R375): corrected flits and CRC failures count in the lane's bucket; a flit that fails, or that follows one that failed,
is refused and comes again, which counts as a replay of each; one in order is delivered, and one that was delivered before is not again. -/
def State.receiveFlit (s : State) (k lane seq : Nat) (c : FlitCheck) (f : FlitLoad) : State :=
  let s := match c with
    | .good => s
    | .corrected => s.bucketEvent (laneBucket k lane) 1 (linkCluster k) false
    | .bad => s.bucketEvent (laneBucket k lane) 16 (linkCluster k) false
  let l := s.link k
  if c = .bad ∨ l.expect < seq then s.replayed k
  else if seq = l.expect then (s.setLink k { l with expect := l.expect + 1 }).deliverFlit f
  else s

/-- LINK_FLIT_RECEIVE on a lane of a link (R375). -/
def execLinkFlitReceive (k lane seq : Nat) (c : FlitCheck) (f : FlitLoad) (s : State) : Out :=
  let l := s.link k
  event s (decide (k < 67 ∧ lane < linkLanes k) && l.up && !l.training && s.answerDue k f) (s.receiveFlit k lane seq c f)

/-! ### Training (R376, R377) -/

/-- A link has counted more than 32 replays within the millisecond. -/
def State.retrainDue (s : State) (k : Nat) : Bool := let l := s.link k; l.up && !l.training && decide (32 < l.msReplays)

/-- A request crosses the edge of a die (R30, R376). -/
def crosses (d : Nat) (cl : Nat) (home : Option Nat) : Bool :=
  match home with
  | some h => (cl / 16 == d) != (h / 32 == d)
  | none => cl / 16 == d

/-- The home of a physical address, if it is HBM. -/
def State.homeOf (s : State) (pa : Nat) : Option Nat := if pRange pa = .hbm then some (s.homeNow pa) else none

/-- The copies that read or write across the edge of a die: what is left of them is lost, and poisons what they write. -/
def State.loseCopies (s : State) (d : Nat) : State :=
  s.copies.foldl (fun (s : State) (c : Nat × Copy) =>
    let k := c.2
    let cl := slotCluster k.slot
    let out (sp : Bool) (pa : Nat) : Bool := !sp && crosses d cl (s.homeOf pa)
    let lost (p : CopyPiece) : Bool := !p.done && (out k.srcSp p.src || out k.dstSp p.dst)
    if !k.pieces.any lost then s
    else
      let s := (k.pieces.filter lost).foldl (fun s p =>
        if out k.dstSp p.dst then s else if k.dstSp then s.spoilSpad k.team p.dst else (s.copyWrite k p.dst .refused 0).2) s
      { s with copies := SMap.set s.copies c.1 { k with psn := true, pieces := k.pieces.map fun p => if lost p then { p with done := true } else p } }) s

/-- The regions with a team on a die. -/
def State.dieRegions (s : State) (d : Nat) : List Nat :=
  (s.teams.filter fun t => t.2.core / 128 == d).map fun t => (SMap.get s.launches t.2.launch {}).rcb

/-- LINK_DOWN (R376): with the last bridge link of a die, what is in flight across it is lost and fault domains end; `rs` names the regions with a
page in its stack. -/
def State.linkDown (s : State) (k : Nat) (rs : List Nat) : State :=
  let s := s.setLink k { s.link k with up := false, down := true, training := false }
  if 64 ≤ k then s
  else
    let d := k / 8
    if (List.range 8).any fun j => (s.link (8 * d + j)).up then s
    else
      let s := s.loseAll fun a p => crosses d (slotCluster a.slot) (s.homeOf p.addr)
      let s := s.loseCopies d
      ((s.dieRegions d ++ rs).eraseDups).foldl (fun s r => s.endDomain r) s

/-- LINK_RETRAIN: the next lower rate, or, at the lowest, down (R376). -/
def State.retrain (s : State) (k : Nat) (rs : List Nat) : State :=
  let l := s.link k
  if l.rate < 3 then s.setLink k { l with rate := l.rate + 1, retrains := min 255 (l.retrains + 1), training := true, msReplays := 0 }
  else s.linkDown k rs

/-- LINK_RETRAIN of a link (R376). -/
def execLinkRetrain (k : Nat) (rs : List Nat) (s : State) : Out := event s (s.retrainDue k) (s.retrain k rs)

/-- LINK_RETRAIN_DONE of a link: it resumes at the lower rate, or goes down (R376). -/
def execLinkRetrainDone (k : Nat) (ok : Bool) (rs : List Nat) (s : State) : Out :=
  event s (s.link k).training (if ok then s.setLink k { s.link k with training := false } else s.linkDown k rs)

/-- LINK_TRAINED of a link: LNKSTAT.UP becomes 1 (R377). -/
def execLinkTrained (k : Nat) (s : State) : Out :=
  event s (decide (k < 67) && !(s.link k).up) (s.setLink k { s.link k with up := true, down := false, msReplays := 0 })

/-! ### Heartbeats (R377) -/

/-- A heartbeat is due on the trained peer ports. -/
def State.beatDue (s : State) : Bool := [64, 65, 66].any (fun k => (s.link k).up) && decide (s.io.hbAt + 1000 ≤ s.tstamp.toNat)

/-- HEARTBEAT_SEND on every trained peer port (R377). -/
def execHeartbeatSend (s : State) : Out :=
  event s s.beatDue { s with io := { s.io with hbSeq := s.io.hbSeq + 1, hbAt := s.tstamp.toNat } }

/-- HEARTBEAT_RECEIVE on a port, from a board position (R377). -/
def execHeartbeatReceive (p pos : Nat) (s : State) : Out :=
  event s (decide (p < 3 ∧ pos < 8) && (s.link (64 + p)).up) { s with io := { s.io with heard := SMap.set s.io.heard pos s.tstamp.toNat } }

/-- No heartbeat from an enabled peer for 100 µs. -/
def State.peerSilent (s : State) (k : Nat) : Bool :=
  let w := s.peerwin k
  decide (k < 8) && w.en && !w.fenced && decide (max (SMap.get s.io.heard k 0) (SMap.get s.io.opened k 0) + 100000 ≤ s.tstamp.toNat)

/-- The outboxes of a port lose what they send (R394). -/
def State.fenceOutbox (s : State) (p : Nat) : State :=
  let x := s.outbox p
  if x.busy then s.setOutbox p { x with busy := false, lost := true } else s

/-- FENCED (R25, R377): requests in flight to the peer are lost, and its port's outbox; the service core of cluster 0 is told. -/
def State.fencePeer (s : State) (k : Nat) : State :=
  let w := s.peerwin k
  let s := { s with hub := { s.hub with peerwin := SMap.set s.hub.peerwin k { w with fenced := true } } }
  let s := s.loseAll fun _ p => match pRange p.addr with
    | .peer j _ => j == k
    | _ => false
  (s.fenceOutbox w.port).machineCheck 0 (.peer k)

/-- HEARTBEAT_TIMEOUT of a peer (R377). -/
def execHeartbeatTimeout (k : Nat) (s : State) : Out := event s (s.peerSilent k) (s.fencePeer k)

/-! ### Requests of peers (R24) -/

/-- An answer leaves the chip. -/
def State.reply (s : State) (port : Nat) (data : List Byte) (st : Nat) : State :=
  { s with io := { s.io with replies := SMap.set s.io.replies port { data := data, st := st } } }

/-- The bytes of a value. -/
def bytesOf (x n : Nat) : List Byte := (List.range n).map fun k => BitVec.ofNat 8 (x / 256 ^ k)

/-- A peer's request may be performed: a well formed access of at most 8 bytes, not held by a granule or a ring. -/
def State.peerDue (s : State) (p : Nat) (k : HartOp) (pa n : Nat) : Bool :=
  decide (p < 3) && (s.link (64 + p)).up && !(s.link (64 + p)).training && [1, 2, 4, 8].contains n && decide (pa % n = 0) &&
  s.unitFree peerIngress pa n (k != .load)

/-- A PEER'S REQUEST performed here, never of privileged origin (R22, R23, R24, R73). -/
def State.peerRequest (s : State) (p : Nat) (k : HartOp) (pa n : Nat) (data : DWord) (op : Nat) (ty : BitVec 4) : State :=
  let out := 16 + p
  match s.refuse false (hartRight k) 1 pa n with
  | some c => s.reply out [] (if c = clsCapacity then 2 else 1)
  | none =>
    if pRange pa ≠ .hbm then s.reply out [] 1
    else
      let s := s.needLine pa
      if k ≠ .store ∧ s.linePsn pa then (s.deliverPsn (s.homeNow pa) pa).reply out [] 3
      else
        let old := Memory.read s.mem pa n
        match k with
        | .load => s.reply out (bytesOf old n) 0
        | .store => ((s.homeWrite (s.homeNow pa) pa (valueBytes data.toNat n) false none).race none pa n).reply out [] 0
        | .amo => ((s.homeWrite (s.homeNow pa) pa (valueBytes (atomWord op ty n old data.toNat 0) n) false none).race none pa n).reply out (bytesOf old n) 0

/-- PEER_REQUEST on a peer port (R24). -/
def execPeerRequest (p : Nat) (k : HartOp) (pa n : Nat) (data : DWord) (op : Nat) (ty : BitVec 4) (s : State) : Out :=
  event s (s.peerDue p k pa n) (s.sendFrom peerIngress pa fun s => s.peerRequest p k pa n data op ty)

end Sys2Proof.Machine
end

