-- ==== Sys2Proof/Machine/IoEvents.lean ====
section
/-! DEFINITION. PCI Express, NVMe, Ethernet, wired interrupt sources (R386 to R392), the context window (R357), user interrupts sent by Linium (R360), and in-field tests (R378). -/

namespace Sys2Proof.Machine

open Sys2Proof

/-! ### Outbound requests (R27, R389) -/

/-- What a port's AER status logs: an error of an outbound load, a dropped store, a completion timeout, a completer abort (R389, R390). -/
def aerLoad : Nat := 1
/-- A dropped store. -/
def aerStore : Nat := 2
/-- A completion timeout. -/
def aerTimeout : Nat := 3
/-- A completer abort. -/
def aerAbort : Nat := 4

/-- An error logged in a root port's AER status. -/
def State.logAer (s : State) (port kind : Nat) : State :=
  { s with io := { s.io with aer := SMap.set s.io.aer port (SMap.get s.io.aer port [] ++ [kind]) } }

/-- The root port of an aperture address, and the offset. -/
def rootPort (pa : Nat) : Option (Nat × Nat) :=
  match pRange pa with
  | .pcie k off => some (k, off)
  | _ => none

/-- The offset lies in a bridge window of the port (R27). -/
def State.bridged (s : State) (port off : Nat) : Bool := (SMap.get s.hub.bridge port []).any fun w => decide (w.1 ≤ off ∧ off < w.2)

/-- A request on its way to a root port: its port and offset, and its kind. -/
def State.outbound (s : State) (q : HomeReq) (k : HartOp) : Option (Nat × Nat) :=
  match q with
  | .piece id i => match s.pieceOpen id i with
    | some (a, p) => if a.space == .global then rootPort p.addr else none
    | none => none
  | .hart r => if s.hartOut k r then rootPort r.pa else none

/-- AN OUTBOUND REQUEST ENDS (R389): with data, or with an error: a group's load is poisoned and a core's returns all ones; a store is dropped and
logged. -/
def State.completion (s : State) (port : Nat) (q : HomeReq) (k : HartOp) (data : Option DWord) (kind : Nat) : State :=
  match q with
  | .piece id i =>
    match s.pieceOpen id i with
    | none => s
    | some (a, p) =>
      match data with
      | some x => s.answerPiece id i a p (.value x)
      | none => if a.kind == .store then (s.logAer port kind).donePiece id i a p else s.answerPiece id i a p .poison
  | .hart r =>
    match data with
    | some x => s.answerHart k r (.value x)
    | none =>
      let s := s.logAer port kind
      if k == .load then s.hartGot r.agent (BitVec.ofNat 64 (2 ^ (8 * r.n) - 1)) else s.hartOk r.agent

/-- The kind of AER entry for an error that is no time-out. -/
def State.errKind (s : State) (q : HomeReq) (k : HartOp) : Nat :=
  match q with
  | .piece id _ => match SMap.find s.accs id with
    | some a => if a.kind == .store then aerStore else aerLoad
    | none => aerLoad
  | .hart _ => if k == .store then aerStore else aerLoad

/-- PCIE_COMPLETION of an outbound request: `data` is none for UR and CA, which a request outside every bridge window always ends with (R27, R389). -/
def execPcieCompletion (q : HomeReq) (k : HartOp) (data : Option DWord) (s : State) : Out :=
  match s.outbound q k with
  | some (port, off) => event s (data.isNone || s.bridged port off) (s.completion port q k data (s.errKind q k))
  | none => .next s

/-- 50 ms have passed since the request was sent; a hart's access is one event, in which they pass. -/
def State.overdue (s : State) : HomeReq → Bool
  | .piece id _ => match SMap.find s.accs id with
    | some a => decide (a.sentAt + 50000000 ≤ s.tstamp.toNat)
    | none => false
  | .hart _ => true

/-- PCIE_COMPLETION_TIMEOUT of an outbound request (R389). -/
def execPcieCompletionTimeout (q : HomeReq) (k : HartOp) (s : State) : Out :=
  match s.outbound q k with
  | some (port, _) => event s (s.overdue q) (s.completion port q k none aerTimeout)
  | none => .next s

/-! ### Inbound requests (R390) -/

/-- The parts of a range of addresses that lie in one line each can be taken up by their homes, as the hub's ports send them (R144, R148). -/
def State.rangeFree (s : State) (pa n : Nat) (wr : Bool) : Bool := s.allFree hubPorts wr (lineParts pa n)

/-- A device's access to a range is refused: not memory, the firmware range, above MEMCAP, a scale region (R22, R23, R49). -/
def State.dmaRefused (s : State) (r : Right) (pa n : Nat) : Bool :=
  (lineParts pa n).any fun p => pRange p.1 != .hbm || (s.refuse false r 1 p.1 p.2).isSome

/-- Bytes of a device performed at their homes. -/
def State.dmaWrite (s : State) (pa : Nat) (bs : List Byte) : State :=
  (lineParts pa bs.length).foldl (fun s p =>
    let part := ((bs.drop (p.1 - pa)).take p.2).zipIdx.map fun x => (x.2, x.1)
    ((s.needLine p.1).homeWrite (s.homeNow p.1) p.1 part (decide (p.2 = 128)) none).race none p.1 p.2) s

/-- A message-signalled interrupt, a write of four bytes that the MSI page tables have sent to a doorbell or to an interrupt file (R387, R390, R397); one to a
file that does not take the interrupts of the function's domain is a fault of the IOMMU. -/
def State.msi (s : State) (f : PcieFunction) (off : Nat) (x : Word) : Option State :=
  match regAt off with
  | .doorbell c => some (s.doorbell c x)
  | .imsic page o =>
    let file := Config.imsicFile page
    if o = 0 ∧ s.takesFrom (s.functionDomain f.port f.rid) file then some (s.pendId file x.toNat) else none
  | _ => none

/-- The data of an interrupt message. -/
def msiData (data : List Byte) : Word := BitVec.ofNat 32 (data.zipIdx.foldl (fun x b => x + b.1.toNat * 256 ^ b.2) 0)

/-- AN INBOUND WRITE (R390, R397): an interrupt message, or bytes for memory; a refused one is dropped and logged. -/
def State.dmaStore (s : State) (f : PcieFunction) (pa : Nat) (data : List Byte) : State :=
  match (match pRange pa with
    | .mmio off => if data.length = 4 ∧ off % 8 = 0 then s.msi f off (msiData data) else none
    | _ => none) with
  | some t => t
  | none =>
    if s.dmaRefused .store pa data.length then s.logAer f.port aerAbort
    else s.sendAll hubPorts (lineParts pa data.length) fun s => s.dmaWrite pa data

/-- PCIE_INBOUND_WRITE by a function on a root port at an address that the IOMMU gave; `fault` is a fault of the IOMMU, which drops it (R390). -/
def execPcieInboundWrite (f : PcieFunction) (pa : Nat) (data : List Byte) (fault : Bool) (s : State) : Out :=
  event s (decide (f.port < 4) && s.rangeFree pa data.length true) (if fault then s else s.dmaStore f pa data)

/-- The lines of a range hold poison. -/
def State.rangePsn (s : State) (pa n : Nat) : List Nat := ((lineParts pa n).map Prod.fst).filter fun a => (s.needLine a).linePsn a

/-- PCIE_INBOUND_READ (R390): the data, with EP when some of it is poisoned; UR on a fault of the IOMMU or a refused range. -/
def State.dmaRead (s : State) (port pa n : Nat) (fault : Bool) : State :=
  if fault then s.reply port [] 1
  else if s.dmaRefused .load pa n then (s.logAer port aerAbort).reply port [] 1
  else
    s.sendAll hubPorts (lineParts pa n) fun s =>
      let bad := s.rangePsn pa n
      let s := (lineParts pa n).foldl (fun s p => s.needLine p.1) s
      let s := bad.foldl (fun s a => s.deliverPsn (s.homeNow a) a) s
      s.reply port (bytesOf (Memory.read s.mem pa n) n) (if bad.isEmpty then 0 else 3)

/-- PCIE_INBOUND_READ on a root port (R390). -/
def execPcieInboundRead (port pa n : Nat) (fault : Bool) (s : State) : Out :=
  event s (decide (port < 4) && s.rangeFree pa n false) (s.dmaRead port pa n fault)

/-! ### NVMe and Ethernet (R391, R392) -/

/-- A 64-bit completion word of the hub's engines may be written now: a shard has placed it in memory, the firmware range included (R22). -/
def State.wordFree (s : State) (pa : Nat) : Bool := decide (pa % 8 = 0) && pRange pa == .hbm && s.unitFree hubPorts pa 8 true

/-- A COMPLETION WORD written; its home refuses one above MEMCAP or in a scale region, and nothing is written (R23, R49). -/
def State.putWord (s : State) (pa x : Nat) : State := if (s.refuse true .store 1 pa 8).isSome then s else s.unitWrite pa (valueBytes x 8) false

/-- NVME_COMPLETION of a queue whose completion word is at an address: `n` entries have been posted (R391). -/
def execNvmeCompletion (q pa n : Nat) (s : State) : Out :=
  event s (decide (q < 1024) && s.wordFree pa)
    (s.sendFrom hubPorts pa fun s =>
      let x := SMap.get s.io.nvme q 0 + n
      { s.putWord pa x with io := { s.io with nvme := SMap.set s.io.nvme q x } })

/-- The queue set of a received frame: a flow table entry, else the hash table (R392). -/
def State.steer (s : State) (port tuple hash : Nat) : Nat :=
  match SMap.find (SMap.get s.io.flows port []) tuple with
  | some q => q % 16
  | none => SMap.get s.io.hash (64 * port + hash % 64) 0 % 16

/-- Data of an engine of the hub whose queues a shard has placed, in the firmware range or above it, refused by its home (R22, R23, R49). -/
def State.engineRefused (s : State) (pa n : Nat) : Bool := (lineParts pa n).any fun p => pRange p.1 != .hbm || (s.refuse true .store 1 p.1 p.2).isSome

/-- ETH_FRAME_RECEIVE on a port (R392): the data reaches its homes, then the completion word of the queue set; a set that a domain reset has
disabled takes nothing; of refused data nothing is written, and the frame still completes: the spec calls that an error completion and gives it no form
(log 85). -/
def execEthFrameReceive (port tuple hash pa : Nat) (data : List Byte) (cw : Nat) (s : State) : Out :=
  let q := 16 * port + s.steer port tuple hash
  let x := SMap.get s.io.eth q 0 + 1
  event s (decide (port < 4) && s.rangeFree pa data.length true && s.wordFree cw)
    (if s.io.qoff.contains q then s
     else
       s.sendAll hubPorts ((cw, 8) :: lineParts pa data.length) fun s =>
         let s := if s.engineRefused pa data.length then s else s.dmaWrite pa data
         { s.putWord cw x with io := { s.io with eth := SMap.set s.io.eth q x } })

/-! ### Wired interrupt sources (R386) -/

/-- A file to which the APLIC can deliver: a machine file from its machine-level domain, or the file of a hart that takes the interrupts of the hart's domain
(R386, R397). -/
def State.aplicFile (s : State) (file : Nat) : Bool := decide (file < 144) && (file % 9 == 0 || s.takesFrom (s.hartDomain (file / 9)) file)

/-- APLIC_WIRED_SOURCE: a source changes level; an identity `id` of 1 to 255 becomes pending in the IMSIC file that the APLIC names, and 0 is no
delivery (R386, R397). -/
def execAplicWiredSource (source : Nat) (level : Bool) (file id : Nat) (s : State) : Out :=
  event s (decide (source < 96 ∧ id < 256) && s.aplicFile file && SMap.get s.io.wired source false != level)
    ({ s with io := { s.io with wired := SMap.set s.io.wired source level } }.pendId file id)

/-! ### In-field test (R378) -/

/-- IN_FIELD_TEST of a cluster with no team, and what it found: 0 nothing, 1 a corrected error, 64 an uncorrectable one. -/
def execInFieldTest (cl w : Nat) (s : State) : Out :=
  event s (decide (cl < 128) && (w == 0 || w == 1 || w == 64) && s.teams.all fun t => t.2.core / 8 != cl)
    (if w = 0 then s else s.bucketEvent (clusterBucket cl) w cl true)

/-! ### The context window (R357) -/

/-- The device virtual address of an aperture address. -/
def SvcCore.winVa (x : SvcCore) (pa : Nat) : DWord := BitVec.ofNat 64 (bits x.ctxwin 54 40 * 2 ^ 40 + pa % 2 ^ 40)

/-- The check of a window access: EN, WREN, and R357's table. -/
def State.ctxChk (s : State) (c : Nat) (k : HartOp) (r : HartReq) : LaneChk :=
  let x := s.svcCore c
  let va := x.winVa r.pa
  if !x.ctxwin.getLsbD 63 then .fault clsPage 0 va false 0 0
  else if k != .load && !x.ctxwin.getLsbD 62 then .fault clsProtection 0 va false 0 0
  else s.winChk c (bits x.ctxwin 15 0) (hartRight k) r.n va

/-- A window access is due: aligned; its miss has not been admitted yet; no granule or ring holds it. -/
def State.ctxDue (s : State) (c : Nat) (k : HartOp) (r : HartReq) : Bool :=
  inWindow r.agent r.pa && r.agent.cluster == c && r.agent.exists_ && [1, 2, 4, 8].contains r.n && decide (r.pa % r.n = 0) &&
  (match s.ctxChk c k r with
    | .wait p => !((s.cluster c).walks ++ (s.cluster c).missWait).any fun w => w.for_ (bits (s.svcCore c).ctxwin 15 0) p && w.req.contains winReq
    | .fault _ _ _ _ _ _ => true
    | .ok pa _ => s.unitFree c pa r.n (k != .load))

/-- A WINDOW ACCESS (R357): performed at its home, or an exception with the aperture address. -/
def State.ctxAccess (s : State) (c : Nat) (k : HartOp) (r : HartReq) : State :=
  match s.ctxChk c k r with
  | .wait p => s.winMiss c (bits (s.svcCore c).ctxwin 15 0) [p]
  | .fault cls _ _ _ _ _ =>
    ((s.dropX c winReq).winPoison c (bits (s.svcCore c).ctxwin 15 0) (s.svcCore c |>.winVa r.pa).toNat r.n cls).hartExc r.agent (if cls = clsPage then k.pageFault else k.accessFault) (BitVec.ofNat 64 r.pa)
  | .ok pa e =>
    s.sendFrom c pa fun s =>
      let s := ((s.dropX c winReq).useTlbsIn c e.toList).needLine pa
      let old := (s.seenDword pa).toNat % 2 ^ (8 * r.n)
      let far := s.farClass pa
      let put (x : Nat) : State := (s.unitWrite pa (valueBytes x r.n) false).unstage pa
      let s := if pRange pa == .hbm then s else s.bump
      match k with
      | .load => if far.isSome then s.hartExc r.agent k.accessFault (BitVec.ofNat 64 r.pa) else s.hartGot r.agent (BitVec.ofNat 64 old)
      | .store => (put r.data.toNat).hartOk r.agent
      | .amo => (put (hartNew r old)).hartGot r.agent (BitVec.ofNat 64 old)

/-- CONTEXT_WINDOW_ACCESS of a service core (R357). -/
def execContextWindowAccess (c : Nat) (k : HartOp) (r : HartReq) (s : State) : Out := event s (s.ctxDue c k r) (s.ctxAccess c k r)

/-! ### UI_SEND (R360) -/

/-- The region of a context. -/
def State.ctxRegion (s : State) (ctx : Nat) : Option Nat :=
  match s.ctxSlot ctx with
  | some k => some (s.prog k).rcb
  | none => (s.ctxSaved ctx).map fun x => (SMap.get (s.savedTeam x.1).groups x.2 {}).rcb

/-- The write that UI_SEND makes once the target lies in the caller's fault domain; EPERM otherwise (R360). -/
def State.uiSend (s : State) (r : Rec) (v : Service) (m : LaneMask) : State :=
  let l := lowLane m
  let ctx := (s.recArg r l 0).toNat
  let ok := match s.ctxRegion ctx with
    | some t => s.inSubtree (s.faultRoot r.rcb) t
    | none => false
  if ok then (s.uiTo ctx (s.recArg r l 1).toNat (BitVec.ofNat 32 (2 ^ (8 + (s.recArg r l 2).toNat)))).answerLanes r v m 0 fun _ => 0
  else s.answerLanes r v m ePerm fun _ => 0

/-- UI_SEND (R360). -/
def execUiSend (cl k : Nat) (l : Lane) (s : State) : Out := serve 33 cl k l (fun r v m s => s.uiSend r v m) s

end Sys2Proof.Machine
end

