-- ==== Sys2Proof/Machine/Move.lean ====
section
/-! DEFINITION. Moves and lane instructions (10 Tables 2 and 12, R232, R233, R248). -/

namespace Sys2Proof.Machine

open Sys2Proof

/-- mov. -/
def execMov (f : Enc) (s : State) : Out :=
  issue (.mov f) noOwn (fun c s => .next (result c true (fun l => (c.a .int l).setWidth 128) noFlags s)) s

/-- movs: the lowest active lane's value, uniform. -/
def execMovs (f : Enc) (s : State) : Out :=
  issue (.movs f) noOwn (fun c s => .next (result c true (uniform (c.a .int c.low)) noFlags s)) s

/-- The lane a number names, modulo 32. -/
def laneMod (n : Nat) : Lane := ⟨n % 32, Nat.mod_lt _ (by decide)⟩

/-- bcast: the value of the lane that B names, uniform. -/
def execBcast (f : Enc) (s : State) : Out :=
  issue (.bcast f) noOwn (fun c s => .next (result c true (uniform (c.a .int (laneMod c.ub.toNat))) noFlags s)) s

/-- A vote: one 32-bit value in every active lane (R232). -/
def voteOp (i : Instr) (f : Ctx → Word) (s : State) : Out :=
  issue i noOwn (fun c s => .next (result c false (uniform ((f c).setWidth 64)) noFlags s)) s

/-- The active lanes whose A is not zero. -/
def Ctx.trueLanes (c : Ctx) : LaneMask := maskOf fun l => laneIn c.act l && c.a .int l != 0

/-- Every active lane's A is the same. -/
def Ctx.sameA (c : Ctx) : Bool := (lanesIn c.act).all fun l => c.a .int l == c.a .int c.low

/-- vote.mask. -/
def execVoteMask (f : Enc) (s : State) : Out := voteOp (.voteMask f) (fun c => c.trueLanes) s
/-- vote.some. -/
def execVoteSome (f : Enc) (s : State) : Out := voteOp (.voteSome f) (fun c => if c.trueLanes = 0 then 0 else 1) s
/-- vote.every. -/
def execVoteEvery (f : Enc) (s : State) : Out := voteOp (.voteEvery f) (fun c => if c.trueLanes = c.act then 1 else 0) s
/-- vote.same. -/
def execVoteSame (f : Enc) (s : State) : Out := voteOp (.voteSame f) (fun c => if c.sameA then 1 else 0) s
/-- vote.count. -/
def execVoteCount (f : Enc) (s : State) : Out :=
  voteOp (.voteCount f) (fun c => BitVec.ofNat 32 (lanesIn c.trueLanes).length) s

/-- shfl: the source lane of each lane, and C where it lies outside the group (R232). -/
def shflOp (i : Instr) (f : Int → Int → Int) (s : State) : Out :=
  issue i noOwn (fun c s =>
    let x (l : Lane) : DWord :=
      let j := f l.val (c.b .int l).toNat
      if 0 ≤ j ∧ j ≤ 31 then c.a .int (laneMod j.toNat) else c.c .int l
    .next (result c false (fun l => (x l).setWidth 128) noFlags s)) s

/-- shfl.lane. -/
def execShflLane (f : Enc) (s : State) : Out := shflOp (.shflLane f) (fun _ b => b % 32) s
/-- shfl.back. -/
def execShflBack (f : Enc) (s : State) : Out := shflOp (.shflBack f) (fun l b => l - b) s
/-- shfl.fwd. -/
def execShflFwd (f : Enc) (s : State) : Out := shflOp (.shflFwd f) (fun l b => l + b) s
/-- shfl.mix. -/
def execShflMix (f : Enc) (s : State) : Out :=
  shflOp (.shflMix f) (fun l b => ((l.toNat ^^^ (b.toNat % 32) : Nat) : Int)) s
/-- shfl.rot. -/
def execShflRot (f : Enc) (s : State) : Out := shflOp (.shflRot f) (fun l b => (l + b) % 32) s

/-- elect: a predicate true in one active lane (R232). -/
def electOp (i : Instr) (f : LaneMask → Lane) (s : State) : Out :=
  issue i noOwn (fun c s =>
    let n := match c.e.d with
      | .v k => k.toNat
      | _ => 7
    .next (done c (s.updGroup c.slot fun g => g.writePred n c.act (fun l => l == f c.act) false))) s

/-- elect. -/
def execElect (f : Enc) (s : State) : Out := electOp (.elect f) lowLane s
/-- elect.hi. -/
def execElectHi (f : Enc) (s : State) : Out := electOp (.electHi f) highLane s

/-- match.peers: the active lanes that hold the same value. -/
def execMatchPeers (f : Enc) (s : State) : Out :=
  issue (.matchPeers f) noOwn (fun c s =>
    let m (l : Lane) : LaneMask := maskOf fun k => laneIn c.act k && c.a .int k == c.a .int l
    .next (result c false (fun l => (m l).setWidth 128) noFlags s)) s

/-- match.uniform: the active lanes if all hold one value, else 0. -/
def execMatchUniform (f : Enc) (s : State) : Out := voteOp (.matchUniform f) (fun c => if c.sameA then c.act else 0) s

end Sys2Proof.Machine
end

