-- ==== Sys2Proof/Machine/PairEvents.lean ====
section
/-! DEFINITION. The events of pairs: the store compare buffer (R365, R369, R403, R405), side effects (R366), team checkpoints (R367), mismatches and rollback (R368, R404); and the discard of a contained team (R372). -/

namespace Sys2Proof.Machine

open Sys2Proof

/-! ### PAIR_SCB_COMPARE -/

/-- The bytes that a store writes to a line, by offset. -/
def Access.lineStore (a : Access) (line : Nat) : SMap Byte :=
  (a.pieces.filter fun p => p.addr / 128 == line).foldl (fun (m : SMap Byte) p =>
    (a.storeBytes p).foldl (fun m b => SMap.set m (p.addr % 128 + b.1) b.2) m) []

/-- The slots of a pair whose team has met no mismatch. -/
def State.pairSlots (s : State) (tm gidx : Nat) : Option (Nat × Nat) :=
  let t := s.team tm
  match t.pair with
  | some tr =>
    if t.paired && !t.trail && t.mism.isNone && !t.halted && !t.redeliver && (SMap.find t.slots gidx).isSome then
      some (t.slotOf gidx, (s.team tr).slotOf gidx)
    else none
  | none => none

/-- The leading store whose entry is the oldest of its pair: a release places its own when its drain is over (R365, R405). -/
def State.scbFront (s : State) (slot : Nat) : Option (Nat × Access) :=
  s.accs.find? fun a => a.2.slot == slot && a.2.uid == (s.group slot).uid && !a.2.scb.isEmpty && s.accsDone a.2.after

/-- The trailing stores that have not been compared. -/
def State.scbTrail (s : State) (slot : Nat) : List (Nat × Access) :=
  s.accs.filter fun a => a.2.slot == slot && a.2.uid == (s.group slot).uid && a.2.trail && a.2.pieces.any fun p => !p.done

/-- A group's store of a place of its program may still come: it has not issued, or the matrix unit has the operation. -/
def State.mayStore (s : State) (slot seq : Nat) : Bool :=
  let g := s.group slot
  decide (g.seq ≤ seq) || s.cores.any fun k => k.2.mq.any fun o => o.slot == slot && o.uid == g.uid && o.seq == seq

/-- What the buffer does next for a pair. -/
inductive ScbStep
  | compare (id : Nat) (a : Access) (tid : Nat) (b : Access)
  | differ

/-- The step that is due: the oldest entry against the request of the trailing copy (R365). -/
def State.scbNext (s : State) (tm gidx : Nat) : Option ScbStep :=
  match s.pairSlots tm gidx with
  | none => none
  | some (ls, ts) =>
    match s.scbFront ls with
    | some (id, a) =>
      (match (s.scbTrail ts).find? fun b => b.2.seq == a.seq with
        | some (tid, b) => some (.compare id a tid b)
        | none => if s.mayStore ts a.seq then none else some .differ)
    | none =>
      match s.scbTrail ts with
      | b :: _ => if s.mayStore ls b.2.seq || s.accs.any fun a => a.2.slot == ls && a.2.seq == b.2.seq && !a.2.scb.isEmpty then none else some .differ
      | [] => none

/-- Byte 0 of an entry's data with the bits of XMASK changed (R369). -/
def corrupt (m : SMap Byte) (x : Byte) : SMap Byte := match m with
  | b :: bs => (b.1, b.2 ^^^ x) :: bs
  | [] => []

/-- ONE ENTRY COMPARED: released, or a mismatch (R365, R368, R369). -/
def State.scbCompare (s : State) (tm gidx id : Nat) (a : Access) (tid : Nat) (b : Access) : State :=
  let cl := slotCluster a.slot
  let s := s.peaks cl
  let c := s.cluster cl
  let hit := c.injEn && c.injCount + 1 == c.injNth.toNat
  let line := a.scb.headD 0
  let tline := ((b.pieces.filter fun p => !p.done).map fun p => p.addr / 128).headD 0
  let bytes := b.lineStore tline
  let same := line == tline && a.lineStore line == (if hit then corrupt bytes c.injMask else bytes)
  let c := { c with injCount := if c.injEn then c.injCount + 1 else c.injCount, injEn := c.injEn && !hit, injDone := c.injDone || hit }
  if same then
    let s := s.setCluster cl { c with released := min 0xFFFFFFFF (c.released + 1) }
    let s := { s with accs := SMap.set s.accs id { a with scb := a.scb.tail } }
    let b := { b with pieces := b.pieces.map fun p => if p.addr / 128 = tline then { p with done := true } else p }
    ({ s with accs := SMap.set s.accs tid b }).performed tid
  else (s.setCluster cl c).updTeam tm fun t => { t with mism := some gidx }

/-- PAIR_SCB_COMPARE of a pair (R365). -/
def execPairScbCompare (tm gidx : Nat) (s : State) : Out :=
  match s.scbNext tm gidx with
  | some (.compare id a tid b) => .next (s.scbCompare tm gidx id a tid b)
  | some .differ => .next (s.updTeam tm fun t => { t with mism := some gidx })
  | none => .next s

/-! ### PAIR_SIDE_EFFECT -/

/-- The entry whose values a parked trailing group is waiting for, when they have come. -/
def State.pairEntryDue (s : State) (ls ts : Nat) : Option LvqEntry :=
  (s.group ts).blocks.findSome? fun b => match b with
    | .lvq n => (s.group ls).lvq.find? fun e => e.seq == n && s.entryReady ls e
    | _ => none

/-- The values of an entry given to a parked group, whose wait ends: registers, a task with its lanes at ENTRY, the lanes of a call. -/
def State.giveEntry (s : State) (slot : Nat) (e : LvqEntry) (b : Block) : State :=
  let s := s.updGroup slot fun g =>
    let g := g.takeWrites e
    let g := match e.task with
      | some (t, ret) => { g with taskrec := t.addr, taskret := ret, task := some t, pc := lanesOf t.entry }
      | none => g
    match e.instr with
    | .scall _ => { g with callParked := g.callParked &&& ~~~ e.lanes }
    | _ => g
  (if e.task.isSome then s.acquireInval (slotCore slot) else s).unblock slot b 0

/-- A forwarded result reaches the trailing group (R366). -/
def State.pairForward (s : State) (tm gidx ls ts : Nat) (e : LvqEntry) : State :=
  ((s.giveEntry ts e (.lvq e.seq)).logResult tm gidx e).dropEntry ls e.seq

/-- Side effects of a team that the leading copy has still to perform. -/
def State.pendingEffects (s : State) (tm : Nat) : Nat := ((s.team tm).slots.filter fun p => (s.group p.2).pairGo == .perform).length

/-- THE OPERANDS OF A SIDE EFFECT COMPARED: with each other, and on a replay with the log; a full log asks for a checkpoint (R366). -/
def State.sideCompare (s : State) (tm gidx ls ts : Nat) : State :=
  let g := s.group ls
  let h := s.group ts
  let t := s.team tm
  let bad := s.updTeam tm fun t => { t with mism := some gidx }
  if g.pairAt ≠ h.pairAt then bad
  else
    match t.effects.find? fun x => x.gidx == gidx && x.index == g.sides with
    | some x =>
      if some x.ops ≠ g.pairAt then bad
      else (s.updGroup ls fun g => { g with pairGo := .take x.result }).updGroup ts fun h => { h with pairGo := .take x.result }
    | none =>
      if 256 ≤ t.effects.length + s.pendingEffects tm then s.updTeam tm fun t => { t with wantCkpt := true }
      else s.updGroup ls fun g => { g with pairGo := .perform }

/-- Both groups of a pair stand at a side effect on which they have not agreed. -/
def State.sideDue (s : State) (tm ls ts : Nat) : Bool :=
  let g := s.group ls
  let h := s.group ts
  g.pairAt.isSome && h.pairAt.isSome && g.pairGo == .no && h.pairGo == .no && g.seq == h.seq &&
  !((s.team tm).wantCkpt && decide (256 ≤ (s.team tm).effects.length + s.pendingEffects tm))

/-- PAIR_SIDE_EFFECT of a pair: a result is forwarded, or operands are compared (R366). -/
def execPairSideEffect (tm gidx : Nat) (s : State) : Out :=
  match s.pairSlots tm gidx with
  | none => .next s
  | some (ls, ts) =>
    match s.pairEntryDue ls ts with
    | some e => .next (s.pairForward tm gidx ls ts e)
    | none => event s (s.sideDue tm ls ts) (s.sideCompare tm gidx ls ts)

/-! ### TEAM_CHECKPOINT -/

/-- A group that a checkpoint can find: exited, or at a marker without a fault or a call. -/
def Group.ckptStop (g : Group) : Bool :=
  g.gone || ((g.st == .ready || g.st == .blocked) && g.late.isEmpty && g.blocks.all fun b => match b with
    | .fault => false
    | .redo _ => false
    | .scall => false
    | _ => true)

/-- Both groups of a pair are stopped at the same place: the leading one at a marker or at a side effect (R367). -/
def State.pairStopped (s : State) (ls ts : Nat) : Bool :=
  let g := s.group ls
  let h := s.group ts
  g.seq == h.seq && (g.ckptStop || (g.st == .issuing && g.pairAt.isSome && g.pairGo == .no)) &&
  (h.ckptStop || (h.st == .issuing && h.pairGo == .no)) && h.st != .saving

/-- Nothing of a team is on its way: accesses, copies, arms, decrements, checks of WAITs, calls, running matrix operations (R367). -/
def State.pairQuiet (s : State) (tm : Nat) : Bool :=
  let gs := s.teamGroups tm
  let mine (slot uid : Nat) : Bool := gs.contains (slot, uid)
  (s.accs.all fun a => !mine a.2.slot a.2.uid || a.2.kind == .prefetch) && (s.redos.all fun a => !mine a.2.slot a.2.uid) &&
  (s.copies.all fun c => c.2.team != tm) && (s.arms.all fun a => !mine a.2.slot a.2.uid) && (s.decs.all fun a => !mine a.2.slot a.2.uid) &&
  (s.waits.all fun w => !mine w.1 w.2) &&
  (let c := s.cluster ((s.team tm).core / 8)
   (c.calls.all fun x => !mine x.2.slot x.2.uid) && c.callWait.all fun x => !mine x.slot x.uid) &&
  s.cores.all fun k => k.2.mq.all fun o => o.team != tm || (o.st != .running && !o.ended)

/-- TEAM_CHECKPOINT is due (R367). -/
def State.ckptDue (s : State) (tm : Nat) : Bool :=
  let t := s.team tm
  match t.pair with
  | none => false
  | some tr =>
    t.paired && !t.trail && t.wantCkpt && !t.restored && t.mism.isNone && !t.halted && !t.redeliver &&
    (t.slots.all fun p => s.pairStopped p.2 ((s.team tr).slotOf p.1)) && s.pairQuiet tm && s.pairQuiet tr

/-- CKPT ends in a slot: CKPTCNT counts it (R338, R367). -/
def State.endCkpt (s : State) (slot : Nat) : State :=
  let s := s.updGroup slot fun g => { g with sides := 0 }
  if (s.group slot).blocks.contains .ckpt then (s.updGroup slot fun g => { g with ckptcnt := g.ckptcnt + 1 }).unblock slot .ckpt 0 else s

/-- A leading group as a checkpoint holds it: one that stands at a side effect goes on from there. -/
def State.ckptGroup (s : State) (slot : Nat) : Group :=
  let g := s.group slot
  if g.st == .issuing then
    { g with st := .ready, midRun := some (s.saveRun slot), batch := 0, count := 0, ended := false, haz := [], pairAt := none, pairGo := .no }
  else g

/-- Where the checkpoint area of a team begins: the spec leaves the place to Linium, which the model has in the firmware range (R367, log 69). -/
def ckptBase (tm : Nat) : Nat := Config.ckptArea tm % 2 ^ 31 / 65536 * 65536

/-- A TEAM CHECKPOINT TAKEN (R367): the leading copy's state is stored to the checkpoint area and kept, the log and the retry count are cleared, and the groups
resume; a pre-emption that waited for it saves the leading copy and ends the trailing one. -/
def State.doCkpt (s : State) (tm tr : Nat) : State :=
  let s := s.updTeam tm fun t => { t with effects := [], retries := 0, wantCkpt := false }
  let s := (s.team tm).slots.foldl (fun s p => s.endCkpt p.2) s
  let s := (s.team tr).slots.foldl (fun s p => s.endCkpt p.2) s
  let t := s.team tm
  let v : SavedTeam :=
    { team := t, groups := t.slots.map (fun p => (p.1, s.ckptGroup p.2)), valid := true, tiles := s.takeTiles tm, ops := s.takeOps tm }
  let s := { (s.putTeam (ckptBase tm) v) with ckpts := SMap.set s.ckpts tm v }
  if t.pre == .none_ || s.npOpen tm then s
  else
    let s := t.slots.foldl (fun s p => s.setGroup p.2 (s.ckptGroup p.2)) s
    ((s.discardTeam tr).updTeam tm fun t => { t with pair := none }).preTake tm

/-- TEAM_CHECKPOINT of a paired team (R367). -/
def execTeamCheckpoint (tm : Nat) (s : State) : Out :=
  event s (s.ckptDue tm) (match (s.team tm).pair with
    | some tr => s.doCkpt tm tr
    | none => s)

/-! ### PAIR_MISMATCH -/

/-- An effect of the log whose entry is in the queue. -/
def Team.logged (t : Team) (gidx seq : Nat) : Bool := t.effects.any fun x => x.gidx == gidx && x.result.seq == seq

/-- A performed side effect without a result that is no effect: a WAIT or a tget that is still parked, or one whose access was not made. -/
def State.undone (s : State) (slot : Nat) (e : LvqEntry) : Bool :=
  (match e.instr with
    | .wait _ => true
    | .tget _ => true
    | _ => false) || s.redos.any fun a => a.2.slot == slot && a.2.uid == (s.group slot).uid && a.2.seq == e.seq

/-- Every side effect that has been performed has its result, so that the log is whole. -/
def State.effectsOver (s : State) (tm : Nat) : Bool :=
  (s.team tm).slots.all (fun p => (s.group p.2).lvq.all fun e => !(s.team tm).logged p.1 e.seq || s.entryReady p.2 e || s.undone p.2 e) &&
  s.copies.all fun c => c.2.team != tm || (c.2.dstSp && c.2.tdc.isNone) || c.2.mirror.isSome

/-- PAIR_MISMATCH is due: a mismatch was found and the log is whole, or the pair is to be restored for the answer to its fault. -/
def State.mismatchDue (s : State) (tm : Nat) : Bool :=
  let t := s.team tm
  t.paired && !t.trail && t.pair.isSome && ((t.mism.isSome && !t.halted && s.effectsOver tm) || t.redeliver)

/-- The results in the queue kept in the log; what has none leaves it. -/
def State.wholeLog (s : State) (tm : Nat) : State :=
  (s.team tm).slots.foldl (fun s p => (s.group p.2).lvq.foldl (fun s e =>
    if s.entryReady p.2 e then s.logResult tm p.1 e
    else s.updTeam tm fun t => { t with effects := t.effects.filter fun x => !(x.gidx == p.1 && x.result.seq == e.seq) }) s) s

/-- An access of a pair that is stopped: what was not released is dropped; released stores and effects that were performed stand (R368). -/
def Access.stopped (a : Access) : Option Access :=
  if a.trail || a.space == .spad then none
  else
    match a.kind with
    | .store =>
      let a := { a with pieces := a.pieces.map (fun p => if a.scb.contains (p.addr / 128) then { p with done := true } else p), scb := [], waits := false }
      if a.performed then none else some a
    | .atomic _ _ => if a.performed then none else some { a with dest := none, fwd := none, waits := false }
    | _ => some a

/-- The words of L1 that hold what a pair's dropped stores wrote are invalidated. -/
def State.dropPairL1 (s : State) (as : List Access) : State :=
  as.foldl (fun s a =>
    if a.trail || a.kind != .store then s
    else (a.pieces.foldl (fun s p => if a.scb.contains (p.addr / 128) then p.words.foldl (fun s w => s.dropWord (slotCore a.slot) w) s else s) s).cleanOwn
      (slotCore a.slot)) s

/-- BOTH COPIES ARE STOPPED, and what is in the queue and the buffer is dropped (R368 steps 1 and 2). -/
def State.stopPair (s : State) (tms : List Nat) : State :=
  let slots := tms.flatMap fun tm => (s.team tm).slots.map Prod.snd
  let s := slots.foldl (fun s k => if (s.group k).wait.isSome then s.dropWait k else s) s
  let gs := tms.flatMap s.teamGroups
  let mine (slot uid : Nat) : Bool := gs.contains (slot, uid)
  let was := (s.accs.map Prod.snd).filter fun a => mine a.slot a.uid
  let s := { s with
    accs := s.accs.filterMap fun (a : Nat × Access) => if mine a.2.slot a.2.uid then a.2.stopped.map fun b => (a.1, b) else some a
    redos := s.redos.filter fun a => !mine a.2.slot a.2.uid
    copies := s.copies.filter fun c => !tms.contains c.2.team
    arms := s.arms.filter fun a => !mine a.2.slot a.2.uid
    decs := s.decs.map fun (d : Nat × PendDec) => if mine d.2.slot d.2.uid then (d.1, { d.2 with waits := false }) else d
    wakes := s.wakes.filter fun w => !slots.contains w.waiter
    cores := s.cores.map fun (k : Nat × Core) => (k.1, { k.2 with mq := k.2.mq.filter fun o => !tms.contains o.team })
    clusters := s.clusters.map fun (c : Nat × Cluster) => (c.1, c.2.dropGroups mine) }
  let s := s.dropPairL1 was
  slots.foldl (fun s k => s.updGroup k fun g => { g with lvq := [], pairAt := none, pairGo := .no, pairTrap := none, pairFlt := false }) s

/-- A group as the checkpoint has it, in its slot again (R177, R404). -/
def State.ckptBack (s : State) (slot : Nat) (g : Group) : Group :=
  let old := s.group slot
  let bs := g.blocks.filter fun b => match b with
    | .fence _ => false
    | _ => true
  { g with
    uid := s.nextId, ckptcnt := old.ckptcnt, ctx := old.ctx, blocks := bs, ftok := [], readySince := s.cycle
    st := if g.gone then g.st else if bs.isEmpty then .ready else .blocked
    wakewhy := wakeWord (s.core (slotCore slot)).gated 6
    wait := g.wait.map fun w => { w with after := [], cap := s.hub.memcap, cycle := s.cycle } }

/-- One pair of groups restored; the WAIT of the leading one is issued again (R107, R368). -/
def State.restoreGroups (s : State) (tm tr gidx : Nat) (g : Group) : State :=
  let ls := (s.team tm).slotOf gidx
  let ts := (s.team tr).slotOf gidx
  let g := s.ckptBack ls g
  let s := ({ s with nextId := s.nextId + 1 }).setGroup ls g
  let s := if g.wait.isSome then { s with waits := s.waits ++ [(ls, g.uid)] } else s
  let (uid, s) := s.fresh
  s.putCopyGroup ts (g.trailCopy (s.group ts) uid)

/-- A task that came after the checkpoint to a group that the checkpoint has in tget is given to it again. -/
def State.giveTaskAgain (s : State) (tm tr gidx : Nat) (g : Group) : State :=
  g.blocks.foldl (fun s b => match b with
    | .tget d since =>
      (match (s.team tm).effects.find? fun x => x.gidx == gidx && x.result.seq == d.seq && x.result.task.isSome with
        | some x => ((s.giveEntry ((s.team tm).slotOf gidx) x.result (.tget d since)).giveEntry ((s.team tr).slotOf gidx) x.result (.lvq d.seq)).dropEntry
            ((s.team tm).slotOf gidx) d.seq
        | none => s)
    | _ => s) s

/-- BOTH COPIES RESTORED from the checkpoint (R368 step 3). -/
def State.restorePair (s : State) (tm tr : Nat) : State :=
  let v := SMap.get s.ckpts tm {}
  let s := v.groups.foldl (fun s p => s.restoreGroups tm tr p.1 p.2) s
  let s := (s.layCopy tm v.team v.tiles v.ops).layCopy tr v.team v.tiles v.ops
  v.groups.foldl (fun s p => s.giveTaskAgain tm tr p.1 p.2) s

/-- The checkpoint area of a team holds poison (R368). -/
def State.ckptPoisoned (s : State) (tm : Nat) : Bool :=
  let t := s.team tm
  s.lines.any fun l => l.2.psn && meets (128 * l.1) 128 (ckptBase tm) (t.tilesAt 0 t.cores)

/-- PAIRED_RETRY_EXHAUSTED: the team stays parked (R368). -/
def State.haltPair (s : State) (tm gidx : Nat) : State :=
  let ls := (s.team tm).slotOf gidx
  let g := s.group ls
  let m := if g.batch = 0 then g.chooseBatch else g.batch
  let s := s.postFault ls .pair { cls := clsPair, lanes := m, kind := 7, space := 3, addr := 0, pc := g.lowPc m }
  let s := s.updTeam tm fun t => { t with halted := true }
  s.updGroup ls fun g => { g with st := .blocked, blocks := .fault :: g.blocks, batch := 0, count := 0, ended := false }

/-- The fault delivered to the named group in a copy, from the restored state (R331, R368). -/
def State.pairDeliver (s : State) (slot : Nat) : State :=
  let g := s.group slot
  let s := { s with waits := s.waits.filter fun w => w != (slot, g.uid) }
  let g := { g with blocks := [], wait := none, lvq := [], st := .ready }
  s.setGroup slot { (g.deliver (some (g.midRun.getD g.markerRun)) ⟨true, clsPair, 0, g.pc⟩) with midRun := none }

/-- ACT 1 of the record: the pair is restored, and its group's handler runs in both copies (R368). -/
def State.pairAnswered (s : State) (tm tr gidx : Nat) : State :=
  let rcb := (s.group ((s.team tm).slotOf gidx)).rcb
  if s.ckptPoisoned tm then s.endDomain rcb
  else
    let s := s.restorePair tm tr
    let s := s.updTeam tm fun t => { t with retries := 0, halted := false, redeliver := false, mism := none }
    let ls := (s.team tm).slotOf gidx
    if (s.group ls).canDeliver true then (s.pairDeliver ls).pairDeliver ((s.team tr).slotOf gidx) else s.endDomain rcb

/-- A MISMATCH HANDLED: counted, the copies stopped and restored, or the fault raised at the fourth (R368, R373). -/
def State.pairMismatch (s : State) (tm tr gidx : Nat) : State :=
  let cl := (s.team tm).core / 8
  let c := s.cluster cl
  let s := (s.setCluster cl { c with mismatch := min 0xFFFF (c.mismatch + 1) }).bucketEvent (clusterBucket cl) 16 cl false
  let s := (s.wholeLog tm).stopPair [tm, tr]
  let t := s.team tm
  if 3 ≤ t.retries || s.ckptPoisoned tm then s.haltPair tm gidx
  else
    let s := (s.restorePair tm tr).updTeam tm fun t => { t with retries := t.retries + 1, mism := none }
    let c := s.cluster cl
    s.setCluster cl { c with rollback := min 0xFFFF (c.rollback + 1) }

/-- PAIR_MISMATCH of a paired team (R368). -/
def execPairMismatch (tm : Nat) (s : State) : Out :=
  let t := s.team tm
  event s (s.mismatchDue tm) (match t.pair with
    | some tr => if t.redeliver then s.pairAnswered tm tr (t.mism.getD 0) else s.pairMismatch tm tr (t.mism.getD 0)
    | none => s)

/-! ### CONTAINED_DISCARD -/

/-- Where a struck team that is still contained is placed again: another cluster of its mask (R372). -/
def State.relaunchAt (s : State) (tm : Nat) : Option Nat :=
  let t := s.team tm
  let la := s.launch t.launch
  let r : LaunchRec := la.words
  s.findCore (s.fits r) la.rcb la.asid (s.rootAt la.desc) fun c => c == t.core / 8 || s.reservedFor t.launch c

/-- The team is discarded, not its fault domain ended (R372). -/
def Team.again (t : Team) : Bool := t.contained && decide (t.relaunch < 2)

/-- CONTAINED_DISCARD is due: the team is struck, and there is a place for it. -/
def State.discardDue (s : State) (tm : Nat) : Bool :=
  let t := s.team tm
  t.struck && (SMap.find s.teams tm).isSome && (!t.again || (s.relaunchAt tm).isSome)

/-- AN UNCORRECTABLE ERROR strikes the arrays of a contained team's cores, or its part of the commit buffer (R372, R373). -/
def State.arrayError (s : State) (tm : Nat) : State :=
  let cl := (s.team tm).core / 8
  if s.containedLaunch tm then (s.strike tm).bucketEvent (clusterBucket cl) 64 cl true else s

/-- The accesses of a discarded contained team write nothing more. -/
def Access.hollow (a : Access) : Access := { a with pieces := a.pieces.map fun p => { p with parts := [] } }

/-- A CONTAINED TEAM DISCARDED, its held stores dropped, and placed again from its start with the same coordinates (R372). -/
def State.relaunchTeam (s : State) (tm f : Nat) : State :=
  let t := s.team tm
  let la := s.launch t.launch
  let r : LaunchRec := la.words
  let gs := s.teamGroups tm
  let s := { s with accs := s.accs.map fun (a : Nat × Access) => if gs.contains (a.2.slot, a.2.uid) then (a.1, a.2.hollow) else a }
  let cl := t.core / 8
  let s := (s.discardTeam tm).bucketEvent (clusterBucket cl) 64 cl false
  let (tm', s) := s.placeTeam t.launch r (t.x.toNat + r.x * (t.y.toNat + r.y * t.z.toNat)) f
  let s := s.updTeam tm' fun u => { u with relaunch := t.relaunch + 1 }
  { s with launches := SMap.upd s.launches t.launch {} fun x => { x with next := la.next, since := la.since, reserved := la.reserved } }

/-- CONTAINED_DISCARD of a team (R372). -/
def execContainedDiscard (tm : Nat) (s : State) : Out :=
  event s (s.discardDue tm) (
    let t := s.team tm
    match (if t.again then s.relaunchAt tm else none) with
    | some f => s.relaunchTeam tm f
    | none => s.endDomain (s.launch t.launch).rcb)

end Sys2Proof.Machine
end

