-- ==== Sys2Proof/Machine/Dispatch.lean ====
section
/-! DEFINITION. exec: one arm for each row of the table of operations. -/

namespace Sys2Proof.Machine

/-- The meaning of an instruction or event. -/
def exec (i : Instr) (s : State) : Host.Outcome State Fault Refusal :=
  match i with
  | .nop f => Sys2Proof.Machine.execNop f s
  | .bra f => Sys2Proof.Machine.execBra f s
  | .bru f => Sys2Proof.Machine.execBru f s
  | .brx f => Sys2Proof.Machine.execBrx f s
  | .call f => Sys2Proof.Machine.execCall f s
  | .callx f => Sys2Proof.Machine.execCallx f s
  | .ret f => Sys2Proof.Machine.execRet f s
  | .exit f => Sys2Proof.Machine.execExit f s
  | .yield f => Sys2Proof.Machine.execYield f s
  | .voteMask f => Sys2Proof.Machine.execVoteMask f s
  | .voteSome f => Sys2Proof.Machine.execVoteSome f s
  | .voteEvery f => Sys2Proof.Machine.execVoteEvery f s
  | .voteSame f => Sys2Proof.Machine.execVoteSame f s
  | .voteCount f => Sys2Proof.Machine.execVoteCount f s
  | .shflLane f => Sys2Proof.Machine.execShflLane f s
  | .shflBack f => Sys2Proof.Machine.execShflBack f s
  | .shflFwd f => Sys2Proof.Machine.execShflFwd f s
  | .shflMix f => Sys2Proof.Machine.execShflMix f s
  | .shflRot f => Sys2Proof.Machine.execShflRot f s
  | .elect f => Sys2Proof.Machine.execElect f s
  | .electHi f => Sys2Proof.Machine.execElectHi f s
  | .matchPeers f => Sys2Proof.Machine.execMatchPeers f s
  | .matchUniform f => Sys2Proof.Machine.execMatchUniform f s
  | .cvset f => Sys2Proof.Machine.execCvset f s
  | .sign f => Sys2Proof.Machine.execSign f s
  | .cvwait f => Sys2Proof.Machine.execCvwait f s
  | .iadd f => Sys2Proof.Machine.execIadd f s
  | .isub f => Sys2Proof.Machine.execIsub f s
  | .iadd3 f => Sys2Proof.Machine.execIadd3 f s
  | .imul f => Sys2Proof.Machine.execImul f s
  | .imulh f => Sys2Proof.Machine.execImulh f s
  | .imad f => Sys2Proof.Machine.execImad f s
  | .imadWide f => Sys2Proof.Machine.execImadWide f s
  | .lea f => Sys2Proof.Machine.execLea f s
  | .imin f => Sys2Proof.Machine.execImin f s
  | .imax f => Sys2Proof.Machine.execImax f s
  | .iabsd f => Sys2Proof.Machine.execIabsd f s
  | .and f => Sys2Proof.Machine.execAnd f s
  | .or f => Sys2Proof.Machine.execOr f s
  | .xor f => Sys2Proof.Machine.execXor f s
  | .not f => Sys2Proof.Machine.execNot f s
  | .shl f => Sys2Proof.Machine.execShl f s
  | .shr f => Sys2Proof.Machine.execShr f s
  | .sar f => Sys2Proof.Machine.execSar f s
  | .rot f => Sys2Proof.Machine.execRot f s
  | .popc f => Sys2Proof.Machine.execPopc f s
  | .clz f => Sys2Proof.Machine.execClz f s
  | .bfe f => Sys2Proof.Machine.execBfe f s
  | .bfi f => Sys2Proof.Machine.execBfi f s
  | .prmt f => Sys2Proof.Machine.execPrmt f s
  | .isetp f => Sys2Proof.Machine.execIsetp f s
  | .sel f => Sys2Proof.Machine.execSel f s
  | .mov f => Sys2Proof.Machine.execMov f s
  | .movs f => Sys2Proof.Machine.execMovs f s
  | .bcast f => Sys2Proof.Machine.execBcast f s
  | .srd f => Sys2Proof.Machine.execSrd f s
  | .swr f => Sys2Proof.Machine.execSwr f s
  | .fadd f => Sys2Proof.Machine.execFadd f s
  | .fmul f => Sys2Proof.Machine.execFmul f s
  | .ffma f => Sys2Proof.Machine.execFfma f s
  | .fmin f => Sys2Proof.Machine.execFmin f s
  | .fmax f => Sys2Proof.Machine.execFmax f s
  | .fsetp f => Sys2Proof.Machine.execFsetp f s
  | .fclass f => Sys2Proof.Machine.execFclass f s
  | .frcp f => Sys2Proof.Machine.execFrcp f s
  | .frsq f => Sys2Proof.Machine.execFrsq f s
  | .fsqrt f => Sys2Proof.Machine.execFsqrt f s
  | .fexp2 f => Sys2Proof.Machine.execFexp2 f s
  | .flog2 f => Sys2Proof.Machine.execFlog2 f s
  | .fsin f => Sys2Proof.Machine.execFsin f s
  | .fcos f => Sys2Proof.Machine.execFcos f s
  | .dadd f => Sys2Proof.Machine.execDadd f s
  | .dmul f => Sys2Proof.Machine.execDmul f s
  | .dfma f => Sys2Proof.Machine.execDfma f s
  | .hadd2 f => Sys2Proof.Machine.execHadd2 f s
  | .hmul2 f => Sys2Proof.Machine.execHmul2 f s
  | .hfma2 f => Sys2Proof.Machine.execHfma2 f s
  | .fcvt f => Sys2Proof.Machine.execFcvt f s
  | .icvt f => Sys2Proof.Machine.execIcvt f s
  | .qunpk f => Sys2Proof.Machine.execQunpk f s
  | .f8pk f => Sys2Proof.Machine.execF8pk f s
  | .pack f => Sys2Proof.Machine.execPack f s
  | .ld f => Sys2Proof.Machine.execLd f s
  | .st f => Sys2Proof.Machine.execSt f s
  | .lds f => Sys2Proof.Machine.execLds f s
  | .sts f => Sys2Proof.Machine.execSts f s
  | .ldc f => Sys2Proof.Machine.execLdc f s
  | .prefetch f => Sys2Proof.Machine.execPrefetch f s
  | .cctl f => Sys2Proof.Machine.execCctl f s
  | .atom f => Sys2Proof.Machine.execAtom f s
  | .atomCas f => Sys2Proof.Machine.execAtomCas f s
  | .atoms f => Sys2Proof.Machine.execAtoms f s
  | .red f => Sys2Proof.Machine.execRed f s
  | .atomf f => Sys2Proof.Machine.execAtomf f s
  | .acp f => Sys2Proof.Machine.execAcp f s
  | .acopy f => Sys2Proof.Machine.execAcopy f s
  | .twaitany f => Sys2Proof.Machine.execTwaitany f s
  | .twaitall f => Sys2Proof.Machine.execTwaitall f s
  | .tffs f => Sys2Proof.Machine.execTffs f s
  | .fissue f => Sys2Proof.Machine.execFissue f s
  | .fwait f => Sys2Proof.Machine.execFwait f s
  | .fence f => Sys2Proof.Machine.execFence f s
  | .bar f => Sys2Proof.Machine.execBar f s
  | .barG f => Sys2Proof.Machine.execBarG f s
  | .barNamed f => Sys2Proof.Machine.execBarNamed f s
  | .barrive f => Sys2Proof.Machine.execBarrive f s
  | .barwait f => Sys2Proof.Machine.execBarwait f s
  | .arrive f => Sys2Proof.Machine.execArrive f s
  | .wait f => Sys2Proof.Machine.execWait f s
  | .nsleep f => Sys2Proof.Machine.execNsleep f s
  | .mma f => Sys2Proof.Machine.execMma f s
  | .mzero f => Sys2Proof.Machine.execMzero f s
  | .mld f => Sys2Proof.Machine.execMld f s
  | .mst f => Sys2Proof.Machine.execMst f s
  | .mrd f => Sys2Proof.Machine.execMrd f s
  | .mwr f => Sys2Proof.Machine.execMwr f s
  | .mcvt f => Sys2Proof.Machine.execMcvt f s
  | .mofence f => Sys2Proof.Machine.execMofence f s
  | .mwait f => Sys2Proof.Machine.execMwait f s
  | .mdrain f => Sys2Proof.Machine.execMdrain f s
  | .mfill f => Sys2Proof.Machine.execMfill f s
  | .mresume f => Sys2Proof.Machine.execMresume f s
  | .tspawn f => Sys2Proof.Machine.execTspawn f s
  | .tarm f => Sys2Proof.Machine.execTarm f s
  | .tdec f => Sys2Proof.Machine.execTdec f s
  | .tdone f => Sys2Proof.Machine.execTdone f s
  | .tlaunch f => Sys2Proof.Machine.execTlaunch f s
  | .tget f => Sys2Proof.Machine.execTget f s
  | .scall f => Sys2Proof.Machine.execScall f s
  | .trap f => Sys2Proof.Machine.execTrap f s
  | .bkpt f => Sys2Proof.Machine.execBkpt f s
  | .uiret f => Sys2Proof.Machine.execUiret f s
  | .uimask f => Sys2Proof.Machine.execUimask f s
  | .npbegin f => Sys2Proof.Machine.execNpbegin f s
  | .npend f => Sys2Proof.Machine.execNpend f s
  | .grow f => Sys2Proof.Machine.execGrow f s
  | .carve f => Sys2Proof.Machine.execCarve f s
  | .ckpt f => Sys2Proof.Machine.execCkpt f s
  | .tstampr f => Sys2Proof.Machine.execTstampr f s
  | .gsave f => Sys2Proof.Machine.execGsave f s
  | .grest f => Sys2Proof.Machine.execGrest f s
  | .zmsgLaunch h shard pa => Sys2Proof.Machine.execZmsgLaunch h shard pa s
  | .registerWrite a r v => Sys2Proof.Machine.execRegisterWrite a r v s
  | .homeRead q => Sys2Proof.Machine.execHomeRead q s
  | .homeWrite q => Sys2Proof.Machine.execHomeWrite q s
  | .homeAtomic q => Sys2Proof.Machine.execHomeAtomic q s
  | .ringStallRelease home => Sys2Proof.Machine.execRingStallRelease home s
  | .homeLineFill pa bank e => Sys2Proof.Machine.execHomeLineFill pa bank e s
  | .leakyBucketLeak => Sys2Proof.Machine.execLeakyBucketLeak s
  | .loadResponse acc => Sys2Proof.Machine.execLoadResponse acc s
  | .scratchpadArbitration core corr errs => Sys2Proof.Machine.execScratchpadArbitration core corr errs s
  | .fwinDropComplete n => Sys2Proof.Machine.execFwinDropComplete n s
  | .waitCheck slot => Sys2Proof.Machine.execWaitCheck slot s
  | .wakeArrival k => Sys2Proof.Machine.execWakeArrival k s
  | .monitorTimeout sp home idx => Sys2Proof.Machine.execMonitorTimeout sp home idx s
  | .waitWithdraw slot => Sys2Proof.Machine.execWaitWithdraw slot s
  | .nsleepExpiry slot => Sys2Proof.Machine.execNsleepExpiry slot s
  | .clockGate core => Sys2Proof.Machine.execClockGate core s
  | .serviceArmCheck idx => Sys2Proof.Machine.execServiceArmCheck idx s
  | .missMergeAdmit cl => Sys2Proof.Machine.execMissMergeAdmit cl s
  | .walkStep cl asid page => Sys2Proof.Machine.execWalkStep cl asid page s
  | .firstTouchCasResult cl asid page => Sys2Proof.Machine.execFirstTouchCasResult cl asid page s
  | .shadowAdd idx => Sys2Proof.Machine.execShadowAdd idx s
  | .shootdownComplete c t => Sys2Proof.Machine.execShootdownComplete c t s
  | .faultQueueAdmit cl => Sys2Proof.Machine.execFaultQueueAdmit cl s
  | .fltackRetry a r v => Sys2Proof.Machine.execFltackRetry a r v s
  | .fltackDeliver a r v => Sys2Proof.Machine.execFltackDeliver a r v s
  | .memcapLowerSettle => Sys2Proof.Machine.execMemcapLowerSettle s
  | .mphaseGo a r v => Sys2Proof.Machine.execMphaseGo a r v s
  | .migrationEnterDone => Sys2Proof.Machine.execMigrationEnterDone s
  | .migrateGranule => Sys2Proof.Machine.execMigrateGranule s
  | .granuleDrained failed => Sys2Proof.Machine.execGranuleDrained failed s
  | .granuleHandover => Sys2Proof.Machine.execGranuleHandover s
  | .migrationIdleExpiry => Sys2Proof.Machine.execMigrationIdleExpiry s
  | .migrationCloseDone => Sys2Proof.Machine.execMigrationCloseDone s
  | .movedReplay acc idx => Sys2Proof.Machine.execMovedReplay acc idx s
  | .issueSelect p => Sys2Proof.Machine.execIssueSelect p s
  | .runEnd slot => Sys2Proof.Machine.execRunEnd slot s
  | .runmaxMarker slot => Sys2Proof.Machine.execRunmaxMarker slot s
  | .resultsDrained slot => Sys2Proof.Machine.execResultsDrained slot s
  | .saveRoutineStart slot => Sys2Proof.Machine.execSaveRoutineStart slot s
  | .teamPlace restore id => Sys2Proof.Machine.execTeamPlace restore id s
  | .launchReserve la => Sys2Proof.Machine.execLaunchReserve la s
  | .teamRetire tm => Sys2Proof.Machine.execTeamRetire tm s
  | .taskServerRequest cl rcb => Sys2Proof.Machine.execTaskServerRequest cl rcb s
  | .nopreemptOverrun slot => Sys2Proof.Machine.execNopreemptOverrun slot s
  | .growGrant core => Sys2Proof.Machine.execGrowGrant core s
  | .growTimeout slot => Sys2Proof.Machine.execGrowTimeout slot s
  | .cvTimeout tm n => Sys2Proof.Machine.execCvTimeout tm n s
  | .copyPiece id idx data st => Sys2Proof.Machine.execCopyPiece id idx data st s
  | .copyComplete id => Sys2Proof.Machine.execCopyComplete id s
  | .atomfForward acc l => Sys2Proof.Machine.execAtomfForward acc l s
  | .fenceTokenComplete slot tok => Sys2Proof.Machine.execFenceTokenComplete slot tok s
  | .matrixOpStart core => Sys2Proof.Machine.execMatrixOpStart core s
  | .mmaRow core => Sys2Proof.Machine.execMmaRow core s
  | .tileOpComplete core id => Sys2Proof.Machine.execTileOpComplete core id s
  | .counterArm id => Sys2Proof.Machine.execCounterArm id s
  | .counterDecrement id => Sys2Proof.Machine.execCounterDecrement id s
  | .launchPortLaunch a r v => Sys2Proof.Machine.execLaunchPortLaunch a r v s
  | .preqWrite a r v => Sys2Proof.Machine.execPreqWrite a r v s
  | .callSlotAssign cl => Sys2Proof.Machine.execCallSlotAssign cl s
  | .callReplyResume cl k => Sys2Proof.Machine.execCallReplyResume cl k s
  | .memAlloc cl k l base => Sys2Proof.Machine.execMemAlloc cl k l base s
  | .memInfo cl k l => Sys2Proof.Machine.execMemInfo cl k l s
  | .mailboxSend sender shard ty sq body => Sys2Proof.Machine.execMailboxSend sender shard ty sq body s
  | .mailboxReceive shard => Sys2Proof.Machine.execMailboxReceive shard s
  | .pairScbCompare tm gidx => Sys2Proof.Machine.execPairScbCompare tm gidx s
  | .pairSideEffect tm gidx => Sys2Proof.Machine.execPairSideEffect tm gidx s
  | .teamCheckpoint tm => Sys2Proof.Machine.execTeamCheckpoint tm s
  | .pairMismatch tm => Sys2Proof.Machine.execPairMismatch tm s
  | .pairinjArm a r v => Sys2Proof.Machine.execPairinjArm a r v s
  | .containedDiscard tm => Sys2Proof.Machine.execContainedDiscard tm s
  | .heartbeatSend => Sys2Proof.Machine.execHeartbeatSend s
  | .heartbeatTimeout k => Sys2Proof.Machine.execHeartbeatTimeout k s
  | .doorbellDeliver c => Sys2Proof.Machine.execDoorbellDeliver c s
  | .regionTimerFire rcb idx => Sys2Proof.Machine.execRegionTimerFire rcb idx s
  | .domainResetComplete d => Sys2Proof.Machine.execDomainResetComplete d s
  | .packageReset => Sys2Proof.Machine.execPackageReset s
  | .hbmTrainingComplete k ok => Sys2Proof.Machine.execHbmTrainingComplete k ok s
  | .bootstatStageWrite a r v => Sys2Proof.Machine.execBootstatStageWrite a r v s
  | .bootstatOkWrite a r v => Sys2Proof.Machine.execBootstatOkWrite a r v s
  | .measure h => Sys2Proof.Machine.execMeasure h s
  | .attest nonce => Sys2Proof.Machine.execAttest nonce s
  | .ccbootRun a r v => Sys2Proof.Machine.execCcbootRun a r v s
  | .zmsgMsgSend h shard pa => Sys2Proof.Machine.execZmsgMsgSend h shard pa s
  | .parityRowRecompute core tm row g => Sys2Proof.Machine.execParityRowRecompute core tm row g s
  | .fwinEnable a r v => Sys2Proof.Machine.execFwinEnable a r v s
  | .fwinDisable a r v => Sys2Proof.Machine.execFwinDisable a r v s
  | .peerRequest p k pa n data op ty => Sys2Proof.Machine.execPeerRequest p k pa n data op ty s
  | .grptrHeadWrite a r v => Sys2Proof.Machine.execGrptrHeadWrite a r v s
  | .glcmdWake a r v => Sys2Proof.Machine.execGlcmdWake a r v s
  | .glcmdTimeout a r v => Sys2Proof.Machine.execGlcmdTimeout a r v s
  | .glcmdRestart a r v => Sys2Proof.Machine.execGlcmdRestart a r v s
  | .monarmArm a r v => Sys2Proof.Machine.execMonarmArm a r v s
  | .monarmDisarm a r v => Sys2Proof.Machine.execMonarmDisarm a r v s
  | .tlbinvAll a r v => Sys2Proof.Machine.execTlbinvAll a r v s
  | .tlbinvAsid a r v => Sys2Proof.Machine.execTlbinvAsid a r v s
  | .tlbinvPage a r v => Sys2Proof.Machine.execTlbinvPage a r v s
  | .fltackEndDomain a r v => Sys2Proof.Machine.execFltackEndDomain a r v s
  | .fqptrHeadWrite a r v => Sys2Proof.Machine.execFqptrHeadWrite a r v s
  | .memcapRaise a r v => Sys2Proof.Machine.execMemcapRaise a r v s
  | .memcapLower a r v => Sys2Proof.Machine.execMemcapLower a r v s
  | .stackmapRetireWrite a r v => Sys2Proof.Machine.execStackmapRetireWrite a r v s
  | .migwordWrite a r v => Sys2Proof.Machine.execMigwordWrite a r v s
  | .stackDead k => Sys2Proof.Machine.execStackDead k s
  | .launchPortRestore a r v => Sys2Proof.Machine.execLaunchPortRestore a r v s
  | .uisendWrite a r v => Sys2Proof.Machine.execUisendWrite a r v s
  | .mchkRead h m n => Sys2Proof.Machine.execMchkRead h m n s
  | .contextWindowAccess c k r => Sys2Proof.Machine.execContextWindowAccess c k r s
  | .callPageAccess k r => Sys2Proof.Machine.execCallPageAccess k r s
  | .callStatus cl k l oldest => Sys2Proof.Machine.execCallStatus cl k l oldest s
  | .memFree cl k l => Sys2Proof.Machine.execMemFree cl k l s
  | .memProtect cl k l st => Sys2Proof.Machine.execMemProtect cl k l st s
  | .fileRead cl k l st data => Sys2Proof.Machine.execFileRead cl k l st data s
  | .fileWrite cl k l st n => Sys2Proof.Machine.execFileWrite cl k l st n s
  | .fileSync cl k l st => Sys2Proof.Machine.execFileSync cl k l st s
  | .udpSend cl k l st n => Sys2Proof.Machine.execUdpSend cl k l st n s
  | .udpRecv cl k l st data => Sys2Proof.Machine.execUdpRecv cl k l st data s
  | .rdgSend cl k l st n => Sys2Proof.Machine.execRdgSend cl k l st n s
  | .rdgRecv cl k l st data => Sys2Proof.Machine.execRdgRecv cl k l st data s
  | .ctrlNotify cl k l st => Sys2Proof.Machine.execCtrlNotify cl k l st s
  | .uiSend cl k l => Sys2Proof.Machine.execUiSend cl k l s
  | .handleInfo cl k l st data => Sys2Proof.Machine.execHandleInfo cl k l st data s
  | .svcqResume cl k l => Sys2Proof.Machine.execSvcqResume cl k l s
  | .shardRestart cl => Sys2Proof.Machine.execShardRestart cl s
  | .linkFlitReceive k lane seq c f => Sys2Proof.Machine.execLinkFlitReceive k lane seq c f s
  | .linkRetrain k rs => Sys2Proof.Machine.execLinkRetrain k rs s
  | .linkRetrainDone k ok rs => Sys2Proof.Machine.execLinkRetrainDone k ok rs s
  | .heartbeatReceive p pos => Sys2Proof.Machine.execHeartbeatReceive p pos s
  | .peerwinFencedClear a r v => Sys2Proof.Machine.execPeerwinFencedClear a r v s
  | .msiDoorbell c x => Sys2Proof.Machine.execMsiDoorbell c x s
  | .pcieCompletion q k data => Sys2Proof.Machine.execPcieCompletion q k data s
  | .pcieCompletionTimeout q k => Sys2Proof.Machine.execPcieCompletionTimeout q k s
  | .pcieInboundWrite f pa data fault => Sys2Proof.Machine.execPcieInboundWrite f pa data fault s
  | .pcieInboundRead port pa n fault => Sys2Proof.Machine.execPcieInboundRead port pa n fault s
  | .nvmeCompletion q pa n => Sys2Proof.Machine.execNvmeCompletion q pa n s
  | .ethFrameReceive port tuple hash pa data cw => Sys2Proof.Machine.execEthFrameReceive port tuple hash pa data cw s
  | .pmsgSend a r v => Sys2Proof.Machine.execPmsgSend a r v s
  | .peerMessageReceive p shard src pos w0 body => Sys2Proof.Machine.execPeerMessageReceive p shard src pos w0 body s
  | .pmsgAck p => Sys2Proof.Machine.execPmsgAck p s
  | .tmrsyncLoad a r v => Sys2Proof.Machine.execTmrsyncLoad a r v s
  | .domainReset a r v => Sys2Proof.Machine.execDomainReset a r v s
  | .throttleStep power temps => Sys2Proof.Machine.execThrottleStep power temps s
  | .thermalShutdown d temp => Sys2Proof.Machine.execThermalShutdown d temp s
  | .clpwrWrite a r v => Sys2Proof.Machine.execClpwrWrite a r v s
  | .linkTrained k => Sys2Proof.Machine.execLinkTrained k s
  | .aplicWiredSource source level file id => Sys2Proof.Machine.execAplicWiredSource source level file id s
  | .inFieldTest cl w => Sys2Proof.Machine.execInFieldTest cl w s

end Sys2Proof.Machine
end

