-- ==== Sys2Proof/Machine/Schedule.lean ====
section
/-! DEFINITION. What moves next when the agenda names nothing (log 4): the events that may be due, in the order in which the model tries them, and the placing of one instruction before the issue stage. -/

namespace Sys2Proof.Machine

open Sys2Proof

/-! ### The events that agents make of themselves -/

/-- The slots that hold a group. -/
def State.slots (s : State) : List Nat := s.groups.map Prod.fst

/-- The partitions that hold a group. -/
def State.partsUsed (s : State) : List Nat := (s.slots.map (· / 4)).eraseDups

/-- The cores whose state is not that of reset. -/
def State.coresUsed (s : State) : List Nat := s.cores.map Prod.fst

/-- The clusters whose state is not that of reset. -/
def State.clustersUsed (s : State) : List Nat := s.clusters.map Prod.fst

/-- An event where it is due. -/
def when_ (b : Bool) (i : Instr) : List Instr := if b then [i] else []

/-- Walks, first touch, shadow adds and shootdowns. -/
def State.walkEvents (s : State) : List Instr :=
  s.clustersUsed.flatMap (fun cl =>
    when_ (s.cluster cl).admitDue (.missMergeAdmit cl) ++
    (s.cluster cl).walks.flatMap fun w =>
      when_ (s.casDue cl w.asid w.page).isSome (.firstTouchCasResult cl w.asid w.page) ++ when_ (s.walkDue cl w.asid w.page).isSome (.walkStep cl w.asid w.page)) ++
  (List.range s.shadows.length).map Instr.shadowAdd ++ s.shoots.flatMap fun d => when_ (s.shootDue d.core d.token).isSome (.shootdownComplete d.core d.token)

/-- Events that end or start runs, and routines. -/
def State.runEvents (s : State) : List Instr :=
  s.slots.flatMap fun k => when_ (s.runEndDue k) (.runEnd k) ++ when_ (s.runmaxDue k) (.runmaxMarker k) ++ when_ (s.drainedDue k) (.resultsDrained k) ++
    when_ (s.npDue k) (.nopreemptOverrun k) ++ when_ (s.routineDue k) (.saveRoutineStart k)

/-- Selections that can be made. -/
def State.selectEvents (s : State) : List Instr := (s.partsUsed.filter fun p => (s.selectable p).isSome).map Instr.issueSelect

/-- The event of a request of a group at its home. -/
def AccKind.event (k : AccKind) (id i : Nat) : Instr :=
  match k with
  | .store => .homeWrite (.piece id i)
  | .atomic _ _ => .homeAtomic (.piece id i)
  | _ => .homeRead (.piece id i)

/-- An earlier access of the group, of whichever lanes, to a byte of the request is not performed. R58 orders only the accesses of one thread;
among those of several the model's own order is that of the group (log 4). -/
def State.groupEarlier (s : State) (id : Nat) (a : Access) (p : Piece) : Bool :=
  s.accs.any fun b =>
    decide (b.1 < id) && b.2.slot == a.slot && b.2.uid == a.uid && b.2.space == a.space && b.2.kind != .prefetch &&
    b.2.pieces.any fun q => !q.done && q.overlaps p

/-- The events of one access: its response, its requests at their homes, requests whose granule has moved, the words it forwards. -/
def State.accEvents (s : State) (a : Nat × Access) : List Instr :=
  when_ (s.responseDue a.1).isSome (.loadResponse a.1) ++
  (List.range a.2.pieces.length).flatMap (fun i =>
    (match s.pieceOpen a.1 i with
      | some (_, p) => when_ (a.2.space == .global && p.isLocal && !s.groupEarlier a.1 a.2 p) (a.2.kind.event a.1 i)
      | none => []) ++
    (match a.2.pieces[i]? with
      | some p => when_ p.moved (.movedReplay a.1 i)
      | none => [])) ++
  (lanesIn a.2.lanes).flatMap fun l => when_ (a.2.fwd.isSome && (s.forwardDue a.1 l).isSome) (.atomfForward a.1 l)

/-- What a ring had held, and bank arbiters. -/
def State.memoryEvents (s : State) : List Instr :=
  s.slices.flatMap (fun k => when_ ((s.ringNext k.1).isSome || (!k.2.owed.isEmpty && !k.2.ringFull)) (.ringStallRelease k.1)) ++
  ((s.slots.map slotCore).eraseDups.filter s.arbDue).map fun k => .scratchpadArbitration k 0 []

/-- Waits, wakes, time-outs, fences, and service arms. -/
def State.waitEvents (s : State) : List Instr :=
  (List.range s.wakes.length).map Instr.wakeArrival ++
  s.slots.flatMap (fun k => when_ (s.waitDue k).isSome (.waitCheck k) ++ when_ (s.withdrawDue k) (.waitWithdraw k) ++
    when_ (s.sleepOver k).isSome (.nsleepExpiry k) ++
    (s.prog k).ftok.flatMap fun t => when_ (s.tokenDue k t.1) (.fenceTokenComplete k t.1)) ++
  (List.range s.watch.length).flatMap (fun i => when_ (s.lateWatch i).isSome (.monitorTimeout true 0 i)) ++
  s.slices.flatMap (fun k => (List.range k.2.mon.length).flatMap fun i => when_ (s.lateEntry k.1 i).isSome (.monitorTimeout false k.1 i)) ++
  (List.range s.armReqs.length).flatMap fun i => when_ (s.armDue i).isSome (.serviceArmCheck i)

/-- Copies, counters, and the matrix units. -/
def State.engineEvents (s : State) : List Instr :=
  s.copies.flatMap (fun c => when_ (s.copyOver c.1).isSome (.copyComplete c.1) ++
    (List.range c.2.pieces.length).flatMap fun i => match s.copyDue c.1 i with
      | some (k, p) => when_ ((k.nextEnd p).any fun e => pRange e.1 == .hbm) (.copyPiece c.1 i 0 0)
      | none => []) ++
  s.arms.flatMap (fun a => when_ (s.armReady a.1).isSome (.counterArm a.1)) ++ s.decs.flatMap (fun d => when_ (s.decReady d.1).isSome (.counterDecrement d.1)) ++
  s.cores.flatMap fun k => k.2.mq.flatMap (fun o => when_ (s.tileDue k.1 o.id).isSome (.tileOpComplete k.1 o.id)) ++
    when_ (s.rowDue k.1).isSome (.mmaRow k.1) ++ when_ (s.startDue k.1).isSome (.matrixOpStart k.1)

/-- Pairs and contained teams. -/
def State.pairEvents (s : State) : List Instr :=
  s.teams.flatMap fun t =>
    when_ (s.mismatchDue t.1) (.pairMismatch t.1) ++ when_ (s.discardDue t.1) (.containedDiscard t.1) ++
    (if t.2.paired && !t.2.trail then
      t.2.slots.flatMap (fun p =>
        when_ (s.scbNext t.1 p.1).isSome (.pairScbCompare t.1 p.1) ++
        (match s.pairSlots t.1 p.1 with
          | some (ls, ts) => when_ ((s.pairEntryDue ls ts).isSome || s.sideDue t.1 ls ts) (.pairSideEffect t.1 p.1)
          | none => []))
    else []) ++ when_ (s.ckptDue t.1) (.teamCheckpoint t.1)

/-- Teams, calls, fault records, time-outs of the sync unit, and the clocks of cores. -/
def State.teamEvents (s : State) : List Instr :=
  (match s.nextPlaced with
    | some (.launch id, _) => [.teamPlace false id]
    | some (.saved a, _) => [.teamPlace true a]
    | none => []) ++
  s.teams.flatMap (fun t => when_ (s.retireDue t.1) (.teamRetire t.1) ++ (List.range 16).flatMap fun n => when_ (s.cvLate t.1 n) (.cvTimeout t.1 n)) ++
  s.launches.flatMap (fun l => when_ (s.reserveDue l.1) (.launchReserve l.1)) ++
  s.coresUsed.flatMap (fun k => when_ (s.growNext k).isSome (.growGrant k) ++ when_ (s.gateDue k) (.clockGate k)) ++
  s.slots.flatMap (fun k => when_ (s.growLate k) (.growTimeout k)) ++
  s.clustersUsed.flatMap fun cl =>
    when_ (s.cluster cl).admits.isSome (.faultQueueAdmit cl) ++ when_ (s.callReady cl).isSome (.callSlotAssign cl) ++
    (s.cluster cl).calls.flatMap (fun x => when_ (s.replyDue cl x.1).isSome (.callReplyResume cl x.1)) ++
    ((s.cluster cl).ready.map (·.rcb)).eraseDups.flatMap fun r => when_ (s.serverDue cl r) (.taskServerRequest cl r)

/-- The hub: timers, mailboxes, windows, granules, resets, leaks, heartbeats. -/
def State.hubEvents (s : State) : List Instr :=
  s.io.timers.flatMap (fun t => when_ (s.timerDue t.rcb t.idx).isSome (.regionTimerFire t.rcb t.idx)) ++
  (List.range 128).flatMap (fun c => when_ ((s.heldFor c).isSome && s.mailRoom c) (.doorbellDeliver c)) ++
  s.doms.flatMap (fun d => when_ d.2.busy (.domainResetComplete d.1)) ++ s.hub.fwin.flatMap (fun w => when_ w.2.busy (.fwinDropComplete w.1)) ++
  when_ (s.hub.lowering && !s.oldRouted) .memcapLowerSettle ++ when_ (s.hub.mstate == 1) .migrationEnterDone ++
  when_ (s.hub.mstate == 2 && s.hub.idleUntil != 0 && decide (s.hub.idleUntil ≤ s.cycle)) .migrationIdleExpiry ++
  when_ (s.hub.mstate == 3) .migrationCloseDone ++ when_ s.granuleDue .migrateGranule ++
  when_ s.drainGranule.isSome (.granuleDrained []) ++ when_ s.handoverDue.isSome .granuleHandover ++ when_ s.leakDue .leakyBucketLeak ++ when_ s.beatDue .heartbeatSend ++
  (List.range 3).flatMap fun k => when_ (s.peerSilent k) (.heartbeatTimeout k)

/-- An event that does something. -/
def moves (run : Instr → State → Out) (s : State) (i : Instr) : Bool :=
  match run i s with
  | .next t => t != s
  | _ => false

/-- The event that agents make of themselves next: the first that does something, in the order in which they are tried. -/
def State.nextEvent (run : Instr → State → Out) (s : State) : Option Instr :=
  let m := moves run s
  s.walkEvents.find? m <|> s.runEvents.find? m <|> s.waitEvents.find? m <|> (s.accs.findSome? fun a => (s.accEvents a).find? m) <|>
  s.memoryEvents.find? m <|> s.engineEvents.find? m <|> s.pairEvents.find? m <|> s.teamEvents.find? m <|> s.selectEvents.find? m

/-- The hub has its turn every second nanosecond, so that a migration and the groups go on beside each other. -/
def State.hubTurn (s : State) : Bool := s.cycle / 3 % 2 == 0

/-- An event of the hub, in its turn. -/
def State.nextHub (run : Instr → State → Out) (s : State) : Option Instr := if s.hubTurn then s.hubEvents.find? (moves run s) else none

/-- The slots whose group can issue, in an order that turns with time, so that none waits for ever behind another. -/
def State.issuers (s : State) : List Nat :=
  let l := s.slots.filter fun k => (s.group k).canIssue
  let n := s.cycle / 3 % l.length
  l.drop n ++ l.take n

/-- An issue stage whose instruction does not only wait. -/
def issues (run : Instr → State → Out) (s : State) (slot : Nat) : Bool :=
  match s.fetch slot with
  | .instr i t => (match run i t with
    | .next u => u != t
    | _ => true)
  | .stop t => t != s

/-- What moves next: what the agenda names, else an event that is due, else one of the hub or an issue, after which time passes, else a nanosecond
of time. `run` is the meaning of instructions. -/
def State.nextAction (run : Instr → State → Out) (s : State) : Action × State :=
  match s.agenda with
  | a :: as => (a, { s with agenda := as })
  | [] =>
    match s.nextEvent run with
    | some e => (.event e, s)
    | none =>
      match s.nextHub run with
      | some e => (.event e, { s with agenda := [.tick 3 1] })
      | none =>
        match s.issuers.find? (issues run s) with
        | some k => (.issue k, { s with agenda := [.tick 3 1] })
        | none => (.tick 3 1, s)

/-- Time passes: tasks that arrived in the cycle that ends go to groups that wait (R319, R407); then cycles of the arithmetic clock and nanoseconds of TSTAMP
(00 R2, 01 R29). -/
def State.tick (s : State) (cycles ns : Nat) : State :=
  let s := s.dispatchAll (s.cycle + 1)
  { s with cycle := s.cycle + cycles, tstamp := s.tstamp + BitVec.ofNat 64 ns }

/-! ### An instruction placed before the issue stage -/

/-- The address at which an instruction is placed. -/
def placeAddr : Nat := 2 ^ 32

/-- The translation of that address. -/
def placeEntry : TlbEntry :=
  { asid := 0, va := placeAddr, size := 16, frame := placeAddr, ty := 1, ex := true, wr := true, rd := true, seed := 0, hot := 0 }

/-- The group that issues the instruction: every lane at its address, with every register block (log 13). -/
def Group.placed (g : Group) : Group :=
  { g with st := .issuing, vblk := 8, sblk := 4, sids := [0, 1, 2, 3], pc := lanesOf (BitVec.ofNat 64 placeAddr), exited := 0, callParked := 0,
           batch := ~~~ 0, count := 0, ended := false, haz := [], blocks := [], midRun := none, asid := 0, routine := false }

/-- The words of an instruction placed in memory, with all that its fetch by slot 0 takes: the group, its partition's last-result file, the
translation, an instruction cache that does not hold the line, a home that holds it as a store left it, and MEMCAP above it. -/
def State.placeInstr (s : State) (bitsOf : Nat) : State :=
  let s := { s with mem := Memory.write s.mem placeAddr bitsOf 20, lines := SMap.set s.lines (placeAddr / 128) { valid := true, dirty := true } }
  let k := s.core 0
  let s := s.setCore 0 { k with
    utlb := placeEntry :: k.utlb.filter fun e => !e.hit 0 placeAddr
    icache := SMap.del k.icache (placeAddr / 128) }
  let p := s.part 0
  let s := s.setPart 0 { p with l0 := LEntry.undef, l1 := LEntry.undef }
  let s := s.updGroup 0 Group.placed
  { s with agenda := [.issue 0], stopped := false, hub := { s.hub with memcap := max s.hub.memcap (2 * placeAddr), granule := none } }

end Sys2Proof.Machine
end

