-- ==== Sys2Proof/Machine/Step.lean ====
section
/-! DEFINITION. One step of the package: the next action of the agenda, or of the default order, is made. -/

namespace Sys2Proof.Machine

open Sys2Proof

/-- The issue stage of a slot issues one instruction (R163): fetched, decoded, performed. -/
def issueSlot (slot : Nat) (s : State) : Host.Outcome State Fault Refusal :=
  if (s.group slot).canIssue then
    match s.fetch slot with
    | .instr i t => exec i t
    | .stop t => .next t
  else .next s

/-- An action of the agenda. An instruction is no event: it is issued by a slot. -/
def act (a : Action) (s : State) : Host.Outcome State Fault Refusal :=
  match a with
  | .event i => if i.spec.isSome then .next s else exec i s
  | .issue slot => issueSlot slot s
  | .tick c n => .next (s.tick c n)
  | .evict pa => .next (s.evictHome pa)
  | .l1Evict c pa => .next (s.evictL1 c pa)
  | .l1Parity c pa => .next (s.l1Parity c pa)
  | .arrayError tm => .next (s.arrayError tm)

/-- One step. -/
def step (s : State) : Host.Outcome State Fault Refusal :=
  if s.stopped then .fault .stopped
  else
    let n := s.nextAction exec
    act n.1 n.2

/-- The state with an instruction of `nbits` given bits, all later bits 0, placed where the next step fetches and runs it. -/
def State.withFetchWord (s : State) (nbits w : Nat) : State := s.placeInstr (w % 2 ^ nbits)

end Sys2Proof.Machine
end

