-- ==== Sys2Proof/Safety.lean ====
section
/-! DEFINITION. The terms in which claims are stated: that an instruction of Oropra meets what is asked of it before it has its effect, what it computes and leaves alone, and the canonical form of the memory. -/

namespace Sys2Proof.Machine

open Sys2Proof

/-! ### The invariant of the memory -/

/-- The byte store is in canonical form: addresses ascending, no byte listed that reads as an unlisted one does. -/
def State.memOk (s : State) : Prop := Memory.wf s.mem = true

/-! ### An instruction of Oropra issues -/

/-- The context in which an Oropra instruction issues from the slot that issues; an event has none. -/
def State.ctxOf (s : State) (i : Instr) : Option Ctx :=
  match i.spec, i.enc with
  | some p, some e => some (mkCtx s s.cur p e)
  | _, _ => none

/-- A group whose instructions have their effect as they issue: it runs a save or restore routine, or its team is neither one of a
redundant pair (R363) nor contained (R370) nor struck (R372). -/
def State.alone (s : State) (g : Group) : Bool :=
  g.routine || (!(s.team g.team).struck && !(s.team g.team).paired && !(s.team g.team).contained)

/-- AN INSTRUCTION ISSUES: its group is in the issue stage (R163), its operands are in the group's allocation (R35, R180), its mode may run
it (R18), its operands are of the kinds that it asks for and its own condition of order 12 holds (R217), and no operand names a result that
has not returned (R213). -/
structure Issues (i : Instr) (own : Ctx → State → Option (BitVec 8)) (s : State) (c : Ctx) : Prop where
  ctx : s.ctxOf i = some c
  stage : c.g.canIssue = true
  alone : s.alone c.g = true
  alloc : c.e.allocOk c.g c.p = true
  mode : c.p.priv = true → c.priv = true
  kinds : c.e.kindsOk c.p = true
  own : own c s = none
  ready : c.interlocked = false

/-! ### What an instruction leaves -/

/-- The register numbers that name a register: v0 to v255, q0 to q7, the predicates, FSTAT, and the scalar registers. -/
def realReg (r : Nat) : Prop := r < 266 ∨ 1024 ≤ r

/-- A destination of `n` words from register `d` on holds word `k` of a lane: in the lanes of the mask, or, where the register is scalar, as
soon as the mask holds a lane. -/
def writesAt (d n : Nat) (m : LaneMask) (r : Nat) (l : Lane) : Prop :=
  d ≤ r ∧ r < d + n ∧ (laneIn m l = true ∨ (1024 ≤ d ∧ m ≠ 0))

/-- THE REGISTERS after an instruction with the result `x`: the destination holds it in the active lanes, a scalar one that of the lowest
active lane; every other register, and every inactive lane, is as it was; the flags are ORed into FSTAT (R191, R208). -/
structure Wrote (c : Ctx) (x : Lane → BitVec 128) (fl : Flags) (g h : Group) : Prop where
  dest : ∀ d, c.e.d.firstReg = some d → ∀ k l, k < wordsOf c.p.wd → writesAt d (wordsOf c.p.wd) c.act (d + k) l →
    h.raw (d + k) l = wordAt x k (if 1024 ≤ d then lowLane c.act else l)
  kept : ∀ r l, realReg r → r ≠ regF → (∀ d, c.e.d.firstReg = some d → ¬ writesAt d (wordsOf c.p.wd) c.act r l) → h.raw r l = g.raw r l
  flags : h.fstat = g.fstat ||| fl

/-- The registers are as they were. -/
def SameRegs (g h : Group) : Prop := (∀ r l, realReg r → h.raw r l = g.raw r l)

/-- THE PROGRAM COUNTERS after an instruction: the lanes of its batch go where it says, the others stay; the group has issued one more. -/
structure Steps (c : Ctx) (pcs : Lane → DWord) (g h : Group) : Prop where
  pc : ∀ l : Lane, h.pc[l] = if laneIn c.g.batch l then pcs l else g.pc[l]
  seq : h.seq = g.seq + 1
  count : h.count = g.count + 1

/-- A group apart from its registers and program counters, and from what issuing keeps of them. -/
def Group.apart (g : Group) : Group :=
  { g with
    v := [], s := [], q := [], pw := lanesOf 0, fstat := 0, haz := [], lvq := [], pc := lanesOf 0, lastRun := lanesOf 0
    seq := 0, count := 0, ended := false, batch := 0 }

/-- EVERYTHING ELSE STAYS after an instruction whose effect is on its own group: memory, every other group, the special registers and the
rest of its own, and the whole of the state but the last-result file of its partition. -/
structure Alone (c : Ctx) (s t : State) : Prop where
  mem : t.mem = s.mem
  others : ∀ k, k ≠ c.slot → t.group k = s.group k
  own : (t.group c.slot).apart = (s.group c.slot).apart
  parts : ∀ p, p ≠ slotPart c.slot → t.part p = s.part p
  rest : { t with groups := s.groups, parts := s.parts, freeCtr := s.freeCtr } = s

/-- AN INSTRUCTION THAT COMPUTES AND BRANCHES: the outcome is a next state, with the result in the destination, the flags raised, the program
counters where it says, and nothing else changed. -/
def ComputesTo (c : Ctx) (x : Lane → BitVec 128) (fl : Lane → Flags) (pcs : Lane → DWord) (s : State) (o : Out) : Prop :=
  ∃ t, o = .next t ∧ Wrote c x (orLanes c.act fl) (s.group c.slot) (t.group c.slot) ∧
    Steps c pcs (s.group c.slot) (t.group c.slot) ∧ Alone c s t

/-- AN INSTRUCTION THAT COMPUTES, its program counters past it. -/
def Computes (c : Ctx) (x : Lane → BitVec 128) (fl : Lane → Flags) (s : State) (o : Out) : Prop := ComputesTo c x fl (fun _ => c.next) s o

/-- AN INSTRUCTION WITH NO RESULT: the program counters go where it says and nothing else changes. -/
def Goes (c : Ctx) (pcs : Lane → DWord) (s : State) (o : Out) : Prop :=
  ∃ t, o = .next t ∧ SameRegs (s.group c.slot) (t.group c.slot) ∧ Steps c pcs (s.group c.slot) (t.group c.slot) ∧ Alone c s t

/-- AN INSTRUCTION WITH THE EFFECT `u`: it is issued in the state that its effect leaves, and the group goes to the next instruction. -/
def Acts (c : Ctx) (u : State) (o : Out) : Prop := Goes c (fun _ => c.next) u o

/-- AN INSTRUCTION THAT ENDS ITS RUN: it acts, and RUN_END is due. -/
def ActsAndEnds (c : Ctx) (u : State) (o : Out) : Prop :=
  ∃ t, o = .next t ∧ Acts c u (.next t) ∧ (t.group c.slot).ended = true

/-- AN INSTRUCTION WHOSE RESULT RETURNS LATER: it acts, and l0 of its partition waits for the result of number `id` (R213). -/
def ActsPending (c : Ctx) (id : Nat) (u : State) (o : Out) : Prop :=
  ∃ t, o = .next t ∧ Acts c u (.next t) ∧ (t.part (slotPart c.slot)).l0.pend = some id

/-- A lane's checks found nothing against it. -/
def LaneChk.good : LaneChk → Bool
  | .ok _ _ => true
  | _ => false

/-- THE LANES OF A MEMORY INSTRUCTION of `n` requests PASS: every lane's checks succeed, and its core has no more than 4096 requests outstanding with
them (R133, R271). -/
structure Passes (c : Ctx) (chk : Lane → LaneChk) (n : Nat) (s : State) : Prop where
  good : ∀ l, laneIn c.act l = true → (chk l).good = true
  room : s.requests c.core + n ≤ 4096

/-- The state in which the accesses of a memory instruction leave: its translations are in the micro-TLB and counted (R122, R126). -/
def Ctx.passed (c : Ctx) (chk : Lane → LaneChk) (s : State) : State :=
  (s.dropX c.cluster c.req).useTlbs c.core (laneEntries c.act chk)

/-- An exact integer limited to a type with CLAMP = 3 (R181, R243). -/
def limited (t : IntTy) (sat : Bool) (x : Int) : Int := if sat then min (max x t.lo) t.hi else x

/-- AN INTEGER INSTRUCTION (R243): the exact result of each lane, limited or reduced modulo 2^n, extended to 32 bits in the register (R180);
SAT where limiting changed it. -/
def ComputesInt (c : Ctx) (t : IntTy) (x : Lane → Int) (s : State) (o : Out) : Prop :=
  Computes c (fun l => t.reg ((limited t (c.e.clamp == 3) (x l)) % (2 ^ t.bits : Int)).toNat)
    (fun l => if limited t (c.e.clamp == 3) (x l) = x l then 0 else 0x20) s o

/-- AN INSTRUCTION WHOSE RESULT IS NAMED BIT BY BIT: bit `i` of the `n` bits of lane `l`. -/
def ComputesBits (c : Ctx) (n : Nat) (f : Lane → Nat → Bool) (s : State) (o : Out) : Prop :=
  Computes c (fun l => BitVec.ofNat 128 (bitsVal ((List.range n).map (f l)))) noFlags s o

/-- A FLOATING-POINT INSTRUCTION: a result and its flags in each lane (R187, R191). -/
def ComputesFloat (c : Ctx) (x : Lane → FRes) (s : State) (o : Out) : Prop :=
  Computes c (fun l => BitVec.ofNat 128 (x l).bits) (fun l => (x l).flags) s o

/-- AN INSTRUCTION WITH A UNIFORM RESULT: the same value in every active lane. -/
def ComputesUniform (c : Ctx) (x : DWord) (s : State) (o : Out) : Prop := Computes c (uniform x) noFlags s o

/-- THE PREDICATES after an instruction that writes predicate `n`: its bit in the active lanes; p7 is not written (R159, R224); every other
bit, register and inactive lane is as it was, and the flags are ORed into FSTAT. -/
structure WrotePred (c : Ctx) (n : Nat) (x : Lane → Bool) (fl : Flags) (g h : Group) : Prop where
  pred : ∀ (l : Lane) k, k < 8 → (h.pw[l]).getLsbD k = if k = n ∧ n ≠ 7 ∧ laneIn c.act l = true then x l else (g.pw[l]).getLsbD k
  kept : ∀ r l, realReg r → r ≠ regP → r ≠ regF → h.raw r l = g.raw r l
  flags : h.fstat = g.fstat ||| fl

/-- AN EVENT IS PERFORMED: its outcome is a next state of which the property holds. -/
def Gives (i : Instr) (s : State) (P : State → Prop) : Prop := ∃ t, exec i s = .next t ∧ P t

/-- LANES OF A CALL SLOT ARE ANSWERED (R348): each has its DONE bit, its STATUS and its VALUE in the call page. -/
def Answered (t : State) (cl k : Nat) (m : LaneMask) (st : Nat) (val : Lane → DWord) : Prop :=
  ∀ x : Lane, laneIn m x = true → ((t.cluster cl).doneBits k).getLsbD x.val = true ∧
    ((t.cluster cl).pw (callEntry k x.val + 40)).setWidth 32 = BitVec.ofNat 32 st ∧ (t.cluster cl).pw (callEntry k x.val + 32) = val x

/-- AN INSTRUCTION THAT WRITES A PREDICATE. -/
def ComputesPred (c : Ctx) (n : Nat) (x : Lane → Bool) (fl : Lane → Flags) (s : State) (o : Out) : Prop :=
  ∃ t, o = .next t ∧ WrotePred c n x (orLanes c.act fl) (s.group c.slot) (t.group c.slot) ∧
    Steps c (fun _ => c.next) (s.group c.slot) (t.group c.slot) ∧ Alone c s t

end Sys2Proof.Machine
end

