-- ==== Sys2Proof/Certificates/Slice0/Obligations.lean ====
section
/-! DEFINITION. The statements about this model for the provers: each formalises what a rule of the specification says, or follows from several. -/

open Sys2Proof Sys2Proof.Machine

/-! ### Encoding, decoding and one step -/

/-- R201 to R206: the words of a well-formed instruction decode to that instruction, with every operand and field, and leave what follows. -/
def Obligations.DecodeEncodeAgree : Prop :=
  ∀ (i : Instr) (rest : List Word), i.wf = true → i.enc.isSome = true → decode (encode i ++ rest) = .ok (i, rest)

/-- R201 to R206, R217: whatever words decode to an instruction, it is well formed and its encoding is those words: no bit of an encoding is ignored.
-/
def Obligations.EncodeDecodeAgree : Prop :=
  ∀ (ws rest : List Word) (i : Instr), decode ws = .ok (i, rest) → i.wf = true ∧ i.enc.isSome = true ∧ encode i ++ rest = ws

/-- The words that the specification writes out (10 Table 11, 11, 12 and 13) decode to the instructions that they stand for; a word of zeros is
unassigned (R216), and a word 2 with a reserved bit is refused (R217). -/
def Obligations.SpecWordsDecode : Prop :=
  (∃ f, decode [0x04288502, 0x04004108, 0x00007000] = .ok (.atom f, []) ∧ f.d = .s 16 ∧ f.a = .s 10 ∧ f.b = .one ∧ f.func = 0 ∧ f.ty = 7) ∧
  (∃ f, decode [0x0410348A, 0x06202000, 0x10000000] = .ok (.st f, []) ∧ f.d = .v 6 ∧ f.a = .v 4 ∧ f.b = .s 2 ∧ f.c = .imm 0x40 ∧ f.ord = 2) ∧
  (∃ f, decode [0xD6205488] = .ok (.st f, []) ∧ f.form = .base ∧ f.d = .v 10 ∧ f.a = .v 8) ∧
  (∃ f, decode [0x1820F682, 0x04012108, 0x00020000] = .ok (.mma f, []) ∧ f.d = .s 30 ∧ f.a = .s 8 ∧ f.b = .s 12 ∧ f.c = .one ∧ f.func = 2) ∧
  (∃ f, decode [0x005C09EA, 0x04004100, 0x00010000] = .ok (.isetp f, []) ∧ f.a = .s 23 ∧ f.b = .zero ∧ f.func = 1 ∧ f.sw = false) ∧
  (∃ f, decode [0x005C09EE, 0x04004100, 0x00010000] = .ok (.isetp f, []) ∧ f.sw = true) ∧
  decode [0] = .error .illegalOpcode ∧ decode [0x04288502, 0x04004108, 0x20007000] = .error .illegalEncoding

/-- A step that comes to the issue stage of a group that may issue fetches, decodes and performs its instruction: where the fetch answers the decoded
instruction i, the step is exec of i; where it raises a fault or asks for a walk, it is the state that leaves. An event of the agenda is performed, and
so are the passage of time, the replacement of a line of a home slice or of L1, a parity error of an L1 word, and an uncorrectable error in an array
of a contained team. -/
def Obligations.StepRunsDecodedInstruction : Prop :=
  ∀ (s u : State) (slot : Nat), s.stopped = false →
    (s.nextAction exec = (.issue slot, u) → (u.group slot).canIssue = true →
      (∀ i t, u.fetch slot = .instr i t → step s = exec i t) ∧ (∀ t, u.fetch slot = .stop t → step s = .next t)) ∧
    (∀ i as, s.agenda = .event i :: as → i.spec = none → step s = exec i { s with agenda := as }) ∧
    (∀ as, s.agenda = .issue slot :: as → s.nextAction exec = (.issue slot, { s with agenda := as })) ∧
    (∀ n ns as, s.agenda = .tick n ns :: as →
      let t := ({ s with agenda := as } : State).dispatchAll (s.cycle + 1)
      step s = .next { t with cycle := t.cycle + n, tstamp := t.tstamp + BitVec.ofNat 64 ns }) ∧
    (∀ pa as, s.agenda = .evict pa :: as → step s = .next ({ s with agenda := as }.evictHome pa)) ∧
    (∀ k pa as, s.agenda = .l1Evict k pa :: as → step s = .next ({ s with agenda := as }.evictL1 k pa)) ∧
    (∀ k pa as, s.agenda = .l1Parity k pa :: as → step s = .next ({ s with agenda := as }.l1Parity k pa)) ∧
    (∀ tm as, s.agenda = .arrayError tm :: as → step s = .next ({ s with agenda := as }.arrayError tm))

/-- R121, R201, R215, R217: a word whose address passes the checks of a fetch is that of the instruction cache where it holds the line, and otherwise
that of memory, where its line is held by its home slice, which performs the read at once (R148) and finds no poison; the words that LEN asks for are
decoded at the batch's PC, and a rejected encoding raises its class. Fetching such words changes no byte of memory and no group. -/
def Obligations.FetchReadsMemoryAtThePC : Prop :=
  (∀ (s : State) (slot k pa : Nat) (e : Option TlbEntry) (pc : DWord), pa % 4 = 0 →
    s.checkGlobal slot ((s.group slot).asid == 0) (s.group slot).asid .fetch 4 4 (pc + BitVec.ofNat 64 (4 * k)) = .ok pa e →
    (∀ l, SMap.find (s.core (slotCore slot)).icache (pa / 128) = some l →
      ∃ t, fetchWords slot pc 1 k s = .ok [l.getD (pa / 4 % 32) 0] t ∧ t.mem = s.mem ∧ t.groups = s.groups ∧ t.parts = s.parts) ∧
    (SMap.find (s.core (slotCore slot)).icache (pa / 128) = none → pRange pa = .hbm → (s.line pa).valid = true → s.linePsn pa = false →
        s.fateFrom (slotCluster slot) pa = .perform → s.behindRing pa 4 = false →
      ∃ t, fetchWords slot pc 1 k s = .ok [s.word pa] t ∧ t.mem = s.mem ∧ t.groups = s.groups ∧ t.parts = s.parts)) ∧
  (∀ (s t u : State) (slot : Nat) (w : Word) (ws rest : List Word), (s.group slot).trapHere = false → s.pairHold slot = false →
    fetchWords slot (s.group slot).batchPc 1 0 s = .ok [w] t →
    fetchWords slot (s.group slot).batchPc ((wordForm w).words - 1) 1 t = .ok ws u →
    (∀ i, decode (w :: ws) = .ok (i, rest) → s.fetch slot = .instr i { u with cur := slot }) ∧
    (decode (w :: ws) = .error .illegalOpcode → s.fetch slot = .stop (u.raiseCode slot 0x04 (s.group slot).batchPc (u.group slot).batch)) ∧
    (decode (w :: ws) = .error .illegalEncoding → s.fetch slot = .stop (u.raiseCode slot 0x05 (s.group slot).batchPc (u.group slot).batch)))

/-- What package reset leaves where the specification says so (00 R2, 01 R29, 02 R36, R44, R47, 04 R99, 05 R130, 06 R138, 07 R162, 16 R373, 17 R384,
R396): no group placed, no line valid, every stack out of use and MEMCAP 0, the registers at the values of their tables, no hart running. -/
def Obligations.ResetValues : Prop :=
  let s := State.reset
  (∀ k, (s.group k).st = .empty) ∧ (∀ a, (s.line a).valid = false) ∧ s.accs = [] ∧ s.teams = [] ∧ s.launches = [] ∧
  s.readReg (.fallow 0) = 0 ∧ s.readReg (.fallow 1) = 0 ∧ s.readReg (.fallow 2) = 0 ∧ s.readReg (.fallow 3) = 0 ∧ s.readReg (.fallow 4) = 25 ∧
  s.readReg (.fallow 5) = 0 ∧ s.readReg (.fallow 6) = 0 ∧ (∀ n k, s.readReg (.fwin n k) = 0) ∧ (∀ k, s.readReg (.peerwin k) = 0) ∧
  (∀ j, j < 256 → s.readReg (.mon j 0) = BitVec.ofNat 64 (j % 32 / 2 * 256) ∧ s.readReg (.mon j 1) = 1024) ∧
  (∀ j k, 2 ≤ k → k < 0xA00 → s.readReg (.mon j k) = 0) ∧
  (∀ d, s.readReg (.silo d 0) = 0x04000000) ∧ (∀ o, s.readReg (.bucket o) = 0x4000040000100000) ∧
  s.readReg (.domtab 0 0) = 0x8000000000000000 ∧ (∀ d, 0 < d → s.readReg (.domtab d 0) = 0) ∧ (∀ d, s.readReg (.domtab d 5) = 1) ∧
  s.readReg .pwrctl = 0x00000C80000F1E00 ∧ (∀ d, s.readReg (.therm d) = 0x0000000073690000) ∧ (∀ h, (s.hart h).running = false) ∧
  (∀ c, (s.svcCore c).running = false) ∧ s.memOk

/-- Every step keeps the canonical form of the memory: addresses ascending, no byte listed that reads as an unlisted one does. -/
def Obligations.StepKeepsMemoryForm : Prop := ∀ s t : State, s.memOk → step s = .next t → t.memOk

/-- R4, R45, R57: a write performed at its home leaves its bytes, the lowest first, and every other byte of memory as it was. Waiters and rings of the
home, or of both homes while the granule is on its way, whose wakes and records may write other words, are taken to be none, and the line to have no
side records (R51). -/
def Obligations.HomeWritesAreRead : Prop :=
  ∀ (s : State) (pa x n : Nat), (∀ h, h = s.homeNow pa ∨ h ∈ s.homesOf pa → (s.slice h).mon = [] ∧ (s.slice h).sphead = []) →
    (s.line pa).dec = false →
    let t := s.homeStore pa x n
    (∀ k, k < n → Memory.byte t.mem (pa + k) = BitVec.ofNat 8 (x / 256 ^ k)) ∧ (∀ a, a < pa ∨ pa + n ≤ a → Memory.byte t.mem a = Memory.byte s.mem a) ∧
    (n = 8 → t.dword pa = BitVec.ofNat 64 x) ∧ (n = 4 → t.word pa = BitVec.ofNat 32 x) ∧
    t.groups = s.groups ∧ t.parts = s.parts ∧ t.teams = s.teams ∧ t.accs = s.accs ∧ (0 < n → (t.line pa).dirty = true)

/-- R207, 09 Table 6: the values of the operands that are not registers. -/
def Obligations.OperandValues : Prop :=
  ∀ (c : RCtx) (l : Lane) (m : BitVec 10) (n : Nat), n ∈ [8, 16, 32, 64] →
    let v (o : Opnd) (t : OpTy) : Nat := (o.val c t n l).toNat
    let rne (f : FFmt) (z : Int) : Nat := (f.result ⟨.rne, 0, 0, false⟩ ⟨.ofInt z, 0⟩).bits
    (∀ t, v .zero t = 0) ∧ (∀ t, v .lit t = c.lit.toNat % 2 ^ n) ∧
    v .one .int = 1 ∧ v .lane .int = l.val ∧ (v (.imm m) .int : Int) = m.toInt % 2 ^ n ∧
    (n = 8 → v .one (.float .f8) = 0x38 ∧ v .lane (.float .f8) = rne .f8 l.val ∧ v (.imm m) (.float .f8) = rne .f8 m.toInt ∧
      (448 < m.toInt → v (.imm m) (.float .f8) = 0x7E) ∧ (m.toInt < -448 → v (.imm m) (.float .f8) = 0xFE)) ∧
    (n = 16 → v .one (.float .f16) = 0x3C00 ∧ v .one (.float .bf16) = 0x3F80 ∧
      ∀ f ∈ [FFmt.f16, FFmt.bf16], v .lane (.float f) = rne f l.val ∧ v (.imm m) (.float f) = rne f m.toInt) ∧
    (n = 32 → v .one (.float .f32) = 0x3F800000 ∧ v .lane (.float .f32) = rne .f32 l.val ∧ v (.imm m) (.float .f32) = rne .f32 m.toInt ∧
      v .one (.pair .f16) = 0x3C003C00 ∧ v .one (.pair .bf16) = 0x3F803F80 ∧
      ∀ f ∈ [FFmt.f16, FFmt.bf16], v .lane (.pair f) = rne f l.val + 2 ^ 16 * rne f l.val ∧
        v (.imm m) (.pair f) = rne f m.toInt + 2 ^ 16 * rne f m.toInt) ∧
    (n = 64 → v .one (.float .f64) = 0x3FF0000000000000 ∧ v .lane (.float .f64) = rne .f64 l.val ∧ v (.imm m) (.float .f64) = rne .f64 m.toInt) ∧
    (∀ g, Opnd.lit.allocOk g 128 = false ∧ (Opnd.imm m).allocOk g 128 = false ∧ Opnd.lane.allocOk g 128 = false)

/-! ### Instructions that compute in registers -/

/-- R243 with 10 Table 8: the integer arithmetic instructions, each with the exact result that the table names, reduced or limited, written to D, and
nothing else changed. R242: lea adds B and A shifted left by FUNC; a shift of the type's width or more raises ILLEGAL_ENCODING, which parks the group
on a fault and changes no register. -/
def Obligations.IntegerArithmeticComputes : Prop :=
  (∀ (f : Enc) (s : State) (c : Ctx),
      (Issues (.iadd f) noOwn s c → ComputesInt c c.ity (fun l => c.ia c.ity l + c.ib c.ity l) s (exec (.iadd f) s)) ∧
      (Issues (.isub f) noOwn s c → ComputesInt c c.ity (fun l => c.ia c.ity l - c.ib c.ity l) s (exec (.isub f) s)) ∧
      (Issues (.iadd3 f) noOwn s c → ComputesInt c c.ity (fun l => c.ia c.ity l + c.ib c.ity l + c.ic c.ity l) s (exec (.iadd3 f) s)) ∧
      (Issues (.imul f) noOwn s c → ComputesInt c c.ity (fun l => c.ia c.ity l * c.ib c.ity l) s (exec (.imul f) s)) ∧
      (Issues (.imulh f) noOwn s c → ComputesInt c c.ity (fun l => (c.ia c.ity l * c.ib c.ity l).fdiv (2 ^ c.ity.bits)) s (exec (.imulh f) s)) ∧
      (Issues (.imad f) noOwn s c → ComputesInt c c.ity (fun l => c.ia c.ity l * c.ib c.ity l + c.ic c.ity l) s (exec (.imad f) s)) ∧
      (Issues (.imadWide f) noOwn s c →
        ComputesInt c ⟨64, c.ity.signed⟩ (fun l => c.ia c.ity l * c.ib c.ity l + c.ic ⟨64, c.ity.signed⟩ l) s (exec (.imadWide f) s)) ∧
      (Issues (.imin f) noOwn s c → ComputesInt c c.ity (fun l => min (c.ia c.ity l) (c.ib c.ity l)) s (exec (.imin f) s)) ∧
      (Issues (.imax f) noOwn s c → ComputesInt c c.ity (fun l => max (c.ia c.ity l) (c.ib c.ity l)) s (exec (.imax f) s)) ∧
      (Issues (.iabsd f) noOwn s c →
        ComputesInt c c.ity (fun l => max (c.ia c.ity l - c.ib c.ity l) (c.ib c.ity l - c.ia c.ity l)) s (exec (.iabsd f) s))) ∧
  (∀ (f : Enc) (s : State) (c : Ctx),
      (Issues (.lea f) noOwn s c → c.e.func.toNat < c.ity.bits →
        ComputesInt c c.ity (fun l => c.ib c.ity l + c.ia c.ity l * 2 ^ c.e.func.toNat) s (exec (.lea f) s)) ∧
      (Issues (.lea f) noOwn s c → c.ity.bits ≤ c.e.func.toNat →
        exec (.lea f) s = .next (s.raise c.slot .retry { cls := 0x05, lanes := (s.group c.slot).batch, pc := c.pc })))

/-- R244: AND, OR, XOR, complement, shifts and rotation, bit by bit for the width n, with the count B whole; popc and clz count. -/
def Obligations.BitOperationsCompute : Prop :=
  ∀ (f : Enc) (s : State) (c : Ctx),
    let n := c.bits
    let A (l : Lane) (i : Nat) : Bool := (c.a .int l).toNat.testBit i
    let B (l : Lane) (i : Nat) : Bool := (c.b .int l).toNat.testBit i
    let k (l : Lane) : Nat := (c.b .int l).toNat
    (Issues (.and f) noOwn s c → ComputesBits c n (fun l i => A l i && B l i) s (exec (.and f) s)) ∧
    (Issues (.or f) noOwn s c → ComputesBits c n (fun l i => A l i || B l i) s (exec (.or f) s)) ∧
    (Issues (.xor f) noOwn s c → ComputesBits c n (fun l i => A l i != B l i) s (exec (.xor f) s)) ∧
    (Issues (.not f) noOwn s c → ComputesBits c n (fun l i => !A l i) s (exec (.not f) s)) ∧
    (Issues (.shl f) noOwn s c → ComputesBits c n (fun l i => decide (k l ≤ i) && A l (i - k l)) s (exec (.shl f) s)) ∧
    (Issues (.shr f) noOwn s c → ComputesBits c n (fun l i => decide (i + k l < n) && A l (i + k l)) s (exec (.shr f) s)) ∧
    (Issues (.sar f) noOwn s c → ComputesBits c n (fun l i => A l (min (i + k l) (n - 1))) s (exec (.sar f) s)) ∧
    (Issues (.rot f) noOwn s c → ComputesBits c n (fun l i => A l ((i + (n - k l % n)) % n)) s (exec (.rot f) s)) ∧
    (Issues (.popc f) noOwn s c →
      Computes c (fun l => BitVec.ofNat 128 (((List.range n).filter (A l)).length)) noFlags s (exec (.popc f) s)) ∧
    (Issues (.clz f) noOwn s c →
      Computes c (fun l => BitVec.ofNat 128 (((List.range n).takeWhile fun i => !A l (n - 1 - i)).length)) noFlags s (exec (.clz f) s))

/-- R245: bfe and bfi bit by bit, prmt byte by byte. -/
def Obligations.FieldOperationsCompute : Prop :=
  ∀ (f : Enc) (s : State) (c : Ctx),
    let n := c.bits
    let A (l : Lane) (i : Nat) : Bool := (c.a .int l).toNat.testBit i
    let B (l : Lane) (i : Nat) : Bool := (c.b .int l).toNat.testBit i
    let C (l : Lane) : Nat := (c.c .int l).toNat
    (Issues (.bfe f) noOwn s c →
      let t := bfeTy c.e.ty
      let pos (l : Lane) : Nat := (c.b .int l).toNat % 128
      let len (l : Lane) : Nat := min (C l % 128) t.bits
      let fld (l : Lane) (i : Nat) : Bool := if pos l + i < t.bits then A l (pos l + i) else t.signed && A l (t.bits - 1)
      ComputesBits c t.bits (fun l i => if i < len l then fld l i else t.signed && decide (0 < len l) && fld l (len l - 1)) s
        (exec (.bfe f) s)) ∧
    (Issues (.bfi f) noOwn s c →
      ComputesBits c n (fun l i => if C l % 128 ≤ i ∧ i < C l % 128 + C l / 256 % 128 then A l (i - C l % 128) else B l i) s
        (exec (.bfi f) s)) ∧
    (Issues (.prmt f) noOwn s c →
      let byte (l : Lane) (k i : Nat) : Bool := if k < 4 then A l (8 * k + i) else B l (8 * (k - 4) + i)
      ComputesBits c 32 (fun l i =>
        let k := C l / 2 ^ (4 * (i / 8)) % 16
        if k ≤ 7 then byte l k (i % 8) else if k = 8 then false else if k = 9 then true else byte l (k - 8) 7) s (exec (.prmt f) s))

/-- R246, R256, R224: isetp and fsetp write the predicate that D names in the active lanes, and no other bit; U with num or nan is an encoding fault
of fsetp. -/
def Obligations.ComparisonsWriteAPredicate : Prop :=
  ∀ (f : Enc) (s : State) (c : Ctx),
    (Issues (.isetp f) noOwn s c →
      ComputesPred c c.dpred (fun l =>
        let a := c.ia c.ity l
        let b := c.ib c.ity l
        match c.e.func.toNat with
        | 0 => decide (a = b)
        | 1 => decide (a ≠ b)
        | 2 => decide (a < b)
        | 3 => decide (a ≤ b)
        | 4 => decide (a > b)
        | _ => decide (a ≥ b)) noFlags s (exec (.isetp f) s)) ∧
    (Issues (.fsetp f) noOwn s c → ¬ (6 ≤ c.e.func.toNat % 8 ∧ c.e.func.getLsbD 3 = true) →
      let t := c.fmt .f32
      ComputesPred c c.dpred
        (fun l => fRel (c.e.func.toNat % 8) (c.e.func.getLsbD 3) (t.value (c.fa t l)) (t.value (c.fb t l)))
        (fun l => (t.value (c.fa t l)).sig ||| (t.value (c.fb t l)).sig) s (exec (.fsetp f) s)) ∧
    (Issues (.fsetp f) noOwn s c → 6 ≤ c.e.func.toNat % 8 → c.e.func.getLsbD 3 = true →
      exec (.fsetp f) s = .next (s.raise c.slot .retry { cls := 0x05, lanes := (s.group c.slot).batch, pc := c.pc }))

/-- R247, R248: sel takes A where its predicate holds and B elsewhere; mov copies each lane, movs the lowest active lane and bcast the lane that B
names. -/
def Obligations.MovesAndSelect : Prop :=
  ∀ (f : Enc) (s : State) (c : Ctx),
    (Issues (.sel f) noOwn s c →
      Computes c (fun l =>
        (if c.g.predBit s.freeCtr (c.e.func.toNat % 8) l = c.e.func.getLsbD 3 then c.b (tyOf .int c.e.ty) l
         else c.a (tyOf .int c.e.ty) l).setWidth 128) noFlags s (exec (.sel f) s)) ∧
    (Issues (.mov f) noOwn s c → Computes c (fun l => (c.a .int l).setWidth 128) noFlags s (exec (.mov f) s)) ∧
    (Issues (.movs f) noOwn s c → ComputesUniform c (c.a .int c.low) s (exec (.movs f) s)) ∧
    (Issues (.bcast f) noOwn s c → ∀ j : Lane, j.val = c.ub.toNat % 32 → ComputesUniform c (c.a .int j) s (exec (.bcast f) s))

/-- R232: votes and matches over the active lanes, shuffles from a lane that the group holds whether or not it is active, and elections. -/
def Obligations.LaneInstructionsCompute : Prop :=
  ∀ (f : Enc) (s : State) (c : Ctx),
    let on (l : Lane) : Bool := laneIn c.act l
    let A := c.a .int
    let b (l : Lane) : Int := (c.b .int l).toNat
    let from_ (j : Lane → Int) (x : Lane → BitVec 128) : Prop :=
      ∀ l, (0 ≤ j l ∧ j l ≤ 31 → ∀ k : Lane, (k.val : Int) = j l → x l = (A k).setWidth 128) ∧
        (j l < 0 ∨ 31 < j l → x l = (c.c .int l).setWidth 128)
    (Issues (.voteMask f) noOwn s c → ∃ m : LaneMask, (∀ k, laneIn m k = (on k && A k != 0)) ∧
      ComputesUniform c (m.setWidth 64) s (exec (.voteMask f) s)) ∧
    (Issues (.voteSome f) noOwn s c →
      ComputesUniform c (if ∃ k, on k = true ∧ A k ≠ 0 then 1 else 0) s (exec (.voteSome f) s)) ∧
    (Issues (.voteEvery f) noOwn s c →
      ComputesUniform c (if ∀ k, on k = true → A k ≠ 0 then 1 else 0) s (exec (.voteEvery f) s)) ∧
    (Issues (.voteSame f) noOwn s c →
      ComputesUniform c (if ∀ j k, on j = true → on k = true → A j = A k then 1 else 0) s (exec (.voteSame f) s)) ∧
    (Issues (.voteCount f) noOwn s c →
      ComputesUniform c (BitVec.ofNat 64 ((List.finRange 32).filter fun k => on k && A k != 0).length) s (exec (.voteCount f) s)) ∧
    (Issues (.shflLane f) noOwn s c → ∃ x, from_ (fun l => b l % 32) x ∧ Computes c x noFlags s (exec (.shflLane f) s)) ∧
    (Issues (.shflBack f) noOwn s c → ∃ x, from_ (fun l => (l.val : Int) - b l) x ∧ Computes c x noFlags s (exec (.shflBack f) s)) ∧
    (Issues (.shflFwd f) noOwn s c → ∃ x, from_ (fun l => (l.val : Int) + b l) x ∧ Computes c x noFlags s (exec (.shflFwd f) s)) ∧
    (Issues (.shflMix f) noOwn s c →
      ∃ x, from_ (fun l => ((l.val ^^^ ((c.b .int l).toNat % 32) : Nat) : Int)) x ∧ Computes c x noFlags s (exec (.shflMix f) s)) ∧
    (Issues (.shflRot f) noOwn s c → ∃ x, from_ (fun l => ((l.val : Int) + b l) % 32) x ∧ Computes c x noFlags s (exec (.shflRot f) s)) ∧
    (Issues (.elect f) noOwn s c →
      ComputesPred c c.dpred (fun l => decide (∀ k, on k = true → l.val ≤ k.val)) noFlags s (exec (.elect f) s)) ∧
    (Issues (.electHi f) noOwn s c →
      ComputesPred c c.dpred (fun l => decide (∀ k, on k = true → k.val ≤ l.val)) noFlags s (exec (.electHi f) s)) ∧
    (Issues (.matchPeers f) noOwn s c → ∃ m : Lane → LaneMask, (∀ l k, laneIn (m l) k = (on k && A k == A l)) ∧
      Computes c (fun l => (m l).setWidth 128) noFlags s (exec (.matchPeers f) s)) ∧
    (Issues (.matchUniform f) noOwn s c →
      ComputesUniform c (if ∀ j k, on j = true → on k = true → A j = A k then c.act.setWidth 64 else 0) s (exec (.matchUniform f) s))

/-- R253, R254, R258: floating-point arithmetic rounds the exact result of the sources once; each element of a packed pair is its own. -/
def Obligations.FloatArithmeticComputes : Prop :=
  ∀ (f : Enc) (s : State) (c : Ctx),
    let o := c.e.fopts c.g.fmode false
    let r := o.mode
    let F := c.fmt .f32
    let D := c.fmt .f64
    let x (t : FFmt) (l : Lane) := t.value (c.fa t l)
    let y (t : FFmt) (l : Lane) := t.value (c.fb t l)
    let z (t : FFmt) (l : Lane) := t.value (c.fc t l)
    let P := c.pairFmt
    let pa (l : Lane) (k : Nat) := P.value (P.mod c.e.negA c.e.absA (element (c.a (.pair P) l).toNat k))
    let pb (l : Lane) (k : Nat) := P.value (P.mod c.e.negB c.e.absB (element (c.b (.pair P) l).toNat k))
    let pc (l : Lane) (k : Nat) := P.value (P.mod c.e.negC c.e.absC (element (c.c (.pair P) l).toNat k))
    let both (g : Nat → Exact) : FRes := pairRes (P.result o (g 0)) (P.result o (g 1))
    (Issues (.fadd f) noOwn s c → ComputesFloat c (fun l => F.result o ((x F l).add r (y F l))) s (exec (.fadd f) s)) ∧
    (Issues (.fmul f) noOwn s c → ComputesFloat c (fun l => F.result o ((x F l).mul (y F l))) s (exec (.fmul f) s)) ∧
    (Issues (.ffma f) noOwn s c → ComputesFloat c (fun l => F.result o (FVal.fma r (x F l) (y F l) (z F l))) s (exec (.ffma f) s)) ∧
    (Issues (.dadd f) noOwn s c → ComputesFloat c (fun l => D.result o ((x D l).add r (y D l))) s (exec (.dadd f) s)) ∧
    (Issues (.dmul f) noOwn s c → ComputesFloat c (fun l => D.result o ((x D l).mul (y D l))) s (exec (.dmul f) s)) ∧
    (Issues (.dfma f) noOwn s c → ComputesFloat c (fun l => D.result o (FVal.fma r (x D l) (y D l) (z D l))) s (exec (.dfma f) s)) ∧
    (Issues (.frcp f) noOwn s c → ComputesFloat c (fun l => F.result o (x F l).recip) s (exec (.frcp f) s)) ∧
    (Issues (.fsqrt f) noOwn s c → ComputesFloat c (fun l => F.result o (x F l).sqrt) s (exec (.fsqrt f) s)) ∧
    (Issues (.hadd2 f) noOwn s c → ComputesFloat c (fun l => both fun k => (pa l k).add r (pb l k)) s (exec (.hadd2 f) s)) ∧
    (Issues (.hmul2 f) noOwn s c → ComputesFloat c (fun l => both fun k => (pa l k).mul (pb l k)) s (exec (.hmul2 f) s)) ∧
    (Issues (.hfma2 f) noOwn s c → ComputesFloat c (fun l => both fun k => FVal.fma r (pa l k) (pb l k) (pc l k)) s (exec (.hfma2 f) s))

/-- R255, R257 to R260: the smaller or greater source, the class mask, and the special functions, then CLAMP. -/
def Obligations.FloatSelectionAndSpecialFunctions : Prop :=
  ∀ (f : Enc) (s : State) (c : Ctx),
    let F := c.fmt .f32
    let ends (t : FFmt) (r : FRes) : FRes := ⟨(t.clamp c.e.clamp r.bits).bits, r.flags ||| (t.clamp c.e.clamp r.bits).flags⟩
    (Issues (.fmin f) noOwn s c → ComputesFloat c (fun l => ends F (F.minMax false (c.fa F l) (c.fb F l))) s (exec (.fmin f) s)) ∧
    (Issues (.fmax f) noOwn s c → ComputesFloat c (fun l => ends F (F.minMax true (c.fa F l) (c.fb F l))) s (exec (.fmax f) s)) ∧
    (Issues (.fclass f) noOwn s c →
      Computes c (fun l => BitVec.ofNat 128 (F.classMask (c.fa F l))) noFlags s (exec (.fclass f) s)) ∧
    (Issues (.frsq f) noOwn s c → ComputesFloat c (fun l => ends .f32 (SpecialFn.rsq.eval (c.fa .f32 l))) s (exec (.frsq f) s)) ∧
    (Issues (.fexp2 f) noOwn s c → ComputesFloat c (fun l => ends .f32 (SpecialFn.exp2.eval (c.fa .f32 l))) s (exec (.fexp2 f) s)) ∧
    (Issues (.flog2 f) noOwn s c → ComputesFloat c (fun l => ends .f32 (SpecialFn.log2.eval (c.fa .f32 l))) s (exec (.flog2 f) s)) ∧
    (Issues (.fsin f) noOwn s c → ComputesFloat c (fun l => ends .f32 (SpecialFn.sin.eval (c.fa .f32 l))) s (exec (.fsin f) s)) ∧
    (Issues (.fcos f) noOwn s c → ComputesFloat c (fun l => ends .f32 (SpecialFn.cos.eval (c.fa .f32 l))) s (exec (.fcos f) s))

/-- R261 to R264: conversions between formats and integers, and packing. -/
def Obligations.ConversionsCompute : Prop :=
  ∀ (f : Enc) (s : State) (c : Ctx),
    (Issues (.fcvt f) noOwn s c → fcvtBad c.e = false →
      ComputesFloat c (fun l => fcvtVal c.e c.g.fmode (c.cvtSrc l)) s (exec (.fcvt f) s)) ∧
    (Issues (.icvt f) noOwn s c → 1 ≤ c.e.func.toNat % 16 → c.e.func.toNat % 16 ≤ 8 →
      selOk (codeWidth (c.e.func &&& 15)) (c.e.func.toNat / 16 % 4) = true →
      let src := IntTy.ofCode (c.e.func.toNat % 16)
      ComputesInt c c.ity (fun l => src.value (selField src.bits (c.e.func.toNat / 16 % 4) (c.cvtSrc l))) s (exec (.icvt f) s)) ∧
    (Issues (.f8pk f) noOwn s c →
      let o := c.e.fopts c.g.fmode (c.e.func.getLsbD 1)
      let el (x : Nat) : FRes := FFmt.f8.result o ⟨FFmt.f32.value x, (FFmt.f32.value x).sig⟩
      let two (l : Lane) : Nat := (el (c.fa .f32 l)).bits + 2 ^ 8 * (el (c.fb .f32 l)).bits
      ComputesFloat c (fun l =>
        ⟨if c.e.func.getLsbD 0 then (c.c .int l).toNat % 2 ^ 16 + 2 ^ 16 * two l else (c.c .int l).toNat / 2 ^ 16 * 2 ^ 16 + two l,
         (el (c.fa .f32 l)).flags ||| (el (c.fb .f32 l)).flags⟩) s (exec (.f8pk f) s)) ∧
    (Issues (.pack f) noOwn s c → c.e.ty = 6 →
      Computes c (fun l => BitVec.ofNat 128 ((c.a .int l).toNat % 2 ^ 16 + 2 ^ 16 * ((c.b .int l).toNat % 2 ^ 16))) noFlags s
        (exec (.pack f) s)) ∧
    (Issues (.pack f) noOwn s c → c.e.ty ≠ 6 →
      let o := c.e.fopts c.g.fmode false
      let el (x : Nat) : FRes := c.pairFmt.result o ⟨FFmt.f32.value x, (FFmt.f32.value x).sig⟩
      ComputesFloat c (fun l => pairRes (el (c.fa .f32 l)) (el (c.fb .f32 l))) s (exec (.pack f) s))

/-! ### Control flow, convergence and barriers -/

/-- R231: nop changes nothing and yield ends the run as SW = 1 does; the group goes to the next instruction, and no register, memory or other group
changes. nop with SW = 1 ends the run. R230: exit makes the active lanes exited and leaves the trap handler in them; its convergence sets and, when
the group is gone, its team's barriers are tested; a generation whose time is over faults first (R240). Where the team has no convergence set, no
handler runs and lanes remain, no register and no byte of memory changes. -/
def Obligations.NopYieldAndExit : Prop :=
  (∀ (f : Enc) (s : State) (c : Ctx),
      (Issues (.nop f) noOwn s c → Acts c s (exec (.nop f) s)) ∧
      (Issues (.nop f) noOwn s c → c.e.sw = true → ActsAndEnds c s (exec (.nop f) s)) ∧
      (Issues (.yield f) noOwn s c → ActsAndEnds c s (exec (.yield f) s))) ∧
  (∀ (f : Enc) (s : State) (c : Ctx),
      let u := s.updGroup c.slot fun g => { g with exited := g.exited ||| c.act }.leaveTrap c.act
      let v := if c.act = 0 ∨ c.g.routine = true then u
        else ((List.range 16).foldl (fun s n => if s.cvLate c.g.team n then s.cvFault c.g.team n else s) u).cvExit c.slot c.act
      (Issues (.exit f) noOwn s c →
        Acts c (if (v.group c.slot).gone && !c.g.routine then v.pollTeam c.g.team else v) (exec (.exit f) s)) ∧
      (Issues (.exit f) noOwn s c → (s.team c.g.team).cv = [] → c.g.inh = false → c.g.exited ||| c.act ≠ ~~~ 0 →
        ∃ t, exec (.exit f) s = .next t ∧ (t.group c.slot).exited = c.g.exited ||| c.act ∧ SameRegs c.g (t.group c.slot) ∧ t.mem = s.mem))

/-- R227, R228: every active lane goes to its target, the others of the batch to the next instruction; call and callx write PC + len to D first; bru
takes the whole batch one way. -/
def Obligations.BranchesGoToTheirTargets : Prop :=
  ∀ (f : Enc) (s : State) (c : Ctx),
    let on (l : Lane) : Bool := laneIn c.act l
    let rel : DWord := c.pc + 4 * ((c.ua.setWidth 32 : Word).signExtend 64)
    let dest (t : Lane → DWord) (l : Lane) : DWord := if on l then t l else c.next
    let good (t : Lane → DWord) : Prop := ∀ l, on l = true → (t l).toNat % 4 = 0
    let cond (l : Lane) : Bool := c.g.predBit c.rc.ctr (c.e.func.toNat % 8) l != c.e.func.getLsbD 3
    let b : DWord := if (if c.e.func.getLsbD 4 then ∀ l, on l = true → cond l = true else ∃ l, on l = true ∧ cond l = true) then rel else c.next
    let x (l : Lane) : DWord :=
      c.next + BitVec.ofNat 64 ([4, 8, 12, 16, 20, 24, 32, 40].getD (c.e.func.toNat % 8) 4 *
        (if (c.a .int l).toNat < c.ub.toNat then (c.a .int l).toNat else c.ub.toNat))
    (Issues (.bra f) noOwn s c → good (fun _ => rel) → Goes c (dest fun _ => rel) s (exec (.bra f) s)) ∧
    (Issues (.bru f) noOwn s c → good (fun _ => b) → Goes c (dest fun _ => b) s (exec (.bru f) s)) ∧
    (Issues (.brx f) noOwn s c → good x → Goes c (dest x) s (exec (.brx f) s)) ∧
    (Issues (.ret f) noOwn s c → good (c.a .int) → Goes c (dest (c.a .int)) s (exec (.ret f) s)) ∧
    (Issues (.call f) linkOk s c → good (fun _ => rel) →
      ComputesTo c (uniform c.next) noFlags (dest fun _ => rel) s (exec (.call f) s)) ∧
    (Issues (.callx f) linkOk s c → good (c.a .int) →
      ComputesTo c (uniform c.next) noFlags (dest (c.a .int)) s (exec (.callx f) s))

/-- R227, R229: a target whose low two bits are not 0 raises ALIGNMENT with KIND 4 against the lanes that have one, with the lowest one's target as
ADDR and the PC of the branch, and nothing else of the branch is performed: no link is written and no lane moves. -/
def Obligations.MisalignedTargetsTrap : Prop :=
  ∀ (f : Enc) (s : State) (c : Ctx),
    let rel : DWord := c.pc + 4 * ((c.ua.setWidth 32 : Word).signExtend 64)
    let x (l : Lane) : DWord :=
      c.next + BitVec.ofNat 64 ([4, 8, 12, 16, 20, 24, 32, 40].getD (c.e.func.toNat % 8) 4 *
        (if (c.a .int l).toNat < c.ub.toNat then (c.a .int l).toNat else c.ub.toNat))
    let traps (t : Lane → DWord) (o : Out) : Prop :=
      ∀ m : LaneMask, (∀ l, laneIn m l = (laneIn c.act l && decide ((t l).toNat % 4 ≠ 0))) → m ≠ 0 →
        o = .next (s.raise c.slot .retry { cls := 0x03, lanes := m, kind := 4, space := 0, addr := t (lowLane m), pc := c.pc })
    (Issues (.bra f) noOwn s c → traps (fun _ => rel) (exec (.bra f) s)) ∧
    (Issues (.bru f) noOwn s c → c.bruTaken = true → traps (fun _ => rel) (exec (.bru f) s)) ∧
    (Issues (.brx f) noOwn s c → traps x (exec (.brx f) s)) ∧
    (Issues (.call f) linkOk s c → traps (fun _ => rel) (exec (.call f) s)) ∧
    (Issues (.ret f) noOwn s c → traps (c.a .int) (exec (.ret f) s)) ∧
    (Issues (.callx f) linkOk s c → traps (c.a .int) (exec (.callx f) s))

/-- R234 to R236, R238: cvset makes a register of the team hold the non-exited lanes of its groups and answers a status; sign counts the active lanes;
cvwait answers GEN of a free register and parks the group for the generation of an open one. A sign of or a wait on a register that is faulted raises
CONVERGENCE_TIMEOUT. With no active lane nothing is performed. A generation whose time is over is not meant (R240), nor one that was set in this cycle,
behind which a sign or a wait comes (R239). R236, R237: the lanes of a sign that have not signed the generation are added to its signatures, and while
those are not as many as the members the generation stays. -/
def Obligations.ConvergenceInstructionsAct : Prop :=
  (∀ (f : Enc) (s : State) (c : Ctx),
      let n := c.e.func.toNat % 16
      let tm := c.g.team
      let r := (s.team tm).cvReg n
      let first := c.ua.toNat
      let count := c.ub.toNat
      let m := s.liveLanes tm first count
      let blank : CvReg := { r with members := m, first := first, groups := count, signs := [], leaving := [], held := [], setAt := some s.cycle }
      let busy : Prop := (r.st = .open ∧ r.signedCount ≠ 0) ∨ s.cvBusy tm n = true
      let late := syncFault n 0x07 (if r.mma.isSome then 6 else 7) c.pc c.next c.act c.act
      let inTime : Prop := s.cvLate tm n = false
      let later : Prop := s.cvLate tm n = false ∧ r.justSet s.cycle = false
      (Issues (.cvset f) noOwn s c → c.act = 0 → ComputesUniform c 0 s (exec (.cvset f) s)) ∧
      (Issues (.cvset f) noOwn s c → c.act ≠ 0 → inTime → count = 0 ∨ (s.team tm).ngroups < first + count →
        ComputesUniform c 3 (s.setCv tm n r) (exec (.cvset f) s)) ∧
      (Issues (.cvset f) noOwn s c → c.act ≠ 0 → inTime → count ≠ 0 → first + count ≤ (s.team tm).ngroups →
        busy → ComputesUniform c 1 (s.setCv tm n r) (exec (.cvset f) s)) ∧
      (Issues (.cvset f) noOwn s c → c.act ≠ 0 → inTime → count ≠ 0 → first + count ≤ (s.team tm).ngroups → ¬ busy → m = 0 →
        ComputesUniform c 2 (s.setCv tm n { blank with st := .free }) (exec (.cvset f) s)) ∧
      (Issues (.cvset f) noOwn s c → c.act ≠ 0 → inTime → count ≠ 0 → first + count ≤ (s.team tm).ngroups → ¬ busy → m ≠ 0 →
        ComputesUniform c 0 (s.setCv tm n { blank with st := .open }) (exec (.cvset f) s)) ∧
      (Issues (.sign f) signOk s c → c.act = 0 → Acts c s (exec (.sign f) s)) ∧
      (Issues (.sign f) signOk s c → c.act ≠ 0 → later → r.st ≠ .faulted →
        Acts c (s.cvSign c.slot n c.act none c.pc c.next []) (exec (.sign f) s)) ∧
      (Issues (.sign f) signOk s c → c.act ≠ 0 → later → r.st = .faulted → Acts c (s.lateFault c.slot late) (exec (.sign f) s)) ∧
      (Issues (.cvwait f) noOwn s c → c.act = 0 → ComputesUniform c 0 s (exec (.cvwait f) s)) ∧
      (Issues (.cvwait f) noOwn s c → c.act ≠ 0 → later → r.st = .free ∨ r.wokenAt c.g s.cycle = true →
        ComputesUniform c (r.gen.setWidth 64) s (exec (.cvwait f) s)) ∧
      (Issues (.cvwait f) noOwn s c → c.act ≠ 0 → later → r.st = .faulted → r.wokenAt c.g s.cycle = false →
        Acts c (s.lateFault c.slot late) (exec (.cvwait f) s)) ∧
      (Issues (.cvwait f) noOwn s c → c.act ≠ 0 → later → r.st = .open → r.wokenAt c.g s.cycle = false →
        ∃ t, exec (.cvwait f) s = .next t ∧ Block.cvwait n (waitGen r c.g) c.dest ∈ (t.group c.slot).blocks ∧
          SameRegs c.g (t.group c.slot) ∧ t.mem = s.mem)) ∧
  (∀ (s : State) (slot n : Nat) (m : LaneMask) (pc next : DWord),
      let g := s.group slot
      let r := (s.team g.team).cvReg n
      let t := ((s.cvSign slot n m none pc next []).team g.team).cvReg n
      n < 16 → r.st = .open → m ≠ 0 → m &&& r.signedOf g.gidx = 0 → r.signedCount + countLanes m ≠ r.members →
        t.signedOf g.gidx = r.signedOf g.gidx ||| m ∧ (∀ k, k ≠ g.gidx → t.signedOf k = r.signedOf k) ∧
        t.signedCount = r.signedCount + countLanes m ∧ t.gen = r.gen)

/-- R286 to R288: an arrival at the team barrier or at a named barrier is counted and, but for barrive, parks the group; with no active lane nothing
is performed. R287: an arrival at the team barrier parks the group and is kept; while some group of the team that is not gone has not arrived the group stays
parked. -/
def Obligations.BarrierInstructionsAct : Prop :=
  (∀ (f : Enc) (s : State) (c : Ctx),
      let n := c.e.func.toNat % 16
      let k := c.e.func.toNat / 4 % 16
      let does (i : Instr) (u : State) : Prop :=
        Issues i noOwn s c → (c.act = 0 → Acts c s (exec i s)) ∧ (c.act ≠ 0 → Acts c u (exec i s))
      does (.bar f) (s.arriveTeam c.slot false) ∧
      does (.barG f) (s.arriveTeam c.slot true) ∧
      does (.barNamed f) ((s.barrive c.slot k c.ua.toNat (s.spadOpen c.slot)).barwait c.slot k) ∧
      does (.barrive f) (s.barrive c.slot n c.ua.toNat (s.spadOpen c.slot)) ∧
      does (.barwait f) (s.barwait c.slot n)) ∧
  (∀ (s : State) (slot : Nat),
      let g := s.group slot
      let t := s.team g.team
      ¬ (∀ i ∈ s.liveGroups g.team, i ∈ t.barArr ++ [g.gidx]) →
        Block.bar ∈ ((s.arriveTeam slot false).group slot).blocks ∧
        ((s.arriveTeam slot false).team g.team).barArr = t.barArr ++ [g.gidx])

/-! ### Memory instructions -/

/-- R59, R72: the merged requests of an access of `n` bytes in each lane. Every byte of every lane lies in a request of its unit, at the place of the
value that it has there; every request's address is a multiple of its size, its bytes are those of its lanes, and no two requests are of one unit. An
access of a lane at an address that is a multiple of its size is assumed, as R72 asks. R59, R60: sending an access takes the next number and lists it;
no byte of memory or of a scratchpad, no group and no home line changes, and no other access, but that a load from the parameter window that a store
meets returns undefined values (R274). -/
def Obligations.RequestsCoverTheLanesAndAreSent : Prop :=
  (∀ (m : LaneMask) (n : Nat) (addr : Lane → Nat), n ∈ [1, 2, 4, 8, 16] → (∀ l, laneIn m l = true → addr l % n = 0) →
      (∀ l k, laneIn m l = true → k < n →
        ∃ p ∈ piecesOf m n addr, ∃ q ∈ p.parts, q.lane = l.val ∧ q.voff ≤ k ∧ k < q.voff + q.n ∧ p.addr + q.off + (k - q.voff) = addr l + k) ∧
      (∀ p ∈ piecesOf m n addr, p.addr % p.size = 0 ∧ p.done = false ∧ p.parts ≠ [] ∧
        ∀ q ∈ p.parts, q.off + q.n ≤ p.size ∧ ∃ l : Lane, laneIn m l = true ∧ q.lane = l.val ∧ p.addr + q.off = addr l + q.voff) ∧
      ((piecesOf m n addr).map Piece.addr).Nodup) ∧
  (∀ (s : State) (a : Access),
      let u := (s.sendAccess a).2
      (s.sendAccess a).1 = s.nextId ∧ u.nextId = s.nextId + 1 ∧ u.mem = s.mem ∧ u.groups = s.groups ∧ u.teams = s.teams ∧ u.lines = s.lines ∧
      (∀ id, id ≠ s.nextId →
        (SMap.find u.accs id).map (fun b => { b with undef := 0 }) = (SMap.find s.accs id).map (fun b => { b with undef := 0 })) ∧
      (∀ id b, id ≠ s.nextId → SMap.find s.accs id = some b → b.const = false → SMap.find u.accs id = some b) ∧
      ∃ b, SMap.find u.accs s.nextId = some b ∧ b.kind = a.kind ∧ b.dest = a.dest ∧ b.data = a.data ∧
        (b.pieces.map fun p => (p.addr, p.size, p.parts)) = (a.pieces.map fun p => (p.addr, p.size, p.parts)))

/-- R272, R273: a load whose lanes pass its checks leaves one access with the merged requests of its lanes; l0 waits for its result and the group goes
on. With no active lane nothing is sent. ldc reads at the parameter window's base (R274). R265, R266: a qunpk whose block and side record pass leaves
one access of 18 requests of 4 bytes, 16 from the block on and 2 from the side record on, and l0 waits for its result. The two checks stand in the
lanes of even and of odd number. -/
def Obligations.LoadsSendTheirRequests : Prop :=
  (∀ (f : Enc) (s : State) (c : Ctx),
      let load (i : Instr) (sp : Space) (chk : Lane → LaneChk) (ea : Lane → DWord) : Prop :=
        Issues i noOwn s c →
          (c.act = 0 → Acts c s (exec i s)) ∧
          (c.act ≠ 0 → Passes c chk (piecesOf c.eff c.bytes fun l => (chk l).pa).length s →
            ∃ a : Access, a.kind = .load ∧ a.space = sp ∧ a.slot = c.slot ∧ a.uid = c.g.uid ∧ a.pc = c.pc ∧ a.lanes = c.act ∧ a.ord = c.e.ord ∧
              a.bits = 8 * c.bytes ∧ a.signed = c.signedTy ∧ a.dest = some c.dest ∧ (∀ l : Lane, a.ea[l] = ea l) ∧
              (a.pieces.map fun p => (p.addr, p.size, p.parts)) = ((piecesOf c.eff c.bytes fun l => (chk l).pa).map fun p => (p.addr, p.size, p.parts)) ∧
              ActsPending c ((c.passed chk s).sendAccess a).1 ((c.passed chk s).sendAccess a).2 (exec i s))
      let spad (l : Lane) : LaneChk := s.checkSpad c.slot c.bytes c.bytes (c.saddr c.xs l)
      let spadEa (l : Lane) : DWord := BitVec.ofInt 64 (c.saddr c.xs l)
      load (.ld f) .global (fun l => s.checkGlobal c.slot c.priv c.g.asid .load c.bytes c.bytes (c.gaddr c.xs l)) (c.gaddr c.xs) ∧
      load (.lds f) .spad spad spadEa ∧
      load (.ldc f) .global (c.windowChk s) (fun l => (s.window c.slot).1 + BitVec.ofInt 64 (c.saddr c.xs l))) ∧
  (∀ (f : Enc) (s : State) (c : Ctx), Issues (.qunpk f) noOwn s c →
      (c.act = 0 → Acts c s (exec (.qunpk f) s)) ∧
      (c.act ≠ 0 → s.requests c.core + 18 ≤ 4096 →
        (c.qunpkChk s).1.good = true → (c.qunpkChk s).2.good = true →
        ∃ (a : Access) (u : State), a.kind = .qunpk ∧ a.slot = c.slot ∧ a.lanes = c.act ∧ a.dest = some c.dest ∧ a.enc = some c.e ∧
          (a.pieces.map fun p => (p.addr, p.size)) =
            ((List.range 16).map fun k => ((c.qunpkChk s).1.pa + 4 * k, 4)) ++ [((c.qunpkChk s).2.pa, 4), ((c.qunpkChk s).2.pa + 4, 4)] ∧
          u.mem = s.mem ∧ u.groups = s.groups ∧
          ActsPending c (u.sendAccess a).1 (u.sendAccess a).2 (exec (.qunpk f) s)))

/-- R272, R273: a store whose lanes pass its checks leaves one access with the merged requests of its lanes and the data of D, and the group goes on.
The group of a pair, a contained or a struck team is not meant here (R363, R370, R372). -/
def Obligations.StoresSendTheirRequests : Prop :=
  ∀ (f : Enc) (s : State) (c : Ctx),
    let store (i : Instr) (sp : Space) (chk : Lane → LaneChk) (ea : Lane → DWord) : Prop :=
      Issues i noOwn s c →
        (c.act = 0 → Acts c s (exec i s)) ∧
        (c.act ≠ 0 → Passes c chk (piecesOf c.eff c.bytes fun l => (chk l).pa).length s →
          ∃ a : Access, a.kind = .store ∧ a.space = sp ∧ a.slot = c.slot ∧ a.uid = c.g.uid ∧ a.pc = c.pc ∧ a.lanes = c.act ∧ a.ord = c.e.ord ∧
            a.dest = none ∧ (∀ l : Lane, a.ea[l] = ea l) ∧
            (∀ l : Lane, a.data[l] = if c.e.func.getLsbD 0 then c.e.d.val128 c.rc l else (c.d .int l).setWidth 128) ∧
            (a.pieces.map fun p => (p.addr, p.size, p.parts)) = ((piecesOf c.eff c.bytes fun l => (chk l).pa).map fun p => (p.addr, p.size, p.parts)) ∧
            Acts c ((c.passed chk s).sendAccess a).2 (exec i s))
    store (.st f) .global (fun l => s.checkGlobal c.slot c.priv c.g.asid .store c.bytes c.bytes (c.gaddr c.xs l)) (c.gaddr c.xs) ∧
    store (.sts f) .spad (fun l => s.checkSpad c.slot c.bytes c.bytes (c.saddr c.xs l)) (fun l => BitVec.ofInt 64 (c.saddr c.xs l))

/-- R277, R278, R289: an atomic whose lanes pass leaves one access with its operation, type, operands and requests; atom, atom.cas and atoms wait for
its result in l0, red and arrive do not. The address of an atomic is A; an arrive adds once, at its lowest active lane. R279: an atomf leaves one
access with its operation and, for the forwarding, the scratchpad address in C of each lane and the barrier word in D of the lowest one; it returns no
register. -/
def Obligations.AtomicsSendTheirRequests : Prop :=
  (∀ (f : Enc) (s : State) (c : Ctx),
      let n := c.e.tyWidth / 8
      let glob (l : Lane) : LaneChk := s.checkGlobal c.slot c.priv c.g.asid .atomic n n (c.a .int l)
      let spad (l : Lane) : LaneChk := s.checkSpad c.slot n n (c.a .int l).toNat
      let sent (a : Access) (sp : Space) (ret : Bool) (chk : Lane → LaneChk) : Prop :=
        a.kind = .atomic (c.e.func.toNat % 16) c.e.ty ∧ a.space = sp ∧ a.slot = c.slot ∧ a.uid = c.g.uid ∧ a.pc = c.pc ∧ a.lanes = c.act ∧
        a.ord = c.e.ord ∧ a.bits = c.e.tyWidth ∧ a.dest = (if ret then some c.dest else none) ∧ (∀ l : Lane, a.ea[l] = c.a .int l) ∧
        (∀ l : Lane, a.data[l] = (c.b (tyOf .int c.e.ty) l).setWidth 128 ∧ a.data2[l] = c.c .int l) ∧
        (a.pieces.map fun p => (p.addr, p.size, p.parts)) = ((piecesOf c.eff n fun l => (chk l).pa).map fun p => (p.addr, p.size, p.parts))
      let returns (i : Instr) (sp : Space) (chk : Lane → LaneChk) : Prop :=
        Issues i noOwn s c → (c.act = 0 → Acts c s (exec i s)) ∧
          (c.act ≠ 0 → Passes c chk (piecesOf c.eff n fun l => (chk l).pa).length s → ∃ a, sent a sp true chk ∧
            ActsPending c ((c.passed chk s).sendAccess a).1 ((c.passed chk s).sendAccess a).2 (exec i s))
      let reduces (sp : Space) (chk : Lane → LaneChk) : Prop :=
        Issues (.red f) noOwn s c → (c.act = 0 → Acts c s (exec (.red f) s)) ∧
          (c.act ≠ 0 → Passes c chk (piecesOf c.eff n fun l => (chk l).pa).length s → ∃ a, sent a sp false chk ∧ Acts c ((c.passed chk s).sendAccess a).2 (exec (.red f) s))
      returns (.atom f) .global glob ∧ returns (.atomCas f) .global glob ∧ returns (.atoms f) .spad spad ∧
      (c.e.func.getLsbD 4 = false → reduces .global glob) ∧ (c.e.func.getLsbD 4 = true → reduces .spad spad) ∧
      (Issues (.arrive f) noOwn s c →
        (c.act = 0 → Acts c s (exec (.arrive f) s)) ∧
        (c.act ≠ 0 → Passes c (c.arriveChk s) 1 s →
          ∃ a : Access, a.kind = .atomic 0 7 ∧ a.space = (if c.e.func.getLsbD 0 then .spad else .global) ∧ a.slot = c.slot ∧ a.ord = c.e.ord ∧
            a.lanes = maskOf (fun l => l == lowLane c.act) ∧ a.dest = none ∧
            (∀ l : Lane, a.data[l] = if c.e.func.getLsbD 1 then BitVec.ofNat 128 (countLanes c.act) else c.ub.setWidth 128) ∧
            Acts c ((c.passed (c.arriveChk s) s).sendAccess a).2 (exec (.arrive f) s)))) ∧
  (∀ (f : Enc) (s : State) (c : Ctx), Issues (.atomf f) noOwn s c →
      (c.act = 0 → Acts c s (exec (.atomf f) s)) ∧
      (c.act ≠ 0 → Passes c (c.atomfChk s) (piecesOf c.eff (c.e.tyWidth / 8) fun l => (c.atomfChk s l).pa).length s →
        ∃ a : Access, a.kind = .atomic (c.e.func.toNat % 16) c.e.ty ∧ a.space = .global ∧ a.slot = c.slot ∧ a.lanes = c.eff ∧ a.dest = none ∧
          a.fwd = some (Vector.ofFn fun l => (c.c .int l).setWidth 32, (c.d .int (lowLane c.act)).setWidth 32) ∧
          Acts c ((c.passed (c.atomfChk s) s).sendAccess a).2 (exec (.atomf f) s)))

/-- R72, R133, R134: a load, store or atomic one of whose lanes fails is precise. When no lane waits for a walk, the record names the class that 05 Table 12 puts first among those raised, the lanes that raise it and the lowest one's
address; nothing is sent. -/
def Obligations.FailingLanesTrap : Prop :=
  ∀ (f : Enc) (s : State) (c : Ctx) (k : BitVec 8) (m : LaneMask) (sp : Space) (a : DWord) (nc : Bool) (lv : Nat) (pte : DWord),
    let class_ (chk : Lane → LaneChk) (l : Lane) : Option (BitVec 8) := match chk l with
      | .fault k _ _ _ _ _ => some k
      | _ => none
    let traps (i : Instr) (kind : Nat) (chk : Lane → LaneChk) : Prop :=
      Issues i noOwn s c → c.act ≠ 0 → (∀ l p, laneIn c.act l = true → chk l ≠ .wait p) → m ≠ 0 →
      (∀ l, laneIn m l = (laneIn c.act l && (class_ chk l == some k))) →
      (∀ l j, laneIn c.act l = true → class_ chk l = some j → classOrder.idxOf k ≤ classOrder.idxOf j) → k ∈ classOrder →
      chk (lowLane m) = .fault k (if sp = .spad then 1 else 0) a nc lv pte →
      exec i s = .next ((s.dropX c.cluster c.req).raise c.slot .retry
        { cls := k, lanes := m, kind := kind, space := if sp = .spad then 1 else 0, addr := a, noncan := nc, level := lv, pte := pte, pc := c.pc })
    let n := c.e.tyWidth / 8
    traps (.ld f) 0 (fun l => s.checkGlobal c.slot c.priv c.g.asid .load c.bytes c.bytes (c.gaddr c.xs l)) ∧
    traps (.st f) 1 (fun l => s.checkGlobal c.slot c.priv c.g.asid .store c.bytes c.bytes (c.gaddr c.xs l)) ∧
    traps (.lds f) 0 (fun l => s.checkSpad c.slot c.bytes c.bytes (c.saddr c.xs l)) ∧
    traps (.sts f) 1 (fun l => s.checkSpad c.slot c.bytes c.bytes (c.saddr c.xs l)) ∧
    traps (.ldc f) 0 (c.windowChk s) ∧
    traps (.atom f) 2 (fun l => s.checkGlobal c.slot c.priv c.g.asid .atomic n n (c.a .int l)) ∧
    traps (.atomCas f) 2 (fun l => s.checkGlobal c.slot c.priv c.g.asid .atomic n n (c.a .int l)) ∧
    traps (.atoms f) 2 (fun l => s.checkSpad c.slot n n (c.a .int l).toNat)

/-- R15, R16, R19, R22, R23, R72, R121: what the checks of one address find. A misaligned one is ALIGNMENT, one that is not canonical PAGE with
NONCAN; a translation gives the frame and the offset, and PRIVILEGE or PROTECTION where the leaf does not allow the access; the scratchpad takes
addresses up to the team's size. -/
def Obligations.AddressChecks : Prop :=
  ∀ (s : State) (slot : Nat) (priv : Bool) (asid n : Nat) (a : DWord) (r : Right),
    let chk := s.checkGlobal slot priv asid r n n a
    let spad := s.checkSpad slot n n a.toNat
    (n ≠ 0 → a.toNat % n ≠ 0 → chk = .fault 0x03 0 a false 0 0) ∧
    (a.toNat % n = 0 → 2 ^ 55 ≤ a.toNat → chk = .fault 0x01 0 a true 0 0) ∧
    (∀ e, a.toNat % n = 0 → a.toNat < 2 ^ 55 → (s.core (slotCore slot)).utlb.find? (·.hit asid a.toNat) = some e →
      (e.ty = 2 → priv = false → ∃ lv pte, chk = .fault 0x06 0 a false lv pte) ∧
      (¬ (e.ty = 2 ∧ priv = false) → e.permits r = false → ∃ lv pte, chk = .fault 0x02 0 a false lv pte) ∧
      (¬ (e.ty = 2 ∧ priv = false) → e.permits r = true → s.refuse priv r e.ty (e.frame + a.toNat % 2 ^ e.size) n = none →
        chk = .ok (e.frame + a.toNat % 2 ^ e.size) (some e))) ∧
    (2 ^ 32 ≤ a.toNat → ∃ w, spad = .fault 0x02 1 w false 0 0) ∧
    (a.toNat < 2 ^ 32 → a.toNat % n ≠ 0 → ∃ w, spad = .fault 0x03 1 w false 0 0) ∧
    (a.toNat < 2 ^ 32 → a.toNat % n = 0 → (s.team (s.group slot).team).spadSize < a.toNat + n → ∃ w, spad = .fault 0x02 1 w false 0 0) ∧
    (a.toNat < 2 ^ 32 → a.toNat % n = 0 → a.toNat + n ≤ (s.team (s.group slot).team).spadSize → spad = .ok a.toNat none)

/-- R275, R276: prefetch changes no register and asks for the lines of its lanes that translate to cached HBM; cctl.ivall and cctl.ivl make L1 words
invalid but the locally-written ones. R215: cctl.iall and cctl.il name lines of the instruction cache, and the group's next marker drops them. -/
def Obligations.PrefetchAndCacheControl : Prop :=
  ∀ (f : Enc) (s : State) (c : Ctx),
    let u (g : Core → Core) (s : State) : State := s.setCore c.core (g (s.core c.core))
    let chk (l : Lane) : LaneChk := s.checkGlobal c.slot c.priv c.g.asid .load 4 1 (c.gaddr c.xs l)
    let lines := ((lanesIn c.act).map fun l => (c.cctlChk s l).pa / 128)
    (Issues (.prefetch f) noOwn s c → c.act = 0 → Acts c s (exec (.prefetch f) s)) ∧
    (Issues (.prefetch f) noOwn s c → c.act ≠ 0 → (∀ l p, laneIn c.act l = true → chk l ≠ .wait p) →
      s.requests c.core + (c.prefetchLines chk).length ≤ 4096 →
      (c.prefetchLines chk = [] → Acts c (c.passed chk s) (exec (.prefetch f) s)) ∧
      (c.prefetchLines chk ≠ [] → ∃ a : Access, a.kind = .prefetch ∧ a.dest = none ∧ a.pieces.map Piece.addr = c.prefetchLines chk ∧
        Acts c ((c.passed chk s).sendAccess a).2 (exec (.prefetch f) s))) ∧
    (Issues (.cctl f) noOwn s c → c.act = 0 → Acts c s (exec (.cctl f) s)) ∧
    (Issues (.cctl f) noOwn s c → c.act ≠ 0 → c.e.func.toNat % 4 = 1 →
      Acts c (u (fun k => { k with l1 := k.l1.map fun x => (x.1, invLine x.2) }) s) (exec (.cctl f) s)) ∧
    (Issues (.cctl f) noOwn s c → c.act ≠ 0 → c.e.func.toNat % 4 = 3 →
      Acts c (s.updGroup c.slot fun g => { g with icAll := true }) (exec (.cctl f) s)) ∧
    (Issues (.cctl f) noOwn s c → c.act ≠ 0 → c.e.func.toNat % 4 = 0 → Passes c (c.cctlChk s) 0 s →
      Acts c (u (fun k => { k with l1 := k.l1.map fun x => if x.1 ∈ lines then (x.1, invLine x.2) else x }) (c.passed (c.cctlChk s) s))
        (exec (.cctl f) s)) ∧
    (Issues (.cctl f) noOwn s c → c.act ≠ 0 → c.e.func.toNat % 4 = 2 → Passes c (c.cctlChk s) 0 s →
      Acts c ((c.passed (c.cctlChk s) s).updGroup c.slot fun g => { g with icInv := g.icInv ++ lines.eraseDups }) (exec (.cctl f) s)) ∧
    (∀ slot a, (s.group slot).icAll = true ∨ a ∈ (s.group slot).icInv → SMap.find ((s.dropIcache slot).core (slotCore slot)).icache a = none)

/-! ### Copies, tags, fences and waits -/

/-- R280 to R283: an acp or acopy whose ends pass its checks becomes one numbered copy of 16-byte pieces, each with its source and its destination;
its tag counts one more copy under way and is not done. A swizzled destination keeps its offset's place among 16 bytes (R283). -/
def Obligations.CopiesStart : Prop :=
  ∀ (f : Enc) (s : State) (c : Ctx),
    (Issues (.acp f) noOwn s c → c.act = 0 → Acts c s (exec (.acp f) s)) ∧
    (Issues (.acp f) noOwn s c → c.act ≠ 0 → (s.copiesOf c.slot).length < 64 →
      (∀ l, laneIn c.act l = true → (c.acpChk s l).1.good = true ∧ (c.acpChk s l).2.good = true) →
      ∃ (u : State) (ps : List CopyPiece), u.mem = s.mem ∧ u.groups = s.groups ∧ u.copies = s.copies ∧
        (ps.map fun p => (p.src, p.dst)) = ((lanesIn c.act).map fun l => ((c.acpChk s l).1.pa, (c.acpChk s l).2.pa)) ∧
        Acts c (c.sendCopy u ps none none) (exec (.acp f) s)) ∧
    (Issues (.acopy f) noOwn s c → c.act = 0 → Acts c s (exec (.acopy f) s)) ∧
    (Issues (.acopy f) noOwn s c → c.act ≠ 0 → (s.copiesOf c.slot).length < 64 →
      ∀ es, c.acopyChks s = .ok es →
      let n := c.ub.toNat % 2 ^ 32
      let swzOff (o : Nat) : Nat := if optSwz c.uc then swz o (optSpan c.uc) else o
      ∃ (u : State) (ps : List CopyPiece), u.mem = s.mem ∧ u.groups = s.groups ∧ u.copies = s.copies ∧
        (ps.map fun p => (p.src, p.dst)) = ((List.range (n / 16)).map fun k =>
          ((c.copyEnd s c.ssp .load (c.ua + BitVec.ofNat 64 (16 * k))).pa,
           (c.copyEnd s c.dsp .store (c.copyDst + BitVec.ofNat 64 (swzOff (16 * k)))).pa)) ∧
        Acts c (c.sendCopy u ps (if optArv c.uc then some (optTgt c.uc) else none) (if optTdc c.uc then some (optTgt c.uc) else none))
          (exec (.acopy f) s)) ∧
    (∀ (u : State) (ps : List CopyPiece) (arv tdc : Option Word),
      let v := c.sendCopy u ps arv tdc
      let t := c.e.func.toNat % 16
      v.mem = u.mem ∧ ((v.group c.slot).tag t).pend = ((u.group c.slot).tag t).pend + 1 ∧ ((v.group c.slot).tag t).done = false ∧
      (∀ j, j ≠ t → (v.group c.slot).tag j = (u.group c.slot).tag j) ∧
      ∃ k, SMap.find v.copies u.nextId = some k ∧ k.pieces = ps.map (fun p => { p with since := u.cycle }) ∧ k.tag = t ∧ k.slot = c.slot ∧ k.arv = arv ∧ k.tdc = tdc)

/-- R284: twaitany and tffs return the lowest tag of the mask that is done, clear it with CLR and acquire; with none done tffs returns all ones, and
twaitany parks while some tag of the mask has copies under way; twaitall returns the done bits of the mask when none has. -/
def Obligations.TagInstructionsAct : Prop :=
  ∀ (f : Enc) (s : State) (c : Ctx) (m : BitVec 16), (∀ l, laneIn c.act l = true → c.a .int l = c.ua) → m = c.ua.setWidth 16 →
    let done (t : Nat) : Prop := t < 16 ∧ m.getLsbD t = true ∧ (c.g.tag t).done = true
    let pend : Prop := ∃ t, t < 16 ∧ m.getLsbD t = true ∧ (c.g.tag t).pend ≠ 0
    let clr := c.e.func.getLsbD 0
    let taken (t : Nat) : State := (if clr then s.updGroup c.slot fun g => g.clearTag t else s).acquireInval c.core
    let low (i : Instr) : Prop := Issues i noOwn s c → (c.act = 0 → ComputesUniform c 0 s (exec i s)) ∧
      (c.act ≠ 0 → ∀ t, done t → (∀ j, j < t → ¬ done j) → ComputesUniform c (BitVec.ofNat 64 t) (taken t) (exec i s))
    low (.tffs f) ∧ low (.twaitany f) ∧
    (Issues (.tffs f) noOwn s c → c.act ≠ 0 → (∀ t, ¬ done t) → ComputesUniform c 0xFFFFFFFF s (exec (.tffs f) s)) ∧
    (Issues (.twaitany f) noOwn s c → c.act ≠ 0 → (∀ t, ¬ done t) → ¬ pend → ComputesUniform c 0xFFFFFFFF s (exec (.twaitany f) s)) ∧
    (Issues (.twaitany f) noOwn s c → c.act ≠ 0 → (∀ t, ¬ done t) → pend →
      Acts c (s.block c.slot (.tagAny m clr c.dest)) (exec (.twaitany f) s)) ∧
    (Issues (.twaitall f) noOwn s c → c.act = 0 → ComputesUniform c 0 s (exec (.twaitall f) s)) ∧
    (Issues (.twaitall f) noOwn s c → c.act ≠ 0 → ¬ pend → ∃ x : DWord, (∀ t, x.getLsbD t = true ↔ done t) ∧
      ComputesUniform c x (s.acquireInval c.core) (exec (.twaitall f) s)) ∧
    (Issues (.twaitall f) noOwn s c → c.act ≠ 0 → pend → Acts c (s.block c.slot (.tagAll m c.dest)) (exec (.twaitall f) s))

/-- R78, R79, R285: fissue takes the lowest free token, which records what its mask covers; with none free it stays at issue. fwait goes on where its
token, or with 16 or more every token, is complete, and otherwise parks; fence takes a token and waits for it. -/
def Obligations.FencesAct : Prop :=
  ∀ (f : Enc) (s : State) (c : Ctx),
    let out (t : Nat) : Prop := (SMap.find c.g.ftok t).isSome = true
    let lowest (t : Nat) : Prop := t < 16 ∧ ¬ out t ∧ ∀ j, j < t → out j
    let mask : Word := c.ua.setWidth 32
    let k := c.ua.toNat % 2 ^ 32
    (Issues (.fissue f) noOwn s c → c.act = 0 → ComputesUniform c 0 s (exec (.fissue f) s)) ∧
    (Issues (.fissue f) noOwn s c → c.act ≠ 0 → ∀ t, lowest t →
      ComputesUniform c (BitVec.ofNat 64 t) (s.takeToken c.slot t mask) (exec (.fissue f) s)) ∧
    (Issues (.fissue f) noOwn s c → c.act ≠ 0 → (∀ t, t < 16 → out t) → exec (.fissue f) s = .next s) ∧
    (Issues (.fwait f) noOwn s c → c.act = 0 ∨ (k < 16 ∧ ¬ out k) ∨ (16 ≤ k ∧ ∀ p ∈ c.g.ftok, 16 ≤ p.1) → Acts c s (exec (.fwait f) s)) ∧
    (Issues (.fwait f) noOwn s c → c.act ≠ 0 → k < 16 → out k → Acts c (s.block c.slot (.fence k)) (exec (.fwait f) s)) ∧
    (Issues (.fwait f) noOwn s c → c.act ≠ 0 → 16 ≤ k → (∃ p ∈ c.g.ftok, p.1 < 16) → Acts c (s.block c.slot (.fence 16)) (exec (.fwait f) s)) ∧
    (Issues (.fence f) noOwn s c → c.act = 0 → Acts c s (exec (.fence f) s)) ∧
    (Issues (.fence f) noOwn s c → c.act ≠ 0 → ∀ t, lowest t →
      Acts c ((s.takeToken c.slot t mask).block c.slot (.fence t)) (exec (.fence f) s)) ∧
    (∀ (t : Nat) (mk : Word),
      let v := s.takeToken c.slot t mk
      SMap.find (v.group c.slot).ftok t = some (s.fenceItems c.slot (fenceClasses mk)) ∧ v.mem = s.mem ∧
      fenceClasses 0 = 31 ∧ (2 ^ 5 ≤ mk.toNat → fenceClasses mk = 31) ∧ (0 < mk.toNat → mk.toNat < 2 ^ 5 → (fenceClasses mk).toNat = mk.toNat))

/-- R111, R290 to R292: a wait whose word passes its checks goes to the word's arbiter with its comparison, operand and deadline, and the group parks;
nsleep parks for the nanoseconds of A, and for 0 only ends the run (log 19, the model's choice). -/
def Obligations.WaitsPark : Prop :=
  ∀ (f : Enc) (s : State) (c : Ctx),
    (Issues (.wait f) waitOwn s c → c.act = 0 → Acts c s (exec (.wait f) s)) ∧
    (Issues (.wait f) waitOwn s c → c.act ≠ 0 → c.g.wait = none → Passes c (c.waitChk s) 1 s →
      ∃ (u : State) (w : WaitReq), w.pc = c.pc ∧ w.ea = c.ua ∧ w.addr = (c.waitChk s (lowLane c.act)).pa ∧ w.sp = c.e.func.getLsbD 4 ∧
        w.w64 = c.e.func.getLsbD 3 ∧ w.cmp = c.e.func.setWidth 3 ∧ w.acq = c.e.ord.getLsbD 0 ∧ w.lanes = c.act ∧ w.d = c.dest ∧
        w.opnd = (if c.e.func.getLsbD 3 then c.ub else (c.ub.setWidth 32 : Word).setWidth 64) ∧
        w.deadline = (if c.uc = 0 then 0 else s.tstamp + c.uc) ∧
        u.mem = s.mem ∧ u.waits = s.waits ++ [(c.slot, c.g.uid)] ∧ (u.group c.slot).wait = some w ∧
        (∀ k, k ≠ c.slot → u.group k = s.group k) ∧ SameRegs (s.group c.slot) (u.group c.slot) ∧
        Acts c (u.block c.slot .wait) (exec (.wait f) s)) ∧
    (Issues (.nsleep f) noOwn s c → c.act = 0 → Acts c s (exec (.nsleep f) s)) ∧
    (Issues (.nsleep f) noOwn s c → c.act ≠ 0 → c.ua.toNat % 2 ^ 32 ≠ 0 →
      Acts c (s.block c.slot (.nsleep (s.tstamp.toNat + c.ua.toNat % 2 ^ 32))) (exec (.nsleep f) s)) ∧
    (Issues (.nsleep f) noOwn s c → c.act ≠ 0 → c.ua.toNat % 2 ^ 32 = 0 → ActsAndEnds c s (exec (.nsleep f) s)) ∧
    (∀ (slot : Nat) (b : Block),
      let u := s.block slot b
      b ∈ (u.group slot).blocks ∧ u.mem = s.mem ∧ SameRegs (s.group slot) (u.group slot) ∧ ∀ k, k ≠ slot → u.group k = s.group k)

/-! ### The matrix unit and tasks -/

/-- R294, R295, R308, R309: a tile instruction enters the queue of its core behind what is there, with its tile, operands and, for mld, mst and mcvt,
the token that counts ISSUESEQ on and that D receives; mrd's destination waits for the row. While the queue is full it stays at issue. -/
def Obligations.TileInstructionsQueue : Prop :=
  ∀ (f : Enc) (s : State) (c : Ctx),
    let j := c.core - (s.team c.g.team).core
    let room := (s.core c.core).mqRoom
    let row := c.ua.toNat % 2 ^ 32
    let is (o : MatOp) (op : Nat) : Prop := o.op = op ∧ o.func = c.e.func ∧ o.team = c.g.team ∧ o.slot = c.slot ∧ o.lanes = c.act ∧ o.pc = c.pc ∧
      o.st = .queued
    let enters (u : State) (o : MatOp) : Prop := (u.core c.core).mq = (s.core c.core).mq ++ [o] ∧ u.mem = s.mem ∧ u.groups = s.groups
    let mem (i : Instr) (op w : Nat) : Prop :=
      Issues i tileOk s c → (c.act = 0 → ComputesUniform c 0 s (exec i s)) ∧
        (c.act ≠ 0 → c.ua.toNat % 16 = 0 → (c.ub.toNat % 2 ^ 32) % 16 = 0 → 64 * w ≤ c.ub.toNat % 2 ^ 32 →
          (c.e.func.getLsbD 3 = true → row + 63 * (c.ub.toNat % 2 ^ 32) + 64 * w ≤ (s.team c.g.team).spadSize) →
          (s.holdAccess c.slot = true ∨ room = false → exec i s = .next s) ∧
          (s.holdAccess c.slot = false → room = true →
            ∃ (u : State) (o : MatOp), is o op ∧ o.addr = c.ua ∧ o.stride = c.ub.setWidth 32 ∧ o.hasTok = true ∧
              o.tok = BitVec.ofNat 32 (2 ^ 31 + j * 2 ^ 16 + ((s.team c.g.team).tileSeq j).issue.toNat) ∧ enters u o ∧
              ((u.team c.g.team).tileSeq j).issue = ((s.team c.g.team).tileSeq j).issue + 1 ∧
              ComputesUniform c (o.tok.setWidth 64) u (exec i s)))
    (Issues (.mzero f) tileOk s c → (c.act = 0 → Acts c s (exec (.mzero f) s)) ∧
      (c.act ≠ 0 → room = false → exec (.mzero f) s = .next s) ∧
      (c.act ≠ 0 → room = true → ∃ u o, is o 0xD1 ∧ o.hasTok = false ∧ enters u o ∧ Acts c u (exec (.mzero f) s))) ∧
    mem (.mld f) 0xD2 4 ∧ mem (.mst f) 0xD3 4 ∧ (c.e.ty.toNat ∈ [9, 10, 11] → mem (.mcvt f) 0xD6 (codeWidth (c.e.ty.setWidth 8) / 8)) ∧
    (Issues (.mrd f) tileOk s c → (c.act = 0 → ComputesUniform c 0 s (exec (.mrd f) s)) ∧
      (c.act ≠ 0 → row < 64 → room = false → exec (.mrd f) s = .next s) ∧
      (c.act ≠ 0 → row < 64 → room = true →
        ∃ u o, is o 0xD4 ∧ o.trow = c.ua.toNat ∧ o.dest = some c.dest ∧ enters u o ∧ ActsPending c o.id u (exec (.mrd f) s))) ∧
    (Issues (.mwr f) mwrOwn s c → (c.act = 0 → Acts c s (exec (.mwr f) s)) ∧
      (c.act ≠ 0 → row < 64 → room = false → exec (.mwr f) s = .next s) ∧
      (c.act ≠ 0 → row < 64 → room = true →
        ∃ u o, is o 0xD5 ∧ o.trow = c.ua.toNat ∧ (∀ l : Lane, o.vals[l] = c.d .int l) ∧ enters u o ∧ Acts c u (exec (.mwr f) s)))

/-- R301, R304, R305: mma is a sign with its operands, and D receives the token of the generation in which it counts; mofence drops what the team's
cores have staged; mwait answers 2 for an invalid token, the status of a finished one, and otherwise parks. -/
def Obligations.MmaAndItsWaits : Prop :=
  ∀ (f : Enc) (s : State) (c : Ctx),
    let n := c.e.func.toNat % 16
    let t := s.team c.g.team
    let r := t.cvReg n
    let ops : MmaOps := { a := c.e.a.val128 c.rc (lowLane c.act), b := c.e.b.val128 c.rc (lowLane c.act), c := c.uc.setWidth 32 }
    let gen : BitVec 16 := r.signGen c.g.gidx c.act
    let goes : Prop := s.holdAccess c.slot = false ∧ r.justSet s.cycle = false
    let inTime : Prop := goes ∧ s.cvLate c.g.team n = false
    let tok := gen.toNat * 16 + n
    let w : Word := c.ua.setWidth 32
    (Issues (.mma f) signOk s c → c.act = 0 → ComputesUniform c 0 s (exec (.mma f) s)) ∧
    (c.act &&& r.signedOf c.g.gidx = 0 → gen = r.gen) ∧
    (Issues (.mma f) signOk s c → c.act ≠ 0 → ¬ goes → exec (.mma f) s = .next s) ∧
    (Issues (.mma f) signOk s c → c.act ≠ 0 → inTime → r.st = .faulted →
      Acts c (s.lateFault c.slot (syncFault n 0x07 6 c.pc c.next c.act c.act)) (exec (.mma f) s)) ∧
    (Issues (.mma f) signOk s c → c.act ≠ 0 → inTime → r.st ≠ .faulted →
      ComputesUniform c (BitVec.ofNat 64 tok)
        ((s.cvSign c.slot n c.act (some ops) c.pc c.next (s.allOpen c.slot)).updGroup c.slot fun g =>
          { g with mmaOut := g.mmaOut ++ [(BitVec.ofNat 32 tok, s.mmaCore c.g.team n * 8 + ops.c.toNat % 8, ops)] })
        (exec (.mma f) s)) ∧
    (Issues (.mofence f) noOwn s c → c.act = 0 → Acts c s (exec (.mofence f) s)) ∧
    (Issues (.mofence f) noOwn s c → c.act ≠ 0 → ∃ u,
      (∀ k, u.core k = if t.core ≤ k ∧ k < t.core + t.cores then { s.core k with staged := [] } else s.core k) ∧
      u.mem = s.mem ∧ u.groups = s.groups ∧ Acts c u (exec (.mofence f) s)) ∧
    (Issues (.mwait f) noOwn s c → c.act = 0 → ComputesUniform c 0 s (exec (.mwait f) s)) ∧
    (Issues (.mwait f) noOwn s c → c.act ≠ 0 → tokenInvalid t w = true → ComputesUniform c 2 s (exec (.mwait f) s)) ∧
    (Issues (.mwait f) noOwn s c → c.act ≠ 0 → tokenInvalid t w = false → t.tokenDone w = true →
      ComputesUniform c (BitVec.ofNat 64 (t.tokenStatus w)) ((s.updGroup c.slot fun g => g.mmaWaited t).acquireInval c.core) (exec (.mwait f) s)) ∧
    (Issues (.mwait f) noOwn s c → c.act ≠ 0 → tokenInvalid t w = false → t.tokenDone w = false →
      Acts c (s.block c.slot (.mwait w c.dest)) (exec (.mwait f) s))

/-- R310, R311: mdrain enters the queue of every core of the team and D receives its token; mfill, with no record area, loads the team's tiles from
the tile areas and changes no queue; mresume makes the held operations that its token names go on. -/
def Obligations.DrainingAndRefilling : Prop :=
  ∀ (f : Enc) (s : State) (c : Ctx),
    let tm := c.g.team
    let t := s.team tm
    let w : Word := c.ua.setWidth 32
    let named (o : MatOp) : Prop := o.team = tm ∧ (w = 0xFFFFFFFF ∨ (o.hasTok = true ∧ o.tok = w))
    let mine (k : Nat) : Prop := t.core ≤ k ∧ k < t.core + t.cores
    let key (s : State) (k e : Nat) : Nat := (s.core k).physTile tm (e / 4096) * 4096 + e % 4096
    (Issues (.mdrain f) drainOwn s c → c.act = 0 → ComputesUniform c 0 s (exec (.mdrain f) s)) ∧
    (Issues (.mdrain f) drainOwn s c → c.act ≠ 0 → c.ua.toNat % 64 = 0 → c.ub.toNat % 64 = 0 → c.uc.toNat % 64 = 0 → s.holdAccess c.slot = false →
      (∀ k, mine k → (s.core k).mqRoom = true) →
      ∃ (u : State) (o : MatOp), o.op = 0xD9 ∧ o.addr = c.ua ∧ o.addr2 = c.uc ∧ o.addr3 = c.ub ∧ u.mem = s.mem ∧ u.groups = s.groups ∧
        (∀ k, mine k → ∃ p, (u.core k).mq = (s.core k).mq ++ [p] ∧ p = { o with part := k - t.core, hasTok := o.hasTok && k == c.core }) ∧
        ComputesUniform c (o.tok.setWidth 64) u (exec (.mdrain f) s)) ∧
    (Issues (.mfill f) drainOwn s c → c.act = 0 → Acts c s (exec (.mfill f) s)) ∧
    (Issues (.mfill f) drainOwn s c → c.act ≠ 0 → c.ub = 0 → c.ua.toNat % 64 = 0 → c.uc.toNat % 64 = 0 → s.holdAccess c.slot = false →
      s.allOpen c.slot = [] → (∀ a ∈ c.fillBlocks s t, (c.blockChk s a).good = true) →
      ∀ v : State, s.lineReads c.cluster 64 ((c.fillBlocks s t).map fun a => (c.blockChk s a).pa) = .ok v →
      (∀ k, mine k → ∀ i j, i < t.acc → j < t.acc → (v.core k).physTile tm i = (v.core k).physTile tm j → i = j) →
      ∃ u : State, u.mem = v.mem ∧ u.groups = v.groups ∧
        (∀ k, mine k → (u.core k).mq = (v.core k).mq ∧ ∀ e, e < t.acc * 4096 →
          (u.core k).tileAt (key v k e) =
            (c.fillWord s (tileArea c.ua c.uc (k - t.core) + BitVec.ofNat 64 (4 * e / 8 * 8))).extractLsb' (32 * (e % 2)) 32) ∧
        Acts c u (exec (.mfill f) s)) ∧
    (Issues (.mresume f) noOwn s c → c.act = 0 → Acts c s (exec (.mresume f) s)) ∧
    (Issues (.mresume f) noOwn s c → c.act ≠ 0 → (∀ k, mine k → ∀ o ∈ (s.core k).mq, named o → o.st ≠ .frozen) →
      ∃ u : State, u.mem = s.mem ∧ u.groups = s.groups ∧
        (∀ k, mine k → ∀ o ∈ (s.core k).mq, named o → o.st = .held → ∃ p ∈ (u.core k).mq, p.id = o.id ∧ p.st = .queued) ∧
        Acts c u (exec (.mresume f) s))

/-- R315 to R328: the statuses and effects of tspawn, tarm and tlaunch once their record has been read, and of tdec, tdone and tget. -/
def Obligations.TaskInstructionsAct : Prop :=
  ∀ (f : Enc) (s : State) (c : Ctx),
    let rcb := c.g.rcb
    let stat (n : Nat) : DWord := BitVec.ofNat 64 n
    let idx (l : Lane) : Nat := (c.a .int l).toNat % 2 ^ 32
    (Issues (.tspawn f) noOwn s c → c.act = 0 → ComputesUniform c 0 s (exec (.tspawn f) s)) ∧
    (Issues (.tspawn f) noOwn s c → c.act ≠ 0 → c.ua.toNat % 64 ≠ 0 → ComputesUniform c 6 s (exec (.tspawn f) s)) ∧
    (∀ ws v, Issues (.tspawn f) noOwn s c → c.act ≠ 0 → c.ua.toNat % 64 = 0 → c.readRec s c.ua 8 = .ok ws v →
      (v.taskStatus rcb ws ≠ 0 → ComputesUniform c (stat (v.taskStatus rcb ws)) v (exec (.tspawn f) s)) ∧
      (v.taskStatus rcb ws = 0 → v.room useTask rcb = false → ComputesUniform c 3 v (exec (.tspawn f) s)) ∧
      (v.taskStatus rcb ws = 0 → v.room useTask rcb = true →
        ComputesUniform c 0 ((v.charge useTask rcb 1).ready c.cluster (c.captureTask v c.ua ws true)) (exec (.tspawn f) s))) ∧
    (Issues (.tarm f) noOwn s c → c.act = 0 → ComputesUniform c 0 s (exec (.tarm f) s)) ∧
    (Issues (.tarm f) noOwn s c → c.act ≠ 0 → s.ctrn rcb ≤ c.ua.toNat % 2 ^ 32 →
      exec (.tarm f) s = .next (s.raise c.slot .retry { cls := 0x02, lanes := c.act, kind := 7, space := 3, addr := c.ua, pc := c.pc })) ∧
    (Issues (.tarm f) noOwn s c → c.act ≠ 0 → c.ua.toNat % 2 ^ 32 < s.ctrn rcb → c.e.func.getLsbD 0 = true →
      ∃ a : PendArm, a.idx = c.ua.toNat % 2 ^ 32 ∧ a.clr = true ∧ a.rcb = rcb ∧ a.dest = c.dest ∧
        ActsPending c s.nextId { s with nextId := s.nextId + 1, arms := SMap.set s.arms s.nextId a } (exec (.tarm f) s)) ∧
    (∀ ws v, Issues (.tarm f) noOwn s c → c.act ≠ 0 → c.ua.toNat % 2 ^ 32 < s.ctrn rcb → c.e.func.getLsbD 0 = false → c.uc.toNat % 64 = 0 →
      c.readRec s c.uc 8 = .ok ws v → v.taskStatus rcb ws = 0 →
      ∃ a : PendArm, a.idx = c.ua.toNat % 2 ^ 32 ∧ a.clr = false ∧ a.rcb = rcb ∧ a.dest = c.dest ∧ a.init = (c.ub.setWidth 32 : Word).toInt ∧
        a.task.entry = ws.getD 0 0 ∧ a.task.addr = c.uc ∧
        ActsPending c v.nextId { v with nextId := v.nextId + 1, arms := SMap.set v.arms v.nextId a } (exec (.tarm f) s)) ∧
    (Issues (.tdec f) noOwn s c → c.act = 0 → Acts c s (exec (.tdec f) s)) ∧
    (Issues (.tdec f) noOwn s c → c.act ≠ 0 → (∀ l, laneIn c.act l = true → idx l < s.ctrn rcb) →
      ∃ u : State, u.mem = s.mem ∧ u.groups = s.groups ∧
        (∀ l, laneIn c.act l = true → ∃ id d, SMap.find u.decs id = some d ∧ d.idx = idx l ∧ d.rcb = rcb ∧ d.once = false ∧
          ∀ k, laneIn d.lanes k = (laneIn c.act k && idx k == idx l)) ∧
        Acts c u (exec (.tdec f) s)) ∧
    (∀ t, Issues (.tdone f) tdoneOwn s c → c.g.task = some t → (∀ i ∈ t.succs, i < s.ctrn rcb) →
      Passes c (fun _ => if t.cwaddr = 0 then .ok 0 none else s.checkGlobal c.slot c.priv c.g.asid .store 4 4 t.cwaddr) 1 s →
      ∃ u : State, (u.group c.slot).taskrec = 0 ∧ (u.group c.slot).task = none ∧ SameRegs c.g (u.group c.slot) ∧
        Goes c (fun _ => c.g.taskret) u (exec (.tdone f) s)) ∧
    (Issues (.tlaunch f) noOwn s c → c.act = 0 → ComputesUniform c 0 s (exec (.tlaunch f) s)) ∧
    (Issues (.tlaunch f) noOwn s c → c.act ≠ 0 → c.ua.toNat % 128 ≠ 0 → ComputesUniform c 6 s (exec (.tlaunch f) s)) ∧
    (∀ ws v, Issues (.tlaunch f) noOwn s c → c.act ≠ 0 → c.ua.toNat % 128 = 0 → c.readRec s c.ua 16 = .ok ws v →
      let depth := (SMap.get v.launches (v.team c.g.team).launch {}).depth + 1
      let st := v.submitStatus ws (some (rcb, v.descOf c.slot)) depth
      (st ≠ 0 → ComputesUniform c (stat st) v (exec (.tlaunch f) s)) ∧
      (st = 0 → ComputesUniform c 0 (v.enqueueLaunch ws c.ua depth rcb (v.descOf c.slot) c.cluster false (v.allOpen c.slot)) (exec (.tlaunch f) s))) ∧
    (∀ t, Issues (.tget f) tgetOwn s c → firstTask (s.takeable rcb s.cycle) (s.cluster c.cluster).ready = some t →
      ∃ u : State, (u.group c.slot).taskrec = t.addr ∧ (u.group c.slot).taskret = c.next ∧ (u.group c.slot).task = some t ∧
        (u.cluster c.cluster).ready = (s.cluster c.cluster).ready.erase t ∧ u.mem = s.mem ∧
        (∀ r l, (u.group c.slot).raw r l = (c.g.writeDest c.dest (uniform t.addr)).raw r l) ∧
        Goes c (fun _ => t.entry) u (exec (.tget f) s)) ∧
    (Issues (.tget f) tgetOwn s c → firstTask (s.takeable rcb s.cycle) (s.cluster c.cluster).ready = none →
      Acts c (s.block c.slot (.tget c.dest s.cycle)) (exec (.tget f) s))

/-! ### System instructions and exceptions -/

/-- R249, R250: srd gives the value of the register named, each lane its own of PREDW and TRAPRET; swr writes the register in the active lanes, and
changes no other special register, no general register and no memory. -/
def Obligations.SpecialRegistersReadAndWrite : Prop :=
  ∀ (f : Enc) (s : State) (c : Ctx),
    let n := c.e.func.toNat
    let u := s.updGroup c.slot fun g => g.swr n c.act (c.a .int)
    let h := u.group c.slot
    let g := s.group c.slot
    let x := c.a .int (lowLane c.act)
    (Issues (.srd f) (fun c _ => srFate c false) s c → Computes c (fun l => BitVec.ofNat 128 (c.srd s l)) noFlags s (exec (.srd f) s)) ∧
    (n = 0x01 → ∀ l, c.srd s l = c.slot / 1024) ∧ (n = 0x0F → ∀ l, c.srd s l = c.g.asid) ∧ (n = 0x10 → ∀ l, c.srd s l = c.act.toNat) ∧
    (n = 0x12 → ∀ l, c.srd s l = c.g.exited.toNat) ∧ (n = 0x19 → ∀ l, c.srd s l = c.g.fmode.toNat) ∧ (n = 0x20 → ∀ l, c.srd s l = s.tstamp.toNat) ∧
    (n = 0x21 → ∀ l, c.srd s l = s.hub.memcap) ∧ (n = 0x6C → ∀ l, c.srd s l = c.g.trapvec.toNat) ∧ (n = 0x6E → ∀ l, c.srd s l = (c.g.trapret[l]).toNat) ∧
    (Issues (.swr f) (fun c _ => srFate c true) s c → (c.act = 0 → Acts c s (exec (.swr f) s)) ∧ (c.act ≠ 0 → Acts c u (exec (.swr f) s))) ∧
    (n = 0x13 → ∀ l : Lane, h.pw[l] = if laneIn c.act l then ((c.a .int l).setWidth 8 &&& 0x7F : Byte) else g.pw[l]) ∧
    h.fstat = (if n = 0x18 then x.setWidth 6 else g.fstat) ∧ h.fmode = (if n = 0x19 then x.setWidth 2 else g.fmode) ∧
    h.savearea = (if n = 0x32 then x else g.savearea) ∧ h.grpstate = (if n = 0x33 then x.setWidth 32 else g.grpstate) ∧
    h.trapvec = (if n = 0x6C then x else g.trapvec) ∧ h.uivec = (if n = 0x6D then x else g.uivec) ∧
    (∀ l : Lane, h.trapret[l] = if n = 0x6E ∧ laneIn c.act l = true then c.a .int l else g.trapret[l]) ∧
    h.uimask = (if n = 0x72 then x.setWidth 32 else g.uimask) ∧ h.uipend = (if n = 0x73 then g.uipend &&& ~~~ (x.setWidth 32) else g.uipend) ∧
    (∀ r l, realReg r → r ≠ regP → r ≠ regF → h.raw r l = g.raw r l)

/-- R249, 10 Table 13: the access of a special register in the two views, and the class of the first fate that holds; such an srd or swr is precise.
-/
def Obligations.SpecialRegisterFates : Prop :=
  ∀ (f : Enc) (s : State) (c : Ctx) (k : BitVec 8),
    let lanes : LaneMask := if k = 0x06 then c.act else (s.group c.slot).batch
    (Issues (.srd f) noOwn s c → srFate c false = some k →
      exec (.srd f) s = .next (s.raise c.slot .retry { cls := k, lanes := lanes, pc := c.pc })) ∧
    (Issues (.swr f) noOwn s c → srFate c true = some k →
      exec (.swr f) s = .next (s.raise c.slot .retry { cls := k, lanes := lanes, pc := c.pc })) ∧
    (c.e.func = 0x12 → c.e.ty = 0 → c.e.a.perLane = false → srFate c true = some 0x05) ∧
    (c.e.func = 0x30 → c.e.ty = 0 → c.priv = false → srFate c false = some 0x06) ∧ (c.e.func = 0x30 → c.e.ty = 0 → c.priv = true → srFate c false = none) ∧
    (∀ r, c.e.func = 0x13 → c.e.ty = 0 → c.e.d = .s r → srFate c false = some 0x05) ∧ (c.e.func = 0x01 → c.e.ty = 8 → srFate c false = some 0x05)

/-- R329: scall makes its lanes call-parked, hands one call with the words of v8 to v14 to the call gate, and ends the run; the group parks when no
lane of it can go on. -/
def Obligations.ScallParksItsLanes : Prop :=
  ∀ (f : Enc) (s : State) (c : Ctx), Issues (.scall f) noOwn s c →
    (c.act = 0 → ActsAndEnds c s (exec (.scall f) s)) ∧
    (c.act ≠ 0 → ∃ (u : State) (k : Call), k.slot = c.slot ∧ k.uid = c.g.uid ∧ k.lanes = c.act ∧ k.left = c.act ∧ k.pc = c.pc ∧
      (c.g.routine = false → k.all = c.e.func.getLsbD 0) ∧
      (∀ j, j < 7 → ∀ l : Lane, (SMap.get k.args j (lanesOf 0))[l] = c.g.word c.rc.ctr (8 + j) l) ∧
      (u.cluster c.cluster).callWait = (s.cluster c.cluster).callWait ++ [k] ∧ (u.group c.slot).callParked = c.g.callParked ||| c.act ∧
      (c.g.exited ||| c.g.callParked ||| c.act = ~~~ 0 → Block.scall ∈ (u.group c.slot).blocks) ∧
      u.mem = s.mem ∧ SameRegs c.g (u.group c.slot) ∧ ActsAndEnds c u (exec (.scall f) s))

/-- R330: trap and bkpt write a record of CLASS 0x12 or 0x11 with KIND 7, SPACE 3, the code as ADDR and the active lanes as LANES, and park the group
on it; they change no register and move no lane. -/
def Obligations.TrapsTakeTheirException : Prop :=
  ∀ (f : Enc) (s : State) (c : Ctx),
    let taken (i : Instr) (k : BitVec 8) : Prop :=
      Issues i noOwn s c → (c.act = 0 → Acts c s (exec i s)) ∧
        (c.act ≠ 0 → c.e.sw = false → exec i s = .next (s.raise c.slot (.skip c.len)
          { cls := k, lanes := c.act, kind := 7, space := 3, addr := (c.ua.setWidth 32 : Word).setWidth 64, pc := c.pc })) ∧
        (c.act ≠ 0 → c.e.sw = true → exec i s = .next ((s.raise c.slot (.skip c.len)
          { cls := k, lanes := c.act, kind := 7, space := 3, addr := (c.ua.setWidth 32 : Word).setWidth 64, pc := c.pc }).updGroup c.slot fun g =>
            { g with midRun := none })) ∧
        (c.act ≠ 0 → (s.team c.g.team).pre = .none_ → ∃ t, exec i s = .next t ∧ (t.group c.slot).st = .blocked ∧
          Block.fault ∈ (t.group c.slot).blocks ∧ SameRegs c.g (t.group c.slot) ∧ (t.group c.slot).pc = c.g.pc)
    taken (.trap f) 0x12 ∧ taken (.bkpt f) 0x11

/-- R133, R135, R162: TAKING AN EXCEPTION. The record holds SEQ, CLASS, LANES and PC, and goes to the queue of the group's cluster or, while that is
full, waits for it; the group is blocked on its answer and keeps its run, and no register, no PC, no byte of memory and no other group changes. A
POISON record may also strike a contained team (R372), and a pre-emption that has been requested finds the group BLOCKED (R174): neither is meant
here. -/
def Obligations.ExceptionEntry : Prop :=
  ∀ (s : State) (slot : Nat) (m : FaultMode) (f : FaultInfo),
    let t := s.raise slot m f
    let g := s.group slot
    let h := t.group slot
    let c := s.cluster (slotCluster slot)
    let c' := t.cluster (slotCluster slot)
    f.cls ≠ 0x08 → (s.team g.team).pre = .none_ → f.kind < 8 → f.space < 4 → f.level < 4 →
    h.st = .blocked ∧ h.blocks = .fault :: g.blocks ∧ h.pc = g.pc ∧ h.exited = g.exited ∧ SameRegs g h ∧ h.fstat = g.fstat ∧
    (∃ k, h.midRun = some k ∧ k.batch = g.batch ∧ k.count = g.count ∧ k.q = g.q ∧ k.l0 = (s.part (slotPart slot)).l0 ∧ k.l1 = (s.part (slotPart slot)).l1) ∧
    t.mem = s.mem ∧ (∀ k, k ≠ slot → t.group k = s.group k) ∧ (∀ k, k ≠ slotCluster slot → t.cluster k = s.cluster k) ∧
    ∃ p : PendFault, p.slot = slot ∧ p.uid = g.uid ∧ p.mode = m ∧
      (p.words.getD 0 0).setWidth 8 = f.cls ∧ ((p.words.getD 0 0).extractLsb' 32 32 : Word) = f.lanes ∧
      (p.words.getD 1 0) = f.addr ∧ (p.words.getD 2 0) = f.pc ∧
      (if c.fqFull = true ∨ c.fwait ≠ [] then c'.fwait = c.fwait ++ [p] ∧ c'.fq = c.fq
       else c'.fwait = c.fwait ∧ c'.ftail = (c.ftail + 1) % 64 ∧ c'.fseq = c.fseq + 1 ∧
         ∃ r, SMap.find c'.fq c.ftail = some r ∧ r.words = p.words ++ [BitVec.ofNat 64 c.fseq] ∧ r.slot = slot ∧ r.mode = m ∧ r.answered = false)

/-- R331: DELIVERY. The lanes that are neither exited nor call-parked stand at TRAPVEC, or for an interrupt at UIVEC; TRAPRET of each holds its return
PC, TRAPLANES those lanes, TRAPINFO INH, SYNC and CLASS, TRAPADDR the address; a synchronous delivery keeps the operand file. No delivery is made
inside a handler or without one. -/
def Obligations.DeliveryToTheHandler : Prop :=
  ∀ (g : Group) (k : Option RunSave) (d : Delivery),
    let h := g.deliver k d
    let m : LaneMask := ~~~ (g.exited ||| g.callParked)
    h.inh = true ∧ h.sync = d.sync ∧ h.trapClass = d.cls ∧ h.trapaddr = d.addr ∧ h.traplanes = m ∧
    (∀ l : Lane, h.pc[l] = if laneIn m l then (if d.sync then g.trapvec else g.uivec) else g.pc[l]) ∧
    (∀ l : Lane, h.trapret[l] = if laneIn m l then d.ret[l] else g.trapret[l]) ∧
    h.trapSave = (if d.sync then k else g.trapSave) ∧ SameRegs g h ∧ h.exited = g.exited ∧ h.uimask = g.uimask ∧
    (g.canDeliver true = true ↔ g.inh = false ∧ g.trapvec ≠ 0) ∧ (g.canDeliver false = true ↔ g.inh = false ∧ g.uivec ≠ 0) ∧
    (∀ (s : State) (slot : Nat) (cls : BitVec 8) (a : DWord) (ret : Lanes DWord),
      (s.group slot).canDeliver true = false → s.deliverSync slot cls a ret = s.endDomain (s.group slot).rcb)

/-- R332: uiret returns the lanes of its batch to their TRAPRET and takes them out of TRAPLANES; with the last one INH ends and, after a synchronous
delivery, q0 to q7 and the last-result file are what they were. R215: a lane whose TRAPRET is no multiple of 4 makes it raise ALIGNMENT instead. -/
def Obligations.ReturnFromTheHandler : Prop :=
  ∀ (f : Enc) (s : State) (c : Ctx), Issues (.uiret f) uiretOwn s c → c.g.midRun = none →
    let left := c.g.traplanes &&& ~~~ c.g.batch
    let back (l : Lane) : DWord := c.g.trapret[l]
    let bad : LaneMask := maskOf fun l => laneIn c.act l && decide ((back l).toNat % 4 ≠ 0)
    (bad ≠ 0 → exec (.uiret f) s = .next (s.raise c.slot .retry
      { cls := 0x03, lanes := bad, kind := 4, space := 0, addr := back (lowLane bad), pc := c.pc })) ∧
    (bad = 0 → left ≠ 0 → Goes c back (s.updGroup c.slot fun g => { g with traplanes := left }) (exec (.uiret f) s)) ∧
    (bad = 0 → left = 0 → c.g.sync = false ∨ c.g.trapSave = none →
      Goes c back (s.updGroup c.slot fun g => { g with traplanes := 0, inh := false, trapSave := none }) (exec (.uiret f) s)) ∧
    (∀ k, bad = 0 → left = 0 → c.g.sync = true → c.g.trapSave = some k →
      ∃ t, exec (.uiret f) s = .next t ∧ Steps c back c.g (t.group c.slot) ∧ (t.group c.slot).inh = false ∧ (t.group c.slot).traplanes = 0 ∧
        (t.group c.slot).q = k.q ∧ (t.group c.slot).v = c.g.v ∧ (t.group c.slot).s = c.g.s ∧ t.mem = s.mem ∧
        (if c.e.sw then ∃ r, (t.group c.slot).midRun = some r ∧ r.l0 = k.l0 ∧ r.l1 = k.l1
         else (t.part (slotPart c.slot)).l0 = k.l0 ∧ (t.part (slotPart c.slot)).l1 = k.l1))

/-- R175, R333, R338, R339: uimask changes UIMASK and D receives the old one; npbegin and npend count the open sections, up to 15; ckpt does nothing
outside a paired launch; tstampr gives TSTAMP, or parks until the group's accesses are performed. -/
def Obligations.MasksSectionsAndTime : Prop :=
  ∀ (f : Enc) (s : State) (c : Ctx),
    let a : Word := c.ua.setWidth 32
    let mask (x : Word) : State := s.updGroup c.slot fun g => { g with uimask := x }
    let old : DWord := c.g.uimask.setWidth 64
    (Issues (.uimask f) noOwn s c → c.act = 0 → ComputesUniform c old s (exec (.uimask f) s)) ∧
    (Issues (.uimask f) noOwn s c → c.act ≠ 0 → c.e.func.toNat % 4 = 0 → ComputesUniform c old (mask a) (exec (.uimask f) s)) ∧
    (Issues (.uimask f) noOwn s c → c.act ≠ 0 → c.e.func.toNat % 4 = 1 → ComputesUniform c old (mask (c.g.uimask ||| a)) (exec (.uimask f) s)) ∧
    (Issues (.uimask f) noOwn s c → c.act ≠ 0 → c.e.func.toNat % 4 = 2 → ComputesUniform c old (mask (c.g.uimask &&& ~~~ a)) (exec (.uimask f) s)) ∧
    (Issues (.npbegin f) noOwn s c → c.act = 0 → Acts c s (exec (.npbegin f) s)) ∧
    (Issues (.npbegin f) noOwn s c → c.act ≠ 0 → c.g.npdepth < 15 →
      Acts c (s.updGroup c.slot fun g => { g with npdepth := g.npdepth + 1, npsince := if g.npdepth = 0 then s.cycle else g.npsince })
        (exec (.npbegin f) s)) ∧
    (Issues (.npbegin f) noOwn s c → c.act ≠ 0 → 15 ≤ c.g.npdepth →
      exec (.npbegin f) s = .next ((s.updGroup c.slot fun g => { g with npdepth := 0, npover := false }).raise c.slot (.skip c.len)
        { cls := 0x0C, lanes := c.act, pc := c.pc })) ∧
    (Issues (.npend f) noOwn s c → c.act = 0 → Acts c s (exec (.npend f) s)) ∧
    (Issues (.npend f) noOwn s c → c.act ≠ 0 →
      Acts c (s.updGroup c.slot fun g => { g with npdepth := g.npdepth - 1, npover := g.npover || (decide (0 < g.npdepth) && decide (g.npLimit ≤ s.cycle - g.npsince)) })
        (exec (.npend f) s)) ∧
    (Issues (.ckpt f) noOwn s c → c.act = 0 ∨ (s.team c.g.team).paired = false → Acts c s (exec (.ckpt f) s)) ∧
    (Issues (.tstampr f) noOwn s c → c.act = 0 ∨ c.e.func.getLsbD 0 = false → ComputesUniform c s.tstamp s (exec (.tstampr f) s)) ∧
    (Issues (.tstampr f) noOwn s c → c.act ≠ 0 → c.e.func.getLsbD 0 = true →
      Acts c ((s.takeToken c.slot 16 0).block c.slot (.tstamp c.dest)) (exec (.tstampr f) s))

/-- R178, R179, R336, R337: grow is granted at once where the chunks suffice, denied at once where it can never be met, and otherwise blocks the
group; a granted group has the blocks asked for besides its own, whose registers are as they were. carve arrives at the team's barrier and parks. -/
def Obligations.GrowAndCarve : Prop :=
  ∀ (f : Enc) (s : State) (c : Ctx),
    let v := c.ua.toNat % 2 ^ 32
    let q := c.ub.toNat % 2 ^ 32
    let u := s.growGroup c.slot v q
    (Issues (.grow f) noOwn s c → c.act = 0 → ComputesUniform c 0 s (exec (.grow f) s)) ∧
    (Issues (.grow f) noOwn s c → c.act ≠ 0 → s.growNever c.slot v q = true → ComputesUniform c 1 s (exec (.grow f) s)) ∧
    (Issues (.grow f) noOwn s c → c.act ≠ 0 → s.growNever c.slot v q = false → s.growFits c.slot v q = true → ComputesUniform c 0 u (exec (.grow f) s)) ∧
    (Issues (.grow f) noOwn s c → c.act ≠ 0 → s.growNever c.slot v q = false → s.growFits c.slot v q = false →
      Acts c (s.block c.slot (.grow v q c.dest s.cycle)) (exec (.grow f) s)) ∧
    (u.group c.slot).vblk = (s.group c.slot).vblk + v ∧ (u.group c.slot).sblk = (s.group c.slot).sblk + q ∧
    SameRegs (s.group c.slot) (u.group c.slot) ∧
    (8 < (s.group c.slot).vblk + v ∨ 4 < (s.group c.slot).sblk + q → s.growNever c.slot v q = true) ∧
    (Issues (.carve f) noOwn s c → c.act = 0 → ComputesUniform c 0 s (exec (.carve f) s)) ∧
    (Issues (.carve f) noOwn s c → c.act ≠ 0 → ∃ w : State,
      (w.team c.g.team).carve = (s.team c.g.team).carve ++ [(c.g.gidx, (v, q, c.uc.toNat % 2 ^ 32))] ∧ w.mem = s.mem ∧ w.groups = s.groups ∧
      Acts c (w.block c.slot (.carve c.dest)) (exec (.carve f) s))

/-- R340: gsave and grest, in a save or restore routine, move one part of the saved group: the words of the part from or to the area at A. -/
def Obligations.SaveAndRestoreMoveAPart : Prop :=
  ∀ (f : Enc) (s : State) (c : Ctx),
    let part := c.e.func.toNat % 8
    let g := SMap.get s.stash c.slot {}
    let chk (r : Right) (k : Nat) : LaneChk := s.checkGlobal c.slot c.priv c.g.asid r 8 8 (c.ua + BitVec.ofNat 64 (8 * k))
    let ready (r : Right) : Prop := c.act ≠ 0 ∧ c.ua.toNat % 64 = 0 ∧ s.holdAccess c.slot = false ∧ s.allOpen c.slot = [] ∧
      ∀ k, k < g.partSize part → (chk r k).good = true
    let places (r : Right) : List Nat := (List.range (g.partSize part)).map fun k => (chk r k).pa
    (Issues (.gsave f) routineOnly s c → c.act = 0 → Acts c s (exec (.gsave f) s)) ∧
    (Issues (.gsave f) routineOnly s c → ready .store →
      (∀ a ∈ places .store, s.unitFree c.cluster a 8 true = true ∧ s.fateFrom c.cluster a ≠ .moved) →
      ∃ u : State, u.mem = s.mem ∧ u.groups = s.groups ∧ u.stash = s.stash ∧
        Acts c ((g.partWords part).zipIdx.foldl (fun s w => s.unitWrite (chk .store w.2).pa (valueBytes w.1.toNat 8) false) u) (exec (.gsave f) s)) ∧
    (Issues (.grest f) routineOnly s c → c.act = 0 → Acts c s (exec (.grest f) s)) ∧
    (∀ v : State, Issues (.grest f) routineOnly s c → ready .load → s.lineReads c.cluster 8 (places .load) = .ok v →
      ∃ u : State, u.mem = v.mem ∧ u.groups = v.groups ∧
        u.stash = SMap.set v.stash c.slot (g.setPart part fun k => v.seenDword (chk .load k).pa) ∧ Acts c u (exec (.grest f) s))

/-- R340: a part that gsave has stored and grest loads back is what it was: the general registers, q0 to q7, and of the control part the PCs, the
exited mask, FSTAT, FMODE, UIMASK, TRAPVEC and TRAPRET. The order of the fields in the area is the model's (log 34). -/
def Obligations.SavedPartsComeBack : Prop :=
  ∀ (g : Group),
    let back (part : Nat) : Group := g.setPart part fun k => (g.partWords part).getD k 0
    (∀ r l, r < 256 → r < 32 * g.vblk → (back 4).raw r l = g.raw r l) ∧
    (∀ r l, r < 256 * g.sblk → (back 3).raw (1024 + r) l = g.raw (1024 + r) l) ∧
    (∀ r l, 256 ≤ r → r < 264 → (back 2).raw r l = g.raw r l) ∧
    (back 0).pc = g.pc ∧ (back 0).exited = g.exited ∧ (back 0).fstat = g.fstat ∧ (back 0).fmode = g.fmode ∧ (back 0).uimask = g.uimask ∧
    (back 0).trapvec = g.trapvec ∧ (back 0).trapret = g.trapret ∧ (back 0).pw = g.pw

/-- R18, R35, R217: an instruction whose operands lie outside the group's allocation or are of a kind that it does not accept raises ILLEGAL_ENCODING,
and a privileged one outside ASID 0 PRIVILEGE; the record names the lanes of the batch and the PC, and nothing else of the instruction is performed.
R212, R213: an instruction that names l0 or l1 while the result of that place has not returned stays at issue and
nothing changes, unless a condition of its own fails, which traps. -/
def Obligations.MalformedPrivilegedAndInterlocked : Prop :=
  (∀ (i : Instr) (s : State) (c : Ctx), s.ctxOf i = some c → c.g.canIssue = true → s.alone c.g = true →
      let trap (k : BitVec 8) : Prop :=
        exec i s = .next (s.raise c.slot .retry { cls := k, lanes := if k = 0x06 then c.act else c.g.batch, pc := c.pc })
      (c.e.allocOk c.g c.p = false → trap 0x05) ∧
      (c.e.allocOk c.g c.p = true → c.p.priv = true → c.g.asid ≠ 0 → trap 0x06) ∧
      (c.e.allocOk c.g c.p = true → ¬ (c.p.priv = true ∧ c.g.asid ≠ 0) → c.e.kindsOk c.p = false → trap 0x05)) ∧
  (∀ (i : Instr) (s : State) (c : Ctx), s.ctxOf i = some c → c.g.canIssue = true → s.alone c.g = true →
      c.e.allocOk c.g c.p = true → ¬ (c.p.priv = true ∧ c.g.asid ≠ 0) → c.e.kindsOk c.p = true → c.interlocked = true →
      exec i s = .next s ∨
        ∃ k, exec i s = .next (s.raise c.slot .retry { cls := k, lanes := if k = 0x06 then c.act else c.g.batch, pc := c.pc }))

/-! ### Events of other agents -/

/-- R43, R44, R46, R57, R61, R73, R102, R149: the requests of groups and harts at their homes. A read gives each lane its bytes and changes no memory;
a write leaves its bytes, the lanes ascending, and nothing else; an atomic leaves the last of its passes over the word. The effects on memory are
stated where no waiter or ring record follows and other requests of the access are outstanding, so that its end comes later. -/
def Obligations.HomesPerformRequests : Prop :=
  ∀ (s : State) (id i : Nat) (a : Access) (p : Piece) (r : HartReq),
    let u := if a.stale then s.translateAgain id a else (s.granted a p).arrivePiece id i a p
    (s.pieceOpen id i = some (a, p) → a.space = .global → p.isLocal = true → a.stale = true ∨ s.pieceGrant a p = true →
      (a.kind = .load ∨ a.kind = .qunpk ∨ a.kind = .prefetch → exec (.homeRead (.piece id i)) s = .next u) ∧
      (a.kind = .store → exec (.homeWrite (.piece id i)) s = .next u) ∧
      (∀ op ty, a.kind = .atomic op ty → exec (.homeAtomic (.piece id i)) s = .next u)) ∧
    (s.pieceOpen id i = some (a, p) → a.space = .global → pRange p.addr = .hbm → s.turned p.home p.cap p.addr p.size a.kind.writes = .no →
      (s.line p.addr).valid = true → (s.line p.addr).psn = false → (s.line p.addr).dec = false → (s.slice (s.homeNow p.addr)).mon = [] →
      (s.slice (s.homeNow p.addr)).sphead = [] → a.stale = false → (∀ d ∈ s.waitingAt p.home, d = s.clusterDomain (slotCluster a.slot)) →
      s.containedOf a = none → (∃ j q, j ≠ i ∧ a.pieces[j]? = some q ∧ q.done = false) →
      (a.kind = .load → Gives (.homeRead (.piece id i)) s fun t => t.mem = s.mem ∧ t.groups = s.groups ∧
        ∃ b, SMap.find t.accs id = some b ∧ b.ret = (a.take p (s.seen a p.addr p.size (Memory.read s.mem p.addr p.size))).ret ∧
          b.pieces[i]? = some { p with done := true }) ∧
      (a.kind = .store → Gives (.homeWrite (.piece id i)) s fun t => t.mem = Memory.putAll s.mem p.addr (a.storeBytes p) ∧ t.groups = s.groups ∧
        ∃ b, SMap.find t.accs id = some b ∧ b.pieces[i]? = some { p with done := true }) ∧
      (∀ op ty, a.kind = .atomic op ty → op ≠ 9 → a.untouched = false → a.bad = false → Gives (.homeAtomic (.piece id i)) s fun t =>
        let b (l : Lane) : Nat := (a.data[l]).toNat % 2 ^ (8 * p.size)
        let c (l : Lane) : Nat := (a.data2[l]).toNat % 2 ^ (8 * p.size)
        let y := (lanesIn p.mask).foldl (fun x l => atomNew op ty x (b l) (c l)) (Memory.read s.mem p.addr p.size)
        t.mem = Memory.putAll s.mem p.addr (valueBytes y p.size) ∧ t.groups = s.groups)) ∧
    (s.hartDue .load r = true → exec (.homeRead (.hart r)) s = .next (s.sendFrom (agentPoint r.agent) r.pa fun s => s.hartAccess .load r)) ∧
    (s.hartDue .store r = true → exec (.homeWrite (.hart r)) s = .next (s.sendFrom (agentPoint r.agent) r.pa fun s => s.hartAccess .store r)) ∧
    (s.hartDue .amo r = true → exec (.homeAtomic (.hart r)) s = .next (s.sendFrom (agentPoint r.agent) r.pa fun s => s.hartAccess .amo r)) ∧
    (∀ (n : Nat) (go : State → State), s.fateFrom n r.pa ≠ .moved → s.sendFrom n r.pa go = go s) ∧
    (∀ home, (s.slice home).owed ≠ [] → exec (.ringStallRelease home) s = .next (s.payRecs home (s.slice home).owed.length)) ∧
    (∀ home st, (s.slice home).owed = [] → s.ringNext home = some (st, a, p) →
      let u := s.setSlice home { s.slice home with stall := (s.slice home).stall.erase st }
      let q := { p with stalled := false }
      exec (.ringStallRelease home) s =
        .next ((u.setPiece st.acc st.piece a q).doPiece st.acc st.piece { a with pieces := a.pieces.set st.piece q } q)) ∧
    (∀ pa bank e, pRange pa = .hbm → bank < 64 → s.sealed pa = false → s.deadAt pa = false →
      Gives (.homeLineFill pa bank e) s fun t => (t.line pa).valid = true ∧ (t.line pa).hub = false ∧ (t.line pa).svcv = false ∧ (t.line pa).svcm = false ∧
        t.groups = s.groups ∧ (e = .bad → (t.line pa).psn = true) ∧
        (s.windowOf (lineOf pa) = none → (s.slice (s.homeNow (lineOf pa))).mon = [] → (s.slice (s.homeNow (lineOf pa))).sphead = [] → t.mem = s.mem)) ∧
    (SMap.find s.accs id = some a → a.pieces[i]? = some p → p.moved = true → p.done = false →
      Gives (.movedReplay id i) s fun t => t.mem = s.mem ∧ t.groups = s.groups ∧
        ∃ b q, SMap.find t.accs id = some b ∧ b.pieces[i]? = some q ∧ q.moved = false ∧ q.replay = true ∧ q.addr = p.addr ∧ q.cap = s.hub.memcap ∧
          q.home = t.routeTo (slotCluster a.slot) p.addr) ∧
    (s.responseDue id = some a → exec (.loadResponse id) s = .next (s.respond id a))

/-- R32, R180, R208, R213, R214: a result that returns is written to its destination, where no later instruction of the run has written, in the lanes
that issued for it; every other register, lane and group and all of memory stay, and l0 of the partition receives it. A value of 8 or 16 bits is
extended. R192: its flags are ORed into FSTAT unless an swr of FSTAT was issued after it. -/
def Obligations.ReturnedResultsAreWritten : Prop :=
  (∀ (s : State) (slot id : Nat) (d : Dest) (x : Lane → BitVec 128) (fl : Flags),
    let g := s.group slot
    let t := s.giveResult slot g.uid id d (some x) fl
    let h := t.group slot
    let n := wordsOf d.width
    (∀ z ∈ g.haz, z.seq ≤ d.seq) → (∀ r, d.opnd.firstReg = some r → r + n ≤ 264 ∨ 1024 ≤ r) →
      (∀ r, d.opnd.firstReg = some r → ∀ k l, k < n → writesAt r n d.lanes (r + k) l →
        h.raw (r + k) l = wordAt x k (if 1024 ≤ r then lowLane d.lanes else l)) ∧
      (∀ q l, realReg q → q ≠ regF → (∀ r, d.opnd.firstReg = some r → ¬ writesAt r n d.lanes q l) → h.raw q l = g.raw q l) ∧
      h.fstat = g.fstat ||| (if d.seq < g.fstatSeq then 0 else fl) ∧ h.pc = g.pc ∧ h.exited = g.exited ∧ h.st = g.st ∧ t.mem = s.mem ∧ (∀ k, k ≠ slot → t.group k = s.group k) ∧
      ((s.part (slotPart slot)).l0.pend = some id → (∀ j, d.opnd ≠ .s j) →
        (t.part (slotPart slot)).l0.pend = none ∧
        ∀ l, laneIn (s.part (slotPart slot)).l0.valid l = true → (t.part (slotPart slot)).l0.val[l] = (x l).setWidth 64)) ∧
  (∀ (a : Access) (l : Lane), a.kind = .load → a.once = false →
    (32 ≤ a.bits → a.value l = ((a.ret[l]).setWidth a.bits).setWidth 128) ∧
    (a.bits = 8 ∨ a.bits = 16 → a.value l =
      (if a.signed then ((a.ret[l]).setWidth a.bits).signExtend 32 else ((a.ret[l]).setWidth a.bits).setWidth 32).setWidth 128))

/-- R39 to R41, R50, R79, R107, R123, R124, R127, R128, R131, R132, R279: the arbiter of a core's scratchpad, forwarded old values, fence tokens, the
walker, the shadow counters, shootdowns and format windows, each as soon as its agent may act. -/
def Obligations.ScratchpadAndTranslationEvents : Prop :=
  ∀ (s : State) (k n : Nat),
    (∀ corr errs, s.arbDue k = true → exec (.scratchpadArbitration k corr errs) s = .next (s.arbitrate k corr errs)) ∧
    (∀ tm row g, (k, row, g) ∈ (s.team tm).badPar → s.groupFree k g = true → Gives (.parityRowRecompute k tm row g) s fun t =>
      (t.team tm).badPar = (s.team tm).badPar.erase (k, row, g) ∧ (t.team tm).spad = (s.team tm).spad ∧ t.groups = s.groups ∧ t.mem = s.mem) ∧
    (∀ l a, s.forwardDue k l = some a →
      exec (.atomfForward k l) s = .next { s with accs := SMap.set s.accs k { a with fwdAt := SMap.set a.fwdAt l.val (false, s.cycle) } }) ∧
    (∀ (tm : Nat) (l : Lane) (a : Access) c d at_, a.fwd = some (c, d) → SMap.find a.fwdAt l.val = some (false, at_) → s.accTeam a = tm →
      let t := s.forwardSpad k l.val a
      t.mem = s.mem ∧ t.groups = s.groups ∧
        Memory.read (t.team tm).spad (c.get l).toNat (a.bits / 8) = (a.ret[l]).toNat % 256 ^ (a.bits / 8)) ∧
    (s.tokenDue k n = true → exec (.fenceTokenComplete k n) s = .next (s.completeToken k n)) ∧
    ((s.fwin n).busy = true → Gives (.fwinDropComplete n) s fun t => (t.fwin n).busy = false ∧ t.mem = s.mem ∧ t.groups = s.groups ∧
      ∀ j, (SMap.get s.lines j {}).dec = true → (SMap.get s.lines j {}).win = n → (SMap.get t.lines j {}).valid = false ∧ (SMap.get t.lines j {}).dec = false) ∧
    ((s.cluster k).admitDue = true → Gives (.missMergeAdmit k) s fun t => (t.cluster k).missWait = (s.cluster k).missWait.tail ∧ t.mem = s.mem ∧
      t.groups = s.groups ∧ ∀ w ws, (s.cluster k).missWait = w :: ws → ((t.cluster k).walk w.asid w.page).isSome) ∧
    (∀ asid w, s.walkDue k asid n = some w → exec (.walkStep k asid n) s = .next (s.walkStep k w)) ∧
    (∀ asid w q, s.casDue k asid n = some (w, q) →
      (s.fateBy q.route q.addr ≠ .moved → exec (.firstTouchCasResult k asid n) s = .next (s.casResult k w q)) ∧
      (s.fateBy q.route q.addr = .moved → exec (.firstTouchCasResult k asid n) s = .next
        ((s.movedAt k).setCluster k (((s.movedAt k).cluster k).setWalk { w with cas := some ((s.movedAt k).casReq k q.addr q.old q.frame) })))) ∧
    (∀ cl base lim pg add, s.shadows[k]? = some (cl, base, lim, pg, add) → s.fateFrom cl (base + 2 * pg) = .perform →
      s.fillHeld (base + 2 * pg) = false → s.behindRing (base + 2 * pg) 2 = false →
      s.ringHolds (s.homeNow (base + 2 * pg)) (base + 2 * pg) 2 = false →
      exec (.shadowAdd k) s = .next ({ s with shadows := s.shadows.eraseIdx k }.shadowAdd (cl, base, lim, pg, add))) ∧
    (∀ (u : State) cl base lim pg add, 2 ^ 32 ≤ base → pg < lim → base + 2 * pg < u.hub.memcap → base + 2 * pg < 2 ^ 43 →
      (u.line (base + 2 * pg)).valid = true → (u.line (base + 2 * pg)).psn = false → (u.slice (u.homeNow (base + 2 * pg))).mon = [] →
      (u.slice (u.homeNow (base + 2 * pg))).sphead = [] → u.scaleHit (base + 2 * pg) 2 = false → u.homesOf (base + 2 * pg) = [u.homeNow (base + 2 * pg)] →
      Memory.read (u.shadowAdd (cl, base, lim, pg, add)).mem (base + 2 * pg) 2 = min 0xFFFF (Memory.read u.mem (base + 2 * pg) 2 + add)) ∧
    (∀ d, s.shootDue k n = some d → n < 8 → Gives (.shootdownComplete k n) s fun t => t.shoots = s.shoots.erase d ∧
      (t.svcCore k).tlbBusy.getLsbD n = false ∧ (t.svcCore k).tlbDone.getLsbD n = true ∧ t.groups = s.groups ∧ t.mem = s.mem)

/-- R93, R97, R98, R107 to R112, R115, R135: the check of a WAIT wakes its group with the status and the value of 04 Table 3 or registers it;
deadlines end waits with TIMEOUT; wakes, withdrawals, sleeps and clock gating; the check of a service arm; and a fault record that waited takes a
place of its queue. -/
def Obligations.WaitingGroupsWake : Prop :=
  ∀ (s : State) (slot home i : Nat) (w : WaitReq),
    let g := s.group slot
    let v := s.valueAt w.addr w.w64
    let wakes (st : Nat) (x : DWord) (t : State) : Prop :=
      t.wakes = s.wakes ++ [{ waiter := slot, ctx := g.ctx, status := st, val := x, psn := false }] ∧ t.mem = s.mem ∧ t.groups = s.groups
    let here : Prop := w.addr < w.cap ∧ (s.line w.addr).valid = true ∧ (s.line w.addr).psn = false
    let late : Prop := w.deadline ≠ 0 ∧ w.deadline.toNat ≤ s.tstamp.toNat
    let due : Prop := s.waitDue slot = some w ∧ w.stale = false ∧ s.fateBy w.route w.addr ≠ .moved
    (due → exec (.waitCheck slot) s = .next (s.checkWait slot w)) ∧
    (s.waitDue slot = some w → w.stale = true → exec (.waitCheck slot) s = .next (s.waitAgain slot w)) ∧
    (s.waitDue slot = some w → w.stale = false → s.fateBy w.route w.addr = .moved → exec (.waitCheck slot) s = .next (s.waitMoved slot w)) ∧
    (due → w.cap ≤ w.addr → Gives (.waitCheck slot) s (wakes 4 0)) ∧
    (due → here → satisfies w.cmp v w.opnd w.w64 = true → Gives (.waitCheck slot) s (wakes 0 v)) ∧
    (due → here → satisfies w.cmp v w.opnd w.w64 = false → late → Gives (.waitCheck slot) s (wakes 1 v)) ∧
    (due → here → satisfies w.cmp v w.opnd w.w64 = false → ¬ late →
      let sl := s.slice (s.homeNow w.addr)
      (sl.en = true → w.mark = false → sl.mon.length < min 1024 sl.limit → Gives (.waitCheck slot) s fun t =>
        ∃ u : State, (u.slice (s.homeNow w.addr)).mon = sl.mon ++ [w.entry slot g.ctx (s.rcbDom g.rcb)] ∧ u.wakes = s.wakes ∧ u.groups = s.groups ∧
          u.mem = s.mem ∧ t = u.charge useMon w.rcb 1) ∧
      (sl.en = false → sl.spen = false → Gives (.waitCheck slot) s (wakes 5 v))) ∧
    (∀ x, s.wakes[i]? = some x → exec (.wakeArrival i) s = .next (s.wakeArrives i x)) ∧
    (∀ e, s.lateWatch i = some e → Gives (.monitorTimeout true home i) s fun t => t.watch = s.watch.erase e ∧ t.mem = s.mem ∧ t.groups = s.groups ∧
      ∃ x, t.wakes = s.wakes ++ [x] ∧ x.status = 1 ∧ x.waiter = e.slot ∧
        x.val = BitVec.ofNat 64 (Memory.read (s.team e.team).spad e.addr (if e.w64 then 8 else 4))) ∧
    (∀ e, s.lateEntry home i = some e → Gives (.monitorTimeout false home i) s fun t =>
      ∃ u : State, (u.slice home).mon = (s.slice home).mon.erase e ∧ u.groups = s.groups ∧ u.mem = s.mem ∧ t = u.charge useMon e.rcb (-1) ∧
        u.wakes = s.wakes ++ [{ waiter := e.waiter, ctx := e.ctx, status := 1, val := s.valueAt e.addr e.w64, psn := false }]) ∧
    (s.withdrawDue slot = true → exec (.waitWithdraw slot) s = .next (s.withdraw slot)) ∧
    (∀ b, s.sleepOver slot = some b → exec (.nsleepExpiry slot) s = .next (s.unblock slot b 4)) ∧
    (s.gateDue home = true → exec (.clockGate home) s = .next (s.setCore home { s.core home with gated := true })) ∧
    (∀ q, s.armDue i = some q → exec (.serviceArmCheck i) s = .next
      (if s.fateBy q.route q.entry.addr = .moved then s.armMoved i q else s.checkArm i q)) ∧
    (∀ f fs, (s.cluster i).fqFull = false → (s.cluster i).fwait = f :: fs → Gives (.faultQueueAdmit i) s fun t =>
      let c := s.cluster i
      (t.cluster i).fwait = fs ∧ (t.cluster i).ftail = (c.ftail + 1) % 64 ∧ (t.cluster i).fhead = c.fhead ∧ t.mem = s.mem ∧ t.groups = s.groups ∧
      ∃ r, SMap.find (t.cluster i).fq c.ftail = some r ∧ r.words = f.words ++ [BitVec.ofNat 64 c.fseq] ∧ r.slot = f.slot ∧ r.answered = false)

/-- R161 to R163, R167, R170 to R179, R240: runs are selected and end; results drain; sections that stay open are overrun; teams are placed, in their
order, reserved for, and retire; requests for a task server; GROW is granted or denied; a register that is late is faulted. Each as soon as it is due.
-/
def Obligations.GroupsAndTeamsGoOn : Prop :=
  ∀ (s : State) (k n : Nat),
    let g := s.group k
    (∀ slot, s.selectable k = some slot → exec (.issueSelect k) s = .next (s.selectRun slot)) ∧
    (g.st = .issuing → g.ended = true → exec (.runEnd k) s = .next (s.endRun k)) ∧
    (g.st = .issuing → g.ended = false → 1024 ≤ g.count → Gives (.runmaxMarker k) s fun t =>
      t.group k = { g with ended := true } ∧ t.mem = s.mem ∧ ∀ j, j ≠ k → t.group j = s.group j) ∧
    (g.st = .draining → g.gone = false → s.resultsOut k = false →
      exec (.resultsDrained k) s = .next ((s.updGroup k fun g => { g with st := .ready, readySince := s.cycle }).preTake g.team)) ∧
    (g.st = .ready ∨ g.st = .issuing → 0 < g.npdepth → g.npover = false → g.npLimit ≤ s.cycle - g.npsince →
      Gives (.nopreemptOverrun k) s fun t => t.group k = { g with npover := true } ∧ t.mem = s.mem ∧ ∀ j, j ≠ k → t.group j = s.group j) ∧
    (g.st = .blocked ∨ g.st = .draining → 0 < g.npdepth → g.npover = false → g.npLimit ≤ s.cycle - g.npsince →
      exec (.nopreemptOverrun k) s = .next ((s.overrun k).preTake g.team)) ∧
    (s.routineDue k = true → exec (.saveRoutineStart k) s = .next (s.startRoutine k)) ∧
    (∀ f, s.nextPlaced = some (.launch n, f) → exec (.teamPlace false n) s = .next (s.placeNext n f)) ∧
    (∀ f, s.nextPlaced = some (.saved n, f) → exec (.teamPlace true n) s = .next (s.placeSaved n f)) ∧
    (∀ la, SMap.find s.launches n = some la → la.reserved = false → la.next < la.total → 3000000 < s.cycle - la.since →
      Gives (.launchReserve n) s fun t => SMap.find t.launches n = some { la with reserved := true } ∧ t.groups = s.groups ∧ t.mem = s.mem) ∧
    (s.retireDue n = true →
      (∀ pa e, s.isLast n = true → s.cwChk ((s.team n).core / 8) (s.team n).launch = .ok pa e → s.fateFrom ((s.team n).core / 8) pa ≠ .moved) →
      exec (.teamRetire n) s = .next (s.retire n)) ∧
    (s.serverDue k n = true → Gives (.taskServerRequest k n) s fun t => (t.svcCore k).tsreq = BitVec.ofNat 64 n ∧ t.groups = s.groups ∧ t.mem = s.mem) ∧
    (∀ slot ok, s.growNext k = some (slot, ok) → exec (.growGrant k) s = .next (s.endGrow slot ok)) ∧
    (s.growLate k = true → exec (.growTimeout k) s = .next (s.endGrow k false)) ∧
    (s.cvLate k n = true → exec (.cvTimeout k n) s = .next (s.cvFault k n))

/-- R54, R81, R280, R295, R302, R305, R309, R318, R323, R326: the pieces and the ends of copies, the counters, and the operations of a matrix unit. A
piece between lines of memory that hold no poison copies its 16 bytes; one decrement of an armed counter above 1 lowers its COUNT by 1. -/
def Obligations.EnginesAct : Prop :=
  ∀ (s : State) (k n : Nat),
    (∀ c p data st, s.copyDue k n = some (c, p) → exec (.copyPiece k n data st) s = .next (s.copyPiece k n c p data st)) ∧
    (∀ c p data st, s.copyDue k n = some (c, p) → p.rd = none → c.srcSp = false → p.src < 2 ^ 43 → s.refuse c.priv .load 1 p.src 16 = none →
      s.fateFrom (slotCluster c.slot) p.src ≠ .moved → (s.team c.team).commit = [] → (s.line p.src).valid = true → (s.line p.src).psn = false →
      Gives (.copyPiece k n data st) s fun t => t.groups = s.groups ∧ t.mem = s.mem ∧ ∃ c', SMap.find t.copies k = some c' ∧
        c'.pieces = c.pieces.set n { p with rd := some (.ok (Memory.read s.mem p.src 16)), since := s.cycle } ∧ c'.psn = c.psn) ∧
    (∀ c p x data st, s.copyDue k n = some (c, p) → p.rd = some (.ok x) → c.shares = false → c.dstSp = false → p.dst < 2 ^ 43 →
      s.refuse c.priv .store 1 p.dst 16 = none → s.fateFrom (slotCluster c.slot) p.dst ≠ .moved → (s.line p.dst).valid = true →
      (s.line p.dst).dec = false → (s.slice (s.homeNow p.dst)).mon = [] → (s.slice (s.homeNow p.dst)).sphead = [] →
      Gives (.copyPiece k n data st) s fun t => t.groups = s.groups ∧ Memory.read t.mem p.dst 16 = x % 256 ^ 16 ∧
        (∀ a, a < p.dst ∨ p.dst + 16 ≤ a → Memory.byte t.mem a = Memory.byte s.mem a) ∧
        ∃ c', SMap.find t.copies k = some c' ∧ c'.pieces = c.pieces.set n { p with done := true } ∧ c'.psn = c.psn) ∧
    (∀ c, s.copyOver k = some c →
      (∀ i, c.tdc = some i → s.fateFrom (slotCluster c.slot) (s.counterAt (s.prog c.slot).rcb i.toNat) ≠ .moved) →
      exec (.copyComplete k) s = .next (s.copyDone k c)) ∧
    (∀ a, s.armReady k = some a → exec (.counterArm k) s = .next
      (s.sendFrom (slotCluster a.slot) (s.counterAt a.rcb a.idx) fun u => u.doArm k a)) ∧
    (∀ d, s.decReady k = some d → exec (.counterDecrement k) s = .next
      (s.sendFrom (slotCluster d.slot) (s.counterAt d.rcb d.idx) fun u => u.doDec k d)) ∧
    (∀ d : PendDec, let pa := s.counterAt d.rcb d.idx
      d.once = true → s.counterBad pa = none → s.homesOf pa = [s.homeNow pa] → s.armedAt pa = true → 1 < s.countAt pa → (s.line pa).valid = true → (s.slice (s.homeNow pa)).mon = [] →
      (s.slice (s.homeNow pa)).sphead = [] → (s.decrement d).countAt pa = s.countAt pa - 1 ∧ (s.decrement d).armedAt pa = true ∧
        (s.decrement d).groups = s.groups ∧ (s.decrement d).dword (pa + 8) = s.dword (pa + 8)) ∧
    (∀ o, s.startDue k = some o → exec (.matrixOpStart k) s = .next (s.startOp k o)) ∧
    (∀ o m, s.rowDue k = some (o, m) → exec (.mmaRow k) s = .next
      (if ((s.mmaRow k o m).core k).running.any (fun p => p.rows == 64) then (s.mmaRow k o m).endOp k o.id false else s.mmaRow k o m)) ∧
    (∀ o, s.tileDue k n = some o → exec (.tileOpComplete k n) s = .next (if o.ended then State.finishOps k 8 s else s.tileRun k o))

/-- R345 to R355, R360: the call page, the assignment of slots and replies, the restart of a shard, and one action of each service of Linium: where
its record may be taken and the lane is the lowest open one, the action is made: over the quota it is deferred (R352); otherwise the lanes of the
action get their status and value and their DONE bits. Refused arguments of MEM_INFO are answered with EINVAL, and a number
that no service has is refused. -/
def Obligations.CallsAndServicesAct : Prop :=
  ∀ (s : State) (cl k : Nat) (l : Lane),
    let cost (r : Rec) (v : Service) : Nat := if s.recBadArgs r l v then 320 else v.fixed + v.perLane * countLanes (s.actionLanes r l v)
    let fits (r : Rec) (v : Service) : Prop := k < 28 ∧ s.recBadArgs r l v = false ∧ s.overQuota r.rcb (cost r v) = false
    let free (r : Rec) (wr : Bool) (ps : List (Nat × Nat)) : Prop :=
      (s.takeRec r).allFree r.cl wr ps = true ∧ ∀ p ∈ ps, (s.takeRec r).fateFrom r.cl p.1 ≠ .moved
    let answered (t : State) (r : Rec) (v : Service) (st : Nat) (val : Lane → DWord) : Prop := Answered t cl k (s.actionLanes r l v) st val
    let runs (i : Instr) (num : Nat) : Prop := ∀ r v, s.serveDue num cl k l = some (r, v) →
      (∃ t, exec i s = .next t) ∧
      (k < 28 → s.deferral r l = none → s.overQuota r.rcb (cost r v) = true → Gives i s fun t =>
        t.deferred = s.deferred ++ [{ cl := cl, call := k, lane := l.val, ms := s.tstamp.toNat / 1000000 }] ∧
        (t.cluster cl).doneBits k = (s.cluster cl).doneBits k ∧ t.groups = s.groups ∧ t.mem = s.mem)
    let tells (i : Instr) (num st : Nat) (val : Rec → DWord) : Prop := ∀ r v, s.serveDue num cl k l = some (r, v) → fits r v →
      Gives i s fun t => answered t r v st (fun _ => val r) ∧ t.groups = s.groups ∧ t.mem = s.mem
    let comes (i : Instr) (num st : Nat) (data : List Byte) : Prop := runs i num ∧ (st ≠ 0 → tells i num st fun _ => 0) ∧
      ∀ r v ps, s.serveDue num cl k l = some (r, v) → fits r v → st = 0 →
        (s.takeRec r).winRange r.cl r.asid .store (s.recArg2 r l 1) (s.recArg r l 3).toNat = .ok ps →
        free r true ((s.takeRec r).winPlaces r.cl r.asid .store (s.recArg2 r l 1) (s.recArg r l 3).toNat) →
        Gives i s fun t => answered t r v 0 fun _ => BitVec.ofNat 64 (min (s.recArg r l 3).toNat data.length)
    let leaves (i : Instr) (num st n : Nat) : Prop := runs i num ∧ (st ≠ 0 → tells i num st fun _ => 0) ∧
      ∀ r v ps, s.serveDue num cl k l = some (r, v) → fits r v → st = 0 →
        (s.takeRec r).winRange r.cl r.asid .load (s.recArg2 r l 1) (s.recArg r l 3).toNat = .ok ps →
        free r false ((s.takeRec r).winPlaces r.cl r.asid .load (s.recArg2 r l 1) (s.recArg r l 3).toNat) →
        Gives i s fun t => answered t r v 0 (fun _ => BitVec.ofNat 64 (min n (s.recArg r l 3).toNat)) ∧ t.groups = s.groups ∧ t.mem = s.mem
    (∀ op r, callPageDue r = true → exec (.callPageAccess op r) s = .next (s.callPage op r)) ∧
    (∀ c m pa n data op ty, c < 128 → callBase c ≤ pa → pa + n ≤ callBase c + 0x10000 → n = 4 ∨ n = 8 → pa % n = 0 →
      Gives (.callPageAccess .load { agent := .service c m, pa := pa, n := n, data := data, op := op, ty := ty, cached := false }) s fun t =>
        (t.svcCore c).got = BitVec.ofNat 64 (Memory.read (s.cluster c).page (pa - callBase c) n) ∧ (t.svcCore c).exc = (0, 0) ∧
        t.clusters = s.clusters ∧ t.groups = s.groups ∧ t.mem = s.mem) ∧
    (∀ x j, s.callReady cl = some (x, j) → Gives (.callSlotAssign cl) s fun t => SMap.find (t.cluster cl).calls j = some x ∧
      (t.cluster cl).callWait = (s.cluster cl).callWait.tail ∧ (t.cluster cl).callSeq = (s.cluster cl).callSeq + 1 ∧
      (t.svcCore cl).callpend = (s.svcCore cl).callpend ||| BitVec.ofNat 28 (2 ^ j) ∧ ((t.cluster cl).pw (callHeader j)).getLsbD 63 = true ∧
      (t.cluster cl).doneBits j = 0 ∧ t.groups = s.groups ∧ t.mem = s.mem) ∧
    (∀ x, s.replyDue cl k = some x → exec (.callReplyResume cl k) s = .next (s.resumeCall cl k x)) ∧
    (cl < 128 → exec (.shardRestart cl) s = .next (s.shardRestart cl)) ∧
    (∀ d, s.resumable cl k l.val = some d → Gives (.svcqResume cl k l.val) s fun t =>
      t.deferred = s.deferred.map (fun e => if e = d then { e with go := true } else e) ∧ t.groups = s.groups ∧ t.mem = s.mem) ∧
    (∀ base, s.allocOk cl k l base = true → runs (.memAlloc cl k l base) 1) ∧
    runs (.memFree cl k l) 2 ∧
    (∀ st, st ∈ [0, 22, 1] → runs (.memProtect cl k l st) 3 ∧ (st ≠ 0 → tells (.memProtect cl k l st) 3 st fun _ => 0)) ∧
    runs (.memInfo cl k l) 4 ∧ tells (.memInfo cl k l) 4 0 (fun r => BitVec.ofNat 64 (s.heapLeft r.rcb)) ∧
    (∀ st data, st ∈ [0, 9, 22, 5] → comes (.fileRead cl k l st data) 8 st data) ∧
    (∀ st n, st ∈ [0, 9, 22, 28, 5] → leaves (.fileWrite cl k l st n) 9 st n) ∧
    (∀ st, st ∈ [0, 9, 5] → runs (.fileSync cl k l st) 10 ∧ tells (.fileSync cl k l st) 10 st fun _ => 0) ∧
    (∀ st n, st ∈ [0, 9, 90, 11] → leaves (.udpSend cl k l st n) 16 st n) ∧
    (∀ st data, st ∈ [0, 9, 11] → comes (.udpRecv cl k l st data) 17 st data) ∧
    (∀ st n, st ∈ [0, 9, 90, 11] → leaves (.rdgSend cl k l st n) 18 st n) ∧
    (∀ st data, st ∈ [0, 9, 11] → comes (.rdgRecv cl k l st data) 19 st data) ∧
    (∀ st, st ∈ [0, 22, 11] → runs (.ctrlNotify cl k l st) 32 ∧ tells (.ctrlNotify cl k l st) 32 st fun _ => 0) ∧
    runs (.uiSend cl k l) 33 ∧
    (∀ r v, s.serveDue 33 cl k l = some (r, v) → fits r v → (s.takeRec r).ctxRegion (s.recArg r (lowLane (s.actionLanes r l v)) 0).toNat = none →
      Gives (.uiSend cl k l) s fun t => answered t r v 1 fun _ => 0) ∧
    (∀ st data, st ∈ [0, 9] → runs (.handleInfo cl k l st data) 40 ∧ (st ≠ 0 → tells (.handleInfo cl k l st data) 40 st fun _ => 0)) ∧
    (∀ r v, s.serveDue 2 cl k l = some (r, v) → fits r v →
      let block (b : HeapBlock) : Bool := b.asid == r.asid && b.addr == s.recArg2 r l 0
      (∀ b, s.heap.find? block = some b → free r true ((s.takeRec r).heapWords b.rcb) → Gives (.memFree cl k l) s fun t => answered t r v 0 (fun _ => 0) ∧ t.heap = s.heap.erase b ∧ t.groups = s.groups) ∧
      (s.heap.find? block = none → Gives (.memFree cl k l) s fun t => answered t r v 22 (fun _ => 0) ∧ t.heap = s.heap ∧ t.mem = s.mem ∧ t.groups = s.groups)) ∧
    (∀ r v base, s.serveDue 1 cl k l = some (r, v) → s.allocOk cl k l base = true → fits r v → s.recArg r l 2 = 0 →
      let c := sizeClass (s.recArg2 r l 0)
      let ls := lanesIn (s.actionLanes r l v)
      ls.length ≤ s.heapRoom r.rcb c ls.length → c ≤ 1024 → free r true ((s.takeRec r).heapWords r.rcb) →
      Gives (.memAlloc cl k l base) s fun t => answered t r v 0 (fun x => BitVec.ofNat 64 (base + ls.idxOf x * c)) ∧ t.groups = s.groups ∧
        t.heap = s.heap ++ ls.map fun x => ⟨r.asid, base + ls.idxOf x * c, c, r.rcb⟩) ∧
    (∀ r v oldest, s.serveDue 0 cl k l = some (r, v) → s.unlisted cl k l = none → s.retains oldest (s.recArg2 r l 0) = true →
      (∃ t, exec (.callStatus cl k l oldest) s = .next t) ∧
      (fits r v →
        let going : Bool := (s.takeRec r).inProgress (s.recArg2 r l 0) (s.recArg r l 2).toNat
        (going = true → Gives (.callStatus cl k l oldest) s fun t => answered t r v 115 (fun _ => 0) ∧ t.groups = s.groups ∧ t.mem = s.mem) ∧
        (going = false → s.recArg2 r l 0 < oldest → Gives (.callStatus cl k l oldest) s fun t => answered t r v 116 (fun _ => 0) ∧ t.groups = s.groups ∧
          t.mem = s.mem))) ∧
    (∀ r oldest, s.unlisted cl k l = some r → exec (.callStatus cl k l oldest) s = .next (s.refuseCall r l)) ∧
    (∀ r v, s.serveDue 4 cl k l = some (r, v) → k < 28 → s.recBadArgs r l v = true → s.overQuota r.rcb 320 = false →
      Gives (.memInfo cl k l) s fun t => ((t.cluster cl).doneBits k).getLsbD l.val = true ∧
        ((t.cluster cl).pw (callEntry k l.val + 40)).setWidth 32 = (22 : Word) ∧ t.groups = s.groups ∧ t.mem = s.mem)

/-- R138 to R155, R365 to R368, R372 to R374, R380, R400: what a pair compares, agrees on, keeps and rolls back to, and the discard of a struck team;
the steps of a migration; a stack that dies; leaking buckets, throttling and shutdown, and a stack that has trained. -/
def Obligations.PairsAndPackageEvents : Prop :=
  ∀ (s : State) (k n : Nat),
    (∀ id a tid b, s.scbNext k n = some (.compare id a tid b) → exec (.pairScbCompare k n) s = .next (s.scbCompare k n id a tid b)) ∧
    (s.scbNext k n = some .differ → Gives (.pairScbCompare k n) s fun t => (t.team k).mism = some n ∧ t.mem = s.mem ∧ t.groups = s.groups) ∧
    (∀ ls ts e, s.pairSlots k n = some (ls, ts) → s.pairEntryDue ls ts = some e →
      exec (.pairSideEffect k n) s = .next (s.pairForward k n ls ts e)) ∧
    (∀ ls ts, s.pairSlots k n = some (ls, ts) → s.pairEntryDue ls ts = none → s.sideDue k ls ts = true →
      exec (.pairSideEffect k n) s = .next (s.sideCompare k n ls ts)) ∧
    (∀ tr, (s.team k).pair = some tr → s.ckptDue k = true → exec (.teamCheckpoint k) s = .next (s.doCkpt k tr)) ∧
    (∀ tr, (s.team k).pair = some tr → s.mismatchDue k = true → exec (.pairMismatch k) s = .next
      (if (s.team k).redeliver then s.pairAnswered k tr ((s.team k).mism.getD 0) else s.pairMismatch k tr ((s.team k).mism.getD 0))) ∧
    (∀ f, s.discardDue k = true → (s.team k).again = true → s.relaunchAt k = some f → exec (.containedDiscard k) s = .next (s.relaunchTeam k f)) ∧
    (s.discardDue k = true → (s.team k).again = false → exec (.containedDiscard k) s = .next (s.endDomain (s.launch (s.team k).launch).rcb)) ∧
    (s.hub.lowering = true → s.oldRouted = false → s.slices = [] → s.windows = [] → s.accs = [] → Gives .memcapLowerSettle s fun t =>
      t.hub = { s.hub with lowering := false, capHarts := [] } ∧ t.mem = s.mem ∧ t.groups = s.groups) ∧
    (s.hub.lowering = true → s.oldRouted = false → ∃ t, exec .memcapLowerSettle s = .next t) ∧
    (s.hub.mstate = 1 → s.hub.migword = 0 → s.hub.mnext ≠ s.hub.mend → Gives .migrationEnterDone s fun t => t.hub.mstate = 2 ∧
      t.hub.phase = s.hub.phase ∧ t.hub.memcap = s.hub.memcap ∧ t.hub.mnext = s.hub.mnext ∧ t.mem = s.mem ∧ t.groups = s.groups) ∧
    (s.hub.mstate = 1 → ∃ t, exec .migrationEnterDone s = .next t) ∧
    (s.hub.mstate = 2 → s.hub.idleUntil ≠ 0 → s.hub.idleUntil ≤ s.cycle → Gives .migrationIdleExpiry s fun t => t.hub.idleUntil = 0 ∧
      t.hub.mstate = (if s.hub.mnext = s.hub.mend then 3 else 2) ∧ t.mem = s.mem ∧ t.groups = s.groups) ∧
    (s.hub.mstate = 3 → ∃ t, exec .migrationCloseDone s = .next t) ∧
    (s.hub.mstate = 3 → s.hub.migword = 0 → Gives .migrationCloseDone s fun t => t.hub.mstate = 0 ∧ t.hub.phase = s.hub.phase + 1 ∧ t.hub.live = s.hub.newLive ∧
      t.hub.retire = 0 ∧ t.hub.mdone = true ∧ t.hub.prev = some s.hub.live ∧ t.mem = s.mem ∧ t.groups = s.groups) ∧
    (s.hub.mstate = 2 → s.hub.granule = none → s.hub.idleUntil = 0 → s.hub.mnext < s.hub.mend →
      (s.oldHome s.hub.mnext ≠ s.newHome s.hub.mnext → Gives .migrateGranule s fun t => t.hub.granule = some s.hub.mnext ∧ t.hub.mnext = s.hub.mnext ∧
        t.mem = s.mem ∧ t.groups = s.groups) ∧
      (s.oldHome s.hub.mnext = s.newHome s.hub.mnext → Gives .migrateGranule s fun t => t.hub.granule = none ∧ t.hub.mnext = s.hub.mnext + 1 ∧
        t.mem = s.mem ∧ t.groups = s.groups)) ∧
    (∀ g failed, s.drainGranule = some g → exec (.granuleDrained failed) s = .next (s.copyGranule g failed)) ∧
    (∀ g, s.handoverDue = some g → exec .granuleHandover s = .next (s.handover g)) ∧
    (k < 8 → s.hub.live.getLsbD k = true → s.hub.dead.getLsbD k = false → Gives (.stackDead k) s fun t =>
      t.hub.dead = s.hub.dead ||| BitVec.ofNat 8 (2 ^ k) ∧ t.hub.live = s.hub.live ∧ t.mem = s.mem ∧ t.groups = s.groups) ∧
    (s.leakMs < s.tstamp.toNat / 1000000 → Gives .leakyBucketLeak s fun t => t.leakMs = s.leakMs + 1 ∧ t.mem = s.mem ∧ t.groups = s.groups ∧
      ∀ o b, SMap.find s.buckets o = some b → SMap.find t.buckets o = some { b with fill := b.fill - b.leak }) ∧
    (∀ power temps, 100000 ≤ s.tstamp.toNat - s.mgmt.stepped → Gives (.throttleStep power temps) s fun t =>
      t.groups = s.groups ∧ t.mem = s.mem ∧ t.tstamp = s.tstamp ∧ t.mgmt.power = power ∧
      (s.mgmt.cap < power → t.mgmt.fcur = max 15 (s.mgmt.fcur - 1) ∧ t.mgmt.thr = true)) ∧
    (∀ temp : BitVec 16, k < 9 → 920 ≤ temp.toInt → Gives (.thermalShutdown k temp) s fun t => t.stopped = true ∧ t.mgmt.nv = s.mgmt.nv ∧ t.groups = [] ∧
      t.mem = []) ∧
    (k < 8 → s.boot.stage ≠ 0 → s.hub.live.getLsbD k = false → s.hub.parked.getLsbD k = false →
      Gives (.hbmTrainingComplete k true) s (fun t => t.hub.live = s.hub.live ||| BitVec.ofNat 8 (2 ^ k) ∧ t.boot = s.boot ∧ t.mem = s.mem) ∧
      Gives (.hbmTrainingComplete k false) s (fun t => t.hub = s.hub ∧ t.boot.code = 5 ∧ t.mem = s.mem))

/-- R24, R25, R27, R357, R361, R374 to R378, R380, R382, R385 to R395, R398: what comes from outside the package or goes to it: messages, doorbells,
links, heartbeats, peers, PCI Express, NVMe, Ethernet, wired sources, timers, domain and package reset, measurement and attestation. -/
def Obligations.OutsideEventsAct : Prop :=
  ∀ (s : State) (k n pa : Nat) (q : HomeReq) (op : HartOp) (r : HartReq),
    let reach (point shard x : Nat) : Prop := s.mailOpen point shard x = true ∧ ∀ p ∈ mailWords shard x, s.fateFrom point p.1 ≠ .moved
    (∀ ty sq body, k < 128 → n < 128 → s.mailRoom n = true → reach k n (s.mailTail n) → exec (.mailboxSend k n ty sq body) s = .next (s.sendMail
      { shard := n, word0 := BitVec.ofNat 64 (k % 128 * 2 ^ 56 + ty % 2 ^ 16 * 2 ^ 32 + sq % 2 ^ 32), body := body.take 15 })) ∧
    (k < 128 → s.slotFull k (s.mailHead k) = true → reach k k (s.mailHead k) → Gives (.mailboxReceive k) s fun t =>
      (t.svcCore k).got = s.dword (mailboxSlot k (s.mailHead k))) ∧
    (∀ x, k < 128 → exec (.msiDoorbell k x) s = .next (s.doorbell k x)) ∧
    (∀ m, s.heldFor k = some m → s.mailRoom k = true → reach hubPorts k (s.mailTail k) →
      exec (.doorbellDeliver k) s = .next ({ s with io := { s.io with held := s.io.held.erase m } }.sendMail m)) ∧
    ((s.hart k).running = true → 127 < n ∨ reach hubPorts n (s.mailTail n) → exec (.zmsgMsgSend k n pa) s = .next (s.zmsg k n (s.msgAt n pa)) ∧
      exec (.zmsgLaunch k n pa) s = .next ((s.zmsg k n (s.launchMsg n)).bump)) ∧
    ((s.hart k).running = true → 127 < n → Gives (.zmsgMsgSend k n pa) s fun t => (t.hart k).got = BitVec.ofInt 64 (-3) ∧ t.mem = s.mem ∧ t.groups = s.groups) ∧
    ((s.outbox k).busy = true → Gives (.pmsgAck k) s fun t => t.outbox k = { s.outbox k with busy := false } ∧ t.mem = s.mem ∧ t.groups = s.groups) ∧
    (∀ src pos w0 body, k < 3 → n < 128 → SMap.get s.io.heldPeer k [] = [] → reach hubPorts n (s.mailTail n) →
      let x := (s.claimMail n).1
      let u := (s.claimMail n).2
      (u.slotFull n x = false → exec (.peerMessageReceive k n src pos w0 body) s = .next (u.fillMail (peerMsg n src pos w0 body) x)) ∧
      (u.slotFull n x = true → Gives (.peerMessageReceive k n src pos w0 body) s fun t => t.mem = u.mem ∧ t.groups = u.groups ∧
        SMap.get t.io.heldPeer k [] = [{ peerMsg n src pos w0 body with claim := some x }])) ∧
    (∀ t, s.timerDue k n = some t → (t.ctl.getLsbD 62 = true → s.fateFrom hubPorts t.word ≠ .moved) → exec (.regionTimerFire k n) s = .next (s.fireTimer t)) ∧
    (∀ t, s.timerDue k n = some t → t.ctl.getLsbD 62 = false → exec (.regionTimerFire k n) s = .next
      ({ s with io := { s.io with timers := s.io.timers.erase t } }.uiTo (bits t.ctl 51 32) (bits t.ctl 15 8) (BitVec.ofNat 32 (2 ^ t.idx)))) ∧
    ((s.dom k).busy = true → Gives (.domainResetComplete k) s fun t => (t.dom k).busy = false ∧ t.groups = s.groups ∧ (s.memOk → t.memOk)) ∧
    (∀ h, s.boot.stage ≠ 0 → Gives (.measure h) s fun t => t.boot.log = s.boot.log ++ [h] ∧
      t.boot.meas = Config.sha512 (s.boot.meas.toNat + h.toNat * 2 ^ 512) 128 ∧ t.mem = s.mem ∧ t.groups = s.groups) ∧
    (∀ h, s.boot.stage ≠ 0 → Gives (.attest h) s fun t => t.boot.meas = s.boot.meas ∧ t.boot.log = s.boot.log ∧ t.boot.attest.length = s.boot.attest.length + 1) ∧
    (Gives .packageReset s fun t => t.groups = [] ∧ t.accs = [] ∧ t.hub = State.reset.hub ∧ t.mgmt.nv = s.mgmt.nv ∧ t.cycle = 0 ∧ t.tstamp = 0) ∧
    (∀ lane seq c f, k < 67 → lane < linkLanes k → (s.link k).up = true → (s.link k).training = false → s.answerDue k f = true →
      exec (.linkFlitReceive k lane seq c f) s = .next (s.receiveFlit k lane seq c f)) ∧
    (∀ lane seq f, k < 67 → lane < linkLanes k → (s.link k).up = true → (s.link k).training = false → s.answerDue k f = true →
      Gives (.linkFlitReceive k lane seq .bad f) s fun t => (t.link k).replays = min 0xFFFF ((s.link k).replays + 1) ∧
        (t.link k).expect = (s.link k).expect ∧ t.accs = s.accs ∧ t.groups = s.groups ∧ t.mem = s.mem) ∧
    (∀ rs, (s.link k).up = true → (s.link k).training = false → 32 < (s.link k).msReplays → (s.link k).rate < 3 → Gives (.linkRetrain k rs) s fun t =>
      (t.link k).rate = (s.link k).rate + 1 ∧ (t.link k).training = true ∧ (t.link k).up = true ∧ t.mem = s.mem ∧ t.groups = s.groups) ∧
    (∀ rs, (s.link k).up = true → (s.link k).training = false → 32 < (s.link k).msReplays → 3 ≤ (s.link k).rate →
      exec (.linkRetrain k rs) s = .next (s.linkDown k rs)) ∧
    (∀ rs, (s.link k).training = true → Gives (.linkRetrainDone k true rs) s (fun t => (t.link k).training = false ∧ t.mem = s.mem ∧ t.groups = s.groups) ∧
      exec (.linkRetrainDone k false rs) s = .next (s.linkDown k rs)) ∧
    (k < 67 → (s.link k).up = false → Gives (.linkTrained k) s fun t => (t.link k).up = true ∧ (t.link k).down = false ∧ t.mem = s.mem ∧ t.groups = s.groups) ∧
    (s.beatDue = true → Gives .heartbeatSend s fun t => t.io.hbSeq = s.io.hbSeq + 1 ∧ t.io.hbAt = s.tstamp.toNat ∧ t.mem = s.mem ∧ t.groups = s.groups) ∧
    (k < 3 → n < 8 → (s.link (64 + k)).up = true → Gives (.heartbeatReceive k n) s fun t => SMap.find t.io.heard n = some s.tstamp.toNat ∧
      t.mem = s.mem ∧ t.groups = s.groups) ∧
    (s.peerSilent k = true → exec (.heartbeatTimeout k) s = .next (s.fencePeer k)) ∧
    (∀ data aop ty, s.peerDue k op pa n = true → exec (.peerRequest k op pa n data aop ty) s = .next
      (s.sendFrom peerIngress pa fun u => u.peerRequest k op pa n data aop ty)) ∧
    (∀ port off data, s.outbound q op = some (port, off) → data = none ∨ s.bridged port off = true →
      exec (.pcieCompletion q op data) s = .next (s.completion port q op data (s.errKind q op))) ∧
    (∀ port off, s.outbound q op = some (port, off) → s.overdue q = true →
      exec (.pcieCompletionTimeout q op) s = .next (s.completion port q op none 3)) ∧
    (∀ data rid, k < 4 → s.rangeFree pa data.length true = true →
      (Gives (.pcieInboundWrite ⟨k, rid⟩ pa data true) s fun t => t = s) ∧
      ((∀ off, pRange pa ≠ .mmio off) → s.dmaRefused .store pa data.length = false →
        (∀ p ∈ lineParts pa data.length, s.fateFrom hubPorts p.1 ≠ .moved) → exec (.pcieInboundWrite ⟨k, rid⟩ pa data false) s = .next (s.dmaWrite pa data)) ∧
      ((∀ off, pRange pa ≠ .mmio off) → s.dmaRefused .store pa data.length = true →
        exec (.pcieInboundWrite ⟨k, rid⟩ pa data false) s = .next (s.logAer k 4))) ∧
    (∀ data rid c, k < 4 → c < 128 → data.length = 4 → exec (.pcieInboundWrite ⟨k, rid⟩ (mmioBase + 0x1007000000 + 0x1000 * c) data false) s = .next
      (s.doorbell c (msiData data))) ∧
    (∀ data rid page, k < 4 → page < 0x3000 → data.length = 4 →
      exec (.pcieInboundWrite ⟨k, rid⟩ (mmioBase + 0x1004000000 + 0x1000 * page) data false) s = .next
        (if s.takesFrom (s.functionDomain k rid) (Config.imsicFile page) then s.pendId (Config.imsicFile page) (msiData data).toNat else s.logAer k 4)) ∧
    (∀ file, 0 < n → n < 256 → (SMap.get (s.pendId file n).io.imsic file 0).getLsbD n = true ∧ (s.pendId file n).mem = s.mem ∧
      (s.pendId file n).groups = s.groups) ∧
    (∀ fault, k < 4 → s.rangeFree pa n false = true → exec (.pcieInboundRead k pa n fault) s = .next (s.dmaRead k pa n fault)) ∧
    (k < 1024 → s.wordFree pa = true → s.fateFrom hubPorts pa ≠ .moved → Gives (.nvmeCompletion k pa n) s fun t =>
      SMap.get t.io.nvme k 0 = SMap.get s.io.nvme k 0 + n ∧ t.mem =
        (if (s.refuse true .store 1 pa 8).isSome then s
        else (s.needLine pa).homeWrite (s.homeNow pa) pa (valueBytes (SMap.get s.io.nvme k 0 + n) 8) false none).mem) ∧
    (∀ tuple hash data cw, k < 4 → s.rangeFree pa data.length true = true → s.wordFree cw = true →
      (∀ p ∈ (cw, 8) :: lineParts pa data.length, s.fateFrom hubPorts p.1 ≠ .moved) →
      let q := 16 * k + s.steer k tuple hash
      let x := SMap.get s.io.eth q 0 + 1
      let u := if s.engineRefused pa data.length then s else s.dmaWrite pa data
      (s.io.qoff.contains q = true → Gives (.ethFrameReceive k tuple hash pa data cw) s fun t => t = s) ∧
      (s.io.qoff.contains q = false → Gives (.ethFrameReceive k tuple hash pa data cw) s fun t => SMap.get t.io.eth q 0 = x ∧ t.mem = (u.putWord cw x).mem)) ∧
    (∀ level file, k < 96 → s.aplicFile file = true → 0 < n → n < 256 → SMap.get s.io.wired k false ≠ level → Gives (.aplicWiredSource k level file n) s fun t =>
      SMap.get t.io.wired k false = level ∧ (SMap.get t.io.imsic file 0).getLsbD n = true ∧ t.mem = s.mem ∧ t.groups = s.groups) ∧
    (k < 128 → n ∈ [0, 1, 64] → (∀ t ∈ s.teams, t.2.core / 8 ≠ k) → Gives (.inFieldTest k n) s fun t => t.mem = s.mem ∧ t.groups = s.groups ∧ (n = 0 → t = s)) ∧
    (s.ctxDue k op r = true → exec (.contextWindowAccess k op r) s = .next (s.ctxAccess k op r))

/-- R7, R8, R28, R49, R131, R136, R139 to R143, R342, R344, R381, R384, R401, R411: a hart's write of a register has the effect of the register that it
addresses, or, where the access is refused, raises the exception and changes nothing else; a read of a custom CSR gives its value, and that of MCHK
takes the oldest message; a read of time gives TSTAMP, and sie and stimecmp hold what was written. -/
def Obligations.RegisterWritesAct : Prop :=
  (∀ (s : State) (a : Agent) (r : RegAddr) (v : DWord), a.exists_ = true →
    let at_ (w : WriteRow) : Prop := s.writeRow a r v = some w
    let runs (i : Instr) : Prop := exec i s = .next (s.hartWrite a r v)
    (at_ .other → runs (.registerWrite a r v)) ∧ (at_ .memcapRaise → runs (.memcapRaise a r v)) ∧
    (at_ .memcapLower → runs (.memcapLower a r v)) ∧ (at_ .stackmap → runs (.stackmapRetireWrite a r v)) ∧
    (at_ .mphaseGo → runs (.mphaseGo a r v)) ∧ (at_ .migword → runs (.migwordWrite a r v)) ∧
    (at_ .fwinEnable → runs (.fwinEnable a r v)) ∧ (at_ .fwinDisable → runs (.fwinDisable a r v)) ∧
    (at_ .peerwinClear → runs (.peerwinFencedClear a r v)) ∧ (at_ .grptrHead → runs (.grptrHeadWrite a r v)) ∧
    (at_ .glWake → runs (.glcmdWake a r v)) ∧ (at_ .glTimeout → runs (.glcmdTimeout a r v)) ∧
    (at_ .glRestart → runs (.glcmdRestart a r v)) ∧ (at_ .pairinjArm → runs (.pairinjArm a r v)) ∧
    (at_ .bootStage → runs (.bootstatStageWrite a r v)) ∧ (at_ .bootOk → runs (.bootstatOkWrite a r v)) ∧
    (at_ .ccbootRun → runs (.ccbootRun a r v)) ∧ (at_ .domainReset → runs (.domainReset a r v)) ∧
    (at_ .pmsgSend → runs (.pmsgSend a r v)) ∧ (at_ .tmrsyncLoad → runs (.tmrsyncLoad a r v)) ∧
    (at_ .clpwr → runs (.clpwrWrite a r v)) ∧ (at_ .portLaunch → runs (.launchPortLaunch a r v)) ∧
    (at_ .portRestore → runs (.launchPortRestore a r v)) ∧ (at_ .preq → runs (.preqWrite a r v)) ∧
    (at_ .uisend → runs (.uisendWrite a r v)) ∧ (at_ .fltRetry → runs (.fltackRetry a r v)) ∧
    (at_ .fltDeliver → runs (.fltackDeliver a r v)) ∧ (at_ .fltEnd → runs (.fltackEndDomain a r v)) ∧
    (at_ .fqptrHead → runs (.fqptrHeadWrite a r v)) ∧ (at_ .tlbAll → runs (.tlbinvAll a r v)) ∧
    (at_ .tlbAsid → runs (.tlbinvAsid a r v)) ∧ (at_ .tlbPage → runs (.tlbinvPage a r v)) ∧
    (at_ .monArm → runs (.monarmArm a r v)) ∧ (at_ .monDisarm → runs (.monarmDisarm a r v))) ∧
  (∀ (s : State) (c : Nat) (m : Mode) (v : DWord),
    let a := Agent.service c m
    let mm (o : Nat) : State := s.hartWrite a (.mmio o 8) v
    let csr (n : Nat) : State := s.hartWrite a (.csr n) v
    let hub : Nat := 0x1000000000
    (m = .user → csr 0x5C1 = s.hartExc a 2 0 ∧ mm (hub + 0x1000) = s.hartExc a 7 (BitVec.ofNat 64 (mmioBase + (hub + 0x1000)))) ∧
    (m ≠ .user →
      csr 0x5C4 = s.hartExc a 2 0 ∧ csr 0x5C3 = s.hartExc a 2 0 ∧
      ((csr 0x5C1).svcCore c).monopnd = v ∧ ((csr 0x5E7).svcCore c).savepc = v ∧
      (s.hub.odd = false → 2 ^ 32 ≤ bits v 51 16 * 2 ^ 16 → bits v 51 16 * 2 ^ 16 ≤ 2 ^ 36 * (stacksOf s.hub.live).length →
        (mm (hub + 0x1000)).hub.memcap = bits v 51 16 * 2 ^ 16 ∧ (mm (hub + 0x1000)).hub.refused = s.hub.refused) ∧
      (bits v 51 16 * 2 ^ 16 < 2 ^ 32 → (mm (hub + 0x1000)).hub.memcap = s.hub.memcap ∧ (mm (hub + 0x1000)).hub.refused = true) ∧
      (v.toNat % 2 ^ 52 / 8 * 8 < 2 ^ 32 → (mm (hub + 0x1030)).hub.migword = v.toNat % 2 ^ 52 / 8 * 8) ∧
      (bits v 7 6 = 3 → csr 0x5D5 = s.hartExc a 2 0) ∧
      (bits v 7 6 < 3 → (s.cluster c).unanswered (bits v 5 0) = false → csr 0x5D5 = s.hartExc a 2 0) ∧
      (bits v 63 62 = 3 → csr 0x5D0 = s.hartExc a 2 0) ∧
      (mm (hub + 0x5000)).hub = s.hub ∧ ((mm (hub + 0x5000)).hart 0).entry = bits v 51 2 ∧
      ((s.hart 0).running = false → v.getLsbD 63 = true → ((mm (hub + 0x5000)).hart 0).running = true ∧
        ((mm (hub + 0x5000)).hart 0).pc = BitVec.ofNat 64 (bits v 51 2 * 4) ∧ ((mm (hub + 0x5000)).hart 0).mode = .machine))) ∧
  (∀ (s : State) (c n : Nat) (m : Mode), c < 128 → 0x5C0 ≤ n → n ≤ 0x5FF →
    (m = .user ∨ csrKnown n = false → exec (.mchkRead (.service c) m n) s = .next (s.hartExc (.service c m) 2 0)) ∧
    (m ≠ .user → csrKnown n = true → Gives (.mchkRead (.service c) m n) s fun t => (t.svcCore c).got = s.csrRead c n ∧ t.mem = s.mem ∧ t.groups = s.groups ∧
      (t.svcCore c).mchk = if n = 0x5EB then (s.svcCore c).mchk.drop 1 else (s.svcCore c).mchk)) ∧
  (∀ (s : State) (c : Nat) (m : Mode), c < 128 →
    (m ≠ .user → Gives (.mchkRead (.service c) m 0x144) s fun t => (t.svcCore c).got = s.sip c ∧ t.mem = s.mem ∧ t.groups = s.groups) ∧
    (m ≠ .machine → exec (.mchkRead (.service c) m 0xF14) s = .next (s.hartExc (.service c m) 2 0)) ∧
    Gives (.mchkRead (.service c) .machine 0xF14) s fun t => ((t.svcCore c).got = BitVec.ofNat 64 c) ∧ t.mem = s.mem ∧ t.groups = s.groups) ∧
  (∀ (s : State) (c : Nat) (m : Mode) (v : DWord), c < 128 →
    (Gives (.mchkRead (.service c) m 0xC01) s fun t => (t.svcCore c).got = s.tstamp ∧ t.mem = s.mem ∧ t.groups = s.groups) ∧
    (m ≠ .user →
      (Gives (.mchkRead (.service c) m 0x14D) s fun t => (t.svcCore c).got = (s.svcCore c).stimecmp ∧ t.mem = s.mem ∧ t.groups = s.groups) ∧
      (Gives (.mchkRead (.service c) m 0x104) s fun t => (t.svcCore c).got = (s.svcCore c).sie ∧ t.mem = s.mem ∧ t.groups = s.groups) ∧
      (Gives (.mchkRead (.service c) m 0x180) s fun t => (t.svcCore c).got = 0 ∧ t.mem = s.mem ∧ t.groups = s.groups) ∧
      (Gives (.registerWrite (.service c m) (.csr 0x14D) v) s fun t => (t.svcCore c).stimecmp = v ∧ t.mem = s.mem ∧ t.groups = s.groups) ∧
      (Gives (.registerWrite (.service c m) (.csr 0x104) v) s fun t => (t.svcCore c).sie = v ∧ t.mem = s.mem ∧ t.groups = s.groups))) ∧
  (∀ (s : State) (h : Nat), h < 16 →
    Gives (.mchkRead (.control h) .machine 0xF14) s fun t => (t.hart h).got = BitVec.ofNat 64 h ∧ t.mem = s.mem ∧ t.groups = s.groups)
end

