-- ==== Sys2Proof/Laws/Memory.lean ====
section
/-! SUPPORT. Laws of finite maps and byte stores: reading after writing, and the canonical form kept by every write. -/

namespace Sys2Proof.Machine

open Sys2Proof

variable {α : Type}

/-! ### Finite maps -/

theorem SMap.get_nil (k : Nat) (d : α) : SMap.get ([] : SMap α) k d = d := rfl

theorem SMap.get_insert_same (m : SMap α) (k : Nat) (a d : α) (h : ∀ p ∈ m, p.1 ≠ k) : SMap.get (SMap.insert m k a) k d = a := by
  induction m with
  | nil => simp [SMap.insert, SMap.get]
  | cons p r ih =>
    have hp := h p (by simp)
    by_cases hk : k ≤ p.1
    · simp [SMap.insert, SMap.get, hk]
    · simp [SMap.insert, SMap.get, hk, hp, ih fun q hq => h q (by simp [hq])]

theorem SMap.get_insert_ne (m : SMap α) (k j : Nat) (a d : α) (hj : j ≠ k) : SMap.get (SMap.insert m k a) j d = SMap.get m j d := by
  induction m with
  | nil => simp [SMap.insert, SMap.get, Ne.symm hj]
  | cons p r ih =>
    by_cases hk : k ≤ p.1
    · simp [SMap.insert, SMap.get, hk, Ne.symm hj]
    · simp [SMap.insert, SMap.get, hk, ih]

theorem SMap.get_del_ne (m : SMap α) (k j : Nat) (d : α) (hj : j ≠ k) : SMap.get (SMap.del m k) j d = SMap.get m j d := by
  induction m with
  | nil => rfl
  | cons p r ih =>
    unfold SMap.del at ih ⊢
    by_cases hk : p.1 = k
    · simp [hk, SMap.get, Ne.symm hj, ih]
    · simp [hk, SMap.get, ih]

theorem SMap.mem_del (m : SMap α) (k : Nat) : ∀ p ∈ SMap.del m k, p.1 ≠ k := by
  intro p hp
  simp [SMap.del] at hp
  exact hp.2

@[simp] theorem SMap.get_set_same (m : SMap α) (k : Nat) (a d : α) : SMap.get (SMap.set m k a) k d = a :=
  SMap.get_insert_same _ _ _ _ (SMap.mem_del m k)

theorem SMap.get_set_ne (m : SMap α) (k j : Nat) (a d : α) (hj : j ≠ k) : SMap.get (SMap.set m k a) j d = SMap.get m j d := by
  rw [SMap.set, SMap.get_insert_ne _ _ _ _ _ hj, SMap.get_del_ne _ _ _ _ hj]

theorem SMap.get_del_same (m : SMap α) (k : Nat) (d : α) : SMap.get (SMap.del m k) k d = d := by
  induction m with
  | nil => rfl
  | cons p r ih =>
    unfold SMap.del at ih ⊢
    by_cases hk : p.1 = k
    · simp [hk, ih]
    · simp [hk, SMap.get, ih]

theorem SMap.find_insert_same (m : SMap α) (k : Nat) (a : α) (h : ∀ p ∈ m, p.1 ≠ k) : SMap.find (SMap.insert m k a) k = some a := by
  induction m with
  | nil => simp [SMap.insert, SMap.find]
  | cons p r ih =>
    have hp := h p (by simp)
    by_cases hk : k ≤ p.1
    · simp [SMap.insert, SMap.find, hk]
    · simp [SMap.insert, SMap.find, hk, hp, ih fun q hq => h q (by simp [hq])]

@[simp] theorem SMap.find_set_same (m : SMap α) (k : Nat) (a : α) : SMap.find (SMap.set m k a) k = some a :=
  SMap.find_insert_same _ _ _ (SMap.mem_del m k)

theorem SMap.find_insert_ne (m : SMap α) (k j : Nat) (a : α) (hj : j ≠ k) : SMap.find (SMap.insert m k a) j = SMap.find m j := by
  induction m with
  | nil => simp [SMap.insert, SMap.find, Ne.symm hj]
  | cons p r ih =>
    by_cases hk : k ≤ p.1
    · simp [SMap.insert, SMap.find, hk, Ne.symm hj]
    · simp [SMap.insert, SMap.find, hk, ih]

theorem SMap.find_del_ne (m : SMap α) (k j : Nat) (hj : j ≠ k) : SMap.find (SMap.del m k) j = SMap.find m j := by
  induction m with
  | nil => rfl
  | cons p r ih =>
    unfold SMap.del at ih ⊢
    by_cases hk : p.1 = k
    · simp [hk, SMap.find, Ne.symm hj, ih]
    · simp [hk, SMap.find, ih]

theorem SMap.find_set_ne (m : SMap α) (k j : Nat) (a : α) (hj : j ≠ k) : SMap.find (SMap.set m k a) j = SMap.find m j := by
  rw [SMap.set, SMap.find_insert_ne _ _ _ _ hj, SMap.find_del_ne _ _ _ hj]

/-! ### Byte stores -/

/-- A byte just written is read. -/
@[simp] theorem Memory.byte_put_same (m : Memory) (a : Nat) (b : Byte) : (m.put a b).byte a = b := by
  unfold Memory.put Memory.byte
  by_cases h : b = 0
  · rw [if_pos h, SMap.get_del_same, h]
  · rw [if_neg h, SMap.get_set_same]

/-- Another byte is read as before. -/
theorem Memory.byte_put_ne (m : Memory) (a x : Nat) (b : Byte) (h : x ≠ a) : (m.put a b).byte x = m.byte x := by
  unfold Memory.put Memory.byte
  by_cases hb : b = 0
  · rw [if_pos hb, SMap.get_del_ne _ _ _ _ h]
  · rw [if_neg hb, SMap.get_set_ne _ _ _ _ _ h]

/-- A write leaves every byte outside its range alone. -/
theorem Memory.byte_write_outside (n : Nat) : ∀ (m : Memory) (a v x : Nat), (x < a ∨ a + n ≤ x) → (m.write a v n).byte x = m.byte x := by
  induction n with
  | zero => intros; rfl
  | succ n ih =>
    intro m a v x h
    rw [Memory.write, ih _ _ _ _ (by omega), Memory.byte_put_ne _ _ _ _ (by omega)]

/-- Byte `k` of what a write left is byte `k` of its value. -/
theorem Memory.byte_write_inside (n : Nat) : ∀ (m : Memory) (a v k : Nat), k < n → (m.write a v n).byte (a + k) = BitVec.ofNat 8 (v / 256 ^ k) := by
  induction n with
  | zero => intros; omega
  | succ n ih =>
    intro m a v k h
    rw [Memory.write]
    cases k with
    | zero => show Memory.byte _ a = _; rw [Memory.byte_write_outside n _ (a + 1) _ a (.inl (Nat.lt_succ_self a)), Memory.byte_put_same]; simp
    | succ k =>
      rw [show a + (k + 1) = a + 1 + k by omega, ih _ _ _ _ (by omega), Nat.div_div_eq_div_mul, Nat.pow_succ, Nat.mul_comm]

/-- A value written is read back, modulo its width. -/
theorem Memory.read_write_same (n : Nat) : ∀ (m : Memory) (a v : Nat), (m.write a v n).read a n = v % 256 ^ n := by
  suffices h : ∀ (n : Nat) (m m' : Memory) (a v : Nat), (∀ k, k < n → m'.byte (a + k) = BitVec.ofNat 8 (v / 256 ^ k)) →
      m'.read a n = v % 256 ^ n from fun m a v => h n m _ a v fun k hk => Memory.byte_write_inside n m a v k hk
  intro n
  induction n with
  | zero => intro m m' a v _; simp [Memory.read, Nat.mod_one]
  | succ n ih =>
    intro m m' a v h
    have h0 : m'.byte a = BitVec.ofNat 8 v := by simpa using h 0 (by omega)
    have hr : m'.read (a + 1) n = v / 256 % 256 ^ n := by
      refine ih m m' (a + 1) (v / 256) fun k hk => ?_
      rw [show a + 1 + k = a + (k + 1) by omega, h (k + 1) (by omega), Nat.div_div_eq_div_mul, Nat.pow_succ, Nat.mul_comm]
    rw [Memory.read, h0, hr, Nat.pow_succ, Nat.mul_comm (256 ^ n) 256, Nat.mod_mul]
    simp

/-! ### The canonical form -/

theorem Memory.wf_cons {p : Host.Cell} {r : Memory} : Memory.wf (p :: r) = true ↔ p.2 ≠ 0 ∧ (∀ q ∈ r, p.1 < q.1) ∧ Memory.wf r = true := by
  simp [Memory.wf, and_assoc]

theorem Memory.wf_filter (f : Host.Cell → Bool) (m : Memory) (h : Memory.wf m = true) : Memory.wf (m.filter f) = true := by
  induction m with
  | nil => rfl
  | cons p r ih =>
    obtain ⟨h1, h2, h3⟩ := Memory.wf_cons.1 h
    by_cases hf : f p = true
    · rw [List.filter_cons_of_pos hf]
      exact Memory.wf_cons.2 ⟨h1, fun q hq => h2 q (List.mem_filter.1 hq).1, ih h3⟩
    · rw [List.filter_cons_of_neg (by simpa using hf)]
      exact ih h3

theorem Memory.mem_insert (m : Memory) (a : Nat) (b : Byte) : ∀ q ∈ SMap.insert m a b, q = (a, b) ∨ q ∈ m := by
  induction m with
  | nil => simp [SMap.insert]
  | cons p r ih =>
    intro q hq
    by_cases hk : a ≤ p.1
    · simpa [SMap.insert, hk] using hq
    · simp [SMap.insert, hk] at hq ⊢
      rcases hq with rfl | hq
      · simp
      · rcases ih q hq with h | h
        · exact .inl h
        · exact .inr (.inr h)

theorem Memory.wf_insert (m : Memory) (a : Nat) (b : Byte) (hb : b ≠ 0) (hne : ∀ q ∈ m, q.1 ≠ a) (h : Memory.wf m = true) :
    Memory.wf (SMap.insert m a b) = true := by
  induction m with
  | nil => exact Memory.wf_cons.2 ⟨hb, by simp, rfl⟩
  | cons p r ih =>
    obtain ⟨h1, h2, h3⟩ := Memory.wf_cons.1 h
    have hp := hne p (by simp)
    by_cases hk : a ≤ p.1
    · rw [SMap.insert, if_pos hk]
      refine Memory.wf_cons.2 ⟨hb, fun q hq => ?_, h⟩
      rcases List.mem_cons.1 hq with rfl | hq
      · show a < q.1
        omega
      · have := h2 q hq
        show a < q.1
        omega
    · rw [SMap.insert, if_neg hk]
      refine Memory.wf_cons.2 ⟨h1, fun q hq => ?_, ih (fun q hq => hne q (by simp [hq])) h3⟩
      rcases Memory.mem_insert r a b q hq with rfl | hq
      · show p.1 < a
        omega
      · exact h2 q hq

/-- One byte written keeps the canonical form. -/
theorem Memory.wf_put (m : Memory) (a : Nat) (b : Byte) (h : Memory.wf m = true) : Memory.wf (m.put a b) = true := by
  unfold Memory.put
  have hd : Memory.wf (SMap.del m a) = true := Memory.wf_filter _ m h
  by_cases hb : b = 0
  · rwa [if_pos hb]
  · rw [if_neg hb]
    exact Memory.wf_insert _ a b hb (SMap.mem_del m a) hd

/-- A write keeps the canonical form. -/
theorem Memory.wf_write (n : Nat) : ∀ (m : Memory) (a v : Nat), Memory.wf m = true → Memory.wf (m.write a v n) = true := by
  induction n with
  | zero => intro m a v h; exact h
  | succ n ih => intro m a v h; exact ih _ _ _ (Memory.wf_put _ _ _ h)


/-- Bytes written at offsets keep the canonical form. -/
theorem Memory.wf_putAll (bs : SMap Byte) : ∀ (m : Memory) (a : Nat), Memory.wf m = true → Memory.wf (m.putAll a bs) = true := by
  induction bs with
  | nil => intro m a h; exact h
  | cons b r ih => intro m a h; exact ih _ _ (Memory.wf_put _ _ _ h)

/-- Bytes written at offsets leave every other byte alone. -/
theorem Memory.byte_putAll_outside (bs : SMap Byte) : ∀ (m : Memory) (a x : Nat), (∀ b ∈ bs, x ≠ a + b.1) → (m.putAll a bs).byte x = m.byte x := by
  induction bs with
  | nil => intros; rfl
  | cons b r ih =>
    intro m a x h
    have hr := ih (m.put (a + b.1) b.2) a x fun c hc => h c (by simp [hc])
    rw [Memory.byte_put_ne _ _ _ _ (h b (by simp))] at hr
    exact hr

/-- A byte store that lists nothing has the canonical form. -/
theorem Memory.wf_nil : Memory.wf [] = true := rfl

/-! ### Reads beside a write -/

theorem Memory.read_congr (n : Nat) : ∀ (m m' : Memory) (a : Nat), (∀ i, i < n → m.byte (a + i) = m'.byte (a + i)) → m.read a n = m'.read a n := by
  induction n with
  | zero => intros; rfl
  | succ n ih =>
    intro m m' a h
    show (m.byte a).toNat + 256 * m.read (a + 1) n = (m'.byte a).toNat + 256 * m'.read (a + 1) n
    rw [show m.byte a = m'.byte a from by simpa using h 0 (by omega)]
    rw [ih m m' (a + 1) fun i hi => by have := h (i + 1) (by omega); rwa [show a + (i + 1) = a + 1 + i from by omega] at this]

theorem Memory.read_write_outside (m : Memory) (a v n b k : Nat) (h : b + k ≤ a ∨ a + n ≤ b) : (m.write a v n).read b k = m.read b k :=
  Memory.read_congr k _ _ b fun i hi => Memory.byte_write_outside n m a v (b + i) (by omega)

/-- The low bytes of a read. -/
theorem Memory.read_mod (j : Nat) : ∀ (n : Nat) (m : Memory) (a : Nat), j ≤ n → m.read a n % 256 ^ j = m.read a j := by
  induction j with
  | zero => intro n m a _; simp [Memory.read, Nat.mod_one]
  | succ j ih =>
    intro n m a h
    obtain ⟨n, rfl⟩ : ∃ k, n = k + 1 := ⟨n - 1, by omega⟩
    show ((m.byte a).toNat + 256 * m.read (a + 1) n) % 256 ^ (j + 1) = (m.byte a).toNat + 256 * m.read (a + 1) j
    rw [← ih n m (a + 1) (by omega)]
    have hb : (m.byte a).toNat < 256 := (m.byte a).isLt
    have hd : ((m.byte a).toNat + 256 * m.read (a + 1) n) / 256 = m.read (a + 1) n := by omega
    rw [show 256 ^ (j + 1) = 256 * 256 ^ j from by rw [Nat.pow_succ, Nat.mul_comm], Nat.mod_mul, hd]
    omega

/-- A write that no slice lists anything for wakes nobody. -/
theorem State.afterWrite_none (s : State) (home pa n : Nat) (hs : s.slices = []) : s.afterWrite home pa n = s := by
  have hm : s.monCount = 0 := by simp [State.monCount, hs]
  have hb : ∀ ds : List Nat, ds.foldl (fun s d => if s.bucketUsed home d then s.writeRec home d false else s) s = s := by
    intro ds
    induction ds with
    | nil => rfl
    | cons d ds ih =>
      rw [List.foldl_cons, if_neg (by simp [State.bucketUsed, State.slice, hs, SMap.get_nil]), ih]
  unfold State.afterWrite
  rw [hm]
  simp only [State.afterWriteFor, State.slice, hs, SMap.get_nil, List.filter_nil, List.foldl_nil, List.flatMap_nil, List.eraseDups_nil]
  exact hb _

/-- The same of several homes. -/
theorem State.afterWrites_none (s : State) (pa n : Nat) (hs : s.slices = []) (l : List Nat) : l.foldl (fun s h => s.afterWrite h pa n) s = s := by
  induction l with
  | nil => rfl
  | cons h l ih => rw [List.foldl_cons, State.afterWrite_none _ _ _ _ hs, ih]

/-- A store where no slice lists anything and the line keeps no decode information. -/
theorem State.homeStore_mem (s : State) (pa x n : Nat) (hs : s.slices = []) (hl : (s.line pa).dec = false) :
    (s.homeStore pa x n).mem = Memory.putAll s.mem pa (valueBytes x n) := by
  unfold State.homeStore State.homeWrite
  dsimp only
  split
  · rename_i h
    rw [List.isEmpty_iff] at h
    rw [h, State.afterWrites_none _ _ _ hs]
    rfl
  · rw [show (({ s with mem := Memory.putAll s.mem pa (valueBytes x n) } : State).line pa).dec = false from hl]
    simp only [Bool.false_eq_true, if_false]
    rw [State.afterWrite_none, State.afterWrites_none]
    · rfl
    · exact hs
    · exact hs

end Sys2Proof.Machine
end

