-- ==== Sys2Proof/Laws/State.lean ====
section
/-! SUPPORT. What each update of a State leaves in each field: one equation per field and update, for simp, so that no later proof unfolds a record update. -/

namespace Sys2Proof.Machine

/-! ### setGroup -/

@[simp] theorem State.setGroup_cycle (s : State) (k : Nat) (x : Group) : (s.setGroup k x).cycle = s.cycle := rfl
@[simp] theorem State.setGroup_tstamp (s : State) (k : Nat) (x : Group) : (s.setGroup k x).tstamp = s.tstamp := rfl
@[simp] theorem State.setGroup_freeCtr (s : State) (k : Nat) (x : Group) : (s.setGroup k x).freeCtr = s.freeCtr := rfl
@[simp] theorem State.setGroup_agenda (s : State) (k : Nat) (x : Group) : (s.setGroup k x).agenda = s.agenda := rfl
@[simp] theorem State.setGroup_cur (s : State) (k : Nat) (x : Group) : (s.setGroup k x).cur = s.cur := rfl
@[simp] theorem State.setGroup_stopped (s : State) (k : Nat) (x : Group) : (s.setGroup k x).stopped = s.stopped := rfl
@[simp] theorem State.setGroup_mem (s : State) (k : Nat) (x : Group) : (s.setGroup k x).mem = s.mem := rfl
@[simp] theorem State.setGroup_lines (s : State) (k : Nat) (x : Group) : (s.setGroup k x).lines = s.lines := rfl
@[simp] theorem State.setGroup_slices (s : State) (k : Nat) (x : Group) : (s.setGroup k x).slices = s.slices := rfl
@[simp] theorem State.setGroup_dies (s : State) (k : Nat) (x : Group) : (s.setGroup k x).dies = s.dies := rfl
@[simp] theorem State.setGroup_clusters (s : State) (k : Nat) (x : Group) : (s.setGroup k x).clusters = s.clusters := rfl
@[simp] theorem State.setGroup_svc (s : State) (k : Nat) (x : Group) : (s.setGroup k x).svc = s.svc := rfl
@[simp] theorem State.setGroup_cores (s : State) (k : Nat) (x : Group) : (s.setGroup k x).cores = s.cores := rfl
@[simp] theorem State.setGroup_parts (s : State) (k : Nat) (x : Group) : (s.setGroup k x).parts = s.parts := rfl
@[simp] theorem State.setGroup_groups (s : State) (k : Nat) (x : Group) : (s.setGroup k x).groups = SMap.set s.groups k x := rfl
@[simp] theorem State.setGroup_stash (s : State) (k : Nat) (x : Group) : (s.setGroup k x).stash = s.stash := rfl
@[simp] theorem State.setGroup_teams (s : State) (k : Nat) (x : Group) : (s.setGroup k x).teams = s.teams := rfl
@[simp] theorem State.setGroup_saved (s : State) (k : Nat) (x : Group) : (s.setGroup k x).saved = s.saved := rfl
@[simp] theorem State.setGroup_ckpts (s : State) (k : Nat) (x : Group) : (s.setGroup k x).ckpts = s.ckpts := rfl
@[simp] theorem State.setGroup_launches (s : State) (k : Nat) (x : Group) : (s.setGroup k x).launches = s.launches := rfl
@[simp] theorem State.setGroup_accs (s : State) (k : Nat) (x : Group) : (s.setGroup k x).accs = s.accs := rfl
@[simp] theorem State.setGroup_redos (s : State) (k : Nat) (x : Group) : (s.setGroup k x).redos = s.redos := rfl
@[simp] theorem State.setGroup_copies (s : State) (k : Nat) (x : Group) : (s.setGroup k x).copies = s.copies := rfl
@[simp] theorem State.setGroup_arms (s : State) (k : Nat) (x : Group) : (s.setGroup k x).arms = s.arms := rfl
@[simp] theorem State.setGroup_decs (s : State) (k : Nat) (x : Group) : (s.setGroup k x).decs = s.decs := rfl
@[simp] theorem State.setGroup_bound (s : State) (k : Nat) (x : Group) : (s.setGroup k x).bound = s.bound := rfl
@[simp] theorem State.setGroup_waits (s : State) (k : Nat) (x : Group) : (s.setGroup k x).waits = s.waits := rfl
@[simp] theorem State.setGroup_shadows (s : State) (k : Nat) (x : Group) : (s.setGroup k x).shadows = s.shadows := rfl
@[simp] theorem State.setGroup_wakes (s : State) (k : Nat) (x : Group) : (s.setGroup k x).wakes = s.wakes := rfl
@[simp] theorem State.setGroup_watch (s : State) (k : Nat) (x : Group) : (s.setGroup k x).watch = s.watch := rfl
@[simp] theorem State.setGroup_nextId (s : State) (k : Nat) (x : Group) : (s.setGroup k x).nextId = s.nextId := rfl
@[simp] theorem State.setGroup_hub (s : State) (k : Nat) (x : Group) : (s.setGroup k x).hub = s.hub := rfl
@[simp] theorem State.setGroup_io (s : State) (k : Nat) (x : Group) : (s.setGroup k x).io = s.io := rfl
@[simp] theorem State.setGroup_boot (s : State) (k : Nat) (x : Group) : (s.setGroup k x).boot = s.boot := rfl
@[simp] theorem State.setGroup_mgmt (s : State) (k : Nat) (x : Group) : (s.setGroup k x).mgmt = s.mgmt := rfl
@[simp] theorem State.setGroup_harts (s : State) (k : Nat) (x : Group) : (s.setGroup k x).harts = s.harts := rfl
@[simp] theorem State.setGroup_doms (s : State) (k : Nat) (x : Group) : (s.setGroup k x).doms = s.doms := rfl
@[simp] theorem State.setGroup_buckets (s : State) (k : Nat) (x : Group) : (s.setGroup k x).buckets = s.buckets := rfl
@[simp] theorem State.setGroup_leakMs (s : State) (k : Nat) (x : Group) : (s.setGroup k x).leakMs = s.leakMs := rfl
@[simp] theorem State.setGroup_shoots (s : State) (k : Nat) (x : Group) : (s.setGroup k x).shoots = s.shoots := rfl
@[simp] theorem State.setGroup_armReqs (s : State) (k : Nat) (x : Group) : (s.setGroup k x).armReqs = s.armReqs := rfl
@[simp] theorem State.setGroup_svcUse (s : State) (k : Nat) (x : Group) : (s.setGroup k x).svcUse = s.svcUse := rfl
@[simp] theorem State.setGroup_deferred (s : State) (k : Nat) (x : Group) : (s.setGroup k x).deferred = s.deferred := rfl
@[simp] theorem State.setGroup_heap (s : State) (k : Nat) (x : Group) : (s.setGroup k x).heap = s.heap := rfl

/-! ### updGroup -/

@[simp] theorem State.updGroup_cycle (s : State) (k : Nat) (f : Group → Group) : (s.updGroup k f).cycle = s.cycle := rfl
@[simp] theorem State.updGroup_tstamp (s : State) (k : Nat) (f : Group → Group) : (s.updGroup k f).tstamp = s.tstamp := rfl
@[simp] theorem State.updGroup_freeCtr (s : State) (k : Nat) (f : Group → Group) : (s.updGroup k f).freeCtr = s.freeCtr := rfl
@[simp] theorem State.updGroup_agenda (s : State) (k : Nat) (f : Group → Group) : (s.updGroup k f).agenda = s.agenda := rfl
@[simp] theorem State.updGroup_cur (s : State) (k : Nat) (f : Group → Group) : (s.updGroup k f).cur = s.cur := rfl
@[simp] theorem State.updGroup_stopped (s : State) (k : Nat) (f : Group → Group) : (s.updGroup k f).stopped = s.stopped := rfl
@[simp] theorem State.updGroup_mem (s : State) (k : Nat) (f : Group → Group) : (s.updGroup k f).mem = s.mem := rfl
@[simp] theorem State.updGroup_lines (s : State) (k : Nat) (f : Group → Group) : (s.updGroup k f).lines = s.lines := rfl
@[simp] theorem State.updGroup_slices (s : State) (k : Nat) (f : Group → Group) : (s.updGroup k f).slices = s.slices := rfl
@[simp] theorem State.updGroup_dies (s : State) (k : Nat) (f : Group → Group) : (s.updGroup k f).dies = s.dies := rfl
@[simp] theorem State.updGroup_clusters (s : State) (k : Nat) (f : Group → Group) : (s.updGroup k f).clusters = s.clusters := rfl
@[simp] theorem State.updGroup_svc (s : State) (k : Nat) (f : Group → Group) : (s.updGroup k f).svc = s.svc := rfl
@[simp] theorem State.updGroup_cores (s : State) (k : Nat) (f : Group → Group) : (s.updGroup k f).cores = s.cores := rfl
@[simp] theorem State.updGroup_parts (s : State) (k : Nat) (f : Group → Group) : (s.updGroup k f).parts = s.parts := rfl
@[simp] theorem State.updGroup_groups (s : State) (k : Nat) (f : Group → Group) : (s.updGroup k f).groups = SMap.set s.groups k (f (s.group k)) := rfl
@[simp] theorem State.updGroup_stash (s : State) (k : Nat) (f : Group → Group) : (s.updGroup k f).stash = s.stash := rfl
@[simp] theorem State.updGroup_teams (s : State) (k : Nat) (f : Group → Group) : (s.updGroup k f).teams = s.teams := rfl
@[simp] theorem State.updGroup_saved (s : State) (k : Nat) (f : Group → Group) : (s.updGroup k f).saved = s.saved := rfl
@[simp] theorem State.updGroup_ckpts (s : State) (k : Nat) (f : Group → Group) : (s.updGroup k f).ckpts = s.ckpts := rfl
@[simp] theorem State.updGroup_launches (s : State) (k : Nat) (f : Group → Group) : (s.updGroup k f).launches = s.launches := rfl
@[simp] theorem State.updGroup_accs (s : State) (k : Nat) (f : Group → Group) : (s.updGroup k f).accs = s.accs := rfl
@[simp] theorem State.updGroup_redos (s : State) (k : Nat) (f : Group → Group) : (s.updGroup k f).redos = s.redos := rfl
@[simp] theorem State.updGroup_copies (s : State) (k : Nat) (f : Group → Group) : (s.updGroup k f).copies = s.copies := rfl
@[simp] theorem State.updGroup_arms (s : State) (k : Nat) (f : Group → Group) : (s.updGroup k f).arms = s.arms := rfl
@[simp] theorem State.updGroup_decs (s : State) (k : Nat) (f : Group → Group) : (s.updGroup k f).decs = s.decs := rfl
@[simp] theorem State.updGroup_bound (s : State) (k : Nat) (f : Group → Group) : (s.updGroup k f).bound = s.bound := rfl
@[simp] theorem State.updGroup_waits (s : State) (k : Nat) (f : Group → Group) : (s.updGroup k f).waits = s.waits := rfl
@[simp] theorem State.updGroup_shadows (s : State) (k : Nat) (f : Group → Group) : (s.updGroup k f).shadows = s.shadows := rfl
@[simp] theorem State.updGroup_wakes (s : State) (k : Nat) (f : Group → Group) : (s.updGroup k f).wakes = s.wakes := rfl
@[simp] theorem State.updGroup_watch (s : State) (k : Nat) (f : Group → Group) : (s.updGroup k f).watch = s.watch := rfl
@[simp] theorem State.updGroup_nextId (s : State) (k : Nat) (f : Group → Group) : (s.updGroup k f).nextId = s.nextId := rfl
@[simp] theorem State.updGroup_hub (s : State) (k : Nat) (f : Group → Group) : (s.updGroup k f).hub = s.hub := rfl
@[simp] theorem State.updGroup_io (s : State) (k : Nat) (f : Group → Group) : (s.updGroup k f).io = s.io := rfl
@[simp] theorem State.updGroup_boot (s : State) (k : Nat) (f : Group → Group) : (s.updGroup k f).boot = s.boot := rfl
@[simp] theorem State.updGroup_mgmt (s : State) (k : Nat) (f : Group → Group) : (s.updGroup k f).mgmt = s.mgmt := rfl
@[simp] theorem State.updGroup_harts (s : State) (k : Nat) (f : Group → Group) : (s.updGroup k f).harts = s.harts := rfl
@[simp] theorem State.updGroup_doms (s : State) (k : Nat) (f : Group → Group) : (s.updGroup k f).doms = s.doms := rfl
@[simp] theorem State.updGroup_buckets (s : State) (k : Nat) (f : Group → Group) : (s.updGroup k f).buckets = s.buckets := rfl
@[simp] theorem State.updGroup_leakMs (s : State) (k : Nat) (f : Group → Group) : (s.updGroup k f).leakMs = s.leakMs := rfl
@[simp] theorem State.updGroup_shoots (s : State) (k : Nat) (f : Group → Group) : (s.updGroup k f).shoots = s.shoots := rfl
@[simp] theorem State.updGroup_armReqs (s : State) (k : Nat) (f : Group → Group) : (s.updGroup k f).armReqs = s.armReqs := rfl
@[simp] theorem State.updGroup_svcUse (s : State) (k : Nat) (f : Group → Group) : (s.updGroup k f).svcUse = s.svcUse := rfl
@[simp] theorem State.updGroup_deferred (s : State) (k : Nat) (f : Group → Group) : (s.updGroup k f).deferred = s.deferred := rfl
@[simp] theorem State.updGroup_heap (s : State) (k : Nat) (f : Group → Group) : (s.updGroup k f).heap = s.heap := rfl

/-! ### setPart -/

@[simp] theorem State.setPart_cycle (s : State) (k : Nat) (x : Part) : (s.setPart k x).cycle = s.cycle := rfl
@[simp] theorem State.setPart_tstamp (s : State) (k : Nat) (x : Part) : (s.setPart k x).tstamp = s.tstamp := rfl
@[simp] theorem State.setPart_freeCtr (s : State) (k : Nat) (x : Part) : (s.setPart k x).freeCtr = s.freeCtr := rfl
@[simp] theorem State.setPart_agenda (s : State) (k : Nat) (x : Part) : (s.setPart k x).agenda = s.agenda := rfl
@[simp] theorem State.setPart_cur (s : State) (k : Nat) (x : Part) : (s.setPart k x).cur = s.cur := rfl
@[simp] theorem State.setPart_stopped (s : State) (k : Nat) (x : Part) : (s.setPart k x).stopped = s.stopped := rfl
@[simp] theorem State.setPart_mem (s : State) (k : Nat) (x : Part) : (s.setPart k x).mem = s.mem := rfl
@[simp] theorem State.setPart_lines (s : State) (k : Nat) (x : Part) : (s.setPart k x).lines = s.lines := rfl
@[simp] theorem State.setPart_slices (s : State) (k : Nat) (x : Part) : (s.setPart k x).slices = s.slices := rfl
@[simp] theorem State.setPart_dies (s : State) (k : Nat) (x : Part) : (s.setPart k x).dies = s.dies := rfl
@[simp] theorem State.setPart_clusters (s : State) (k : Nat) (x : Part) : (s.setPart k x).clusters = s.clusters := rfl
@[simp] theorem State.setPart_svc (s : State) (k : Nat) (x : Part) : (s.setPart k x).svc = s.svc := rfl
@[simp] theorem State.setPart_cores (s : State) (k : Nat) (x : Part) : (s.setPart k x).cores = s.cores := rfl
@[simp] theorem State.setPart_parts (s : State) (k : Nat) (x : Part) : (s.setPart k x).parts = SMap.set s.parts k x := rfl
@[simp] theorem State.setPart_groups (s : State) (k : Nat) (x : Part) : (s.setPart k x).groups = s.groups := rfl
@[simp] theorem State.setPart_stash (s : State) (k : Nat) (x : Part) : (s.setPart k x).stash = s.stash := rfl
@[simp] theorem State.setPart_teams (s : State) (k : Nat) (x : Part) : (s.setPart k x).teams = s.teams := rfl
@[simp] theorem State.setPart_saved (s : State) (k : Nat) (x : Part) : (s.setPart k x).saved = s.saved := rfl
@[simp] theorem State.setPart_ckpts (s : State) (k : Nat) (x : Part) : (s.setPart k x).ckpts = s.ckpts := rfl
@[simp] theorem State.setPart_launches (s : State) (k : Nat) (x : Part) : (s.setPart k x).launches = s.launches := rfl
@[simp] theorem State.setPart_accs (s : State) (k : Nat) (x : Part) : (s.setPart k x).accs = s.accs := rfl
@[simp] theorem State.setPart_redos (s : State) (k : Nat) (x : Part) : (s.setPart k x).redos = s.redos := rfl
@[simp] theorem State.setPart_copies (s : State) (k : Nat) (x : Part) : (s.setPart k x).copies = s.copies := rfl
@[simp] theorem State.setPart_arms (s : State) (k : Nat) (x : Part) : (s.setPart k x).arms = s.arms := rfl
@[simp] theorem State.setPart_decs (s : State) (k : Nat) (x : Part) : (s.setPart k x).decs = s.decs := rfl
@[simp] theorem State.setPart_bound (s : State) (k : Nat) (x : Part) : (s.setPart k x).bound = s.bound := rfl
@[simp] theorem State.setPart_waits (s : State) (k : Nat) (x : Part) : (s.setPart k x).waits = s.waits := rfl
@[simp] theorem State.setPart_shadows (s : State) (k : Nat) (x : Part) : (s.setPart k x).shadows = s.shadows := rfl
@[simp] theorem State.setPart_wakes (s : State) (k : Nat) (x : Part) : (s.setPart k x).wakes = s.wakes := rfl
@[simp] theorem State.setPart_watch (s : State) (k : Nat) (x : Part) : (s.setPart k x).watch = s.watch := rfl
@[simp] theorem State.setPart_nextId (s : State) (k : Nat) (x : Part) : (s.setPart k x).nextId = s.nextId := rfl
@[simp] theorem State.setPart_hub (s : State) (k : Nat) (x : Part) : (s.setPart k x).hub = s.hub := rfl
@[simp] theorem State.setPart_io (s : State) (k : Nat) (x : Part) : (s.setPart k x).io = s.io := rfl
@[simp] theorem State.setPart_boot (s : State) (k : Nat) (x : Part) : (s.setPart k x).boot = s.boot := rfl
@[simp] theorem State.setPart_mgmt (s : State) (k : Nat) (x : Part) : (s.setPart k x).mgmt = s.mgmt := rfl
@[simp] theorem State.setPart_harts (s : State) (k : Nat) (x : Part) : (s.setPart k x).harts = s.harts := rfl
@[simp] theorem State.setPart_doms (s : State) (k : Nat) (x : Part) : (s.setPart k x).doms = s.doms := rfl
@[simp] theorem State.setPart_buckets (s : State) (k : Nat) (x : Part) : (s.setPart k x).buckets = s.buckets := rfl
@[simp] theorem State.setPart_leakMs (s : State) (k : Nat) (x : Part) : (s.setPart k x).leakMs = s.leakMs := rfl
@[simp] theorem State.setPart_shoots (s : State) (k : Nat) (x : Part) : (s.setPart k x).shoots = s.shoots := rfl
@[simp] theorem State.setPart_armReqs (s : State) (k : Nat) (x : Part) : (s.setPart k x).armReqs = s.armReqs := rfl
@[simp] theorem State.setPart_svcUse (s : State) (k : Nat) (x : Part) : (s.setPart k x).svcUse = s.svcUse := rfl
@[simp] theorem State.setPart_deferred (s : State) (k : Nat) (x : Part) : (s.setPart k x).deferred = s.deferred := rfl
@[simp] theorem State.setPart_heap (s : State) (k : Nat) (x : Part) : (s.setPart k x).heap = s.heap := rfl

/-! ### setCore -/

@[simp] theorem State.setCore_cycle (s : State) (k : Nat) (x : Core) : (s.setCore k x).cycle = s.cycle := rfl
@[simp] theorem State.setCore_tstamp (s : State) (k : Nat) (x : Core) : (s.setCore k x).tstamp = s.tstamp := rfl
@[simp] theorem State.setCore_freeCtr (s : State) (k : Nat) (x : Core) : (s.setCore k x).freeCtr = s.freeCtr := rfl
@[simp] theorem State.setCore_agenda (s : State) (k : Nat) (x : Core) : (s.setCore k x).agenda = s.agenda := rfl
@[simp] theorem State.setCore_cur (s : State) (k : Nat) (x : Core) : (s.setCore k x).cur = s.cur := rfl
@[simp] theorem State.setCore_stopped (s : State) (k : Nat) (x : Core) : (s.setCore k x).stopped = s.stopped := rfl
@[simp] theorem State.setCore_mem (s : State) (k : Nat) (x : Core) : (s.setCore k x).mem = s.mem := rfl
@[simp] theorem State.setCore_lines (s : State) (k : Nat) (x : Core) : (s.setCore k x).lines = s.lines := rfl
@[simp] theorem State.setCore_slices (s : State) (k : Nat) (x : Core) : (s.setCore k x).slices = s.slices := rfl
@[simp] theorem State.setCore_dies (s : State) (k : Nat) (x : Core) : (s.setCore k x).dies = s.dies := rfl
@[simp] theorem State.setCore_clusters (s : State) (k : Nat) (x : Core) : (s.setCore k x).clusters = s.clusters := rfl
@[simp] theorem State.setCore_svc (s : State) (k : Nat) (x : Core) : (s.setCore k x).svc = s.svc := rfl
@[simp] theorem State.setCore_cores (s : State) (k : Nat) (x : Core) : (s.setCore k x).cores = SMap.set s.cores k x := rfl
@[simp] theorem State.setCore_parts (s : State) (k : Nat) (x : Core) : (s.setCore k x).parts = s.parts := rfl
@[simp] theorem State.setCore_groups (s : State) (k : Nat) (x : Core) : (s.setCore k x).groups = s.groups := rfl
@[simp] theorem State.setCore_stash (s : State) (k : Nat) (x : Core) : (s.setCore k x).stash = s.stash := rfl
@[simp] theorem State.setCore_teams (s : State) (k : Nat) (x : Core) : (s.setCore k x).teams = s.teams := rfl
@[simp] theorem State.setCore_saved (s : State) (k : Nat) (x : Core) : (s.setCore k x).saved = s.saved := rfl
@[simp] theorem State.setCore_ckpts (s : State) (k : Nat) (x : Core) : (s.setCore k x).ckpts = s.ckpts := rfl
@[simp] theorem State.setCore_launches (s : State) (k : Nat) (x : Core) : (s.setCore k x).launches = s.launches := rfl
@[simp] theorem State.setCore_accs (s : State) (k : Nat) (x : Core) : (s.setCore k x).accs = s.accs := rfl
@[simp] theorem State.setCore_redos (s : State) (k : Nat) (x : Core) : (s.setCore k x).redos = s.redos := rfl
@[simp] theorem State.setCore_copies (s : State) (k : Nat) (x : Core) : (s.setCore k x).copies = s.copies := rfl
@[simp] theorem State.setCore_arms (s : State) (k : Nat) (x : Core) : (s.setCore k x).arms = s.arms := rfl
@[simp] theorem State.setCore_decs (s : State) (k : Nat) (x : Core) : (s.setCore k x).decs = s.decs := rfl
@[simp] theorem State.setCore_bound (s : State) (k : Nat) (x : Core) : (s.setCore k x).bound = s.bound := rfl
@[simp] theorem State.setCore_waits (s : State) (k : Nat) (x : Core) : (s.setCore k x).waits = s.waits := rfl
@[simp] theorem State.setCore_shadows (s : State) (k : Nat) (x : Core) : (s.setCore k x).shadows = s.shadows := rfl
@[simp] theorem State.setCore_wakes (s : State) (k : Nat) (x : Core) : (s.setCore k x).wakes = s.wakes := rfl
@[simp] theorem State.setCore_watch (s : State) (k : Nat) (x : Core) : (s.setCore k x).watch = s.watch := rfl
@[simp] theorem State.setCore_nextId (s : State) (k : Nat) (x : Core) : (s.setCore k x).nextId = s.nextId := rfl
@[simp] theorem State.setCore_hub (s : State) (k : Nat) (x : Core) : (s.setCore k x).hub = s.hub := rfl
@[simp] theorem State.setCore_io (s : State) (k : Nat) (x : Core) : (s.setCore k x).io = s.io := rfl
@[simp] theorem State.setCore_boot (s : State) (k : Nat) (x : Core) : (s.setCore k x).boot = s.boot := rfl
@[simp] theorem State.setCore_mgmt (s : State) (k : Nat) (x : Core) : (s.setCore k x).mgmt = s.mgmt := rfl
@[simp] theorem State.setCore_harts (s : State) (k : Nat) (x : Core) : (s.setCore k x).harts = s.harts := rfl
@[simp] theorem State.setCore_doms (s : State) (k : Nat) (x : Core) : (s.setCore k x).doms = s.doms := rfl
@[simp] theorem State.setCore_buckets (s : State) (k : Nat) (x : Core) : (s.setCore k x).buckets = s.buckets := rfl
@[simp] theorem State.setCore_leakMs (s : State) (k : Nat) (x : Core) : (s.setCore k x).leakMs = s.leakMs := rfl
@[simp] theorem State.setCore_shoots (s : State) (k : Nat) (x : Core) : (s.setCore k x).shoots = s.shoots := rfl
@[simp] theorem State.setCore_armReqs (s : State) (k : Nat) (x : Core) : (s.setCore k x).armReqs = s.armReqs := rfl
@[simp] theorem State.setCore_svcUse (s : State) (k : Nat) (x : Core) : (s.setCore k x).svcUse = s.svcUse := rfl
@[simp] theorem State.setCore_deferred (s : State) (k : Nat) (x : Core) : (s.setCore k x).deferred = s.deferred := rfl
@[simp] theorem State.setCore_heap (s : State) (k : Nat) (x : Core) : (s.setCore k x).heap = s.heap := rfl

/-! ### setCluster -/

@[simp] theorem State.setCluster_cycle (s : State) (k : Nat) (x : Cluster) : (s.setCluster k x).cycle = s.cycle := rfl
@[simp] theorem State.setCluster_tstamp (s : State) (k : Nat) (x : Cluster) : (s.setCluster k x).tstamp = s.tstamp := rfl
@[simp] theorem State.setCluster_freeCtr (s : State) (k : Nat) (x : Cluster) : (s.setCluster k x).freeCtr = s.freeCtr := rfl
@[simp] theorem State.setCluster_agenda (s : State) (k : Nat) (x : Cluster) : (s.setCluster k x).agenda = s.agenda := rfl
@[simp] theorem State.setCluster_cur (s : State) (k : Nat) (x : Cluster) : (s.setCluster k x).cur = s.cur := rfl
@[simp] theorem State.setCluster_stopped (s : State) (k : Nat) (x : Cluster) : (s.setCluster k x).stopped = s.stopped := rfl
@[simp] theorem State.setCluster_mem (s : State) (k : Nat) (x : Cluster) : (s.setCluster k x).mem = s.mem := rfl
@[simp] theorem State.setCluster_lines (s : State) (k : Nat) (x : Cluster) : (s.setCluster k x).lines = s.lines := rfl
@[simp] theorem State.setCluster_slices (s : State) (k : Nat) (x : Cluster) : (s.setCluster k x).slices = s.slices := rfl
@[simp] theorem State.setCluster_dies (s : State) (k : Nat) (x : Cluster) : (s.setCluster k x).dies = s.dies := rfl
@[simp] theorem State.setCluster_clusters (s : State) (k : Nat) (x : Cluster) : (s.setCluster k x).clusters = SMap.set s.clusters k x := rfl
@[simp] theorem State.setCluster_svc (s : State) (k : Nat) (x : Cluster) : (s.setCluster k x).svc = s.svc := rfl
@[simp] theorem State.setCluster_cores (s : State) (k : Nat) (x : Cluster) : (s.setCluster k x).cores = s.cores := rfl
@[simp] theorem State.setCluster_parts (s : State) (k : Nat) (x : Cluster) : (s.setCluster k x).parts = s.parts := rfl
@[simp] theorem State.setCluster_groups (s : State) (k : Nat) (x : Cluster) : (s.setCluster k x).groups = s.groups := rfl
@[simp] theorem State.setCluster_stash (s : State) (k : Nat) (x : Cluster) : (s.setCluster k x).stash = s.stash := rfl
@[simp] theorem State.setCluster_teams (s : State) (k : Nat) (x : Cluster) : (s.setCluster k x).teams = s.teams := rfl
@[simp] theorem State.setCluster_saved (s : State) (k : Nat) (x : Cluster) : (s.setCluster k x).saved = s.saved := rfl
@[simp] theorem State.setCluster_ckpts (s : State) (k : Nat) (x : Cluster) : (s.setCluster k x).ckpts = s.ckpts := rfl
@[simp] theorem State.setCluster_launches (s : State) (k : Nat) (x : Cluster) : (s.setCluster k x).launches = s.launches := rfl
@[simp] theorem State.setCluster_accs (s : State) (k : Nat) (x : Cluster) : (s.setCluster k x).accs = s.accs := rfl
@[simp] theorem State.setCluster_redos (s : State) (k : Nat) (x : Cluster) : (s.setCluster k x).redos = s.redos := rfl
@[simp] theorem State.setCluster_copies (s : State) (k : Nat) (x : Cluster) : (s.setCluster k x).copies = s.copies := rfl
@[simp] theorem State.setCluster_arms (s : State) (k : Nat) (x : Cluster) : (s.setCluster k x).arms = s.arms := rfl
@[simp] theorem State.setCluster_decs (s : State) (k : Nat) (x : Cluster) : (s.setCluster k x).decs = s.decs := rfl
@[simp] theorem State.setCluster_bound (s : State) (k : Nat) (x : Cluster) : (s.setCluster k x).bound = s.bound := rfl
@[simp] theorem State.setCluster_waits (s : State) (k : Nat) (x : Cluster) : (s.setCluster k x).waits = s.waits := rfl
@[simp] theorem State.setCluster_shadows (s : State) (k : Nat) (x : Cluster) : (s.setCluster k x).shadows = s.shadows := rfl
@[simp] theorem State.setCluster_wakes (s : State) (k : Nat) (x : Cluster) : (s.setCluster k x).wakes = s.wakes := rfl
@[simp] theorem State.setCluster_watch (s : State) (k : Nat) (x : Cluster) : (s.setCluster k x).watch = s.watch := rfl
@[simp] theorem State.setCluster_nextId (s : State) (k : Nat) (x : Cluster) : (s.setCluster k x).nextId = s.nextId := rfl
@[simp] theorem State.setCluster_hub (s : State) (k : Nat) (x : Cluster) : (s.setCluster k x).hub = s.hub := rfl
@[simp] theorem State.setCluster_io (s : State) (k : Nat) (x : Cluster) : (s.setCluster k x).io = s.io := rfl
@[simp] theorem State.setCluster_boot (s : State) (k : Nat) (x : Cluster) : (s.setCluster k x).boot = s.boot := rfl
@[simp] theorem State.setCluster_mgmt (s : State) (k : Nat) (x : Cluster) : (s.setCluster k x).mgmt = s.mgmt := rfl
@[simp] theorem State.setCluster_harts (s : State) (k : Nat) (x : Cluster) : (s.setCluster k x).harts = s.harts := rfl
@[simp] theorem State.setCluster_doms (s : State) (k : Nat) (x : Cluster) : (s.setCluster k x).doms = s.doms := rfl
@[simp] theorem State.setCluster_buckets (s : State) (k : Nat) (x : Cluster) : (s.setCluster k x).buckets = s.buckets := rfl
@[simp] theorem State.setCluster_leakMs (s : State) (k : Nat) (x : Cluster) : (s.setCluster k x).leakMs = s.leakMs := rfl
@[simp] theorem State.setCluster_shoots (s : State) (k : Nat) (x : Cluster) : (s.setCluster k x).shoots = s.shoots := rfl
@[simp] theorem State.setCluster_armReqs (s : State) (k : Nat) (x : Cluster) : (s.setCluster k x).armReqs = s.armReqs := rfl
@[simp] theorem State.setCluster_svcUse (s : State) (k : Nat) (x : Cluster) : (s.setCluster k x).svcUse = s.svcUse := rfl
@[simp] theorem State.setCluster_deferred (s : State) (k : Nat) (x : Cluster) : (s.setCluster k x).deferred = s.deferred := rfl
@[simp] theorem State.setCluster_heap (s : State) (k : Nat) (x : Cluster) : (s.setCluster k x).heap = s.heap := rfl

/-! ### setTeam -/

@[simp] theorem State.setTeam_cycle (s : State) (k : Nat) (x : Team) : (s.setTeam k x).cycle = s.cycle := rfl
@[simp] theorem State.setTeam_tstamp (s : State) (k : Nat) (x : Team) : (s.setTeam k x).tstamp = s.tstamp := rfl
@[simp] theorem State.setTeam_freeCtr (s : State) (k : Nat) (x : Team) : (s.setTeam k x).freeCtr = s.freeCtr := rfl
@[simp] theorem State.setTeam_agenda (s : State) (k : Nat) (x : Team) : (s.setTeam k x).agenda = s.agenda := rfl
@[simp] theorem State.setTeam_cur (s : State) (k : Nat) (x : Team) : (s.setTeam k x).cur = s.cur := rfl
@[simp] theorem State.setTeam_stopped (s : State) (k : Nat) (x : Team) : (s.setTeam k x).stopped = s.stopped := rfl
@[simp] theorem State.setTeam_mem (s : State) (k : Nat) (x : Team) : (s.setTeam k x).mem = s.mem := rfl
@[simp] theorem State.setTeam_lines (s : State) (k : Nat) (x : Team) : (s.setTeam k x).lines = s.lines := rfl
@[simp] theorem State.setTeam_slices (s : State) (k : Nat) (x : Team) : (s.setTeam k x).slices = s.slices := rfl
@[simp] theorem State.setTeam_dies (s : State) (k : Nat) (x : Team) : (s.setTeam k x).dies = s.dies := rfl
@[simp] theorem State.setTeam_clusters (s : State) (k : Nat) (x : Team) : (s.setTeam k x).clusters = s.clusters := rfl
@[simp] theorem State.setTeam_svc (s : State) (k : Nat) (x : Team) : (s.setTeam k x).svc = s.svc := rfl
@[simp] theorem State.setTeam_cores (s : State) (k : Nat) (x : Team) : (s.setTeam k x).cores = s.cores := rfl
@[simp] theorem State.setTeam_parts (s : State) (k : Nat) (x : Team) : (s.setTeam k x).parts = s.parts := rfl
@[simp] theorem State.setTeam_groups (s : State) (k : Nat) (x : Team) : (s.setTeam k x).groups = s.groups := rfl
@[simp] theorem State.setTeam_stash (s : State) (k : Nat) (x : Team) : (s.setTeam k x).stash = s.stash := rfl
@[simp] theorem State.setTeam_teams (s : State) (k : Nat) (x : Team) : (s.setTeam k x).teams = SMap.set s.teams k x := rfl
@[simp] theorem State.setTeam_saved (s : State) (k : Nat) (x : Team) : (s.setTeam k x).saved = s.saved := rfl
@[simp] theorem State.setTeam_ckpts (s : State) (k : Nat) (x : Team) : (s.setTeam k x).ckpts = s.ckpts := rfl
@[simp] theorem State.setTeam_launches (s : State) (k : Nat) (x : Team) : (s.setTeam k x).launches = s.launches := rfl
@[simp] theorem State.setTeam_accs (s : State) (k : Nat) (x : Team) : (s.setTeam k x).accs = s.accs := rfl
@[simp] theorem State.setTeam_redos (s : State) (k : Nat) (x : Team) : (s.setTeam k x).redos = s.redos := rfl
@[simp] theorem State.setTeam_copies (s : State) (k : Nat) (x : Team) : (s.setTeam k x).copies = s.copies := rfl
@[simp] theorem State.setTeam_arms (s : State) (k : Nat) (x : Team) : (s.setTeam k x).arms = s.arms := rfl
@[simp] theorem State.setTeam_decs (s : State) (k : Nat) (x : Team) : (s.setTeam k x).decs = s.decs := rfl
@[simp] theorem State.setTeam_bound (s : State) (k : Nat) (x : Team) : (s.setTeam k x).bound = s.bound := rfl
@[simp] theorem State.setTeam_waits (s : State) (k : Nat) (x : Team) : (s.setTeam k x).waits = s.waits := rfl
@[simp] theorem State.setTeam_shadows (s : State) (k : Nat) (x : Team) : (s.setTeam k x).shadows = s.shadows := rfl
@[simp] theorem State.setTeam_wakes (s : State) (k : Nat) (x : Team) : (s.setTeam k x).wakes = s.wakes := rfl
@[simp] theorem State.setTeam_watch (s : State) (k : Nat) (x : Team) : (s.setTeam k x).watch = s.watch := rfl
@[simp] theorem State.setTeam_nextId (s : State) (k : Nat) (x : Team) : (s.setTeam k x).nextId = s.nextId := rfl
@[simp] theorem State.setTeam_hub (s : State) (k : Nat) (x : Team) : (s.setTeam k x).hub = s.hub := rfl
@[simp] theorem State.setTeam_io (s : State) (k : Nat) (x : Team) : (s.setTeam k x).io = s.io := rfl
@[simp] theorem State.setTeam_boot (s : State) (k : Nat) (x : Team) : (s.setTeam k x).boot = s.boot := rfl
@[simp] theorem State.setTeam_mgmt (s : State) (k : Nat) (x : Team) : (s.setTeam k x).mgmt = s.mgmt := rfl
@[simp] theorem State.setTeam_harts (s : State) (k : Nat) (x : Team) : (s.setTeam k x).harts = s.harts := rfl
@[simp] theorem State.setTeam_doms (s : State) (k : Nat) (x : Team) : (s.setTeam k x).doms = s.doms := rfl
@[simp] theorem State.setTeam_buckets (s : State) (k : Nat) (x : Team) : (s.setTeam k x).buckets = s.buckets := rfl
@[simp] theorem State.setTeam_leakMs (s : State) (k : Nat) (x : Team) : (s.setTeam k x).leakMs = s.leakMs := rfl
@[simp] theorem State.setTeam_shoots (s : State) (k : Nat) (x : Team) : (s.setTeam k x).shoots = s.shoots := rfl
@[simp] theorem State.setTeam_armReqs (s : State) (k : Nat) (x : Team) : (s.setTeam k x).armReqs = s.armReqs := rfl
@[simp] theorem State.setTeam_svcUse (s : State) (k : Nat) (x : Team) : (s.setTeam k x).svcUse = s.svcUse := rfl
@[simp] theorem State.setTeam_deferred (s : State) (k : Nat) (x : Team) : (s.setTeam k x).deferred = s.deferred := rfl
@[simp] theorem State.setTeam_heap (s : State) (k : Nat) (x : Team) : (s.setTeam k x).heap = s.heap := rfl

/-! ### updTeam -/

@[simp] theorem State.updTeam_cycle (s : State) (k : Nat) (f : Team → Team) : (s.updTeam k f).cycle = s.cycle := rfl
@[simp] theorem State.updTeam_tstamp (s : State) (k : Nat) (f : Team → Team) : (s.updTeam k f).tstamp = s.tstamp := rfl
@[simp] theorem State.updTeam_freeCtr (s : State) (k : Nat) (f : Team → Team) : (s.updTeam k f).freeCtr = s.freeCtr := rfl
@[simp] theorem State.updTeam_agenda (s : State) (k : Nat) (f : Team → Team) : (s.updTeam k f).agenda = s.agenda := rfl
@[simp] theorem State.updTeam_cur (s : State) (k : Nat) (f : Team → Team) : (s.updTeam k f).cur = s.cur := rfl
@[simp] theorem State.updTeam_stopped (s : State) (k : Nat) (f : Team → Team) : (s.updTeam k f).stopped = s.stopped := rfl
@[simp] theorem State.updTeam_mem (s : State) (k : Nat) (f : Team → Team) : (s.updTeam k f).mem = s.mem := rfl
@[simp] theorem State.updTeam_lines (s : State) (k : Nat) (f : Team → Team) : (s.updTeam k f).lines = s.lines := rfl
@[simp] theorem State.updTeam_slices (s : State) (k : Nat) (f : Team → Team) : (s.updTeam k f).slices = s.slices := rfl
@[simp] theorem State.updTeam_dies (s : State) (k : Nat) (f : Team → Team) : (s.updTeam k f).dies = s.dies := rfl
@[simp] theorem State.updTeam_clusters (s : State) (k : Nat) (f : Team → Team) : (s.updTeam k f).clusters = s.clusters := rfl
@[simp] theorem State.updTeam_svc (s : State) (k : Nat) (f : Team → Team) : (s.updTeam k f).svc = s.svc := rfl
@[simp] theorem State.updTeam_cores (s : State) (k : Nat) (f : Team → Team) : (s.updTeam k f).cores = s.cores := rfl
@[simp] theorem State.updTeam_parts (s : State) (k : Nat) (f : Team → Team) : (s.updTeam k f).parts = s.parts := rfl
@[simp] theorem State.updTeam_groups (s : State) (k : Nat) (f : Team → Team) : (s.updTeam k f).groups = s.groups := rfl
@[simp] theorem State.updTeam_stash (s : State) (k : Nat) (f : Team → Team) : (s.updTeam k f).stash = s.stash := rfl
@[simp] theorem State.updTeam_teams (s : State) (k : Nat) (f : Team → Team) : (s.updTeam k f).teams = SMap.set s.teams k (f (s.team k)) := rfl
@[simp] theorem State.updTeam_saved (s : State) (k : Nat) (f : Team → Team) : (s.updTeam k f).saved = s.saved := rfl
@[simp] theorem State.updTeam_ckpts (s : State) (k : Nat) (f : Team → Team) : (s.updTeam k f).ckpts = s.ckpts := rfl
@[simp] theorem State.updTeam_launches (s : State) (k : Nat) (f : Team → Team) : (s.updTeam k f).launches = s.launches := rfl
@[simp] theorem State.updTeam_accs (s : State) (k : Nat) (f : Team → Team) : (s.updTeam k f).accs = s.accs := rfl
@[simp] theorem State.updTeam_redos (s : State) (k : Nat) (f : Team → Team) : (s.updTeam k f).redos = s.redos := rfl
@[simp] theorem State.updTeam_copies (s : State) (k : Nat) (f : Team → Team) : (s.updTeam k f).copies = s.copies := rfl
@[simp] theorem State.updTeam_arms (s : State) (k : Nat) (f : Team → Team) : (s.updTeam k f).arms = s.arms := rfl
@[simp] theorem State.updTeam_decs (s : State) (k : Nat) (f : Team → Team) : (s.updTeam k f).decs = s.decs := rfl
@[simp] theorem State.updTeam_bound (s : State) (k : Nat) (f : Team → Team) : (s.updTeam k f).bound = s.bound := rfl
@[simp] theorem State.updTeam_waits (s : State) (k : Nat) (f : Team → Team) : (s.updTeam k f).waits = s.waits := rfl
@[simp] theorem State.updTeam_shadows (s : State) (k : Nat) (f : Team → Team) : (s.updTeam k f).shadows = s.shadows := rfl
@[simp] theorem State.updTeam_wakes (s : State) (k : Nat) (f : Team → Team) : (s.updTeam k f).wakes = s.wakes := rfl
@[simp] theorem State.updTeam_watch (s : State) (k : Nat) (f : Team → Team) : (s.updTeam k f).watch = s.watch := rfl
@[simp] theorem State.updTeam_nextId (s : State) (k : Nat) (f : Team → Team) : (s.updTeam k f).nextId = s.nextId := rfl
@[simp] theorem State.updTeam_hub (s : State) (k : Nat) (f : Team → Team) : (s.updTeam k f).hub = s.hub := rfl
@[simp] theorem State.updTeam_io (s : State) (k : Nat) (f : Team → Team) : (s.updTeam k f).io = s.io := rfl
@[simp] theorem State.updTeam_boot (s : State) (k : Nat) (f : Team → Team) : (s.updTeam k f).boot = s.boot := rfl
@[simp] theorem State.updTeam_mgmt (s : State) (k : Nat) (f : Team → Team) : (s.updTeam k f).mgmt = s.mgmt := rfl
@[simp] theorem State.updTeam_harts (s : State) (k : Nat) (f : Team → Team) : (s.updTeam k f).harts = s.harts := rfl
@[simp] theorem State.updTeam_doms (s : State) (k : Nat) (f : Team → Team) : (s.updTeam k f).doms = s.doms := rfl
@[simp] theorem State.updTeam_buckets (s : State) (k : Nat) (f : Team → Team) : (s.updTeam k f).buckets = s.buckets := rfl
@[simp] theorem State.updTeam_leakMs (s : State) (k : Nat) (f : Team → Team) : (s.updTeam k f).leakMs = s.leakMs := rfl
@[simp] theorem State.updTeam_shoots (s : State) (k : Nat) (f : Team → Team) : (s.updTeam k f).shoots = s.shoots := rfl
@[simp] theorem State.updTeam_armReqs (s : State) (k : Nat) (f : Team → Team) : (s.updTeam k f).armReqs = s.armReqs := rfl
@[simp] theorem State.updTeam_svcUse (s : State) (k : Nat) (f : Team → Team) : (s.updTeam k f).svcUse = s.svcUse := rfl
@[simp] theorem State.updTeam_deferred (s : State) (k : Nat) (f : Team → Team) : (s.updTeam k f).deferred = s.deferred := rfl
@[simp] theorem State.updTeam_heap (s : State) (k : Nat) (f : Team → Team) : (s.updTeam k f).heap = s.heap := rfl

/-! ### setSlice -/

@[simp] theorem State.setSlice_cycle (s : State) (k : Nat) (x : Slice) : (s.setSlice k x).cycle = s.cycle := rfl
@[simp] theorem State.setSlice_tstamp (s : State) (k : Nat) (x : Slice) : (s.setSlice k x).tstamp = s.tstamp := rfl
@[simp] theorem State.setSlice_freeCtr (s : State) (k : Nat) (x : Slice) : (s.setSlice k x).freeCtr = s.freeCtr := rfl
@[simp] theorem State.setSlice_agenda (s : State) (k : Nat) (x : Slice) : (s.setSlice k x).agenda = s.agenda := rfl
@[simp] theorem State.setSlice_cur (s : State) (k : Nat) (x : Slice) : (s.setSlice k x).cur = s.cur := rfl
@[simp] theorem State.setSlice_stopped (s : State) (k : Nat) (x : Slice) : (s.setSlice k x).stopped = s.stopped := rfl
@[simp] theorem State.setSlice_mem (s : State) (k : Nat) (x : Slice) : (s.setSlice k x).mem = s.mem := rfl
@[simp] theorem State.setSlice_lines (s : State) (k : Nat) (x : Slice) : (s.setSlice k x).lines = s.lines := rfl
@[simp] theorem State.setSlice_slices (s : State) (k : Nat) (x : Slice) : (s.setSlice k x).slices = SMap.set s.slices k x := rfl
@[simp] theorem State.setSlice_dies (s : State) (k : Nat) (x : Slice) : (s.setSlice k x).dies = s.dies := rfl
@[simp] theorem State.setSlice_clusters (s : State) (k : Nat) (x : Slice) : (s.setSlice k x).clusters = s.clusters := rfl
@[simp] theorem State.setSlice_svc (s : State) (k : Nat) (x : Slice) : (s.setSlice k x).svc = s.svc := rfl
@[simp] theorem State.setSlice_cores (s : State) (k : Nat) (x : Slice) : (s.setSlice k x).cores = s.cores := rfl
@[simp] theorem State.setSlice_parts (s : State) (k : Nat) (x : Slice) : (s.setSlice k x).parts = s.parts := rfl
@[simp] theorem State.setSlice_groups (s : State) (k : Nat) (x : Slice) : (s.setSlice k x).groups = s.groups := rfl
@[simp] theorem State.setSlice_stash (s : State) (k : Nat) (x : Slice) : (s.setSlice k x).stash = s.stash := rfl
@[simp] theorem State.setSlice_teams (s : State) (k : Nat) (x : Slice) : (s.setSlice k x).teams = s.teams := rfl
@[simp] theorem State.setSlice_saved (s : State) (k : Nat) (x : Slice) : (s.setSlice k x).saved = s.saved := rfl
@[simp] theorem State.setSlice_ckpts (s : State) (k : Nat) (x : Slice) : (s.setSlice k x).ckpts = s.ckpts := rfl
@[simp] theorem State.setSlice_launches (s : State) (k : Nat) (x : Slice) : (s.setSlice k x).launches = s.launches := rfl
@[simp] theorem State.setSlice_accs (s : State) (k : Nat) (x : Slice) : (s.setSlice k x).accs = s.accs := rfl
@[simp] theorem State.setSlice_redos (s : State) (k : Nat) (x : Slice) : (s.setSlice k x).redos = s.redos := rfl
@[simp] theorem State.setSlice_copies (s : State) (k : Nat) (x : Slice) : (s.setSlice k x).copies = s.copies := rfl
@[simp] theorem State.setSlice_arms (s : State) (k : Nat) (x : Slice) : (s.setSlice k x).arms = s.arms := rfl
@[simp] theorem State.setSlice_decs (s : State) (k : Nat) (x : Slice) : (s.setSlice k x).decs = s.decs := rfl
@[simp] theorem State.setSlice_bound (s : State) (k : Nat) (x : Slice) : (s.setSlice k x).bound = s.bound := rfl
@[simp] theorem State.setSlice_waits (s : State) (k : Nat) (x : Slice) : (s.setSlice k x).waits = s.waits := rfl
@[simp] theorem State.setSlice_shadows (s : State) (k : Nat) (x : Slice) : (s.setSlice k x).shadows = s.shadows := rfl
@[simp] theorem State.setSlice_wakes (s : State) (k : Nat) (x : Slice) : (s.setSlice k x).wakes = s.wakes := rfl
@[simp] theorem State.setSlice_watch (s : State) (k : Nat) (x : Slice) : (s.setSlice k x).watch = s.watch := rfl
@[simp] theorem State.setSlice_nextId (s : State) (k : Nat) (x : Slice) : (s.setSlice k x).nextId = s.nextId := rfl
@[simp] theorem State.setSlice_hub (s : State) (k : Nat) (x : Slice) : (s.setSlice k x).hub = s.hub := rfl
@[simp] theorem State.setSlice_io (s : State) (k : Nat) (x : Slice) : (s.setSlice k x).io = s.io := rfl
@[simp] theorem State.setSlice_boot (s : State) (k : Nat) (x : Slice) : (s.setSlice k x).boot = s.boot := rfl
@[simp] theorem State.setSlice_mgmt (s : State) (k : Nat) (x : Slice) : (s.setSlice k x).mgmt = s.mgmt := rfl
@[simp] theorem State.setSlice_harts (s : State) (k : Nat) (x : Slice) : (s.setSlice k x).harts = s.harts := rfl
@[simp] theorem State.setSlice_doms (s : State) (k : Nat) (x : Slice) : (s.setSlice k x).doms = s.doms := rfl
@[simp] theorem State.setSlice_buckets (s : State) (k : Nat) (x : Slice) : (s.setSlice k x).buckets = s.buckets := rfl
@[simp] theorem State.setSlice_leakMs (s : State) (k : Nat) (x : Slice) : (s.setSlice k x).leakMs = s.leakMs := rfl
@[simp] theorem State.setSlice_shoots (s : State) (k : Nat) (x : Slice) : (s.setSlice k x).shoots = s.shoots := rfl
@[simp] theorem State.setSlice_armReqs (s : State) (k : Nat) (x : Slice) : (s.setSlice k x).armReqs = s.armReqs := rfl
@[simp] theorem State.setSlice_svcUse (s : State) (k : Nat) (x : Slice) : (s.setSlice k x).svcUse = s.svcUse := rfl
@[simp] theorem State.setSlice_deferred (s : State) (k : Nat) (x : Slice) : (s.setSlice k x).deferred = s.deferred := rfl
@[simp] theorem State.setSlice_heap (s : State) (k : Nat) (x : Slice) : (s.setSlice k x).heap = s.heap := rfl

/-! ### setDie -/

@[simp] theorem State.setDie_cycle (s : State) (k : Nat) (x : Die) : (s.setDie k x).cycle = s.cycle := rfl
@[simp] theorem State.setDie_tstamp (s : State) (k : Nat) (x : Die) : (s.setDie k x).tstamp = s.tstamp := rfl
@[simp] theorem State.setDie_freeCtr (s : State) (k : Nat) (x : Die) : (s.setDie k x).freeCtr = s.freeCtr := rfl
@[simp] theorem State.setDie_agenda (s : State) (k : Nat) (x : Die) : (s.setDie k x).agenda = s.agenda := rfl
@[simp] theorem State.setDie_cur (s : State) (k : Nat) (x : Die) : (s.setDie k x).cur = s.cur := rfl
@[simp] theorem State.setDie_stopped (s : State) (k : Nat) (x : Die) : (s.setDie k x).stopped = s.stopped := rfl
@[simp] theorem State.setDie_mem (s : State) (k : Nat) (x : Die) : (s.setDie k x).mem = s.mem := rfl
@[simp] theorem State.setDie_lines (s : State) (k : Nat) (x : Die) : (s.setDie k x).lines = s.lines := rfl
@[simp] theorem State.setDie_slices (s : State) (k : Nat) (x : Die) : (s.setDie k x).slices = s.slices := rfl
@[simp] theorem State.setDie_dies (s : State) (k : Nat) (x : Die) : (s.setDie k x).dies = SMap.set s.dies k x := rfl
@[simp] theorem State.setDie_clusters (s : State) (k : Nat) (x : Die) : (s.setDie k x).clusters = s.clusters := rfl
@[simp] theorem State.setDie_svc (s : State) (k : Nat) (x : Die) : (s.setDie k x).svc = s.svc := rfl
@[simp] theorem State.setDie_cores (s : State) (k : Nat) (x : Die) : (s.setDie k x).cores = s.cores := rfl
@[simp] theorem State.setDie_parts (s : State) (k : Nat) (x : Die) : (s.setDie k x).parts = s.parts := rfl
@[simp] theorem State.setDie_groups (s : State) (k : Nat) (x : Die) : (s.setDie k x).groups = s.groups := rfl
@[simp] theorem State.setDie_stash (s : State) (k : Nat) (x : Die) : (s.setDie k x).stash = s.stash := rfl
@[simp] theorem State.setDie_teams (s : State) (k : Nat) (x : Die) : (s.setDie k x).teams = s.teams := rfl
@[simp] theorem State.setDie_saved (s : State) (k : Nat) (x : Die) : (s.setDie k x).saved = s.saved := rfl
@[simp] theorem State.setDie_ckpts (s : State) (k : Nat) (x : Die) : (s.setDie k x).ckpts = s.ckpts := rfl
@[simp] theorem State.setDie_launches (s : State) (k : Nat) (x : Die) : (s.setDie k x).launches = s.launches := rfl
@[simp] theorem State.setDie_accs (s : State) (k : Nat) (x : Die) : (s.setDie k x).accs = s.accs := rfl
@[simp] theorem State.setDie_redos (s : State) (k : Nat) (x : Die) : (s.setDie k x).redos = s.redos := rfl
@[simp] theorem State.setDie_copies (s : State) (k : Nat) (x : Die) : (s.setDie k x).copies = s.copies := rfl
@[simp] theorem State.setDie_arms (s : State) (k : Nat) (x : Die) : (s.setDie k x).arms = s.arms := rfl
@[simp] theorem State.setDie_decs (s : State) (k : Nat) (x : Die) : (s.setDie k x).decs = s.decs := rfl
@[simp] theorem State.setDie_bound (s : State) (k : Nat) (x : Die) : (s.setDie k x).bound = s.bound := rfl
@[simp] theorem State.setDie_waits (s : State) (k : Nat) (x : Die) : (s.setDie k x).waits = s.waits := rfl
@[simp] theorem State.setDie_shadows (s : State) (k : Nat) (x : Die) : (s.setDie k x).shadows = s.shadows := rfl
@[simp] theorem State.setDie_wakes (s : State) (k : Nat) (x : Die) : (s.setDie k x).wakes = s.wakes := rfl
@[simp] theorem State.setDie_watch (s : State) (k : Nat) (x : Die) : (s.setDie k x).watch = s.watch := rfl
@[simp] theorem State.setDie_nextId (s : State) (k : Nat) (x : Die) : (s.setDie k x).nextId = s.nextId := rfl
@[simp] theorem State.setDie_hub (s : State) (k : Nat) (x : Die) : (s.setDie k x).hub = s.hub := rfl
@[simp] theorem State.setDie_io (s : State) (k : Nat) (x : Die) : (s.setDie k x).io = s.io := rfl
@[simp] theorem State.setDie_boot (s : State) (k : Nat) (x : Die) : (s.setDie k x).boot = s.boot := rfl
@[simp] theorem State.setDie_mgmt (s : State) (k : Nat) (x : Die) : (s.setDie k x).mgmt = s.mgmt := rfl
@[simp] theorem State.setDie_harts (s : State) (k : Nat) (x : Die) : (s.setDie k x).harts = s.harts := rfl
@[simp] theorem State.setDie_doms (s : State) (k : Nat) (x : Die) : (s.setDie k x).doms = s.doms := rfl
@[simp] theorem State.setDie_buckets (s : State) (k : Nat) (x : Die) : (s.setDie k x).buckets = s.buckets := rfl
@[simp] theorem State.setDie_leakMs (s : State) (k : Nat) (x : Die) : (s.setDie k x).leakMs = s.leakMs := rfl
@[simp] theorem State.setDie_shoots (s : State) (k : Nat) (x : Die) : (s.setDie k x).shoots = s.shoots := rfl
@[simp] theorem State.setDie_armReqs (s : State) (k : Nat) (x : Die) : (s.setDie k x).armReqs = s.armReqs := rfl
@[simp] theorem State.setDie_svcUse (s : State) (k : Nat) (x : Die) : (s.setDie k x).svcUse = s.svcUse := rfl
@[simp] theorem State.setDie_deferred (s : State) (k : Nat) (x : Die) : (s.setDie k x).deferred = s.deferred := rfl
@[simp] theorem State.setDie_heap (s : State) (k : Nat) (x : Die) : (s.setDie k x).heap = s.heap := rfl

/-! ### bump -/

@[simp] theorem State.bump_cycle (s : State) : (s.bump).cycle = s.cycle := rfl
@[simp] theorem State.bump_tstamp (s : State) : (s.bump).tstamp = s.tstamp := rfl
@[simp] theorem State.bump_freeCtr (s : State) : (s.bump).freeCtr = s.freeCtr + 1 := rfl
@[simp] theorem State.bump_agenda (s : State) : (s.bump).agenda = s.agenda := rfl
@[simp] theorem State.bump_cur (s : State) : (s.bump).cur = s.cur := rfl
@[simp] theorem State.bump_stopped (s : State) : (s.bump).stopped = s.stopped := rfl
@[simp] theorem State.bump_mem (s : State) : (s.bump).mem = s.mem := rfl
@[simp] theorem State.bump_lines (s : State) : (s.bump).lines = s.lines := rfl
@[simp] theorem State.bump_slices (s : State) : (s.bump).slices = s.slices := rfl
@[simp] theorem State.bump_dies (s : State) : (s.bump).dies = s.dies := rfl
@[simp] theorem State.bump_clusters (s : State) : (s.bump).clusters = s.clusters := rfl
@[simp] theorem State.bump_svc (s : State) : (s.bump).svc = s.svc := rfl
@[simp] theorem State.bump_cores (s : State) : (s.bump).cores = s.cores := rfl
@[simp] theorem State.bump_parts (s : State) : (s.bump).parts = s.parts := rfl
@[simp] theorem State.bump_groups (s : State) : (s.bump).groups = s.groups := rfl
@[simp] theorem State.bump_stash (s : State) : (s.bump).stash = s.stash := rfl
@[simp] theorem State.bump_teams (s : State) : (s.bump).teams = s.teams := rfl
@[simp] theorem State.bump_saved (s : State) : (s.bump).saved = s.saved := rfl
@[simp] theorem State.bump_ckpts (s : State) : (s.bump).ckpts = s.ckpts := rfl
@[simp] theorem State.bump_launches (s : State) : (s.bump).launches = s.launches := rfl
@[simp] theorem State.bump_accs (s : State) : (s.bump).accs = s.accs := rfl
@[simp] theorem State.bump_redos (s : State) : (s.bump).redos = s.redos := rfl
@[simp] theorem State.bump_copies (s : State) : (s.bump).copies = s.copies := rfl
@[simp] theorem State.bump_arms (s : State) : (s.bump).arms = s.arms := rfl
@[simp] theorem State.bump_decs (s : State) : (s.bump).decs = s.decs := rfl
@[simp] theorem State.bump_bound (s : State) : (s.bump).bound = s.bound := rfl
@[simp] theorem State.bump_waits (s : State) : (s.bump).waits = s.waits := rfl
@[simp] theorem State.bump_shadows (s : State) : (s.bump).shadows = s.shadows := rfl
@[simp] theorem State.bump_wakes (s : State) : (s.bump).wakes = s.wakes := rfl
@[simp] theorem State.bump_watch (s : State) : (s.bump).watch = s.watch := rfl
@[simp] theorem State.bump_nextId (s : State) : (s.bump).nextId = s.nextId := rfl
@[simp] theorem State.bump_hub (s : State) : (s.bump).hub = s.hub := rfl
@[simp] theorem State.bump_io (s : State) : (s.bump).io = s.io := rfl
@[simp] theorem State.bump_boot (s : State) : (s.bump).boot = s.boot := rfl
@[simp] theorem State.bump_mgmt (s : State) : (s.bump).mgmt = s.mgmt := rfl
@[simp] theorem State.bump_harts (s : State) : (s.bump).harts = s.harts := rfl
@[simp] theorem State.bump_doms (s : State) : (s.bump).doms = s.doms := rfl
@[simp] theorem State.bump_buckets (s : State) : (s.bump).buckets = s.buckets := rfl
@[simp] theorem State.bump_leakMs (s : State) : (s.bump).leakMs = s.leakMs := rfl
@[simp] theorem State.bump_shoots (s : State) : (s.bump).shoots = s.shoots := rfl
@[simp] theorem State.bump_armReqs (s : State) : (s.bump).armReqs = s.armReqs := rfl
@[simp] theorem State.bump_svcUse (s : State) : (s.bump).svcUse = s.svcUse := rfl
@[simp] theorem State.bump_deferred (s : State) : (s.bump).deferred = s.deferred := rfl
@[simp] theorem State.bump_heap (s : State) : (s.bump).heap = s.heap := rfl

/-! ### poke -/

@[simp] theorem State.poke_cycle (s : State) (pa x n : Nat) : (s.poke pa x n).cycle = s.cycle := rfl
@[simp] theorem State.poke_tstamp (s : State) (pa x n : Nat) : (s.poke pa x n).tstamp = s.tstamp := rfl
@[simp] theorem State.poke_freeCtr (s : State) (pa x n : Nat) : (s.poke pa x n).freeCtr = s.freeCtr := rfl
@[simp] theorem State.poke_agenda (s : State) (pa x n : Nat) : (s.poke pa x n).agenda = s.agenda := rfl
@[simp] theorem State.poke_cur (s : State) (pa x n : Nat) : (s.poke pa x n).cur = s.cur := rfl
@[simp] theorem State.poke_stopped (s : State) (pa x n : Nat) : (s.poke pa x n).stopped = s.stopped := rfl
@[simp] theorem State.poke_mem (s : State) (pa x n : Nat) : (s.poke pa x n).mem = Memory.write s.mem pa x n := rfl
@[simp] theorem State.poke_lines (s : State) (pa x n : Nat) : (s.poke pa x n).lines = s.lines := rfl
@[simp] theorem State.poke_slices (s : State) (pa x n : Nat) : (s.poke pa x n).slices = s.slices := rfl
@[simp] theorem State.poke_dies (s : State) (pa x n : Nat) : (s.poke pa x n).dies = s.dies := rfl
@[simp] theorem State.poke_clusters (s : State) (pa x n : Nat) : (s.poke pa x n).clusters = s.clusters := rfl
@[simp] theorem State.poke_svc (s : State) (pa x n : Nat) : (s.poke pa x n).svc = s.svc := rfl
@[simp] theorem State.poke_cores (s : State) (pa x n : Nat) : (s.poke pa x n).cores = s.cores := rfl
@[simp] theorem State.poke_parts (s : State) (pa x n : Nat) : (s.poke pa x n).parts = s.parts := rfl
@[simp] theorem State.poke_groups (s : State) (pa x n : Nat) : (s.poke pa x n).groups = s.groups := rfl
@[simp] theorem State.poke_stash (s : State) (pa x n : Nat) : (s.poke pa x n).stash = s.stash := rfl
@[simp] theorem State.poke_teams (s : State) (pa x n : Nat) : (s.poke pa x n).teams = s.teams := rfl
@[simp] theorem State.poke_saved (s : State) (pa x n : Nat) : (s.poke pa x n).saved = s.saved := rfl
@[simp] theorem State.poke_ckpts (s : State) (pa x n : Nat) : (s.poke pa x n).ckpts = s.ckpts := rfl
@[simp] theorem State.poke_launches (s : State) (pa x n : Nat) : (s.poke pa x n).launches = s.launches := rfl
@[simp] theorem State.poke_accs (s : State) (pa x n : Nat) : (s.poke pa x n).accs = s.accs := rfl
@[simp] theorem State.poke_redos (s : State) (pa x n : Nat) : (s.poke pa x n).redos = s.redos := rfl
@[simp] theorem State.poke_copies (s : State) (pa x n : Nat) : (s.poke pa x n).copies = s.copies := rfl
@[simp] theorem State.poke_arms (s : State) (pa x n : Nat) : (s.poke pa x n).arms = s.arms := rfl
@[simp] theorem State.poke_decs (s : State) (pa x n : Nat) : (s.poke pa x n).decs = s.decs := rfl
@[simp] theorem State.poke_bound (s : State) (pa x n : Nat) : (s.poke pa x n).bound = s.bound := rfl
@[simp] theorem State.poke_waits (s : State) (pa x n : Nat) : (s.poke pa x n).waits = s.waits := rfl
@[simp] theorem State.poke_shadows (s : State) (pa x n : Nat) : (s.poke pa x n).shadows = s.shadows := rfl
@[simp] theorem State.poke_wakes (s : State) (pa x n : Nat) : (s.poke pa x n).wakes = s.wakes := rfl
@[simp] theorem State.poke_watch (s : State) (pa x n : Nat) : (s.poke pa x n).watch = s.watch := rfl
@[simp] theorem State.poke_nextId (s : State) (pa x n : Nat) : (s.poke pa x n).nextId = s.nextId := rfl
@[simp] theorem State.poke_hub (s : State) (pa x n : Nat) : (s.poke pa x n).hub = s.hub := rfl
@[simp] theorem State.poke_io (s : State) (pa x n : Nat) : (s.poke pa x n).io = s.io := rfl
@[simp] theorem State.poke_boot (s : State) (pa x n : Nat) : (s.poke pa x n).boot = s.boot := rfl
@[simp] theorem State.poke_mgmt (s : State) (pa x n : Nat) : (s.poke pa x n).mgmt = s.mgmt := rfl
@[simp] theorem State.poke_harts (s : State) (pa x n : Nat) : (s.poke pa x n).harts = s.harts := rfl
@[simp] theorem State.poke_doms (s : State) (pa x n : Nat) : (s.poke pa x n).doms = s.doms := rfl
@[simp] theorem State.poke_buckets (s : State) (pa x n : Nat) : (s.poke pa x n).buckets = s.buckets := rfl
@[simp] theorem State.poke_leakMs (s : State) (pa x n : Nat) : (s.poke pa x n).leakMs = s.leakMs := rfl
@[simp] theorem State.poke_shoots (s : State) (pa x n : Nat) : (s.poke pa x n).shoots = s.shoots := rfl
@[simp] theorem State.poke_armReqs (s : State) (pa x n : Nat) : (s.poke pa x n).armReqs = s.armReqs := rfl
@[simp] theorem State.poke_svcUse (s : State) (pa x n : Nat) : (s.poke pa x n).svcUse = s.svcUse := rfl
@[simp] theorem State.poke_deferred (s : State) (pa x n : Nat) : (s.poke pa x n).deferred = s.deferred := rfl
@[simp] theorem State.poke_heap (s : State) (pa x n : Nat) : (s.poke pa x n).heap = s.heap := rfl

end Sys2Proof.Machine
end

