-- ==== Sys2Proof/Laws/Ops.lean ====
section
/-! SUPPORT. What each shared operation can do, said once: parts read after they are written, registers after a write, an instruction that issues, a result, and the taking of an exception. -/

namespace Sys2Proof.Machine

open Sys2Proof

/-! ### Parts read after they are written -/

@[simp] theorem State.group_setGroup (s : State) (k : Nat) (g : Group) : (s.setGroup k g).group k = g := SMap.get_set_same _ _ _ _
theorem State.group_setGroup_ne (s : State) (k j : Nat) (g : Group) (h : j ≠ k) : (s.setGroup k g).group j = s.group j :=
  SMap.get_set_ne _ _ _ _ _ h
@[simp] theorem State.group_updGroup (s : State) (k : Nat) (f : Group → Group) : (s.updGroup k f).group k = f (s.group k) :=
  State.group_setGroup _ _ _
theorem State.group_updGroup_ne (s : State) (k j : Nat) (f : Group → Group) (h : j ≠ k) : (s.updGroup k f).group j = s.group j :=
  State.group_setGroup_ne _ _ _ _ h
@[simp] theorem State.part_setPart (s : State) (k : Nat) (x : Part) : (s.setPart k x).part k = x := SMap.get_set_same _ _ _ _
theorem State.part_setPart_ne (s : State) (k j : Nat) (x : Part) (h : j ≠ k) : (s.setPart k x).part j = s.part j := SMap.get_set_ne _ _ _ _ _ h
@[simp] theorem State.part_setGroup (s : State) (k j : Nat) (g : Group) : (s.setGroup k g).part j = s.part j := rfl
@[simp] theorem State.part_updGroup (s : State) (k j : Nat) (f : Group → Group) : (s.updGroup k f).part j = s.part j := rfl
@[simp] theorem State.group_setPart (s : State) (k j : Nat) (x : Part) : (s.setPart k x).group j = s.group j := rfl
@[simp] theorem State.cluster_setCluster (s : State) (k : Nat) (x : Cluster) : (s.setCluster k x).cluster k = x := SMap.get_set_same _ _ _ _
@[simp] theorem State.cluster_setGroup (s : State) (k j : Nat) (g : Group) : (s.setGroup k g).cluster j = s.cluster j := rfl
@[simp] theorem State.cluster_updGroup (s : State) (k j : Nat) (f : Group → Group) : (s.updGroup k f).cluster j = s.cluster j := rfl
@[simp] theorem State.group_setCluster (s : State) (k j : Nat) (x : Cluster) : (s.setCluster k x).group j = s.group j := rfl
@[simp] theorem State.part_setCluster (s : State) (k j : Nat) (x : Cluster) : (s.setCluster k x).part j = s.part j := rfl
@[simp] theorem State.team_setTeam (s : State) (k : Nat) (x : Team) : (s.setTeam k x).team k = x := SMap.get_set_same _ _ _ _
@[simp] theorem State.team_updTeam (s : State) (k : Nat) (f : Team → Team) : (s.updTeam k f).team k = f (s.team k) := State.team_setTeam _ _ _
@[simp] theorem State.team_setGroup (s : State) (k j : Nat) (g : Group) : (s.setGroup k g).team j = s.team j := rfl
@[simp] theorem State.team_updGroup (s : State) (k j : Nat) (f : Group → Group) : (s.updGroup k f).team j = s.team j := rfl
@[simp] theorem State.group_updTeam (s : State) (k j : Nat) (f : Team → Team) : (s.updTeam k f).group j = s.group j := rfl
@[simp] theorem State.core_setCore (s : State) (k : Nat) (x : Core) : (s.setCore k x).core k = x := SMap.get_set_same _ _ _ _
@[simp] theorem State.group_setCore (s : State) (k j : Nat) (x : Core) : (s.setCore k x).group j = s.group j := rfl
@[simp] theorem State.group_bump (s : State) (j : Nat) : s.bump.group j = s.group j := rfl
@[simp] theorem State.part_bump (s : State) (j : Nat) : s.bump.part j = s.part j := rfl
@[simp] theorem State.group_freeCtr (s : State) (n j : Nat) : State.group { s with freeCtr := n } j = s.group j := rfl

/-! ### Lanes -/

theorem laneIn_maskAll (l : Lane) : laneIn (~~~ (0 : LaneMask)) l = true := by
  revert l; decide

theorem laneIn_zero (l : Lane) : laneIn 0 l = false := by
  revert l; decide

/-- The sum of powers that a mask is built from. -/
theorem mask_sum (n : Nat) : ∀ (f : Fin n → Bool),
    (List.finRange n).foldl (fun k l => if f l then k + 2 ^ l.val else k) 0 < 2 ^ n ∧
    ∀ i : Fin n, ((List.finRange n).foldl (fun k l => if f l then k + 2 ^ l.val else k) 0).testBit i.val = f i := by
  induction n with
  | zero => intro f; exact ⟨by simp, fun i => i.elim0⟩
  | succ n ih =>
    intro f
    obtain ⟨h1, h2⟩ := ih fun i => f i.castSucc
    rw [List.finRange_succ_last, List.foldl_append, List.foldl_map]
    simp only [List.foldl_cons, List.foldl_nil, Fin.val_castSucc, Fin.val_last]
    generalize (List.finRange n).foldl (fun k (l : Fin n) => if f l.castSucc then k + 2 ^ l.val else k) 0 = x at *
    have hp : 2 ^ (n + 1) = 2 ^ n + 2 ^ n := by rw [Nat.pow_succ]; omega
    refine ⟨by split <;> omega, fun i => ?_⟩
    by_cases hi : i.val < n
    · have := h2 ⟨i.val, hi⟩
      have e : (⟨i.val, hi⟩ : Fin n).castSucc = i := rfl
      rw [e] at this
      split
      · rw [Nat.add_comm, Nat.testBit_two_pow_add_gt hi]; exact this
      · exact this
    · have e : i = Fin.last n := Fin.ext (by have := i.isLt; simp; omega)
      subst e
      simp only [Fin.val_last]
      have hx : x.testBit n = false := Nat.testBit_lt_two_pow h1
      split
      · next hf => rw [Nat.add_comm, Nat.testBit_two_pow_add_eq, hx, hf]; rfl
      · next hf => rw [hx]; simpa using hf

/-- A lane is in the mask of the lanes that satisfy a condition exactly when it satisfies it. -/
theorem laneIn_maskOf (f : Lane → Bool) (l : Lane) : laneIn (maskOf f) l = f l := by
  unfold laneIn maskOf
  rw [BitVec.getLsbD_ofNat, (mask_sum 32 f).2 l]
  simp

theorem mem_lanesIn (m : LaneMask) (l : Lane) : l ∈ lanesIn m ↔ laneIn m l = true := by
  unfold lanesIn
  simp

theorem mask_ext {m n : LaneMask} (h : ∀ l, laneIn m l = laneIn n l) : m = n := by
  apply BitVec.eq_of_getLsbD_eq
  intro i hi
  exact h ⟨i, hi⟩
/-! ### Registers after a write -/

theorem Group.raw_setWord_same (g : Group) (r : Nat) (m : LaneMask) (x : Lane → Word) (l : Lane) (hr : r < 264 ∨ 1024 ≤ r) :
    (g.setWord r m x).raw r l = if 1024 ≤ r then (if m = 0 then g.raw r l else x (lowLane m)) else if laneIn m l then x l else g.raw r l := by
  unfold Group.setWord
  by_cases h1 : r < 256
  · have : ¬ 1024 ≤ r := by omega
    simp only [h1, this, if_true, if_false, Group.raw, SMap.get_set_same]
    simp [Vector.getElem_ofFn]
  · by_cases h2 : r < 264
    · have : ¬ 1024 ≤ r := by omega
      simp only [h1, h2, this, if_true, if_false, Group.raw, SMap.get_set_same]
      simp [Vector.getElem_ofFn]
    · have h3 : r ≠ 264 := by omega
      have h4 : r ≠ 265 := by omega
      have h5 : 1024 ≤ r := by omega
      by_cases hm : m = 0
      · simp [h1, h2, h3, h4, h5, hm]
      · simp only [h1, h2, h3, h4, h5, hm, if_true, if_false, Group.raw, SMap.get_set_same]

theorem Group.raw_setWord_ne (g : Group) (r q : Nat) (m : LaneMask) (x : Lane → Word) (l : Lane) (hr : realReg r) (hq : realReg q)
    (h : q ≠ r) : (g.setWord r m x).raw q l = g.raw q l := by
  have at_ {u w : Lanes Word} (e : u = w) : u[l] = w[l] := by rw [e]
  unfold realReg at hr hq
  unfold Group.setWord
  by_cases h1 : r < 256
  · simp only [if_pos h1]
    unfold Group.raw
    by_cases q1 : q < 256
    · simp only [if_pos q1]
      exact at_ (SMap.get_set_ne _ _ _ _ _ h)
    · simp only [if_neg q1]
  · by_cases h2 : r < 264
    · simp only [if_neg h1, if_pos h2]
      unfold Group.raw
      by_cases q1 : q < 256
      · simp only [if_pos q1]
      · by_cases q2 : q < 264
        · simp only [if_neg q1, if_pos q2]
          exact at_ (SMap.get_set_ne _ _ _ _ _ (by omega))
        · simp only [if_neg q1, if_neg q2]
    · by_cases h3 : r = 264
      · have : q ≠ 264 := by omega
        simp only [if_neg h1, if_neg h2, if_pos h3]
        unfold Group.raw
        simp only [if_neg this]
      · by_cases h4 : r = 265
        · have : q ≠ 265 := by omega
          simp only [if_neg h1, if_neg h2, if_neg h3, if_pos h4]
          unfold Group.raw
          simp only [if_neg this]
        · by_cases h5 : m = 0
          · simp only [if_neg h1, if_neg h2, if_neg h3, if_neg h4, if_pos h5]
          · simp only [if_neg h1, if_neg h2, if_neg h3, if_neg h4, if_neg h5]
            unfold Group.raw
            by_cases q1 : q < 256
            · simp only [if_pos q1]
            · by_cases q2 : q < 264
              · simp only [if_neg q1, if_pos q2]
              · by_cases q3 : q = 264
                · simp only [if_neg q1, if_neg q2, if_pos q3]
                · by_cases q4 : q = 265
                  · simp only [if_neg q1, if_neg q2, if_neg q3, if_pos q4]
                  · simp only [if_neg q1, if_neg q2, if_neg q3, if_neg q4]
                    exact SMap.get_set_ne _ _ _ _ _ (by omega)

theorem Group.raw_haz (g : Group) (h : List HazRec) (r : Nat) (l : Lane) : Group.raw { g with haz := h } r l = g.raw r l := rfl

theorem oneValue_iff (r : Nat) : oneValue r = true ↔ 1024 ≤ r ∨ r = 265 := by simp [oneValue]

theorem Group.raw_putWord_same (g : Group) (r : Nat) (m : LaneMask) (x : Lane → Word) (n : Nat) (f : Bool) (w : Word) (l : Lane)
    (hr : r < 264 ∨ 1024 ≤ r) :
    (g.putWord r m x n f w).raw r l =
      if 1024 ≤ r then (if m = 0 then g.raw r l else x (lowLane m)) else if laneIn m l then x l else g.raw r l := by
  unfold Group.putWord
  rw [Group.raw_haz, Group.raw_setWord_same _ _ _ _ _ hr]
  by_cases h : 1024 ≤ r
  · have ho : oneValue r = true := (oneValue_iff r).2 (.inl h)
    by_cases hm : m = 0
    · have hw : Sys2Proof.writeMask r m = 0 := by unfold Sys2Proof.writeMask; rw [ho, hm]; decide
      rw [if_pos h, if_pos h, if_pos hw, if_pos hm]
    · have hm' : (m != 0) = true := by simpa using hm
      have hw : Sys2Proof.writeMask r m = ~~~ 0 := by unfold Sys2Proof.writeMask; rw [ho, hm']; rfl
      have hn : ¬ (~~~ 0 : LaneMask) = 0 := by decide
      rw [if_pos h, if_pos h, hw, if_neg hn, if_neg hm]
      unfold writeVal
      rw [ho]
      rfl
  · have ho : oneValue r = false := by
      cases hv : oneValue r with
      | false => rfl
      | true => rcases (oneValue_iff r).1 hv with h' | h' <;> omega
    have hw : Sys2Proof.writeMask r m = m := by unfold Sys2Proof.writeMask; rw [ho]; rfl
    rw [if_neg h, if_neg h, hw]
    unfold writeVal
    rw [ho]
    rfl

theorem Group.raw_putWord_ne (g : Group) (r q : Nat) (m : LaneMask) (x : Lane → Word) (n : Nat) (f : Bool) (w : Word) (l : Lane) (hr : realReg r)
    (hq : realReg q) (h : q ≠ r) : (g.putWord r m x n f w).raw q l = g.raw q l := by
  unfold Group.putWord
  rw [Group.raw_haz, Group.raw_setWord_ne _ _ _ _ _ _ hr hq h]

theorem Group.fstat_setWord (g : Group) (r : Nat) (m : LaneMask) (x : Lane → Word) (h : r ≠ 265) : (g.setWord r m x).fstat = g.fstat := by
  unfold Group.setWord
  repeat' split
  all_goals rfl

theorem Group.fstat_setWord_flags (g : Group) (m : LaneMask) (x : Lane → Word) :
    (g.setWord 265 m x).fstat = if laneIn m (0 : Lane) then (x 0).setWidth 6 else g.fstat := by
  have e : (g.setWord 265 m x).fstat = ((if laneIn m (0 : Lane) then x 0 else g.raw 265 (0 : Lane)) : Word).setWidth 6 := by
    unfold Group.setWord
    simp only [show ¬ (265 < 256) by decide, show ¬ (265 < 264) by decide, show ¬ (265 = 264) by decide, if_false, if_true]
    exact congrArg (BitVec.setWidth 6) (Vector.getElem_ofFn (h := by decide))
  rw [e]
  split
  · rfl
  · have : g.raw 265 (0 : Lane) = g.fstat.setWidth 32 := by
      unfold Group.raw
      simp only [show ¬ (265 < 256) by decide, show ¬ (265 < 264) by decide, show ¬ (265 = 264) by decide, if_false, if_true]
    rw [this]
    simp

theorem Group.fstat_putWord_flags (g : Group) (m : LaneMask) (x : Lane → Word) (n : Nat) (b : Bool) (w : Word) :
    (g.putWord 265 m x n b w).fstat = (g.setWord 265 (Sys2Proof.writeMask 265 m) (writeVal 265 m x)).fstat := rfl

theorem Group.apart_setWord (g : Group) (r : Nat) (m : LaneMask) (x : Lane → Word) : (g.setWord r m x).apart = g.apart := by
  unfold Group.setWord Group.apart
  by_cases h1 : r < 256
  · simp only [if_pos h1]
  · by_cases h2 : r < 264
    · simp only [if_neg h1, if_pos h2]
    · by_cases h3 : r = 264
      · simp only [if_neg h1, if_neg h2, if_pos h3]
      · by_cases h4 : r = 265
        · simp only [if_neg h1, if_neg h2, if_neg h3, if_pos h4]
        · by_cases h5 : m = 0
          · simp only [if_neg h1, if_neg h2, if_neg h3, if_neg h4, if_pos h5]
          · simp only [if_neg h1, if_neg h2, if_neg h3, if_neg h4, if_neg h5]

/-- What a write of the instruction that issues leaves of the rest of its group. -/
theorem Group.apart_putWord (g : Group) (r : Nat) (m : LaneMask) (x : Lane → Word) (n : Nat) (f : Bool) (w : Word) :
    (g.putWord r m x n f w).apart = g.apart := by
  unfold Group.putWord
  exact Group.apart_setWord _ _ _ _

theorem Group.fstat_putWord (g : Group) (r : Nat) (m : LaneMask) (x : Lane → Word) (n : Nat) (f : Bool) (w : Word) (h : r ≠ 265) :
    (g.putWord r m x n f w).fstat = g.fstat := by
  unfold Group.putWord
  exact Group.fstat_setWord _ _ _ _ h

/-- What issuing keeps apart from its registers. -/
theorem Group.steps_putWord (g : Group) (r : Nat) (m : LaneMask) (x : Lane → Word) (n : Nat) (f : Bool) (w : Word) :
    (g.putWord r m x n f w).pc = g.pc ∧ (g.putWord r m x n f w).seq = g.seq ∧ (g.putWord r m x n f w).count = g.count ∧
    (g.putWord r m x n f w).batch = g.batch ∧ (g.putWord r m x n f w).lvq = g.lvq := by
  unfold Group.putWord Group.setWord
  repeat' split
  all_goals exact ⟨rfl, rfl, rfl, rfl, rfl⟩

section
variable (g : Group) (d : Nat) (m : LaneMask) (x : Lane → BitVec 128) (n : Nat) (f : Bool)

theorem Group.apart_putWords (k : Nat) : (g.putWords d m x n f k).apart = g.apart := by
  induction k with
  | zero => rfl
  | succ k ih => rw [Group.putWords, Group.apart_putWord, ih]

theorem Group.steps_putWords (k : Nat) :
    (g.putWords d m x n f k).pc = g.pc ∧ (g.putWords d m x n f k).seq = g.seq ∧ (g.putWords d m x n f k).count = g.count ∧
    (g.putWords d m x n f k).batch = g.batch ∧ (g.putWords d m x n f k).lvq = g.lvq := by
  induction k with
  | zero => exact ⟨rfl, rfl, rfl, rfl, rfl⟩
  | succ k ih =>
    obtain ⟨h1, h2, h3, h4, h5⟩ := Group.steps_putWord (g.putWords d m x n f k) (d + k) m (wordAt x k) n f (~~~ 0)
    obtain ⟨i1, i2, i3, i4, i5⟩ := ih
    exact ⟨h1.trans i1, h2.trans i2, h3.trans i3, h4.trans i4, h5.trans i5⟩

theorem Group.fstat_putWords (k : Nat) (hd : d + k ≤ 264 ∨ 1024 ≤ d) : (g.putWords d m x n f k).fstat = g.fstat := by
  induction k with
  | zero => rfl
  | succ k ih => rw [Group.putWords, Group.fstat_putWord _ _ _ _ _ _ _ (by omega), ih (by omega)]

/-- A register that is none of those written is as it was. -/
theorem Group.raw_putWords_ne (k : Nat) (hd : d + k ≤ 264 ∨ 1024 ≤ d) (q : Nat) (l : Lane) (hq : realReg q) (h : q < d ∨ d + k ≤ q) :
    (g.putWords d m x n f k).raw q l = g.raw q l := by
  induction k with
  | zero => rfl
  | succ k ih =>
    have hr : realReg (d + k) := by unfold realReg; omega
    rw [Group.putWords, Group.raw_putWord_ne _ _ _ _ _ _ _ _ _ hr hq (by omega), ih (by omega) (by omega)]

/-- Word `j` of what was written. -/
theorem Group.raw_putWords (k : Nat) (hd : d + k ≤ 264 ∨ 1024 ≤ d) (j : Nat) (l : Lane) (hj : j < k) :
    (g.putWords d m x n f k).raw (d + j) l =
      if 1024 ≤ d then (if m = 0 then g.raw (d + j) l else wordAt x j (lowLane m))
      else if laneIn m l then wordAt x j l else g.raw (d + j) l := by
  induction k with
  | zero => omega
  | succ k ih =>
    rw [Group.putWords]
    by_cases hjk : j = k
    · subst hjk
      rw [Group.raw_putWord_same _ _ _ _ _ _ _ _ (by omega), Group.raw_putWords_ne g d m x n f j (by omega) _ _ (by unfold realReg; omega) (by omega)]
      by_cases h : 1024 ≤ d
      · have : 1024 ≤ d + j := by omega
        simp [h, this]
      · have : ¬ 1024 ≤ d + j := by omega
        simp [h, this]
    · have hr : realReg (d + k) := by unfold realReg; omega
      have hq : realReg (d + j) := by unfold realReg; omega
      rw [Group.raw_putWord_ne _ _ _ _ _ _ _ _ _ hr hq (by omega), ih (by omega) (by omega)]
end

/-! ### An instruction that issues -/

/-- The context of an instruction that issues. -/
theorem Issues.ctx_eq {i : Instr} {own : Ctx → State → Option (BitVec 8)} {s : State} {c : Ctx} (h : Issues i own s c) :
    ∃ p e, i.spec = some p ∧ i.enc = some e ∧ c = mkCtx s s.cur p e := by
  have := h.ctx
  unfold State.ctxOf at this
  split at this
  · next p e hp he => exact ⟨p, e, hp, he, (Option.some.inj this).symm⟩
  · cases this

theorem Issues.group {i : Instr} {own : Ctx → State → Option (BitVec 8)} {s : State} {c : Ctx} (h : Issues i own s c) : c.g = s.group c.slot := by
  obtain ⟨p, e, _, _, rfl⟩ := h.ctx_eq
  rfl

theorem alone_hold {s : State} {k : Nat} (h : s.alone (s.group k) = true) : s.pairHold k = false := by
  unfold State.alone at h
  unfold State.pairHold
  simp only [Bool.or_eq_true, Bool.and_eq_true, Bool.not_eq_true'] at h
  rcases h with h | ⟨⟨h1, h2⟩, h3⟩
  · simp [h]
  · simp [h1, h2]

theorem alone_guarded {s : State} {c : Ctx} (h : s.alone c.g = true) (i : Instr) (body : State → Out) : s.guarded c i body = body s := by
  unfold State.alone at h
  unfold State.guarded
  simp only [Bool.or_eq_true, Bool.and_eq_true, Bool.not_eq_true'] at h
  rcases h with h | ⟨⟨h1, h2⟩, h3⟩
  · simp [h]
  · simp [h2, h3]

/-- WHAT ISSUING DOES when everything that is asked of the instruction holds: its effect. -/
theorem issue_next {i : Instr} {own : Ctx → State → Option (BitVec 8)} {s : State} {c : Ctx} (h : Issues i own s c)
    (body : Ctx → State → Out) : issue i own body s = body c s := by
  obtain ⟨p, e, hp, he, rfl⟩ := h.ctx_eq
  have h1 := h.stage
  have h2 := alone_hold (s := s) (k := s.cur) h.alone
  have h3 := h.alloc
  have h4 := h.mode
  have h5 := h.kinds
  have h6 := h.own
  have h7 := h.ready
  unfold issue
  rw [hp, he]
  have h2' : s.pairHold (mkCtx s s.cur p e).slot = false := h2
  have h3' : e.allocOk (mkCtx s s.cur p e).g p = true := h3
  have h5' : e.kindsOk p = true := h5
  have h4' : (p.priv && !(mkCtx s s.cur p e).priv) = false := by
    cases hpv : p.priv with
    | false => rfl
    | true => simpa [hpv] using h4 hpv
  simp only [h1, h2', h3', h4', h5', h6, h7, Bool.not_true, Bool.false_eq_true, if_false]
  exact alone_guarded h.alone _ _

/-- An instruction whose own condition of order 12 fails takes the exception of the class that the condition names. -/
theorem issue_own {i : Instr} {own : Ctx → State → Option (BitVec 8)} {s : State} {c : Ctx} {k : BitVec 8} (h : Issues i noOwn s c)
    (hk : own c s = some k) (body : Ctx → State → Out) : issue i own body s = .next (s.raiseCode c.slot k c.pc c.act) := by
  obtain ⟨p, e, hp, he, rfl⟩ := h.ctx_eq
  have h1 := h.stage
  have h3 := h.alloc
  have h4 := h.mode
  have h5 := h.kinds
  unfold issue
  rw [hp, he]
  have h2' : s.pairHold (mkCtx s s.cur p e).slot = false := alone_hold (s := s) (k := s.cur) h.alone
  have h3' : e.allocOk (mkCtx s s.cur p e).g p = true := h3
  have h5' : e.kindsOk p = true := h5
  have h4' : (p.priv && !(mkCtx s s.cur p e).priv) = false := by
    cases hpv : p.priv with
    | false => rfl
    | true => simpa [hpv] using h4 hpv
  simp only [h1, h2', h3', h4', h5', hk, Bool.not_true, Bool.false_eq_true, if_false]

/-- An instruction that issues with no condition of its own issues with one that holds. -/
theorem Issues.andOwn {i : Instr} {own : Ctx → State → Option (BitVec 8)} {s : State} {c : Ctx} (h : Issues i noOwn s c)
    (hk : own c s = none) : Issues i own s c := ⟨h.ctx, h.stage, h.alone, h.alloc, h.mode, h.kinds, hk, h.ready⟩

/-- Everything that issuing can answer: the state as it was, an exception taken, or the effect. -/
theorem issue_cases {i : Instr} {own : Ctx → State → Option (BitVec 8)} {s : State} {body : Ctx → State → Out} {o : Out}
    (h : issue i own body s = o) :
    o = .next s ∨
    ∃ p e, i.spec = some p ∧ i.enc = some e ∧
      ((∃ k, o = .next (s.raiseCode s.cur k (mkCtx s s.cur p e).pc (mkCtx s s.cur p e).act)) ∨
       ((mkCtx s s.cur p e).g.canIssue = true ∧ o = s.guarded (mkCtx s s.cur p e) i (body (mkCtx s s.cur p e)))) := by
  subst h
  unfold issue
  split
  · next p e hp he =>
    by_cases h1 : (mkCtx s s.cur p e).g.canIssue = true
    · simp only [h1, Bool.not_true, Bool.false_eq_true, if_false]
      repeat' split
      all_goals first
        | exact .inl rfl
        | exact .inr ⟨p, e, hp, he, .inl ⟨_, rfl⟩⟩
        | exact .inr ⟨p, e, hp, he, .inr ⟨h1, rfl⟩⟩
    · simp [h1]
  · exact .inl rfl

/-! ### What an issued instruction leaves -/

theorem Group.apart_rebatch (g : Group) : g.rebatch.apart = g.apart := by
  unfold Group.rebatch
  dsimp only
  split <;> rfl

theorem Group.rebatch_keeps (g : Group) (r : Nat) (l : Lane) : g.rebatch.raw r l = g.raw r l := by
  unfold Group.rebatch
  dsimp only
  split <;> rfl

theorem Group.rebatch_fields (g : Group) : g.rebatch.pc = g.pc ∧ g.rebatch.seq = g.seq ∧ g.rebatch.count = g.count ∧ g.rebatch.fstat = g.fstat := by
  unfold Group.rebatch
  dsimp only
  split <;> exact ⟨rfl, rfl, rfl, rfl⟩

section
variable (c : Ctx) (x : LEntry) (pcs : Lanes DWord) (s : State)

/-- The group of an issued instruction. -/
theorem retire_group : (retire c x pcs s).group c.slot =
    ({ s.group c.slot with
        pc := Vector.ofFn fun l => if laneIn c.g.batch l then pcs[l] else (s.group c.slot).pc[l]
        lastRun := Vector.ofFn fun l => if laneIn c.g.batch l then (s.group c.slot).runs else (s.group c.slot).lastRun[l]
        seq := (s.group c.slot).seq + 1
        count := (s.group c.slot).count + 1
        ended := (s.group c.slot).ended || c.e.sw }).rebatch := by
  unfold retire
  simp

theorem retire_group_ne (k : Nat) (h : k ≠ c.slot) : (retire c x pcs s).group k = s.group k := by
  unfold retire
  simp [State.group_updGroup_ne _ _ _ _ h]

theorem retire_part_ne (k : Nat) (h : k ≠ slotPart c.slot) : (retire c x pcs s).part k = s.part k := by
  unfold retire
  simp [State.part_setPart_ne _ _ _ _ h]

/-- Issuing changes only the group, the last-result file of its partition and the counter of free values. -/
theorem retire_rest : { retire c x pcs s with groups := s.groups, parts := s.parts, freeCtr := s.freeCtr } = s := rfl

theorem retire_rest_updGroup (k : Nat) (f : Group → Group) :
    { retire c x pcs (s.updGroup k f) with groups := s.groups, parts := s.parts, freeCtr := s.freeCtr } = s := by
  unfold retire State.updGroup State.setGroup State.setPart State.bump
  rfl

theorem retire_mem : (retire c x pcs s).mem = s.mem := rfl

theorem retire_raw (r : Nat) (l : Lane) : ((retire c x pcs s).group c.slot).raw r l = (s.group c.slot).raw r l := by
  rw [retire_group, Group.rebatch_keeps]
  simp only [Group.raw]

theorem retire_fstat : ((retire c x pcs s).group c.slot).fstat = (s.group c.slot).fstat := by
  rw [retire_group, (Group.rebatch_fields _).2.2.2]

theorem retire_apart : ((retire c x pcs s).group c.slot).apart = (s.group c.slot).apart := by
  rw [retire_group, Group.apart_rebatch]
  simp only [Group.apart]

theorem retire_steps :
    Steps c (fun l => pcs[l]) (s.group c.slot) ((retire c x pcs s).group c.slot) := by
  refine ⟨fun l => ?_, ?_, ?_⟩
  · rw [retire_group, (Group.rebatch_fields _).1]
    simp [Vector.getElem_ofFn]
  · rw [retire_group, (Group.rebatch_fields _).2.1]
  · rw [retire_group, (Group.rebatch_fields _).2.2.1]
end

/-- An instruction with no result changes its program counters and nothing else. -/
theorem goes_retire {c : Ctx} {s : State} (x : LEntry) (pcs : Lanes DWord) :
    Goes c (fun l => pcs[l]) s (.next (retire c x pcs s)) :=
  ⟨_, rfl, fun r l _ => retire_raw c x pcs s r l, retire_steps c x pcs s,
    ⟨rfl, fun k hk => retire_group_ne c x pcs s k hk, retire_apart c x pcs s, fun k hk => retire_part_ne c x pcs s k hk, rfl⟩⟩

/-- An instruction issued with no result goes to the next one. -/
theorem goes_done {c : Ctx} {s : State} : Goes c (fun _ => c.next) s (.next (done c s)) := by
  have e : (fun l : Lane => c.nextPcs[l]) = fun _ => c.next := by
    funext l
    simp [Ctx.nextPcs, Ctx.next, lanesOf]
  rw [← e]
  exact goes_retire LEntry.undef c.nextPcs

/-- The registers after a destination was written. -/
theorem Group.firstReg_range {o : Opnd} {d : Nat} (h : o.firstReg = some d) : d < 264 ∨ 1024 ≤ d := by
  unfold Opnd.firstReg at h
  split at h
  · cases h; unfold regV; rename_i k; have := k.isLt; omega
  · cases h; unfold regQ; rename_i k; have := k.isLt; omega
  · cases h; unfold regS; omega
  · cases h

/-! ### A result -/

theorem Group.raw_lvq (g : Group) (q : List LvqEntry) (r : Nat) (l : Lane) : Group.raw { g with lvq := q } r l = g.raw r l := by
  simp only [Group.raw]

theorem Group.orFlags_spec (g : Group) (f : Flags) :
    (∀ r l, realReg r → r ≠ regF → (g.orFlags f).raw r l = g.raw r l) ∧ (g.orFlags f).fstat = g.fstat ||| f ∧
    (g.orFlags f).apart = g.apart ∧ (g.orFlags f).pc = g.pc ∧ (g.orFlags f).seq = g.seq ∧ (g.orFlags f).count = g.count ∧
    (g.orFlags f).batch = g.batch ∧ (g.orFlags f).lvq = g.lvq := by
  unfold Group.orFlags
  by_cases hf : f = 0
  · rw [if_pos hf]
    exact ⟨fun _ _ _ _ => rfl, by rw [hf]; simp, rfl, rfl, rfl, rfl, rfl, rfl⟩
  · rw [if_neg hf]
    obtain ⟨h1, h2, h3, h4, h5⟩ := Group.steps_putWord g regF 1 (fun _ => (g.fstat ||| f).setWidth 32) g.seq false (f.setWidth 32)
    refine ⟨fun r l hr hn => Group.raw_putWord_ne _ _ _ _ _ _ _ _ _ (by unfold realReg regF; omega) hr hn, ?_, Group.apart_putWord _ _ _ _ _ _ _, h1, h2, h3, h4, h5⟩
    have hv : writeVal 265 1 (fun _ => (g.fstat ||| f).setWidth 32) = fun _ => (g.fstat ||| f).setWidth 32 := by
      unfold writeVal
      split <;> rfl
    rw [show regF = 265 from rfl, Group.fstat_putWord_flags, hv, Group.fstat_setWord_flags,
      if_pos (show laneIn (Sys2Proof.writeMask 265 1) (0 : Lane) = true by decide)]
    simp

/-- The destination of an instruction lies inside one register file (R35, R180). -/
theorem Issues.dest_fits {i : Instr} {own : Ctx → State → Option (BitVec 8)} {s : State} {c : Ctx} (h : Issues i own s c)
    (hu : c.p.d.used = true) : ∀ d, c.e.d.firstReg = some d → d + wordsOf c.p.wd ≤ 264 ∨ 1024 ≤ d := by
  intro d hd
  have ha := h.alloc
  unfold Enc.allocOk at ha
  rw [hu] at ha
  have hw : wordsOf c.p.wd ≤ 4 := by unfold wordsOf; split <;> (try split) <;> omega
  unfold Opnd.firstReg at hd
  split at hd
  · next k e =>
    cases hd
    have := k.isLt
    unfold regV
    omega
  · next k e =>
    cases hd
    have hk := k.isLt
    have hq : regOk 8 k.toNat c.p.wd = true := by
      simp only [Bool.and_eq_true, Bool.not_true, Bool.false_or, e, Opnd.allocOk] at ha
      exact ha.1.1.1.2
    unfold regOk at hq
    unfold regQ wordsOf
    split at hq
    · next h1 => simp only [if_pos h1]; omega
    · next h1 =>
      split at hq
      · next h2 => simp only [if_neg h1, if_pos h2]; have := of_decide_eq_true hq; omega
      · next h2 => simp only [if_neg h1, if_neg h2]; have := of_decide_eq_true hq; omega
  · next k e =>
    cases hd
    unfold regS
    omega
  · cases hd

/-- The registers after a destination is written. -/
theorem Group.write_spec (c : Ctx) (g : Group) (x : Lane → BitVec 128) (n : Nat) (b : Bool)
    (hd : ∀ d, c.e.d.firstReg = some d → d + wordsOf c.p.wd ≤ 264 ∨ 1024 ≤ d) :
    Wrote c x 0 g (g.write c.e.d c.p.wd c.act x n b) ∧ (g.write c.e.d c.p.wd c.act x n b).apart = g.apart ∧
    (g.write c.e.d c.p.wd c.act x n b).pc = g.pc ∧ (g.write c.e.d c.p.wd c.act x n b).seq = g.seq ∧
    (g.write c.e.d c.p.wd c.act x n b).count = g.count ∧ (g.write c.e.d c.p.wd c.act x n b).batch = g.batch := by
  unfold Group.write
  cases hf : c.e.d.firstReg with
  | none =>
    exact ⟨⟨fun d h => absurd h (by simp [hf]), fun _ _ _ _ _ => rfl, by simp⟩, rfl, rfl, rfl, rfl, rfl⟩
  | some r =>
    have hr := hd r hf
    obtain ⟨s1, s2, s3, s4, -⟩ := Group.steps_putWords g r c.act x n b (wordsOf c.p.wd)
    refine ⟨⟨fun d h k l hk hw => ?_, fun q l hq hn hs => ?_, ?_⟩, Group.apart_putWords _ _ _ _ _ _ _, s1, s2, s3, s4⟩
    · rw [hf] at h
      cases h
      show (g.putWords r c.act x n b (wordsOf c.p.wd)).raw (r + k) l = _
      rw [Group.raw_putWords g r c.act x n b _ hr k l hk]
      by_cases h1 : 1024 ≤ r
      · have hm : ¬ c.act = 0 := by
          intro e
          rcases hw.2.2 with hl | hl
          · rw [e, laneIn_zero] at hl; cases hl
          · exact hl.2 e
        rw [if_pos h1, if_neg hm, if_pos h1]
      · have hl : laneIn c.act l = true := hw.2.2.resolve_right fun e => h1 e.1
        rw [if_neg h1, if_pos hl, if_neg h1]
    · show (g.putWords r c.act x n b (wordsOf c.p.wd)).raw q l = _
      by_cases hin : r ≤ q ∧ q < r + wordsOf c.p.wd
      · have hw := hs r hf
        have hl : ¬ (laneIn c.act l = true ∨ (1024 ≤ r ∧ c.act ≠ 0)) := fun e => hw ⟨hin.1, hin.2, e⟩
        obtain ⟨j, rfl⟩ : ∃ j, q = r + j := ⟨q - r, by omega⟩
        rw [Group.raw_putWords g r c.act x n b _ hr j l (by omega)]
        by_cases h1 : 1024 ≤ r
        · have hm : c.act = 0 := Classical.byContradiction fun e => hl (.inr ⟨h1, e⟩)
          rw [if_pos h1, if_pos hm]
        · rw [if_neg h1, if_neg fun e => hl (.inl e)]
      · exact Group.raw_putWords_ne g r c.act x n b _ hr q l hq (by omega)
    · show (g.putWords r c.act x n b (wordsOf c.p.wd)).fstat = _
      rw [Group.fstat_putWords _ _ _ _ _ _ _ hr]
      simp

/-- The group after a result is written and its flags are raised. -/
def Group.withResult (c : Ctx) (fixed : Bool) (x : Lane → BitVec 128) (fl : Flags) (g : Group) : Group :=
  (((g.write c.e.d c.p.wd c.act x g.seq fixed).orFlags fl).note ⟨c.e.d, c.p.wd, c.act, g.seq⟩ x).noteFlags g.seq fl

theorem Group.note_fields (g : Group) (d : Dest) (x : Lane → BitVec 128) (n : Nat) (f : Flags) :
    (∀ r l, ((g.note d x).noteFlags n f).raw r l = g.raw r l) ∧ ((g.note d x).noteFlags n f).fstat = g.fstat ∧
    ((g.note d x).noteFlags n f).apart = g.apart ∧ ((g.note d x).noteFlags n f).pc = g.pc ∧ ((g.note d x).noteFlags n f).seq = g.seq ∧
    ((g.note d x).noteFlags n f).count = g.count ∧ ((g.note d x).noteFlags n f).batch = g.batch := by
  unfold Group.note Group.noteFlags
  refine ⟨fun r l => ?_, rfl, ?_, rfl, rfl, rfl, rfl⟩
  · simp only [Group.raw]
  · simp only [Group.apart]

theorem Group.withResult_spec (c : Ctx) (fixed : Bool) (x : Lane → BitVec 128) (fl : Flags) (g : Group)
    (hd : ∀ d, c.e.d.firstReg = some d → d + wordsOf c.p.wd ≤ 264 ∨ 1024 ≤ d) :
    Wrote c x fl g (Group.withResult c fixed x fl g) ∧ (Group.withResult c fixed x fl g).apart = g.apart ∧
    (Group.withResult c fixed x fl g).pc = g.pc ∧ (Group.withResult c fixed x fl g).seq = g.seq ∧
    (Group.withResult c fixed x fl g).count = g.count ∧ (Group.withResult c fixed x fl g).batch = g.batch := by
  unfold Group.withResult
  obtain ⟨w, wa, wp, ws, wc, wb⟩ := Group.write_spec c g x g.seq fixed hd
  obtain ⟨o, of, oa, op, os, oc, ob, -⟩ := Group.orFlags_spec (g.write c.e.d c.p.wd c.act x g.seq fixed) fl
  obtain ⟨n, nf, na, np, ns, nc, nb⟩ :=
    Group.note_fields ((g.write c.e.d c.p.wd c.act x g.seq fixed).orFlags fl) ⟨c.e.d, c.p.wd, c.act, g.seq⟩ x g.seq fl
  refine ⟨⟨fun d h k l hk hw => ?_, fun r l hr hn hs => ?_, ?_⟩, by rw [na, oa, wa], by rw [np, op, wp], by rw [ns, os, ws], by rw [nc, oc, wc], by rw [nb, ob, wb]⟩
  · have hf := hd d h
    rw [n, o _ _ (by unfold realReg; omega) (by unfold regF; omega)]
    exact w.dest d h k l hk hw
  · rw [n, o _ _ hr hn]
    exact w.kept r l hr hn hs
  · have : (g.write c.e.d c.p.wd c.act x g.seq fixed).fstat = g.fstat := by simpa using w.flags
    rw [nf, of, this]

/-- EVERYTHING THAT A RESULT DOES. -/
theorem computes_result {c : Ctx} {s : State} (fixed : Bool) (x : Lane → BitVec 128) (fl : Lane → Flags)
    (hd : ∀ d, c.e.d.firstReg = some d → d + wordsOf c.p.wd ≤ 264 ∨ 1024 ≤ d) :
    Computes c x fl s (.next (result c fixed x fl s)) := by
  unfold Computes
  obtain ⟨w, wa, wp, ws, wc, wb⟩ := Group.withResult_spec c fixed x (orLanes c.act fl) (s.group c.slot) hd
  have e : result c fixed x fl s =
      retire c (c.entry x) c.nextPcs (s.updGroup c.slot (Group.withResult c fixed x (orLanes c.act fl))) := rfl
  refine ⟨_, rfl, ?_, ?_, ?_⟩
  · rw [e]
    refine ⟨fun d h k l hk hw => ?_, fun r l hr hn hs => ?_, ?_⟩
    · rw [retire_raw, State.group_updGroup]
      exact w.dest d h k l hk hw
    · rw [retire_raw, State.group_updGroup]
      exact w.kept r l hr hn hs
    · rw [retire_fstat, State.group_updGroup]
      exact w.flags
  · rw [e]
    have st := retire_steps c (c.entry x) c.nextPcs (s.updGroup c.slot (Group.withResult c fixed x (orLanes c.act fl)))
    rw [State.group_updGroup] at st
    refine ⟨fun l => ?_, by rw [st.seq, ws], by rw [st.count, wc]⟩
    have hp := st.pc l
    have hn : c.nextPcs[l] = c.next := by simp [Ctx.nextPcs, Ctx.next, lanesOf]
    rw [hn] at hp
    rw [hp]
    split
    · rfl
    · show (Group.withResult c fixed x (orLanes c.act fl) (s.group c.slot)).pc[l] = _
      exact congrArg (fun (v : Lanes DWord) => v[l]) wp
  · rw [e]
    refine ⟨rfl, fun k hk => ?_, ?_, fun p hp => ?_, retire_rest_updGroup c (c.entry x) c.nextPcs s c.slot _⟩
    · rw [retire_group_ne _ _ _ _ _ hk, State.group_updGroup_ne _ _ _ _ hk]
    · rw [retire_apart, State.group_updGroup, wa]
    · rw [retire_part_ne _ _ _ _ _ hp, State.part_updGroup]

/-! ### A predicate -/

theorem Group.pw_setWord (g : Group) (m : LaneMask) (x : Lane → Word) (l : Lane) :
    (g.setWord 264 m x).pw[l] = if laneIn m l then (x l).setWidth 8 else g.pw[l] := by
  have e : (g.setWord 264 m x).pw[l] = ((if laneIn m l then x l else g.raw 264 l) : Word).setWidth 8 := by
    unfold Group.setWord
    simp only [show ¬ (264 < 256) by decide, show ¬ (264 < 264) by decide, if_false, if_true]
    simp [Vector.getElem_ofFn]
  rw [e]
  split
  · rfl
  · have : g.raw 264 l = (g.pw[l]).setWidth 32 := by
      unfold Group.raw
      simp only [show ¬ (264 < 256) by decide, show ¬ (264 < 264) by decide, if_false, if_true]
    rw [this]
    simp

theorem Group.pw_putWord (g : Group) (m : LaneMask) (x : Lane → Word) (n : Nat) (b : Bool) (w : Word) (l : Lane) :
    (g.putWord regP m x n b w).pw[l] = if laneIn m l then (x l).setWidth 8 else g.pw[l] := by
  have e : (g.putWord 264 m x n b w).pw = (g.setWord 264 (Sys2Proof.writeMask 264 m) (writeVal 264 m x)).pw := rfl
  have hw : Sys2Proof.writeMask 264 m = m := rfl
  have hv : writeVal 264 m x = x := rfl
  show (g.putWord 264 m x n b w).pw[l] = _
  rw [show (g.putWord 264 m x n b w).pw[l] = (g.setWord 264 m x).pw[l] from congrArg (fun (v : Lanes Byte) => v[l]) (by rw [e, hw, hv])]
  exact Group.pw_setWord g m x l

theorem pred_bit (w : Byte) (n k : Nat) (x : Bool) (hk : k < 8) :
    ((if x then w.setWidth 32 ||| BitVec.ofNat 32 (2 ^ n) else w.setWidth 32 &&& ~~~ BitVec.ofNat 32 (2 ^ n)).setWidth 8 : Byte).getLsbD k =
      if k = n then x else w.getLsbD k := by
  have h2 : (BitVec.ofNat 32 (2 ^ n)).getLsbD k = decide (k = n) := by
    rw [BitVec.getLsbD_ofNat, Nat.testBit_two_pow]
    simp [show k < 32 by omega, eq_comm]
  have h3 : (w.setWidth 32 : Word).getLsbD k = w.getLsbD k := by
    rw [BitVec.getLsbD_setWidth]
    simp [show k < 32 by omega]
  rw [BitVec.getLsbD_setWidth]
  simp only [hk, decide_true, Bool.true_and]
  cases x
  · rw [if_neg Bool.false_ne_true, BitVec.getLsbD_and, BitVec.getLsbD_not, h2, h3]
    by_cases h : k = n <;> simp [h, show k < 32 by omega]
  · rw [if_pos rfl, BitVec.getLsbD_or, h2, h3]
    by_cases h : k = n <;> simp [h]

/-- What writing a predicate leaves. -/
theorem Group.writePred_spec (c : Ctx) (g : Group) (n : Nat) (x : Lane → Bool) (b : Bool) :
    WrotePred c n x 0 g (g.writePred n c.act x b) ∧ (g.writePred n c.act x b).apart = g.apart ∧ (g.writePred n c.act x b).pc = g.pc ∧
    (g.writePred n c.act x b).seq = g.seq ∧ (g.writePred n c.act x b).count = g.count ∧ (g.writePred n c.act x b).batch = g.batch := by
  unfold Group.writePred
  by_cases h7 : n = 7
  · rw [if_pos h7]
    exact ⟨⟨fun l k _ => by rw [if_neg (fun h => h.2.1 h7)], fun _ _ _ _ _ => rfl, by simp⟩, rfl, rfl, rfl, rfl, rfl⟩
  · rw [if_neg h7]
    obtain ⟨s1, s2, s3, s4, -⟩ := Group.steps_putWord g regP c.act
      (fun l => let w := g.raw regP l; if x l then w ||| BitVec.ofNat 32 (2 ^ n) else w &&& ~~~ BitVec.ofNat 32 (2 ^ n)) g.seq b
      (BitVec.ofNat 32 (2 ^ n))
    refine ⟨⟨fun l k hk => ?_, fun r l hr hp hf => ?_, ?_⟩, Group.apart_putWord _ _ _ _ _ _ _, s1, s2, s3, s4⟩
    · rw [Group.pw_putWord]
      by_cases hl : laneIn c.act l = true
      · have hr : g.raw regP l = (g.pw[l]).setWidth 32 := by
          unfold Group.raw regP
          simp only [show ¬ (264 < 256) by decide, show ¬ (264 < 264) by decide, if_false, if_true]
        simp only [hl, if_true, hr]
        rw [pred_bit _ _ _ _ hk]
        simp [h7]
      · simp [hl]
    · exact Group.raw_putWord_ne _ _ _ _ _ _ _ _ _ (by unfold realReg regP; omega) hr hp
    · rw [Group.fstat_putWord _ _ _ _ _ _ _ (by decide)]
      simp

/-- EVERYTHING THAT AN INSTRUCTION DOES whose result is a predicate. -/
theorem computes_pred {c : Ctx} {s : State} (n : Nat) (fixed : Bool) (x : Lane → Bool) (fl : Lane → Flags) :
    ComputesPred c n x fl s (.next (done c (s.updGroup c.slot fun g => (g.writePred n c.act x fixed).orFlags (orLanes c.act fl)))) := by
  obtain ⟨w, wa, wp, ws, wc, wb⟩ := Group.writePred_spec c (s.group c.slot) n x fixed
  obtain ⟨o, of, oa, op, os, oc, ob, -⟩ := Group.orFlags_spec ((s.group c.slot).writePred n c.act x fixed) (orLanes c.act fl)
  generalize hk : (fun (g : Group) => (g.writePred n c.act x fixed).orFlags (orLanes c.act fl)) = k
  have hk' : k (s.group c.slot) = ((s.group c.slot).writePred n c.act x fixed).orFlags (orLanes c.act fl) := by rw [← hk]
  have hpw : ∀ l : Lane, (((s.group c.slot).writePred n c.act x fixed).orFlags (orLanes c.act fl)).pw[l] =
      ((s.group c.slot).writePred n c.act x fixed).pw[l] := by
    intro l
    have h1 := o regP l (by unfold realReg regP; omega) (by decide)
    have raw_pw (g : Group) : (g.raw regP l).setWidth 8 = g.pw[l] := by
      unfold Group.raw regP
      simp only [show ¬ (264 < 256) by decide, show ¬ (264 < 264) by decide, if_false, if_true]
      simp
    rw [← raw_pw, h1, raw_pw]
  refine ⟨_, rfl, ?_, ?_, ?_⟩
  · refine ⟨fun l j hj => ?_, fun r l hr hp hf => ?_, ?_⟩
    · have e : ((done c (s.updGroup c.slot k)).group c.slot).pw[l] = (k (s.group c.slot)).pw[l] := by
        have h1 := retire_raw c LEntry.undef c.nextPcs (s.updGroup c.slot k) regP l
        rw [State.group_updGroup] at h1
        have raw_pw (g : Group) : (g.raw regP l).setWidth 8 = g.pw[l] := by
          unfold Group.raw regP
          simp only [show ¬ (264 < 256) by decide, show ¬ (264 < 264) by decide, if_false, if_true]
          simp
        rw [← raw_pw, ← raw_pw (k (s.group c.slot))]
        exact congrArg _ h1
      rw [e, hk', hpw]
      exact w.pred l j hj
    · have h1 := retire_raw c LEntry.undef c.nextPcs (s.updGroup c.slot k) r l
      rw [State.group_updGroup, hk', o r l hr hf] at h1
      exact h1.trans (w.kept r l hr hp hf)
    · have h1 := retire_fstat c LEntry.undef c.nextPcs (s.updGroup c.slot k)
      rw [State.group_updGroup, hk', of] at h1
      have : ((s.group c.slot).writePred n c.act x fixed).fstat = (s.group c.slot).fstat := by simpa using w.flags
      rw [this] at h1
      exact h1
  · have st := retire_steps c LEntry.undef c.nextPcs (s.updGroup c.slot k)
    rw [State.group_updGroup, hk'] at st
    refine ⟨fun l => ?_, by have := st.seq; rw [os, ws] at this; exact this, by have := st.count; rw [oc, wc] at this; exact this⟩
    have hp := st.pc l
    have hn : c.nextPcs[l] = c.next := by simp [Ctx.nextPcs, Ctx.next, lanesOf]
    rw [hn] at hp
    refine hp.trans ?_
    split
    · rfl
    · exact congrArg (fun (v : Lanes DWord) => v[l]) (op.trans wp)
  · refine ⟨rfl, fun j hj => ?_, ?_, fun p hp => ?_, retire_rest_updGroup c LEntry.undef c.nextPcs s c.slot k⟩
    · exact (retire_group_ne _ _ _ _ _ hj).trans (State.group_updGroup_ne _ _ _ _ hj)
    · have h1 := retire_apart c LEntry.undef c.nextPcs (s.updGroup c.slot k)
      rw [State.group_updGroup, hk', oa, wa] at h1
      exact h1
    · exact retire_part_ne _ _ _ _ _ hp

/-! ### The forms in which the meanings end -/

/-- An instruction that issues and whose effect is a result computes it. -/
theorem Issues.computes {i : Instr} {own : Ctx → State → Option (BitVec 8)} {s : State} {c : Ctx} (h : Issues i own s c)
    (hu : ∀ p, i.spec = some p → p.d.used = true) (u : State) (fixed : Bool) (x : Lane → BitVec 128) (fl : Lane → Flags) :
    Computes c x fl u (.next (result c fixed x fl u)) := by
  obtain ⟨p, e, hp, -, hc⟩ := h.ctx_eq
  exact computes_result fixed x fl (h.dest_fits (by rw [hc]; exact hu p hp))

/-! ### Checks of memory instructions -/

/-- Lanes that pass wait for no page. -/
theorem good_pages {m : LaneMask} {chk : Lane → LaneChk} (h : ∀ l, laneIn m l = true → (chk l).good = true) :
    lanePages m chk = [] := by
  unfold lanePages
  rw [List.filterMap_eq_nil_iff.2]
  · rfl
  · intro l hl
    have := h l ((mem_lanesIn _ _).1 hl)
    cases hc : chk l <;> simp_all [LaneChk.good]

/-- Lanes that pass give no fault. -/
theorem good_fault {k : Nat} {pc : DWord} {m : LaneMask} {chk : Lane → LaneChk} (h : ∀ l, laneIn m l = true → (chk l).good = true) :
    laneFault k pc m chk = none := by
  unfold laneFault
  simp only []
  split
  · rfl
  · rename_i k' hk
    have := List.find?_some hk
    rw [List.contains_iff_mem, List.mem_filterMap] at this
    obtain ⟨l, hl, he⟩ := this
    have := h l ((mem_lanesIn _ _).1 hl)
    cases hc : chk l <;> simp_all [LaneChk.good]

/-- A memory instruction whose lanes pass goes on with its translations used. -/
theorem checked_passes {c : Ctx} {k n : Nat} {chk : Lane → LaneChk} {go : State → Out} {s : State} (h : Passes c chk n s) :
    c.checked k c.act chk n go s = go (c.passed chk s) := by
  unfold Ctx.checked Ctx.passed
  rw [good_pages h.good, good_fault h.good]
  simp [Nat.not_lt.2 h.room]

/-! ### Instructions with an effect -/

/-- An instruction issued with no result, whose effect was made first. -/
theorem acts_done (c : Ctx) (u : State) : Acts c u (.next (done c u)) := goes_done

/-- An instruction issued, whatever entry it leaves in the last-result file. -/
theorem acts_retire (c : Ctx) (x : LEntry) (u : State) : Acts c u (.next (retire c x c.nextPcs u)) := by
  have e : (fun l : Lane => c.nextPcs[l]) = fun _ => c.next := by
    funext l
    simp [Ctx.nextPcs, Ctx.next, lanesOf]
  unfold Acts
  rw [← e]
  exact goes_retire x c.nextPcs

/-- An instruction issued whose result an access returns later. -/
theorem acts_pending (c : Ctx) (id : Nat) (u : State) : ActsPending c id u (.next (retire c (c.pending id) c.nextPcs u)) := by
  refine ⟨_, rfl, acts_retire _ _ _, ?_⟩
  unfold retire
  simp [Ctx.pending, Part.push]

/-- An instruction issued that ends its run. -/
theorem acts_ending (c : Ctx) (u : State) : ActsAndEnds c u (.next (done c.ending u)) := by
  obtain ⟨t, ht, a, b, d⟩ := acts_retire c.ending LEntry.undef u
  have ht' : done c.ending u = t := by injection ht
  refine ⟨t, congrArg _ ht', ⟨t, rfl, a, ⟨b.pc, b.seq, b.count⟩, ⟨d.mem, d.others, d.own, d.parts, d.rest⟩⟩, ?_⟩
  rw [← ht']
  have : (done c.ending u).group c.slot = _ := retire_group c.ending LEntry.undef c.ending.nextPcs u
  rw [this]
  simp only [Group.rebatch, Ctx.ending, Bool.or_true]
  repeat' split
  all_goals rfl

/-- Requests sent to their homes are of the same bytes. -/
theorem routed_map (s : State) (k : Nat) (ps : List Piece) :
    ((s.routed k ps).map fun p => (p.addr, p.size, p.parts)) = ps.map fun p => (p.addr, p.size, p.parts) := by
  unfold State.routed; simp

end Sys2Proof.Machine
end

