-- ==== Sys2Proof/Laws/Calls.lean ====
section
/-! SUPPORT. The call page and the services of Linium: what a store to the page, a reply, the taking of a record and an action of a service leave. -/

namespace Sys2Proof.Machine

open Sys2Proof

theorem State.pageStore_cluster (s : State) (cl a x n : Nat) (h : pageReserved a = false) :
    ((s.pageStore cl a x n).cluster cl).page = Memory.write (s.cluster cl).page a x n := by
  unfold State.pageStore
  rw [h]
  simp [Cluster.pset]

theorem State.pageStore_frame (s : State) (cl a x n : Nat) :
    (s.pageStore cl a x n).groups = s.groups ∧ (s.pageStore cl a x n).mem = s.mem ∧ (s.pageStore cl a x n).heap = s.heap ∧
    (s.pageStore cl a x n).svc = s.svc ∧ (s.pageStore cl a x n).deferred = s.deferred ∧ (s.pageStore cl a x n).svcUse = s.svcUse := by
  unfold State.pageStore
  split <;> simp [State.setCluster]

/-- The stores of a reply into its entries. -/
theorem entryStores (cl k st : Nat) (value : Lane → DWord) (hk : k < 28) (ls : List Lane) : ∀ (s : State),
    let t := ls.foldl (fun (s : State) l => (s.pageStore cl (callEntry k l.val + 32) (value l).toNat 8).pageStore cl (callEntry k l.val + 40) st 4) s
    (t.groups = s.groups ∧ t.mem = s.mem ∧ t.heap = s.heap ∧ t.svc = s.svc ∧ t.deferred = s.deferred ∧ t.svcUse = s.svcUse) ∧
    (∀ b n, b + n ≤ 0x2000 → Memory.read (t.cluster cl).page b n = Memory.read (s.cluster cl).page b n) ∧
    (∀ x : Lane, x ∈ ls → Memory.read (t.cluster cl).page (callEntry k x.val + 32) 8 = (value x).toNat ∧
      Memory.read (t.cluster cl).page (callEntry k x.val + 40) 4 = st % 256 ^ 4) ∧
    (∀ x : Lane, x ∉ ls → Memory.read (t.cluster cl).page (callEntry k x.val + 32) 8 = Memory.read (s.cluster cl).page (callEntry k x.val + 32) 8 ∧
      Memory.read (t.cluster cl).page (callEntry k x.val + 40) 4 = Memory.read (s.cluster cl).page (callEntry k x.val + 40) 4) := by
  induction ls with
  | nil => intro s; simp
  | cons l ls ih =>
    intro s
    simp only [List.foldl_cons]
    set u := (s.pageStore cl (callEntry k l.val + 32) (value l).toNat 8).pageStore cl (callEntry k l.val + 40) st 4 with hu
    have h1 : pageReserved (callEntry k l.val + 32) = false := by simp [pageReserved, callEntry]; omega
    have h2 : pageReserved (callEntry k l.val + 40) = false := by simp [pageReserved, callEntry]; omega
    have hp : (u.cluster cl).page = Memory.write (Memory.write (s.cluster cl).page (callEntry k l.val + 32) (value l).toNat 8) (callEntry k l.val + 40) st 4 := by
      rw [hu, State.pageStore_cluster _ _ _ _ _ h2, State.pageStore_cluster _ _ _ _ _ h1]
    have f1 := State.pageStore_frame s cl (callEntry k l.val + 32) (value l).toNat 8
    have f2 := State.pageStore_frame (s.pageStore cl (callEntry k l.val + 32) (value l).toNat 8) cl (callEntry k l.val + 40) st 4
    rw [← hu] at f2
    obtain ⟨i1, i2, i3, i4⟩ := ih u
    have he : ∀ x : Lane, callEntry k x.val = 0x2000 + 0x800 * k + 64 * x.val := fun _ => rfl
    refine ⟨⟨i1.1.trans (f2.1.trans f1.1), i1.2.1.trans (f2.2.1.trans f1.2.1), i1.2.2.1.trans (f2.2.2.1.trans f1.2.2.1),
      i1.2.2.2.1.trans (f2.2.2.2.1.trans f1.2.2.2.1), i1.2.2.2.2.1.trans (f2.2.2.2.2.1.trans f1.2.2.2.2.1),
      i1.2.2.2.2.2.trans (f2.2.2.2.2.2.trans f1.2.2.2.2.2)⟩, ?_, ?_, ?_⟩
    · intro b n hb
      have hl := he l
      rw [i2 b n hb, hp, Memory.read_write_outside _ _ _ _ b n (by omega), Memory.read_write_outside _ _ _ _ b n (by omega)]
    · intro x hx
      by_cases hxl : x ∈ ls
      · exact i3 x hxl
      · obtain rfl : x = l := by simpa [hxl] using hx
        rw [(i4 x hxl).1, (i4 x hxl).2, hp]
        refine ⟨?_, Memory.read_write_same 4 _ _ _⟩
        rw [Memory.read_write_outside _ _ _ _ (callEntry k x.val + 32) 8 (by omega), Memory.read_write_same]
        exact Nat.mod_eq_of_lt (by have := (value x).isLt; omega)
    · intro x hx
      have hne : x ≠ l := fun e => hx (by simp [e])
      have hv : x.val ≠ l.val := fun e => hne (Fin.ext e)
      have hxl : x ∉ ls := fun e => hx (by simp [e])
      have h1 := he x
      have h2 := he l
      rw [(i4 x hxl).1, (i4 x hxl).2, hp]
      constructor
      · rw [Memory.read_write_outside _ _ _ _ (callEntry k x.val + 32) 8 (by omega), Memory.read_write_outside _ _ _ _ (callEntry k x.val + 32) 8 (by omega)]
      · rw [Memory.read_write_outside _ _ _ _ (callEntry k x.val + 40) 4 (by omega), Memory.read_write_outside _ _ _ _ (callEntry k x.val + 40) 4 (by omega)]

theorem Cluster.done_read (c : Cluster) (k : Nat) : c.doneBits k = BitVec.ofNat 32 (Memory.read c.page (callHeader k + 16) 4) := by
  unfold Cluster.doneBits Cluster.pw Memory.dword
  apply BitVec.eq_of_toNat_eq
  simp only [BitVec.toNat_setWidth, BitVec.toNat_ofNat]
  rw [Nat.mod_mod_of_dvd _ (by norm_num), ← Memory.read_mod 4 8 _ _ (by omega)]
  norm_num

/-- A reply answers its lanes and changes only the page (R348). -/
theorem State.replyTo_spec (s : State) (cl k : Nat) (m : LaneMask) (st : Nat) (value : Lane → DWord) (hk : k < 28) :
    let t := s.replyTo cl k m st value
    (t.groups = s.groups ∧ t.mem = s.mem ∧ t.heap = s.heap ∧ t.svc = s.svc ∧ t.deferred = s.deferred ∧ t.svcUse = s.svcUse) ∧
    Answered t cl k m st value ∧ (t.cluster cl).doneBits k = (s.cluster cl).doneBits k ||| m := by
  intro t
  have h0 : pageReserved (callHeader k + 16) = false := by simp [pageReserved, callHeader]; omega
  obtain ⟨e1, e2, e3, -⟩ := entryStores cl k st value hk (lanesIn m) s
  set u := (lanesIn m).foldl (fun (s : State) l => (s.pageStore cl (callEntry k l.val + 32) (value l).toNat 8).pageStore cl (callEntry k l.val + 40) st 4) s with hu
  have ht : t = u.pageStore cl (callHeader k + 16) ((u.cluster cl).doneBits k ||| m).toNat 4 := rfl
  have f := State.pageStore_frame u cl (callHeader k + 16) ((u.cluster cl).doneBits k ||| m).toNat 4
  rw [← ht] at f
  have hp : (t.cluster cl).page = Memory.write (u.cluster cl).page (callHeader k + 16) ((u.cluster cl).doneBits k ||| m).toNat 4 := by
    rw [ht, State.pageStore_cluster _ _ _ _ _ h0]
  have hd : (u.cluster cl).doneBits k = (s.cluster cl).doneBits k := by
    rw [Cluster.done_read, Cluster.done_read, e2 _ _ (by simp [callHeader]; omega)]
  have hD : (t.cluster cl).doneBits k = (s.cluster cl).doneBits k ||| m := by
    rw [Cluster.done_read, hp, Memory.read_write_same, hd]
    apply BitVec.eq_of_toNat_eq
    have := ((s.cluster cl).doneBits k ||| m).isLt
    rw [BitVec.toNat_ofNat]; omega
  refine ⟨⟨f.1.trans e1.1, f.2.1.trans e1.2.1, f.2.2.1.trans e1.2.2.1, f.2.2.2.1.trans e1.2.2.2.1, f.2.2.2.2.1.trans e1.2.2.2.2.1,
    f.2.2.2.2.2.trans e1.2.2.2.2.2⟩, ?_, hD⟩
  intro x hx
  have hm : x ∈ lanesIn m := (mem_lanesIn m x).2 hx
  obtain ⟨g1, g2⟩ := e3 x hm
  have hh : callHeader k + 16 + 4 ≤ 0x2000 := by simp [callHeader]; omega
  have he : callEntry k x.val = 0x2000 + 0x800 * k + 64 * x.val := rfl
  refine ⟨?_, ?_, ?_⟩
  · rw [hD]; simp [laneIn] at hx; simp [hx]
  · unfold Cluster.pw Memory.dword
    apply BitVec.eq_of_toNat_eq
    simp only [BitVec.toNat_setWidth, BitVec.toNat_ofNat]
    rw [Nat.mod_mod_of_dvd _ (by norm_num), show (2 : Nat) ^ 32 = 256 ^ 4 from by norm_num, Memory.read_mod 4 8 _ _ (by omega), hp,
      Memory.read_write_outside _ _ _ _ (callEntry k x.val + 40) 4 (by omega), g2]
  · unfold Cluster.pw Memory.dword
    rw [hp, Memory.read_write_outside _ _ _ _ (callEntry k x.val + 32) 8 (by omega), g1]
    exact BitVec.ofNat_toNat _ _ |>.trans (by simp)

/-- An answer of a service: a reply, journaled where the service is (R348, R353). -/
theorem State.answerLanes_spec (s : State) (r : Rec) (v : Service) (m : LaneMask) (st : Nat) (value : Lane → DWord) (hk : r.k < 28) (hm : m ≠ 0) :
    let t := s.answerLanes r v m st value
    (t.groups = s.groups ∧ t.mem = s.mem ∧ t.heap = s.heap ∧ t.deferred = s.deferred ∧ t.svcUse = s.svcUse) ∧
    Answered t r.cl r.k m st value ∧ (t.cluster r.cl).doneBits r.k = (s.cluster r.cl).doneBits r.k ||| m := by
  intro t
  have ht : t = (if v.journaled then s.journal r m v.num st value else s).replyTo r.cl r.k m st value := by
    show s.answerLanes r v m st value = _
    rw [State.answerLanes, if_neg hm]
  rw [ht]
  have h := State.replyTo_spec (if v.journaled then s.journal r m v.num st value else s) r.cl r.k m st value hk
  refine ⟨?_, h.2.1, ?_⟩
  · obtain ⟨a, b, c, -, d, e⟩ := h.1
    rw [a, b, c, d, e]
    split <;> simp [State.journal, State.setSvc]
  · rw [h.2.2]
    split <;> rfl


theorem State.callRec_place {s : State} {cl k : Nat} {r : Rec} (h : s.callRec cl k = some r) : r.cl = cl ∧ r.k = k := by
  unfold State.callRec at h
  dsimp only at h
  split at h
  · cases h; exact ⟨rfl, rfl⟩
  · cases h

/-- Taking a record changes the page and the shard alone. -/
theorem State.takeRec_parts (s : State) (r : Rec) : ∃ c x, s.takeRec r = { s with clusters := c, svc := x } := by
  unfold State.takeRec State.pageStore
  dsimp only
  split
  · exact ⟨_, _, rfl⟩
  · split
    · exact ⟨_, _, rfl⟩
    · exact ⟨_, _, rfl⟩

theorem State.takeRec_page (s : State) (r : Rec) (hk : r.k < 28) (b n : Nat) (h : callHeader r.k + 8 ≤ b) :
    Memory.read ((s.takeRec r).cluster r.cl).page b n = Memory.read (s.cluster r.cl).page b n := by
  unfold State.takeRec
  dsimp only
  have h0 : pageReserved (callHeader r.k) = false := decide_eq_false (by unfold callHeader; omega)
  split
  · rfl
  · show Memory.read ((State.pageStore s r.cl (callHeader r.k) _ 8).cluster r.cl).page b n = _
    rw [State.pageStore_cluster _ _ _ _ _ h0, Memory.read_write_outside (s.cluster r.cl).page (callHeader r.k) _ 8 b n (Or.inr h)]

theorem State.takeRec_arg (s : State) (r : Rec) (hk : r.k < 28) (l : Lane) (i : Nat) : (s.takeRec r).recArg r l i = s.recArg r l i := by
  unfold State.recArg Cluster.pw Memory.dword
  rw [State.takeRec_page s r hk _ _ (by simp [callHeader, callEntry]; omega)]

theorem State.takeRec_arg2 (s : State) (r : Rec) (hk : r.k < 28) (l : Lane) (i : Nat) : (s.takeRec r).recArg2 r l i = s.recArg2 r l i := by
  unfold State.recArg2
  rw [State.takeRec_arg s r hk, State.takeRec_arg s r hk]

theorem State.takeRec_done (s : State) (r : Rec) (hk : r.k < 28) : ((s.takeRec r).cluster r.cl).doneBits r.k = (s.cluster r.cl).doneBits r.k := by
  rw [Cluster.done_read, Cluster.done_read, State.takeRec_page s r hk _ _ (by omega)]

/-- What it means that an action is due. -/
theorem State.serveDue_facts {s : State} {num cl k : Nat} {l : Lane} {r : Rec} {v : Service} (h : s.serveDue num cl k l = some (r, v)) :
    r.cl = cl ∧ r.k = k ∧ service num = some v ∧ laneIn r.lanes l = true ∧ laneIn ((s.cluster cl).doneBits k) l = false ∧ s.recNum r l = num := by
  unfold State.serveDue at h
  split at h
  · rename_i r' v' h1 h2
    simp only [Option.ite_none_right_eq_some] at h
    obtain ⟨hc, e⟩ := h
    cases e
    obtain ⟨a, b⟩ := State.callRec_place h1
    simp only [Bool.and_eq_true, beq_iff_eq, laneIn] at hc
    have hx := hc.1.1.1.1
    simp only [BitVec.getLsbD_and, BitVec.getLsbD_not, Bool.and_eq_true] at hx
    exact ⟨a, b, h2, hx.1, by simpa [laneIn] using hx.2.2, hc.1.1.2⟩
  · cases h

theorem service_num {num : Nat} {v : Service} (h : service num = some v) : v.num = num := by
  unfold service at h
  have := List.find?_some h
  simpa using this

/-- The lane that names the action is one of its lanes. -/
theorem State.actionLanes_mem {s : State} {num cl k : Nat} {l : Lane} {r : Rec} {v : Service} (h : s.serveDue num cl k l = some (r, v)) :
    laneIn (s.actionLanes r l v) l = true := by
  obtain ⟨-, -, h3, h4, -, h6⟩ := State.serveDue_facts h
  have hn := service_num h3
  unfold State.actionLanes
  dsimp only
  split
  · rw [laneIn_maskOf]; simp
  · rename_i hb
    split
    · rw [laneIn_maskOf]; simp
    · rw [laneIn_maskOf]; simp [h4, h6, hn, hb]
    · rw [laneIn_maskOf]; simp [h4, h6, hn, hb]

theorem State.regionChain_mem {s t : State} (h : t.mem = s.mem) (n : Nat) : ∀ r, t.regionChain n r = s.regionChain n r := by
  have hp : ∀ r, t.rcbParent r = s.rcbParent r := fun r => by simp [State.rcbParent, State.rcbW, State.dword, h]
  induction n with
  | zero => intro r; rfl
  | succ n ih => intro r; rw [State.regionChain, State.regionChain, hp, ih]

theorem State.overQuota_congr {s t : State} (h : t.mem = s.mem) (h1 : t.svcUse = s.svcUse) (h2 : t.tstamp = s.tstamp) (r c : Nat) :
    t.overQuota r c = s.overQuota r c := by
  have hw : ∀ r i, t.rcbW r i = s.rcbW r i := fun r i => by simp [State.rcbW, State.dword, h]
  have ho : ∀ r i, t.rcbOvr r i = s.rcbOvr r i := fun r i => by simp [State.rcbOvr, hw]
  have hu : ∀ r, t.svcUsed r = s.svcUsed r := fun r => by unfold State.svcUsed State.ms; rw [h1, h2]
  have hc : t.svcCharged r = s.svcCharged r := by
    unfold State.svcCharged
    rw [State.regionChain_mem h]
    simp only [ho]
  unfold State.overQuota
  rw [hc]; simp only [ho, hw, hu]

theorem State.takeRec_quota (s : State) (r : Rec) (q c : Nat) : (s.takeRec r).overQuota q c = s.overQuota q c := by
  obtain ⟨a, b, e⟩ := State.takeRec_parts s r
  exact State.overQuota_congr (by rw [e]) (by rw [e]) (by rw [e]) q c

/-- An action of a service within its quota, whose arguments are good and whose body answers its lanes. -/
theorem serve_acts {num cl k : Nat} {l : Lane} {body : Rec → Service → LaneMask → State → State} {s : State} {r : Rec} {v : Service}
    (h : s.serveDue num cl k l = some (r, v)) (hk : k < 28) (hb : s.recBadArgs r l v = false)
    (hq : s.overQuota r.rcb (v.fixed + v.perLane * countLanes (s.actionLanes r l v)) = false)
    (hd : laneIn (((body r v (s.actionLanes r l v) (s.takeRec r)).cluster cl).doneBits k) l = true) :
    ∃ t, serve num cl k l body s = .next t ∧ t.groups = (body r v (s.actionLanes r l v) (s.takeRec r)).groups ∧
      t.mem = (body r v (s.actionLanes r l v) (s.takeRec r)).mem ∧ t.heap = (body r v (s.actionLanes r l v) (s.takeRec r)).heap ∧
      t.cluster cl = (body r v (s.actionLanes r l v) (s.takeRec r)).cluster cl := by
  obtain ⟨rfl, rfl, -, -, h5, -⟩ := State.serveDue_facts h
  have hov : (s.takeRec r).overQuota r.rcb (v.fixed + v.perLane * countLanes (s.actionLanes r l v)) = false := by
    rw [State.takeRec_quota]; exact hq
  unfold serve
  rw [h]
  dsimp only
  rw [hb]
  simp only [Bool.false_eq_true, if_false, hov, Bool.and_false]
  have hne : ((body r v (s.actionLanes r l v) (s.takeRec r)).cluster r.cl).doneBits r.k ≠ ((s.takeRec r).cluster r.cl).doneBits r.k := by
    rw [State.takeRec_done s r hk]
    intro e
    rw [e, h5] at hd; cases hd
  rw [if_neg hne]
  exact ⟨_, rfl, rfl, rfl, rfl, rfl⟩

theorem Answered.lane {t : State} {cl k : Nat} {m : LaneMask} {st : Nat} {val : Lane → DWord} (h : Answered t cl k m st val) {l : Lane} (hl : laneIn m l = true) :
    laneIn ((t.cluster cl).doneBits k) l = true := (h l hl).1

/-- An action whose body answers its lanes with one status. -/
theorem serve_says {num cl k : Nat} {l : Lane} {body : Rec → Service → LaneMask → State → State} {s : State} {r : Rec} {v : Service} {st : Nat} {value : Lane → DWord}
    (h : s.serveDue num cl k l = some (r, v)) (hk : k < 28) (hb : s.recBadArgs r l v = false)
    (hq : s.overQuota r.rcb (v.fixed + v.perLane * countLanes (s.actionLanes r l v)) = false) {u : State}
    (hu : body r v (s.actionLanes r l v) (s.takeRec r) = u.answerLanes r v (s.actionLanes r l v) st value) :
    ∃ t, serve num cl k l body s = .next t ∧ Answered t cl k (s.actionLanes r l v) st value ∧ t.groups = u.groups ∧ t.mem = u.mem ∧ t.heap = u.heap := by
  obtain ⟨rfl, rfl, -, -, -, -⟩ := State.serveDue_facts h
  have hl := State.actionLanes_mem h
  have hm : s.actionLanes r l v ≠ 0 := fun e => by rw [e, laneIn_zero] at hl; cases hl
  obtain ⟨a1, a2, -⟩ := State.answerLanes_spec u r v (s.actionLanes r l v) st value hk hm
  obtain ⟨t, e, g, mm, hp, c⟩ := serve_acts (body := body) h hk hb hq (by rw [hu]; exact a2.lane hl)
  refine ⟨t, e, ?_, by rw [g, hu]; exact a1.1, by rw [mm, hu]; exact a1.2.1, by rw [hp, hu]; exact a1.2.2.1⟩
  intro x hx
  rw [c, hu]
  exact a2 x hx

/-- An action that is due completes, and is deferred where the quota asks for it (R352). -/
theorem serve_runs {num cl k : Nat} {l : Lane} {body : Rec → Service → LaneMask → State → State} {s : State} {r : Rec} {v : Service}
    (h : s.serveDue num cl k l = some (r, v)) :
    (∃ t, serve num cl k l body s = .next t) ∧
    (k < 28 → s.deferral r l = none → s.overQuota r.rcb (if s.recBadArgs r l v then 320 else v.fixed + v.perLane * countLanes (s.actionLanes r l v)) = true →
      ∃ t, serve num cl k l body s = .next t ∧ t.deferred = s.deferred ++ [{ cl := cl, call := k, lane := l.val, ms := s.tstamp.toNat / 1000000 }] ∧
        (t.cluster cl).doneBits k = (s.cluster cl).doneBits k ∧ t.groups = s.groups ∧ t.mem = s.mem) := by
  obtain ⟨rfl, rfl, -, -, -, -⟩ := State.serveDue_facts h
  constructor
  · unfold serve
    rw [h]; dsimp only
    cases s.recBadArgs r l v
    · simp only [Bool.false_eq_true, if_false]
      split
      · exact ⟨_, rfl⟩
      · split <;> exact ⟨_, rfl⟩
    · simp only [if_true]
      split <;> exact ⟨_, rfl⟩
  · intro hk hn ho
    obtain ⟨c, x, e⟩ := State.takeRec_parts s r
    have hdone := State.takeRec_done s r hk
    have h1 : (s.takeRec r).deferral r l = none := by rw [e]; exact hn
    unfold serve
    rw [h]; dsimp only
    rw [h1, State.takeRec_quota]
    cases hb : s.recBadArgs r l v
    · rw [hb] at ho
      simp only [Bool.false_eq_true, if_false] at ho ⊢
      rw [if_pos (by simp [ho])]
      exact ⟨_, rfl, by rw [e]; rfl, hdone, by rw [e], by rw [e]⟩
    · rw [hb] at ho
      simp only [if_true] at ho ⊢
      rw [if_pos (by simp [ho])]
      exact ⟨_, rfl, by rw [e]; rfl, hdone, by rw [e], by rw [e]⟩

end Sys2Proof.Machine
end

