-- ==== Sys2Proof/Laws/Dispatch.lean ====
section
/-! SUPPORT. The meaning that exec gives each instruction and event, one equation for each constructor. -/

namespace Sys2Proof.Machine

open Sys2Proof

theorem exec_nop (f s) : exec (.nop f) s = execNop f s := rfl
theorem exec_bra (f s) : exec (.bra f) s = execBra f s := rfl
theorem exec_bru (f s) : exec (.bru f) s = execBru f s := rfl
theorem exec_brx (f s) : exec (.brx f) s = execBrx f s := rfl
theorem exec_call (f s) : exec (.call f) s = execCall f s := rfl
theorem exec_callx (f s) : exec (.callx f) s = execCallx f s := rfl
theorem exec_ret (f s) : exec (.ret f) s = execRet f s := rfl
theorem exec_exit (f s) : exec (.exit f) s = execExit f s := rfl
theorem exec_yield (f s) : exec (.yield f) s = execYield f s := rfl
theorem exec_voteMask (f s) : exec (.voteMask f) s = execVoteMask f s := rfl
theorem exec_voteSome (f s) : exec (.voteSome f) s = execVoteSome f s := rfl
theorem exec_voteEvery (f s) : exec (.voteEvery f) s = execVoteEvery f s := rfl
theorem exec_voteSame (f s) : exec (.voteSame f) s = execVoteSame f s := rfl
theorem exec_voteCount (f s) : exec (.voteCount f) s = execVoteCount f s := rfl
theorem exec_shflLane (f s) : exec (.shflLane f) s = execShflLane f s := rfl
theorem exec_shflBack (f s) : exec (.shflBack f) s = execShflBack f s := rfl
theorem exec_shflFwd (f s) : exec (.shflFwd f) s = execShflFwd f s := rfl
theorem exec_shflMix (f s) : exec (.shflMix f) s = execShflMix f s := rfl
theorem exec_shflRot (f s) : exec (.shflRot f) s = execShflRot f s := rfl
theorem exec_elect (f s) : exec (.elect f) s = execElect f s := rfl
theorem exec_electHi (f s) : exec (.electHi f) s = execElectHi f s := rfl
theorem exec_matchPeers (f s) : exec (.matchPeers f) s = execMatchPeers f s := rfl
theorem exec_matchUniform (f s) : exec (.matchUniform f) s = execMatchUniform f s := rfl
theorem exec_cvset (f s) : exec (.cvset f) s = execCvset f s := rfl
theorem exec_sign (f s) : exec (.sign f) s = execSign f s := rfl
theorem exec_cvwait (f s) : exec (.cvwait f) s = execCvwait f s := rfl
theorem exec_iadd (f s) : exec (.iadd f) s = execIadd f s := rfl
theorem exec_isub (f s) : exec (.isub f) s = execIsub f s := rfl
theorem exec_iadd3 (f s) : exec (.iadd3 f) s = execIadd3 f s := rfl
theorem exec_imul (f s) : exec (.imul f) s = execImul f s := rfl
theorem exec_imulh (f s) : exec (.imulh f) s = execImulh f s := rfl
theorem exec_imad (f s) : exec (.imad f) s = execImad f s := rfl
theorem exec_imadWide (f s) : exec (.imadWide f) s = execImadWide f s := rfl
theorem exec_lea (f s) : exec (.lea f) s = execLea f s := rfl
theorem exec_imin (f s) : exec (.imin f) s = execImin f s := rfl
theorem exec_imax (f s) : exec (.imax f) s = execImax f s := rfl
theorem exec_iabsd (f s) : exec (.iabsd f) s = execIabsd f s := rfl
theorem exec_and (f s) : exec (.and f) s = execAnd f s := rfl
theorem exec_or (f s) : exec (.or f) s = execOr f s := rfl
theorem exec_xor (f s) : exec (.xor f) s = execXor f s := rfl
theorem exec_not (f s) : exec (.not f) s = execNot f s := rfl
theorem exec_shl (f s) : exec (.shl f) s = execShl f s := rfl
theorem exec_shr (f s) : exec (.shr f) s = execShr f s := rfl
theorem exec_sar (f s) : exec (.sar f) s = execSar f s := rfl
theorem exec_rot (f s) : exec (.rot f) s = execRot f s := rfl
theorem exec_popc (f s) : exec (.popc f) s = execPopc f s := rfl
theorem exec_clz (f s) : exec (.clz f) s = execClz f s := rfl
theorem exec_bfe (f s) : exec (.bfe f) s = execBfe f s := rfl
theorem exec_bfi (f s) : exec (.bfi f) s = execBfi f s := rfl
theorem exec_prmt (f s) : exec (.prmt f) s = execPrmt f s := rfl
theorem exec_isetp (f s) : exec (.isetp f) s = execIsetp f s := rfl
theorem exec_sel (f s) : exec (.sel f) s = execSel f s := rfl
theorem exec_mov (f s) : exec (.mov f) s = execMov f s := rfl
theorem exec_movs (f s) : exec (.movs f) s = execMovs f s := rfl
theorem exec_bcast (f s) : exec (.bcast f) s = execBcast f s := rfl
theorem exec_srd (f s) : exec (.srd f) s = execSrd f s := rfl
theorem exec_swr (f s) : exec (.swr f) s = execSwr f s := rfl
theorem exec_fadd (f s) : exec (.fadd f) s = execFadd f s := rfl
theorem exec_fmul (f s) : exec (.fmul f) s = execFmul f s := rfl
theorem exec_ffma (f s) : exec (.ffma f) s = execFfma f s := rfl
theorem exec_fmin (f s) : exec (.fmin f) s = execFmin f s := rfl
theorem exec_fmax (f s) : exec (.fmax f) s = execFmax f s := rfl
theorem exec_fsetp (f s) : exec (.fsetp f) s = execFsetp f s := rfl
theorem exec_fclass (f s) : exec (.fclass f) s = execFclass f s := rfl
theorem exec_frcp (f s) : exec (.frcp f) s = execFrcp f s := rfl
theorem exec_frsq (f s) : exec (.frsq f) s = execFrsq f s := rfl
theorem exec_fsqrt (f s) : exec (.fsqrt f) s = execFsqrt f s := rfl
theorem exec_fexp2 (f s) : exec (.fexp2 f) s = execFexp2 f s := rfl
theorem exec_flog2 (f s) : exec (.flog2 f) s = execFlog2 f s := rfl
theorem exec_fsin (f s) : exec (.fsin f) s = execFsin f s := rfl
theorem exec_fcos (f s) : exec (.fcos f) s = execFcos f s := rfl
theorem exec_dadd (f s) : exec (.dadd f) s = execDadd f s := rfl
theorem exec_dmul (f s) : exec (.dmul f) s = execDmul f s := rfl
theorem exec_dfma (f s) : exec (.dfma f) s = execDfma f s := rfl
theorem exec_hadd2 (f s) : exec (.hadd2 f) s = execHadd2 f s := rfl
theorem exec_hmul2 (f s) : exec (.hmul2 f) s = execHmul2 f s := rfl
theorem exec_hfma2 (f s) : exec (.hfma2 f) s = execHfma2 f s := rfl
theorem exec_fcvt (f s) : exec (.fcvt f) s = execFcvt f s := rfl
theorem exec_icvt (f s) : exec (.icvt f) s = execIcvt f s := rfl
theorem exec_qunpk (f s) : exec (.qunpk f) s = execQunpk f s := rfl
theorem exec_f8pk (f s) : exec (.f8pk f) s = execF8pk f s := rfl
theorem exec_pack (f s) : exec (.pack f) s = execPack f s := rfl
theorem exec_ld (f s) : exec (.ld f) s = execLd f s := rfl
theorem exec_st (f s) : exec (.st f) s = execSt f s := rfl
theorem exec_lds (f s) : exec (.lds f) s = execLds f s := rfl
theorem exec_sts (f s) : exec (.sts f) s = execSts f s := rfl
theorem exec_ldc (f s) : exec (.ldc f) s = execLdc f s := rfl
theorem exec_prefetch (f s) : exec (.prefetch f) s = execPrefetch f s := rfl
theorem exec_cctl (f s) : exec (.cctl f) s = execCctl f s := rfl
theorem exec_atom (f s) : exec (.atom f) s = execAtom f s := rfl
theorem exec_atomCas (f s) : exec (.atomCas f) s = execAtomCas f s := rfl
theorem exec_atoms (f s) : exec (.atoms f) s = execAtoms f s := rfl
theorem exec_red (f s) : exec (.red f) s = execRed f s := rfl
theorem exec_atomf (f s) : exec (.atomf f) s = execAtomf f s := rfl
theorem exec_acp (f s) : exec (.acp f) s = execAcp f s := rfl
theorem exec_acopy (f s) : exec (.acopy f) s = execAcopy f s := rfl
theorem exec_twaitany (f s) : exec (.twaitany f) s = execTwaitany f s := rfl
theorem exec_twaitall (f s) : exec (.twaitall f) s = execTwaitall f s := rfl
theorem exec_tffs (f s) : exec (.tffs f) s = execTffs f s := rfl
theorem exec_fissue (f s) : exec (.fissue f) s = execFissue f s := rfl
theorem exec_fwait (f s) : exec (.fwait f) s = execFwait f s := rfl
theorem exec_fence (f s) : exec (.fence f) s = execFence f s := rfl
theorem exec_bar (f s) : exec (.bar f) s = execBar f s := rfl
theorem exec_barG (f s) : exec (.barG f) s = execBarG f s := rfl
theorem exec_barNamed (f s) : exec (.barNamed f) s = execBarNamed f s := rfl
theorem exec_barrive (f s) : exec (.barrive f) s = execBarrive f s := rfl
theorem exec_barwait (f s) : exec (.barwait f) s = execBarwait f s := rfl
theorem exec_arrive (f s) : exec (.arrive f) s = execArrive f s := rfl
theorem exec_wait (f s) : exec (.wait f) s = execWait f s := rfl
theorem exec_nsleep (f s) : exec (.nsleep f) s = execNsleep f s := rfl
theorem exec_mma (f s) : exec (.mma f) s = execMma f s := rfl
theorem exec_mzero (f s) : exec (.mzero f) s = execMzero f s := rfl
theorem exec_mld (f s) : exec (.mld f) s = execMld f s := rfl
theorem exec_mst (f s) : exec (.mst f) s = execMst f s := rfl
theorem exec_mrd (f s) : exec (.mrd f) s = execMrd f s := rfl
theorem exec_mwr (f s) : exec (.mwr f) s = execMwr f s := rfl
theorem exec_mcvt (f s) : exec (.mcvt f) s = execMcvt f s := rfl
theorem exec_mofence (f s) : exec (.mofence f) s = execMofence f s := rfl
theorem exec_mwait (f s) : exec (.mwait f) s = execMwait f s := rfl
theorem exec_mdrain (f s) : exec (.mdrain f) s = execMdrain f s := rfl
theorem exec_mfill (f s) : exec (.mfill f) s = execMfill f s := rfl
theorem exec_mresume (f s) : exec (.mresume f) s = execMresume f s := rfl
theorem exec_tspawn (f s) : exec (.tspawn f) s = execTspawn f s := rfl
theorem exec_tarm (f s) : exec (.tarm f) s = execTarm f s := rfl
theorem exec_tdec (f s) : exec (.tdec f) s = execTdec f s := rfl
theorem exec_tdone (f s) : exec (.tdone f) s = execTdone f s := rfl
theorem exec_tlaunch (f s) : exec (.tlaunch f) s = execTlaunch f s := rfl
theorem exec_tget (f s) : exec (.tget f) s = execTget f s := rfl
theorem exec_scall (f s) : exec (.scall f) s = execScall f s := rfl
theorem exec_trap (f s) : exec (.trap f) s = execTrap f s := rfl
theorem exec_bkpt (f s) : exec (.bkpt f) s = execBkpt f s := rfl
theorem exec_uiret (f s) : exec (.uiret f) s = execUiret f s := rfl
theorem exec_uimask (f s) : exec (.uimask f) s = execUimask f s := rfl
theorem exec_npbegin (f s) : exec (.npbegin f) s = execNpbegin f s := rfl
theorem exec_npend (f s) : exec (.npend f) s = execNpend f s := rfl
theorem exec_grow (f s) : exec (.grow f) s = execGrow f s := rfl
theorem exec_carve (f s) : exec (.carve f) s = execCarve f s := rfl
theorem exec_ckpt (f s) : exec (.ckpt f) s = execCkpt f s := rfl
theorem exec_tstampr (f s) : exec (.tstampr f) s = execTstampr f s := rfl
theorem exec_gsave (f s) : exec (.gsave f) s = execGsave f s := rfl
theorem exec_grest (f s) : exec (.grest f) s = execGrest f s := rfl
theorem exec_zmsgLaunch (h shard pa s) : exec (.zmsgLaunch h shard pa) s = execZmsgLaunch h shard pa s := rfl
theorem exec_registerWrite (a r v s) : exec (.registerWrite a r v) s = execRegisterWrite a r v s := rfl
theorem exec_homeRead (q s) : exec (.homeRead q) s = execHomeRead q s := rfl
theorem exec_homeWrite (q s) : exec (.homeWrite q) s = execHomeWrite q s := rfl
theorem exec_homeAtomic (q s) : exec (.homeAtomic q) s = execHomeAtomic q s := rfl
theorem exec_ringStallRelease (home s) : exec (.ringStallRelease home) s = execRingStallRelease home s := rfl
theorem exec_homeLineFill (pa bank e s) : exec (.homeLineFill pa bank e) s = execHomeLineFill pa bank e s := rfl
theorem exec_leakyBucketLeak (s) : exec .leakyBucketLeak s = execLeakyBucketLeak s := rfl
theorem exec_loadResponse (acc s) : exec (.loadResponse acc) s = execLoadResponse acc s := rfl
theorem exec_scratchpadArbitration (core corr errs s) : exec (.scratchpadArbitration core corr errs) s = execScratchpadArbitration core corr errs s := rfl
theorem exec_fwinDropComplete (n s) : exec (.fwinDropComplete n) s = execFwinDropComplete n s := rfl
theorem exec_waitCheck (slot s) : exec (.waitCheck slot) s = execWaitCheck slot s := rfl
theorem exec_wakeArrival (i s) : exec (.wakeArrival i) s = execWakeArrival i s := rfl
theorem exec_monitorTimeout (sp home i s) : exec (.monitorTimeout sp home i) s = execMonitorTimeout sp home i s := rfl
theorem exec_waitWithdraw (slot s) : exec (.waitWithdraw slot) s = execWaitWithdraw slot s := rfl
theorem exec_nsleepExpiry (slot s) : exec (.nsleepExpiry slot) s = execNsleepExpiry slot s := rfl
theorem exec_clockGate (core s) : exec (.clockGate core) s = execClockGate core s := rfl
theorem exec_serviceArmCheck (i s) : exec (.serviceArmCheck i) s = execServiceArmCheck i s := rfl
theorem exec_missMergeAdmit (cl s) : exec (.missMergeAdmit cl) s = execMissMergeAdmit cl s := rfl
theorem exec_walkStep (cl asid page s) : exec (.walkStep cl asid page) s = execWalkStep cl asid page s := rfl
theorem exec_firstTouchCasResult (cl asid page s) : exec (.firstTouchCasResult cl asid page) s = execFirstTouchCasResult cl asid page s := rfl
theorem exec_shadowAdd (i s) : exec (.shadowAdd i) s = execShadowAdd i s := rfl
theorem exec_shootdownComplete (c t s) : exec (.shootdownComplete c t) s = execShootdownComplete c t s := rfl
theorem exec_faultQueueAdmit (cl s) : exec (.faultQueueAdmit cl) s = execFaultQueueAdmit cl s := rfl
theorem exec_fltackRetry (a r v s) : exec (.fltackRetry a r v) s = execFltackRetry a r v s := rfl
theorem exec_fltackDeliver (a r v s) : exec (.fltackDeliver a r v) s = execFltackDeliver a r v s := rfl
theorem exec_memcapLowerSettle (s) : exec .memcapLowerSettle s = execMemcapLowerSettle s := rfl
theorem exec_mphaseGo (a r v s) : exec (.mphaseGo a r v) s = execMphaseGo a r v s := rfl
theorem exec_migrationEnterDone (s) : exec .migrationEnterDone s = execMigrationEnterDone s := rfl
theorem exec_migrateGranule (s) : exec .migrateGranule s = execMigrateGranule s := rfl
theorem exec_granuleDrained (failed s) : exec (.granuleDrained failed) s = execGranuleDrained failed s := rfl
theorem exec_granuleHandover (s) : exec .granuleHandover s = execGranuleHandover s := rfl
theorem exec_migrationIdleExpiry (s) : exec .migrationIdleExpiry s = execMigrationIdleExpiry s := rfl
theorem exec_migrationCloseDone (s) : exec .migrationCloseDone s = execMigrationCloseDone s := rfl
theorem exec_movedReplay (acc i s) : exec (.movedReplay acc i) s = execMovedReplay acc i s := rfl
theorem exec_issueSelect (p s) : exec (.issueSelect p) s = execIssueSelect p s := rfl
theorem exec_runEnd (slot s) : exec (.runEnd slot) s = execRunEnd slot s := rfl
theorem exec_runmaxMarker (slot s) : exec (.runmaxMarker slot) s = execRunmaxMarker slot s := rfl
theorem exec_resultsDrained (slot s) : exec (.resultsDrained slot) s = execResultsDrained slot s := rfl
theorem exec_saveRoutineStart (slot s) : exec (.saveRoutineStart slot) s = execSaveRoutineStart slot s := rfl
theorem exec_teamPlace (restore id s) : exec (.teamPlace restore id) s = execTeamPlace restore id s := rfl
theorem exec_launchReserve (la s) : exec (.launchReserve la) s = execLaunchReserve la s := rfl
theorem exec_teamRetire (tm s) : exec (.teamRetire tm) s = execTeamRetire tm s := rfl
theorem exec_taskServerRequest (cl rcb s) : exec (.taskServerRequest cl rcb) s = execTaskServerRequest cl rcb s := rfl
theorem exec_nopreemptOverrun (slot s) : exec (.nopreemptOverrun slot) s = execNopreemptOverrun slot s := rfl
theorem exec_growGrant (core s) : exec (.growGrant core) s = execGrowGrant core s := rfl
theorem exec_growTimeout (slot s) : exec (.growTimeout slot) s = execGrowTimeout slot s := rfl
theorem exec_cvTimeout (tm n s) : exec (.cvTimeout tm n) s = execCvTimeout tm n s := rfl
theorem exec_copyPiece (id i data st s) : exec (.copyPiece id i data st) s = execCopyPiece id i data st s := rfl
theorem exec_copyComplete (id s) : exec (.copyComplete id) s = execCopyComplete id s := rfl
theorem exec_atomfForward (acc l s) : exec (.atomfForward acc l) s = execAtomfForward acc l s := rfl
theorem exec_fenceTokenComplete (slot tok s) : exec (.fenceTokenComplete slot tok) s = execFenceTokenComplete slot tok s := rfl
theorem exec_matrixOpStart (core s) : exec (.matrixOpStart core) s = execMatrixOpStart core s := rfl
theorem exec_mmaRow (core s) : exec (.mmaRow core) s = execMmaRow core s := rfl
theorem exec_tileOpComplete (core id s) : exec (.tileOpComplete core id) s = execTileOpComplete core id s := rfl
theorem exec_counterArm (id s) : exec (.counterArm id) s = execCounterArm id s := rfl
theorem exec_counterDecrement (id s) : exec (.counterDecrement id) s = execCounterDecrement id s := rfl
theorem exec_launchPortLaunch (a r v s) : exec (.launchPortLaunch a r v) s = execLaunchPortLaunch a r v s := rfl
theorem exec_preqWrite (a r v s) : exec (.preqWrite a r v) s = execPreqWrite a r v s := rfl
theorem exec_callSlotAssign (cl s) : exec (.callSlotAssign cl) s = execCallSlotAssign cl s := rfl
theorem exec_callReplyResume (cl k s) : exec (.callReplyResume cl k) s = execCallReplyResume cl k s := rfl
theorem exec_memAlloc (cl k l base s) : exec (.memAlloc cl k l base) s = execMemAlloc cl k l base s := rfl
theorem exec_memInfo (cl k l s) : exec (.memInfo cl k l) s = execMemInfo cl k l s := rfl
theorem exec_mailboxSend (sender shard ty sq body s) : exec (.mailboxSend sender shard ty sq body) s = execMailboxSend sender shard ty sq body s := rfl
theorem exec_mailboxReceive (shard s) : exec (.mailboxReceive shard) s = execMailboxReceive shard s := rfl
theorem exec_pairScbCompare (tm gidx s) : exec (.pairScbCompare tm gidx) s = execPairScbCompare tm gidx s := rfl
theorem exec_pairSideEffect (tm gidx s) : exec (.pairSideEffect tm gidx) s = execPairSideEffect tm gidx s := rfl
theorem exec_teamCheckpoint (tm s) : exec (.teamCheckpoint tm) s = execTeamCheckpoint tm s := rfl
theorem exec_pairMismatch (tm s) : exec (.pairMismatch tm) s = execPairMismatch tm s := rfl
theorem exec_pairinjArm (a r v s) : exec (.pairinjArm a r v) s = execPairinjArm a r v s := rfl
theorem exec_containedDiscard (tm s) : exec (.containedDiscard tm) s = execContainedDiscard tm s := rfl
theorem exec_heartbeatSend (s) : exec .heartbeatSend s = execHeartbeatSend s := rfl
theorem exec_heartbeatTimeout (k s) : exec (.heartbeatTimeout k) s = execHeartbeatTimeout k s := rfl
theorem exec_doorbellDeliver (c s) : exec (.doorbellDeliver c) s = execDoorbellDeliver c s := rfl
theorem exec_regionTimerFire (rcb idx s) : exec (.regionTimerFire rcb idx) s = execRegionTimerFire rcb idx s := rfl
theorem exec_domainResetComplete (d s) : exec (.domainResetComplete d) s = execDomainResetComplete d s := rfl
theorem exec_packageReset (s) : exec .packageReset s = execPackageReset s := rfl
theorem exec_hbmTrainingComplete (k ok s) : exec (.hbmTrainingComplete k ok) s = execHbmTrainingComplete k ok s := rfl
theorem exec_bootstatStageWrite (a r v s) : exec (.bootstatStageWrite a r v) s = execBootstatStageWrite a r v s := rfl
theorem exec_bootstatOkWrite (a r v s) : exec (.bootstatOkWrite a r v) s = execBootstatOkWrite a r v s := rfl
theorem exec_measure (h s) : exec (.measure h) s = execMeasure h s := rfl
theorem exec_attest (nonce s) : exec (.attest nonce) s = execAttest nonce s := rfl
theorem exec_ccbootRun (a r v s) : exec (.ccbootRun a r v) s = execCcbootRun a r v s := rfl
theorem exec_zmsgMsgSend (h shard pa s) : exec (.zmsgMsgSend h shard pa) s = execZmsgMsgSend h shard pa s := rfl
theorem exec_parityRowRecompute (core tm row g s) : exec (.parityRowRecompute core tm row g) s = execParityRowRecompute core tm row g s := rfl
theorem exec_fwinEnable (a r v s) : exec (.fwinEnable a r v) s = execFwinEnable a r v s := rfl
theorem exec_fwinDisable (a r v s) : exec (.fwinDisable a r v) s = execFwinDisable a r v s := rfl
theorem exec_peerRequest (p k pa n data op ty s) : exec (.peerRequest p k pa n data op ty) s = execPeerRequest p k pa n data op ty s := rfl
theorem exec_grptrHeadWrite (a r v s) : exec (.grptrHeadWrite a r v) s = execGrptrHeadWrite a r v s := rfl
theorem exec_glcmdWake (a r v s) : exec (.glcmdWake a r v) s = execGlcmdWake a r v s := rfl
theorem exec_glcmdTimeout (a r v s) : exec (.glcmdTimeout a r v) s = execGlcmdTimeout a r v s := rfl
theorem exec_glcmdRestart (a r v s) : exec (.glcmdRestart a r v) s = execGlcmdRestart a r v s := rfl
theorem exec_monarmArm (a r v s) : exec (.monarmArm a r v) s = execMonarmArm a r v s := rfl
theorem exec_monarmDisarm (a r v s) : exec (.monarmDisarm a r v) s = execMonarmDisarm a r v s := rfl
theorem exec_tlbinvAll (a r v s) : exec (.tlbinvAll a r v) s = execTlbinvAll a r v s := rfl
theorem exec_tlbinvAsid (a r v s) : exec (.tlbinvAsid a r v) s = execTlbinvAsid a r v s := rfl
theorem exec_tlbinvPage (a r v s) : exec (.tlbinvPage a r v) s = execTlbinvPage a r v s := rfl
theorem exec_fltackEndDomain (a r v s) : exec (.fltackEndDomain a r v) s = execFltackEndDomain a r v s := rfl
theorem exec_fqptrHeadWrite (a r v s) : exec (.fqptrHeadWrite a r v) s = execFqptrHeadWrite a r v s := rfl
theorem exec_memcapRaise (a r v s) : exec (.memcapRaise a r v) s = execMemcapRaise a r v s := rfl
theorem exec_memcapLower (a r v s) : exec (.memcapLower a r v) s = execMemcapLower a r v s := rfl
theorem exec_stackmapRetireWrite (a r v s) : exec (.stackmapRetireWrite a r v) s = execStackmapRetireWrite a r v s := rfl
theorem exec_migwordWrite (a r v s) : exec (.migwordWrite a r v) s = execMigwordWrite a r v s := rfl
theorem exec_stackDead (k s) : exec (.stackDead k) s = execStackDead k s := rfl
theorem exec_launchPortRestore (a r v s) : exec (.launchPortRestore a r v) s = execLaunchPortRestore a r v s := rfl
theorem exec_uisendWrite (a r v s) : exec (.uisendWrite a r v) s = execUisendWrite a r v s := rfl
theorem exec_mchkRead (h m n s) : exec (.mchkRead h m n) s = execMchkRead h m n s := rfl
theorem exec_contextWindowAccess (c k r s) : exec (.contextWindowAccess c k r) s = execContextWindowAccess c k r s := rfl
theorem exec_callPageAccess (k r s) : exec (.callPageAccess k r) s = execCallPageAccess k r s := rfl
theorem exec_callStatus (cl k l oldest s) : exec (.callStatus cl k l oldest) s = execCallStatus cl k l oldest s := rfl
theorem exec_memFree (cl k l s) : exec (.memFree cl k l) s = execMemFree cl k l s := rfl
theorem exec_memProtect (cl k l st s) : exec (.memProtect cl k l st) s = execMemProtect cl k l st s := rfl
theorem exec_fileRead (cl k l st data s) : exec (.fileRead cl k l st data) s = execFileRead cl k l st data s := rfl
theorem exec_fileWrite (cl k l st n s) : exec (.fileWrite cl k l st n) s = execFileWrite cl k l st n s := rfl
theorem exec_fileSync (cl k l st s) : exec (.fileSync cl k l st) s = execFileSync cl k l st s := rfl
theorem exec_udpSend (cl k l st n s) : exec (.udpSend cl k l st n) s = execUdpSend cl k l st n s := rfl
theorem exec_udpRecv (cl k l st data s) : exec (.udpRecv cl k l st data) s = execUdpRecv cl k l st data s := rfl
theorem exec_rdgSend (cl k l st n s) : exec (.rdgSend cl k l st n) s = execRdgSend cl k l st n s := rfl
theorem exec_rdgRecv (cl k l st data s) : exec (.rdgRecv cl k l st data) s = execRdgRecv cl k l st data s := rfl
theorem exec_ctrlNotify (cl k l st s) : exec (.ctrlNotify cl k l st) s = execCtrlNotify cl k l st s := rfl
theorem exec_uiSend (cl k l s) : exec (.uiSend cl k l) s = execUiSend cl k l s := rfl
theorem exec_handleInfo (cl k l st data s) : exec (.handleInfo cl k l st data) s = execHandleInfo cl k l st data s := rfl
theorem exec_svcqResume (cl k l s) : exec (.svcqResume cl k l) s = execSvcqResume cl k l s := rfl
theorem exec_shardRestart (cl s) : exec (.shardRestart cl) s = execShardRestart cl s := rfl
theorem exec_linkFlitReceive (k lane seq c f s) : exec (.linkFlitReceive k lane seq c f) s = execLinkFlitReceive k lane seq c f s := rfl
theorem exec_linkRetrain (k rs s) : exec (.linkRetrain k rs) s = execLinkRetrain k rs s := rfl
theorem exec_linkRetrainDone (k ok rs s) : exec (.linkRetrainDone k ok rs) s = execLinkRetrainDone k ok rs s := rfl
theorem exec_heartbeatReceive (p pos s) : exec (.heartbeatReceive p pos) s = execHeartbeatReceive p pos s := rfl
theorem exec_peerwinFencedClear (a r v s) : exec (.peerwinFencedClear a r v) s = execPeerwinFencedClear a r v s := rfl
theorem exec_msiDoorbell (c x s) : exec (.msiDoorbell c x) s = execMsiDoorbell c x s := rfl
theorem exec_pcieCompletion (q k data s) : exec (.pcieCompletion q k data) s = execPcieCompletion q k data s := rfl
theorem exec_pcieCompletionTimeout (q k s) : exec (.pcieCompletionTimeout q k) s = execPcieCompletionTimeout q k s := rfl
theorem exec_pcieInboundWrite (f pa data fault s) : exec (.pcieInboundWrite f pa data fault) s = execPcieInboundWrite f pa data fault s := rfl
theorem exec_pcieInboundRead (port pa n fault s) : exec (.pcieInboundRead port pa n fault) s = execPcieInboundRead port pa n fault s := rfl
theorem exec_nvmeCompletion (q pa n s) : exec (.nvmeCompletion q pa n) s = execNvmeCompletion q pa n s := rfl
theorem exec_ethFrameReceive (port tuple hash pa data cw s) : exec (.ethFrameReceive port tuple hash pa data cw) s = execEthFrameReceive port tuple hash pa data cw s := rfl
theorem exec_pmsgSend (a r v s) : exec (.pmsgSend a r v) s = execPmsgSend a r v s := rfl
theorem exec_peerMessageReceive (p shard src pos w0 body s) : exec (.peerMessageReceive p shard src pos w0 body) s = execPeerMessageReceive p shard src pos w0 body s := rfl
theorem exec_pmsgAck (p s) : exec (.pmsgAck p) s = execPmsgAck p s := rfl
theorem exec_tmrsyncLoad (a r v s) : exec (.tmrsyncLoad a r v) s = execTmrsyncLoad a r v s := rfl
theorem exec_domainReset (a r v s) : exec (.domainReset a r v) s = execDomainReset a r v s := rfl
theorem exec_throttleStep (power temps s) : exec (.throttleStep power temps) s = execThrottleStep power temps s := rfl
theorem exec_thermalShutdown (d temp s) : exec (.thermalShutdown d temp) s = execThermalShutdown d temp s := rfl
theorem exec_clpwrWrite (a r v s) : exec (.clpwrWrite a r v) s = execClpwrWrite a r v s := rfl
theorem exec_linkTrained (k s) : exec (.linkTrained k) s = execLinkTrained k s := rfl
theorem exec_aplicWiredSource (source level file id s) : exec (.aplicWiredSource source level file id) s = execAplicWiredSource source level file id s := rfl
theorem exec_inFieldTest (cl w s) : exec (.inFieldTest cl w) s = execInFieldTest cl w s := rfl

end Sys2Proof.Machine
end

