-- ==== Sys2Proof/Laws/PerInstr.lean ====
section
/-! SUPPORT. For each instruction: its opcode and FUNC name it (R216), so that decoding the fields that its encoder writes gives it back; an event of another agent has no encoding. One lemma for each constructor. -/

namespace Sys2Proof.Laws.Encoding

open Sys2Proof

/-- OP and FUNC of an instruction name it, and no other; an event has no words. -/
def Statement (i : Instr) : Prop :=
  match i.spec, i.enc with
  | some p, some e => p.func = true → Instr.ofOp p.op.toNat e = some i ∧ opAssigned p.op e.func = true
  | _, _ => encode i = []

/-- An opcode whose every FUNC value reads as one instruction is assigned where that instruction accepts FUNC. -/
theorem assigned {op func : BitVec 8} {i : Instr} {p : OpSpec} (h : Instr.ofOp op.toNat (Enc.probe func) = some i) (hp : i.spec = some p)
    (hf : p.func = true) : opAssigned op func = true := by
  unfold opAssigned
  rw [h]
  show (i.spec.map OpSpec.func).getD false = true
  rw [hp]
  exact hf

theorem nop (e : Enc) : Statement (.nop e) := fun h => ⟨rfl, assigned (i := .nop (Enc.probe e.func)) rfl rfl h⟩
theorem bra (e : Enc) : Statement (.bra e) := fun h => ⟨rfl, assigned (i := .bra (Enc.probe e.func)) rfl rfl h⟩
theorem bru (e : Enc) : Statement (.bru e) := fun h => ⟨rfl, assigned (i := .bru (Enc.probe e.func)) rfl rfl h⟩
theorem brx (e : Enc) : Statement (.brx e) := fun h => ⟨rfl, assigned (i := .brx (Enc.probe e.func)) rfl rfl h⟩
theorem call (e : Enc) : Statement (.call e) := fun h => ⟨rfl, assigned (i := .call (Enc.probe e.func)) rfl rfl h⟩
theorem callx (e : Enc) : Statement (.callx e) := fun h => ⟨rfl, assigned (i := .callx (Enc.probe e.func)) rfl rfl h⟩
theorem ret (e : Enc) : Statement (.ret e) := fun h => ⟨rfl, assigned (i := .ret (Enc.probe e.func)) rfl rfl h⟩
theorem exit (e : Enc) : Statement (.exit e) := fun h => ⟨rfl, assigned (i := .exit (Enc.probe e.func)) rfl rfl h⟩
theorem yield (e : Enc) : Statement (.yield e) := fun h => ⟨rfl, assigned (i := .yield (Enc.probe e.func)) rfl rfl h⟩
theorem voteMask (e : Enc) : Statement (.voteMask e) := by
  intro h
  have hf : e.func = 0 := of_decide_eq_true h
  have r (x : Enc) (hx : x.func = 0) : Instr.ofOp 0x0A x = some (.voteMask x) := by
    unfold Instr.ofOp
    rw [hx]
    rfl
  exact ⟨r e hf, assigned (r (Enc.probe e.func) hf) rfl h⟩

theorem voteSome (e : Enc) : Statement (.voteSome e) := by
  intro h
  have hf : e.func = 1 := of_decide_eq_true h
  have r (x : Enc) (hx : x.func = 1) : Instr.ofOp 0x0A x = some (.voteSome x) := by
    unfold Instr.ofOp
    rw [hx]
    rfl
  exact ⟨r e hf, assigned (r (Enc.probe e.func) hf) rfl h⟩

theorem voteEvery (e : Enc) : Statement (.voteEvery e) := by
  intro h
  have hf : e.func = 2 := of_decide_eq_true h
  have r (x : Enc) (hx : x.func = 2) : Instr.ofOp 0x0A x = some (.voteEvery x) := by
    unfold Instr.ofOp
    rw [hx]
    rfl
  exact ⟨r e hf, assigned (r (Enc.probe e.func) hf) rfl h⟩

theorem voteSame (e : Enc) : Statement (.voteSame e) := by
  intro h
  have hf : e.func = 3 := of_decide_eq_true h
  have r (x : Enc) (hx : x.func = 3) : Instr.ofOp 0x0A x = some (.voteSame x) := by
    unfold Instr.ofOp
    rw [hx]
    rfl
  exact ⟨r e hf, assigned (r (Enc.probe e.func) hf) rfl h⟩

theorem voteCount (e : Enc) : Statement (.voteCount e) := by
  intro h
  have hf : e.func = 4 := of_decide_eq_true h
  have r (x : Enc) (hx : x.func = 4) : Instr.ofOp 0x0A x = some (.voteCount x) := by
    unfold Instr.ofOp
    rw [hx]
    rfl
  exact ⟨r e hf, assigned (r (Enc.probe e.func) hf) rfl h⟩

theorem shflLane (e : Enc) : Statement (.shflLane e) := by
  intro h
  have hf : e.func = 0 := of_decide_eq_true h
  have r (x : Enc) (hx : x.func = 0) : Instr.ofOp 0x0B x = some (.shflLane x) := by
    unfold Instr.ofOp
    rw [hx]
    rfl
  exact ⟨r e hf, assigned (r (Enc.probe e.func) hf) rfl h⟩

theorem shflBack (e : Enc) : Statement (.shflBack e) := by
  intro h
  have hf : e.func = 1 := of_decide_eq_true h
  have r (x : Enc) (hx : x.func = 1) : Instr.ofOp 0x0B x = some (.shflBack x) := by
    unfold Instr.ofOp
    rw [hx]
    rfl
  exact ⟨r e hf, assigned (r (Enc.probe e.func) hf) rfl h⟩

theorem shflFwd (e : Enc) : Statement (.shflFwd e) := by
  intro h
  have hf : e.func = 2 := of_decide_eq_true h
  have r (x : Enc) (hx : x.func = 2) : Instr.ofOp 0x0B x = some (.shflFwd x) := by
    unfold Instr.ofOp
    rw [hx]
    rfl
  exact ⟨r e hf, assigned (r (Enc.probe e.func) hf) rfl h⟩

theorem shflMix (e : Enc) : Statement (.shflMix e) := by
  intro h
  have hf : e.func = 3 := of_decide_eq_true h
  have r (x : Enc) (hx : x.func = 3) : Instr.ofOp 0x0B x = some (.shflMix x) := by
    unfold Instr.ofOp
    rw [hx]
    rfl
  exact ⟨r e hf, assigned (r (Enc.probe e.func) hf) rfl h⟩

theorem shflRot (e : Enc) : Statement (.shflRot e) := by
  intro h
  have hf : e.func = 4 := of_decide_eq_true h
  have r (x : Enc) (hx : x.func = 4) : Instr.ofOp 0x0B x = some (.shflRot x) := by
    unfold Instr.ofOp
    rw [hx]
    rfl
  exact ⟨r e hf, assigned (r (Enc.probe e.func) hf) rfl h⟩

theorem elect (e : Enc) : Statement (.elect e) := by
  intro h
  have hf : e.func = 0 := of_decide_eq_true h
  have r (x : Enc) (hx : x.func = 0) : Instr.ofOp 0x0C x = some (.elect x) := by
    unfold Instr.ofOp
    rw [hx]
    rfl
  exact ⟨r e hf, assigned (r (Enc.probe e.func) hf) rfl h⟩

theorem electHi (e : Enc) : Statement (.electHi e) := by
  intro h
  have hf : e.func = 1 := of_decide_eq_true h
  have r (x : Enc) (hx : x.func = 1) : Instr.ofOp 0x0C x = some (.electHi x) := by
    unfold Instr.ofOp
    rw [hx]
    rfl
  exact ⟨r e hf, assigned (r (Enc.probe e.func) hf) rfl h⟩

theorem matchPeers (e : Enc) : Statement (.matchPeers e) := by
  intro h
  have hf : e.func = 0 := of_decide_eq_true h
  have r (x : Enc) (hx : x.func = 0) : Instr.ofOp 0x0D x = some (.matchPeers x) := by
    unfold Instr.ofOp
    rw [hx]
    rfl
  exact ⟨r e hf, assigned (r (Enc.probe e.func) hf) rfl h⟩

theorem matchUniform (e : Enc) : Statement (.matchUniform e) := by
  intro h
  have hf : e.func = 1 := of_decide_eq_true h
  have r (x : Enc) (hx : x.func = 1) : Instr.ofOp 0x0D x = some (.matchUniform x) := by
    unfold Instr.ofOp
    rw [hx]
    rfl
  exact ⟨r e hf, assigned (r (Enc.probe e.func) hf) rfl h⟩

theorem cvset (e : Enc) : Statement (.cvset e) := fun h => ⟨rfl, assigned (i := .cvset (Enc.probe e.func)) rfl rfl h⟩
theorem sign (e : Enc) : Statement (.sign e) := fun h => ⟨rfl, assigned (i := .sign (Enc.probe e.func)) rfl rfl h⟩
theorem cvwait (e : Enc) : Statement (.cvwait e) := fun h => ⟨rfl, assigned (i := .cvwait (Enc.probe e.func)) rfl rfl h⟩
theorem iadd (e : Enc) : Statement (.iadd e) := fun h => ⟨rfl, assigned (i := .iadd (Enc.probe e.func)) rfl rfl h⟩
theorem isub (e : Enc) : Statement (.isub e) := fun h => ⟨rfl, assigned (i := .isub (Enc.probe e.func)) rfl rfl h⟩
theorem iadd3 (e : Enc) : Statement (.iadd3 e) := fun h => ⟨rfl, assigned (i := .iadd3 (Enc.probe e.func)) rfl rfl h⟩
theorem imul (e : Enc) : Statement (.imul e) := fun h => ⟨rfl, assigned (i := .imul (Enc.probe e.func)) rfl rfl h⟩
theorem imulh (e : Enc) : Statement (.imulh e) := fun h => ⟨rfl, assigned (i := .imulh (Enc.probe e.func)) rfl rfl h⟩
theorem imad (e : Enc) : Statement (.imad e) := by
  intro h
  have hf : e.func = 0 := of_decide_eq_true h
  have r (x : Enc) (hx : x.func = 0) : Instr.ofOp 0x25 x = some (.imad x) := by
    unfold Instr.ofOp
    rw [hx]
    rfl
  exact ⟨r e hf, assigned (r (Enc.probe e.func) hf) rfl h⟩

theorem imadWide (e : Enc) : Statement (.imadWide e) := by
  intro h
  have hf : e.func = 1 := of_decide_eq_true h
  have r (x : Enc) (hx : x.func = 1) : Instr.ofOp 0x25 x = some (.imadWide x) := by
    unfold Instr.ofOp
    rw [hx]
    rfl
  exact ⟨r e hf, assigned (r (Enc.probe e.func) hf) rfl h⟩

theorem lea (e : Enc) : Statement (.lea e) := fun h => ⟨rfl, assigned (i := .lea (Enc.probe e.func)) rfl rfl h⟩
theorem imin (e : Enc) : Statement (.imin e) := fun h => ⟨rfl, assigned (i := .imin (Enc.probe e.func)) rfl rfl h⟩
theorem imax (e : Enc) : Statement (.imax e) := fun h => ⟨rfl, assigned (i := .imax (Enc.probe e.func)) rfl rfl h⟩
theorem iabsd (e : Enc) : Statement (.iabsd e) := fun h => ⟨rfl, assigned (i := .iabsd (Enc.probe e.func)) rfl rfl h⟩
theorem and (e : Enc) : Statement (.and e) := fun h => ⟨rfl, assigned (i := .and (Enc.probe e.func)) rfl rfl h⟩
theorem or (e : Enc) : Statement (.or e) := fun h => ⟨rfl, assigned (i := .or (Enc.probe e.func)) rfl rfl h⟩
theorem xor (e : Enc) : Statement (.xor e) := fun h => ⟨rfl, assigned (i := .xor (Enc.probe e.func)) rfl rfl h⟩
theorem not (e : Enc) : Statement (.not e) := fun h => ⟨rfl, assigned (i := .not (Enc.probe e.func)) rfl rfl h⟩
theorem shl (e : Enc) : Statement (.shl e) := fun h => ⟨rfl, assigned (i := .shl (Enc.probe e.func)) rfl rfl h⟩
theorem shr (e : Enc) : Statement (.shr e) := fun h => ⟨rfl, assigned (i := .shr (Enc.probe e.func)) rfl rfl h⟩
theorem sar (e : Enc) : Statement (.sar e) := fun h => ⟨rfl, assigned (i := .sar (Enc.probe e.func)) rfl rfl h⟩
theorem rot (e : Enc) : Statement (.rot e) := fun h => ⟨rfl, assigned (i := .rot (Enc.probe e.func)) rfl rfl h⟩
theorem popc (e : Enc) : Statement (.popc e) := fun h => ⟨rfl, assigned (i := .popc (Enc.probe e.func)) rfl rfl h⟩
theorem clz (e : Enc) : Statement (.clz e) := fun h => ⟨rfl, assigned (i := .clz (Enc.probe e.func)) rfl rfl h⟩
theorem bfe (e : Enc) : Statement (.bfe e) := fun h => ⟨rfl, assigned (i := .bfe (Enc.probe e.func)) rfl rfl h⟩
theorem bfi (e : Enc) : Statement (.bfi e) := fun h => ⟨rfl, assigned (i := .bfi (Enc.probe e.func)) rfl rfl h⟩
theorem prmt (e : Enc) : Statement (.prmt e) := fun h => ⟨rfl, assigned (i := .prmt (Enc.probe e.func)) rfl rfl h⟩
theorem isetp (e : Enc) : Statement (.isetp e) := fun h => ⟨rfl, assigned (i := .isetp (Enc.probe e.func)) rfl rfl h⟩
theorem sel (e : Enc) : Statement (.sel e) := fun h => ⟨rfl, assigned (i := .sel (Enc.probe e.func)) rfl rfl h⟩
theorem mov (e : Enc) : Statement (.mov e) := fun h => ⟨rfl, assigned (i := .mov (Enc.probe e.func)) rfl rfl h⟩
theorem movs (e : Enc) : Statement (.movs e) := fun h => ⟨rfl, assigned (i := .movs (Enc.probe e.func)) rfl rfl h⟩
theorem bcast (e : Enc) : Statement (.bcast e) := fun h => ⟨rfl, assigned (i := .bcast (Enc.probe e.func)) rfl rfl h⟩
theorem srd (e : Enc) : Statement (.srd e) := fun h => ⟨rfl, assigned (i := .srd (Enc.probe e.func)) rfl rfl h⟩
theorem swr (e : Enc) : Statement (.swr e) := fun h => ⟨rfl, assigned (i := .swr (Enc.probe e.func)) rfl rfl h⟩
theorem fadd (e : Enc) : Statement (.fadd e) := fun h => ⟨rfl, assigned (i := .fadd (Enc.probe e.func)) rfl rfl h⟩
theorem fmul (e : Enc) : Statement (.fmul e) := fun h => ⟨rfl, assigned (i := .fmul (Enc.probe e.func)) rfl rfl h⟩
theorem ffma (e : Enc) : Statement (.ffma e) := fun h => ⟨rfl, assigned (i := .ffma (Enc.probe e.func)) rfl rfl h⟩
theorem fmin (e : Enc) : Statement (.fmin e) := fun h => ⟨rfl, assigned (i := .fmin (Enc.probe e.func)) rfl rfl h⟩
theorem fmax (e : Enc) : Statement (.fmax e) := fun h => ⟨rfl, assigned (i := .fmax (Enc.probe e.func)) rfl rfl h⟩
theorem fsetp (e : Enc) : Statement (.fsetp e) := fun h => ⟨rfl, assigned (i := .fsetp (Enc.probe e.func)) rfl rfl h⟩
theorem fclass (e : Enc) : Statement (.fclass e) := fun h => ⟨rfl, assigned (i := .fclass (Enc.probe e.func)) rfl rfl h⟩
theorem frcp (e : Enc) : Statement (.frcp e) := fun h => ⟨rfl, assigned (i := .frcp (Enc.probe e.func)) rfl rfl h⟩
theorem frsq (e : Enc) : Statement (.frsq e) := fun h => ⟨rfl, assigned (i := .frsq (Enc.probe e.func)) rfl rfl h⟩
theorem fsqrt (e : Enc) : Statement (.fsqrt e) := fun h => ⟨rfl, assigned (i := .fsqrt (Enc.probe e.func)) rfl rfl h⟩
theorem fexp2 (e : Enc) : Statement (.fexp2 e) := fun h => ⟨rfl, assigned (i := .fexp2 (Enc.probe e.func)) rfl rfl h⟩
theorem flog2 (e : Enc) : Statement (.flog2 e) := fun h => ⟨rfl, assigned (i := .flog2 (Enc.probe e.func)) rfl rfl h⟩
theorem fsin (e : Enc) : Statement (.fsin e) := fun h => ⟨rfl, assigned (i := .fsin (Enc.probe e.func)) rfl rfl h⟩
theorem fcos (e : Enc) : Statement (.fcos e) := fun h => ⟨rfl, assigned (i := .fcos (Enc.probe e.func)) rfl rfl h⟩
theorem dadd (e : Enc) : Statement (.dadd e) := fun h => ⟨rfl, assigned (i := .dadd (Enc.probe e.func)) rfl rfl h⟩
theorem dmul (e : Enc) : Statement (.dmul e) := fun h => ⟨rfl, assigned (i := .dmul (Enc.probe e.func)) rfl rfl h⟩
theorem dfma (e : Enc) : Statement (.dfma e) := fun h => ⟨rfl, assigned (i := .dfma (Enc.probe e.func)) rfl rfl h⟩
theorem hadd2 (e : Enc) : Statement (.hadd2 e) := fun h => ⟨rfl, assigned (i := .hadd2 (Enc.probe e.func)) rfl rfl h⟩
theorem hmul2 (e : Enc) : Statement (.hmul2 e) := fun h => ⟨rfl, assigned (i := .hmul2 (Enc.probe e.func)) rfl rfl h⟩
theorem hfma2 (e : Enc) : Statement (.hfma2 e) := fun h => ⟨rfl, assigned (i := .hfma2 (Enc.probe e.func)) rfl rfl h⟩
theorem fcvt (e : Enc) : Statement (.fcvt e) := fun h => ⟨rfl, assigned (i := .fcvt (Enc.probe e.func)) rfl rfl h⟩
theorem icvt (e : Enc) : Statement (.icvt e) := fun h => ⟨rfl, assigned (i := .icvt (Enc.probe e.func)) rfl rfl h⟩
theorem qunpk (e : Enc) : Statement (.qunpk e) := fun h => ⟨rfl, assigned (i := .qunpk (Enc.probe e.func)) rfl rfl h⟩
theorem f8pk (e : Enc) : Statement (.f8pk e) := fun h => ⟨rfl, assigned (i := .f8pk (Enc.probe e.func)) rfl rfl h⟩
theorem pack (e : Enc) : Statement (.pack e) := fun h => ⟨rfl, assigned (i := .pack (Enc.probe e.func)) rfl rfl h⟩
theorem ld (e : Enc) : Statement (.ld e) := fun h => ⟨rfl, assigned (i := .ld (Enc.probe e.func)) rfl rfl h⟩
theorem st (e : Enc) : Statement (.st e) := fun h => ⟨rfl, assigned (i := .st (Enc.probe e.func)) rfl rfl h⟩
theorem lds (e : Enc) : Statement (.lds e) := fun h => ⟨rfl, assigned (i := .lds (Enc.probe e.func)) rfl rfl h⟩
theorem sts (e : Enc) : Statement (.sts e) := fun h => ⟨rfl, assigned (i := .sts (Enc.probe e.func)) rfl rfl h⟩
theorem ldc (e : Enc) : Statement (.ldc e) := fun h => ⟨rfl, assigned (i := .ldc (Enc.probe e.func)) rfl rfl h⟩
theorem prefetch (e : Enc) : Statement (.prefetch e) := fun h => ⟨rfl, assigned (i := .prefetch (Enc.probe e.func)) rfl rfl h⟩
theorem cctl (e : Enc) : Statement (.cctl e) := fun h => ⟨rfl, assigned (i := .cctl (Enc.probe e.func)) rfl rfl h⟩
theorem atom (e : Enc) : Statement (.atom e) := by
  intro h
  have hf : ¬ e.func = 7 := by
    have : (atomOp e.func && decide (e.func ≠ 7)) = true := h
    simpa using (Bool.and_eq_true_iff.1 this).2
  have r (x : Enc) (hx : ¬ x.func = 7) : Instr.ofOp 0xA0 x = some (.atom x) := by
    show some (if x.func = 7 then _ else _) = _
    rw [if_neg hx]
  exact ⟨r e hf, assigned (r (Enc.probe e.func) hf) rfl h⟩

theorem atomCas (e : Enc) : Statement (.atomCas e) := by
  intro h
  have hf : e.func = 7 := of_decide_eq_true h
  have r (x : Enc) (hx : x.func = 7) : Instr.ofOp 0xA0 x = some (.atomCas x) := by
    unfold Instr.ofOp
    rw [hx]
    rfl
  exact ⟨r e hf, assigned (r (Enc.probe e.func) hf) rfl h⟩

theorem atoms (e : Enc) : Statement (.atoms e) := fun h => ⟨rfl, assigned (i := .atoms (Enc.probe e.func)) rfl rfl h⟩
theorem red (e : Enc) : Statement (.red e) := fun h => ⟨rfl, assigned (i := .red (Enc.probe e.func)) rfl rfl h⟩
theorem atomf (e : Enc) : Statement (.atomf e) := fun h => ⟨rfl, assigned (i := .atomf (Enc.probe e.func)) rfl rfl h⟩
theorem acp (e : Enc) : Statement (.acp e) := fun h => ⟨rfl, assigned (i := .acp (Enc.probe e.func)) rfl rfl h⟩
theorem acopy (e : Enc) : Statement (.acopy e) := fun h => ⟨rfl, assigned (i := .acopy (Enc.probe e.func)) rfl rfl h⟩
theorem twaitany (e : Enc) : Statement (.twaitany e) := fun h => ⟨rfl, assigned (i := .twaitany (Enc.probe e.func)) rfl rfl h⟩
theorem twaitall (e : Enc) : Statement (.twaitall e) := fun h => ⟨rfl, assigned (i := .twaitall (Enc.probe e.func)) rfl rfl h⟩
theorem tffs (e : Enc) : Statement (.tffs e) := fun h => ⟨rfl, assigned (i := .tffs (Enc.probe e.func)) rfl rfl h⟩
theorem fissue (e : Enc) : Statement (.fissue e) := fun h => ⟨rfl, assigned (i := .fissue (Enc.probe e.func)) rfl rfl h⟩
theorem fwait (e : Enc) : Statement (.fwait e) := fun h => ⟨rfl, assigned (i := .fwait (Enc.probe e.func)) rfl rfl h⟩
theorem fence (e : Enc) : Statement (.fence e) := fun h => ⟨rfl, assigned (i := .fence (Enc.probe e.func)) rfl rfl h⟩
theorem bar (e : Enc) : Statement (.bar e) := by
  intro h
  have hf : e.func = 0 := of_decide_eq_true h
  have r (x : Enc) (hx : x.func = 0) : Instr.ofOp 0xC3 x = some (.bar x) := by
    unfold Instr.ofOp
    rw [hx]
    rfl
  exact ⟨r e hf, assigned (r (Enc.probe e.func) hf) rfl h⟩

theorem barG (e : Enc) : Statement (.barG e) := by
  intro h
  have hf : e.func = 1 := of_decide_eq_true h
  have r (x : Enc) (hx : x.func = 1) : Instr.ofOp 0xC3 x = some (.barG x) := by
    unfold Instr.ofOp
    rw [hx]
    rfl
  exact ⟨r e hf, assigned (r (Enc.probe e.func) hf) rfl h⟩

theorem barNamed (e : Enc) : Statement (.barNamed e) := by
  intro h
  have hf : e.func ≠ 0 ∧ e.func ≠ 1 := by
    have : (decide (e.func &&& 3 = 2) && decide (e.func < 64)) = true := h
    constructor
    · intro e0; rw [e0] at this; revert this; decide
    · intro e1; rw [e1] at this; revert this; decide
  have r (x : Enc) (hx : x.func ≠ 0 ∧ x.func ≠ 1) : Instr.ofOp 0xC3 x = some (.barNamed x) := by
    show some (if x.func = 0 then _ else if x.func = 1 then _ else _) = _
    rw [if_neg hx.1, if_neg hx.2]
  exact ⟨r e hf, assigned (r (Enc.probe e.func) hf) rfl h⟩

theorem barrive (e : Enc) : Statement (.barrive e) := fun h => ⟨rfl, assigned (i := .barrive (Enc.probe e.func)) rfl rfl h⟩
theorem barwait (e : Enc) : Statement (.barwait e) := fun h => ⟨rfl, assigned (i := .barwait (Enc.probe e.func)) rfl rfl h⟩
theorem arrive (e : Enc) : Statement (.arrive e) := fun h => ⟨rfl, assigned (i := .arrive (Enc.probe e.func)) rfl rfl h⟩
theorem wait (e : Enc) : Statement (.wait e) := fun h => ⟨rfl, assigned (i := .wait (Enc.probe e.func)) rfl rfl h⟩
theorem nsleep (e : Enc) : Statement (.nsleep e) := fun h => ⟨rfl, assigned (i := .nsleep (Enc.probe e.func)) rfl rfl h⟩
theorem mma (e : Enc) : Statement (.mma e) := fun h => ⟨rfl, assigned (i := .mma (Enc.probe e.func)) rfl rfl h⟩
theorem mzero (e : Enc) : Statement (.mzero e) := fun h => ⟨rfl, assigned (i := .mzero (Enc.probe e.func)) rfl rfl h⟩
theorem mld (e : Enc) : Statement (.mld e) := fun h => ⟨rfl, assigned (i := .mld (Enc.probe e.func)) rfl rfl h⟩
theorem mst (e : Enc) : Statement (.mst e) := fun h => ⟨rfl, assigned (i := .mst (Enc.probe e.func)) rfl rfl h⟩
theorem mrd (e : Enc) : Statement (.mrd e) := fun h => ⟨rfl, assigned (i := .mrd (Enc.probe e.func)) rfl rfl h⟩
theorem mwr (e : Enc) : Statement (.mwr e) := fun h => ⟨rfl, assigned (i := .mwr (Enc.probe e.func)) rfl rfl h⟩
theorem mcvt (e : Enc) : Statement (.mcvt e) := fun h => ⟨rfl, assigned (i := .mcvt (Enc.probe e.func)) rfl rfl h⟩
theorem mofence (e : Enc) : Statement (.mofence e) := fun h => ⟨rfl, assigned (i := .mofence (Enc.probe e.func)) rfl rfl h⟩
theorem mwait (e : Enc) : Statement (.mwait e) := fun h => ⟨rfl, assigned (i := .mwait (Enc.probe e.func)) rfl rfl h⟩
theorem mdrain (e : Enc) : Statement (.mdrain e) := fun h => ⟨rfl, assigned (i := .mdrain (Enc.probe e.func)) rfl rfl h⟩
theorem mfill (e : Enc) : Statement (.mfill e) := fun h => ⟨rfl, assigned (i := .mfill (Enc.probe e.func)) rfl rfl h⟩
theorem mresume (e : Enc) : Statement (.mresume e) := fun h => ⟨rfl, assigned (i := .mresume (Enc.probe e.func)) rfl rfl h⟩
theorem tspawn (e : Enc) : Statement (.tspawn e) := fun h => ⟨rfl, assigned (i := .tspawn (Enc.probe e.func)) rfl rfl h⟩
theorem tarm (e : Enc) : Statement (.tarm e) := fun h => ⟨rfl, assigned (i := .tarm (Enc.probe e.func)) rfl rfl h⟩
theorem tdec (e : Enc) : Statement (.tdec e) := fun h => ⟨rfl, assigned (i := .tdec (Enc.probe e.func)) rfl rfl h⟩
theorem tdone (e : Enc) : Statement (.tdone e) := fun h => ⟨rfl, assigned (i := .tdone (Enc.probe e.func)) rfl rfl h⟩
theorem tlaunch (e : Enc) : Statement (.tlaunch e) := fun h => ⟨rfl, assigned (i := .tlaunch (Enc.probe e.func)) rfl rfl h⟩
theorem tget (e : Enc) : Statement (.tget e) := fun h => ⟨rfl, assigned (i := .tget (Enc.probe e.func)) rfl rfl h⟩
theorem scall (e : Enc) : Statement (.scall e) := fun h => ⟨rfl, assigned (i := .scall (Enc.probe e.func)) rfl rfl h⟩
theorem trap (e : Enc) : Statement (.trap e) := fun h => ⟨rfl, assigned (i := .trap (Enc.probe e.func)) rfl rfl h⟩
theorem bkpt (e : Enc) : Statement (.bkpt e) := fun h => ⟨rfl, assigned (i := .bkpt (Enc.probe e.func)) rfl rfl h⟩
theorem uiret (e : Enc) : Statement (.uiret e) := fun h => ⟨rfl, assigned (i := .uiret (Enc.probe e.func)) rfl rfl h⟩
theorem uimask (e : Enc) : Statement (.uimask e) := fun h => ⟨rfl, assigned (i := .uimask (Enc.probe e.func)) rfl rfl h⟩
theorem npbegin (e : Enc) : Statement (.npbegin e) := fun h => ⟨rfl, assigned (i := .npbegin (Enc.probe e.func)) rfl rfl h⟩
theorem npend (e : Enc) : Statement (.npend e) := fun h => ⟨rfl, assigned (i := .npend (Enc.probe e.func)) rfl rfl h⟩
theorem grow (e : Enc) : Statement (.grow e) := fun h => ⟨rfl, assigned (i := .grow (Enc.probe e.func)) rfl rfl h⟩
theorem carve (e : Enc) : Statement (.carve e) := fun h => ⟨rfl, assigned (i := .carve (Enc.probe e.func)) rfl rfl h⟩
theorem ckpt (e : Enc) : Statement (.ckpt e) := fun h => ⟨rfl, assigned (i := .ckpt (Enc.probe e.func)) rfl rfl h⟩
theorem tstampr (e : Enc) : Statement (.tstampr e) := fun h => ⟨rfl, assigned (i := .tstampr (Enc.probe e.func)) rfl rfl h⟩
theorem gsave (e : Enc) : Statement (.gsave e) := fun h => ⟨rfl, assigned (i := .gsave (Enc.probe e.func)) rfl rfl h⟩
theorem grest (e : Enc) : Statement (.grest e) := fun h => ⟨rfl, assigned (i := .grest (Enc.probe e.func)) rfl rfl h⟩

theorem zmsgLaunch : ∀ x0 x1 x2, Statement (.zmsgLaunch x0 x1 x2) := by intros; rfl
theorem registerWrite : ∀ x0 x1 x2, Statement (.registerWrite x0 x1 x2) := by intros; rfl
theorem homeRead : ∀ x0, Statement (.homeRead x0) := by intros; rfl
theorem homeWrite : ∀ x0, Statement (.homeWrite x0) := by intros; rfl
theorem homeAtomic : ∀ x0, Statement (.homeAtomic x0) := by intros; rfl
theorem ringStallRelease : ∀ x0, Statement (.ringStallRelease x0) := by intros; rfl
theorem homeLineFill : ∀ x0 x1 x2, Statement (.homeLineFill x0 x1 x2) := by intros; rfl
theorem leakyBucketLeak : Statement .leakyBucketLeak := rfl
theorem loadResponse : ∀ x0, Statement (.loadResponse x0) := by intros; rfl
theorem scratchpadArbitration : ∀ x0 x1 x2, Statement (.scratchpadArbitration x0 x1 x2) := by intros; rfl
theorem fwinDropComplete : ∀ x0, Statement (.fwinDropComplete x0) := by intros; rfl
theorem waitCheck : ∀ x0, Statement (.waitCheck x0) := by intros; rfl
theorem wakeArrival : ∀ x0, Statement (.wakeArrival x0) := by intros; rfl
theorem monitorTimeout : ∀ x0 x1 x2, Statement (.monitorTimeout x0 x1 x2) := by intros; rfl
theorem waitWithdraw : ∀ x0, Statement (.waitWithdraw x0) := by intros; rfl
theorem nsleepExpiry : ∀ x0, Statement (.nsleepExpiry x0) := by intros; rfl
theorem clockGate : ∀ x0, Statement (.clockGate x0) := by intros; rfl
theorem serviceArmCheck : ∀ x0, Statement (.serviceArmCheck x0) := by intros; rfl
theorem missMergeAdmit : ∀ x0, Statement (.missMergeAdmit x0) := by intros; rfl
theorem walkStep : ∀ x0 x1 x2, Statement (.walkStep x0 x1 x2) := by intros; rfl
theorem firstTouchCasResult : ∀ x0 x1 x2, Statement (.firstTouchCasResult x0 x1 x2) := by intros; rfl
theorem shadowAdd : ∀ x0, Statement (.shadowAdd x0) := by intros; rfl
theorem shootdownComplete : ∀ x0 x1, Statement (.shootdownComplete x0 x1) := by intros; rfl
theorem faultQueueAdmit : ∀ x0, Statement (.faultQueueAdmit x0) := by intros; rfl
theorem fltackRetry : ∀ x0 x1 x2, Statement (.fltackRetry x0 x1 x2) := by intros; rfl
theorem fltackDeliver : ∀ x0 x1 x2, Statement (.fltackDeliver x0 x1 x2) := by intros; rfl
theorem memcapLowerSettle : Statement .memcapLowerSettle := rfl
theorem mphaseGo : ∀ x0 x1 x2, Statement (.mphaseGo x0 x1 x2) := by intros; rfl
theorem migrationEnterDone : Statement .migrationEnterDone := rfl
theorem migrateGranule : Statement .migrateGranule := rfl
theorem granuleDrained : ∀ x0, Statement (.granuleDrained x0) := by intros; rfl
theorem granuleHandover : Statement .granuleHandover := rfl
theorem migrationIdleExpiry : Statement .migrationIdleExpiry := rfl
theorem migrationCloseDone : Statement .migrationCloseDone := rfl
theorem movedReplay : ∀ x0 x1, Statement (.movedReplay x0 x1) := by intros; rfl
theorem issueSelect : ∀ x0, Statement (.issueSelect x0) := by intros; rfl
theorem runEnd : ∀ x0, Statement (.runEnd x0) := by intros; rfl
theorem runmaxMarker : ∀ x0, Statement (.runmaxMarker x0) := by intros; rfl
theorem resultsDrained : ∀ x0, Statement (.resultsDrained x0) := by intros; rfl
theorem saveRoutineStart : ∀ x0, Statement (.saveRoutineStart x0) := by intros; rfl
theorem teamPlace : ∀ x0 x1, Statement (.teamPlace x0 x1) := by intros; rfl
theorem launchReserve : ∀ x0, Statement (.launchReserve x0) := by intros; rfl
theorem teamRetire : ∀ x0, Statement (.teamRetire x0) := by intros; rfl
theorem taskServerRequest : ∀ x0 x1, Statement (.taskServerRequest x0 x1) := by intros; rfl
theorem nopreemptOverrun : ∀ x0, Statement (.nopreemptOverrun x0) := by intros; rfl
theorem growGrant : ∀ x0, Statement (.growGrant x0) := by intros; rfl
theorem growTimeout : ∀ x0, Statement (.growTimeout x0) := by intros; rfl
theorem cvTimeout : ∀ x0 x1, Statement (.cvTimeout x0 x1) := by intros; rfl
theorem copyPiece : ∀ x0 x1 x2 x3, Statement (.copyPiece x0 x1 x2 x3) := by intros; rfl
theorem copyComplete : ∀ x0, Statement (.copyComplete x0) := by intros; rfl
theorem atomfForward : ∀ x0 x1, Statement (.atomfForward x0 x1) := by intros; rfl
theorem fenceTokenComplete : ∀ x0 x1, Statement (.fenceTokenComplete x0 x1) := by intros; rfl
theorem matrixOpStart : ∀ x0, Statement (.matrixOpStart x0) := by intros; rfl
theorem mmaRow : ∀ x0, Statement (.mmaRow x0) := by intros; rfl
theorem tileOpComplete : ∀ x0 x1, Statement (.tileOpComplete x0 x1) := by intros; rfl
theorem counterArm : ∀ x0, Statement (.counterArm x0) := by intros; rfl
theorem counterDecrement : ∀ x0, Statement (.counterDecrement x0) := by intros; rfl
theorem launchPortLaunch : ∀ x0 x1 x2, Statement (.launchPortLaunch x0 x1 x2) := by intros; rfl
theorem preqWrite : ∀ x0 x1 x2, Statement (.preqWrite x0 x1 x2) := by intros; rfl
theorem callSlotAssign : ∀ x0, Statement (.callSlotAssign x0) := by intros; rfl
theorem callReplyResume : ∀ x0 x1, Statement (.callReplyResume x0 x1) := by intros; rfl
theorem memAlloc : ∀ x0 x1 x2 x3, Statement (.memAlloc x0 x1 x2 x3) := by intros; rfl
theorem memInfo : ∀ x0 x1 x2, Statement (.memInfo x0 x1 x2) := by intros; rfl
theorem mailboxSend : ∀ x0 x1 x2 x3 x4, Statement (.mailboxSend x0 x1 x2 x3 x4) := by intros; rfl
theorem mailboxReceive : ∀ x0, Statement (.mailboxReceive x0) := by intros; rfl
theorem pairScbCompare : ∀ x0 x1, Statement (.pairScbCompare x0 x1) := by intros; rfl
theorem pairSideEffect : ∀ x0 x1, Statement (.pairSideEffect x0 x1) := by intros; rfl
theorem teamCheckpoint : ∀ x0, Statement (.teamCheckpoint x0) := by intros; rfl
theorem pairMismatch : ∀ x0, Statement (.pairMismatch x0) := by intros; rfl
theorem pairinjArm : ∀ x0 x1 x2, Statement (.pairinjArm x0 x1 x2) := by intros; rfl
theorem containedDiscard : ∀ x0, Statement (.containedDiscard x0) := by intros; rfl
theorem heartbeatSend : Statement .heartbeatSend := rfl
theorem heartbeatTimeout : ∀ x0, Statement (.heartbeatTimeout x0) := by intros; rfl
theorem doorbellDeliver : ∀ x0, Statement (.doorbellDeliver x0) := by intros; rfl
theorem regionTimerFire : ∀ x0 x1, Statement (.regionTimerFire x0 x1) := by intros; rfl
theorem domainResetComplete : ∀ x0, Statement (.domainResetComplete x0) := by intros; rfl
theorem packageReset : Statement .packageReset := rfl
theorem hbmTrainingComplete : ∀ x0 x1, Statement (.hbmTrainingComplete x0 x1) := by intros; rfl
theorem bootstatStageWrite : ∀ x0 x1 x2, Statement (.bootstatStageWrite x0 x1 x2) := by intros; rfl
theorem bootstatOkWrite : ∀ x0 x1 x2, Statement (.bootstatOkWrite x0 x1 x2) := by intros; rfl
theorem measure : ∀ x0, Statement (.measure x0) := by intros; rfl
theorem attest : ∀ x0, Statement (.attest x0) := by intros; rfl
theorem ccbootRun : ∀ x0 x1 x2, Statement (.ccbootRun x0 x1 x2) := by intros; rfl
theorem zmsgMsgSend : ∀ x0 x1 x2, Statement (.zmsgMsgSend x0 x1 x2) := by intros; rfl
theorem parityRowRecompute : ∀ x0 x1 x2 x3, Statement (.parityRowRecompute x0 x1 x2 x3) := by intros; rfl
theorem fwinEnable : ∀ x0 x1 x2, Statement (.fwinEnable x0 x1 x2) := by intros; rfl
theorem fwinDisable : ∀ x0 x1 x2, Statement (.fwinDisable x0 x1 x2) := by intros; rfl
theorem peerRequest : ∀ x0 x1 x2 x3 x4 x5 x6, Statement (.peerRequest x0 x1 x2 x3 x4 x5 x6) := by intros; rfl
theorem grptrHeadWrite : ∀ x0 x1 x2, Statement (.grptrHeadWrite x0 x1 x2) := by intros; rfl
theorem glcmdWake : ∀ x0 x1 x2, Statement (.glcmdWake x0 x1 x2) := by intros; rfl
theorem glcmdTimeout : ∀ x0 x1 x2, Statement (.glcmdTimeout x0 x1 x2) := by intros; rfl
theorem glcmdRestart : ∀ x0 x1 x2, Statement (.glcmdRestart x0 x1 x2) := by intros; rfl
theorem monarmArm : ∀ x0 x1 x2, Statement (.monarmArm x0 x1 x2) := by intros; rfl
theorem monarmDisarm : ∀ x0 x1 x2, Statement (.monarmDisarm x0 x1 x2) := by intros; rfl
theorem tlbinvAll : ∀ x0 x1 x2, Statement (.tlbinvAll x0 x1 x2) := by intros; rfl
theorem tlbinvAsid : ∀ x0 x1 x2, Statement (.tlbinvAsid x0 x1 x2) := by intros; rfl
theorem tlbinvPage : ∀ x0 x1 x2, Statement (.tlbinvPage x0 x1 x2) := by intros; rfl
theorem fltackEndDomain : ∀ x0 x1 x2, Statement (.fltackEndDomain x0 x1 x2) := by intros; rfl
theorem fqptrHeadWrite : ∀ x0 x1 x2, Statement (.fqptrHeadWrite x0 x1 x2) := by intros; rfl
theorem memcapRaise : ∀ x0 x1 x2, Statement (.memcapRaise x0 x1 x2) := by intros; rfl
theorem memcapLower : ∀ x0 x1 x2, Statement (.memcapLower x0 x1 x2) := by intros; rfl
theorem stackmapRetireWrite : ∀ x0 x1 x2, Statement (.stackmapRetireWrite x0 x1 x2) := by intros; rfl
theorem migwordWrite : ∀ x0 x1 x2, Statement (.migwordWrite x0 x1 x2) := by intros; rfl
theorem stackDead : ∀ x0, Statement (.stackDead x0) := by intros; rfl
theorem launchPortRestore : ∀ x0 x1 x2, Statement (.launchPortRestore x0 x1 x2) := by intros; rfl
theorem uisendWrite : ∀ x0 x1 x2, Statement (.uisendWrite x0 x1 x2) := by intros; rfl
theorem mchkRead : ∀ x0 x1 x2, Statement (.mchkRead x0 x1 x2) := by intros; rfl
theorem contextWindowAccess : ∀ x0 x1 x2, Statement (.contextWindowAccess x0 x1 x2) := by intros; rfl
theorem callPageAccess : ∀ x0 x1, Statement (.callPageAccess x0 x1) := by intros; rfl
theorem callStatus : ∀ x0 x1 x2 x3, Statement (.callStatus x0 x1 x2 x3) := by intros; rfl
theorem memFree : ∀ x0 x1 x2, Statement (.memFree x0 x1 x2) := by intros; rfl
theorem memProtect : ∀ x0 x1 x2 x3, Statement (.memProtect x0 x1 x2 x3) := by intros; rfl
theorem fileRead : ∀ x0 x1 x2 x3 x4, Statement (.fileRead x0 x1 x2 x3 x4) := by intros; rfl
theorem fileWrite : ∀ x0 x1 x2 x3 x4, Statement (.fileWrite x0 x1 x2 x3 x4) := by intros; rfl
theorem fileSync : ∀ x0 x1 x2 x3, Statement (.fileSync x0 x1 x2 x3) := by intros; rfl
theorem udpSend : ∀ x0 x1 x2 x3 x4, Statement (.udpSend x0 x1 x2 x3 x4) := by intros; rfl
theorem udpRecv : ∀ x0 x1 x2 x3 x4, Statement (.udpRecv x0 x1 x2 x3 x4) := by intros; rfl
theorem rdgSend : ∀ x0 x1 x2 x3 x4, Statement (.rdgSend x0 x1 x2 x3 x4) := by intros; rfl
theorem rdgRecv : ∀ x0 x1 x2 x3 x4, Statement (.rdgRecv x0 x1 x2 x3 x4) := by intros; rfl
theorem ctrlNotify : ∀ x0 x1 x2 x3, Statement (.ctrlNotify x0 x1 x2 x3) := by intros; rfl
theorem uiSend : ∀ x0 x1 x2, Statement (.uiSend x0 x1 x2) := by intros; rfl
theorem handleInfo : ∀ x0 x1 x2 x3 x4, Statement (.handleInfo x0 x1 x2 x3 x4) := by intros; rfl
theorem svcqResume : ∀ x0 x1 x2, Statement (.svcqResume x0 x1 x2) := by intros; rfl
theorem shardRestart : ∀ x0, Statement (.shardRestart x0) := by intros; rfl
theorem linkFlitReceive : ∀ x0 x1 x2 x3 x4, Statement (.linkFlitReceive x0 x1 x2 x3 x4) := by intros; rfl
theorem linkRetrain : ∀ x0 x1, Statement (.linkRetrain x0 x1) := by intros; rfl
theorem linkRetrainDone : ∀ x0 x1 x2, Statement (.linkRetrainDone x0 x1 x2) := by intros; rfl
theorem heartbeatReceive : ∀ x0 x1, Statement (.heartbeatReceive x0 x1) := by intros; rfl
theorem peerwinFencedClear : ∀ x0 x1 x2, Statement (.peerwinFencedClear x0 x1 x2) := by intros; rfl
theorem msiDoorbell : ∀ x0 x1, Statement (.msiDoorbell x0 x1) := by intros; rfl
theorem pcieCompletion : ∀ x0 x1 x2, Statement (.pcieCompletion x0 x1 x2) := by intros; rfl
theorem pcieCompletionTimeout : ∀ x0 x1, Statement (.pcieCompletionTimeout x0 x1) := by intros; rfl
theorem pcieInboundWrite : ∀ x0 x1 x2 x3, Statement (.pcieInboundWrite x0 x1 x2 x3) := by intros; rfl
theorem pcieInboundRead : ∀ x0 x1 x2 x3, Statement (.pcieInboundRead x0 x1 x2 x3) := by intros; rfl
theorem nvmeCompletion : ∀ x0 x1 x2, Statement (.nvmeCompletion x0 x1 x2) := by intros; rfl
theorem ethFrameReceive : ∀ x0 x1 x2 x3 x4 x5, Statement (.ethFrameReceive x0 x1 x2 x3 x4 x5) := by intros; rfl
theorem pmsgSend : ∀ x0 x1 x2, Statement (.pmsgSend x0 x1 x2) := by intros; rfl
theorem peerMessageReceive : ∀ x0 x1 x2 x3 x4 x5, Statement (.peerMessageReceive x0 x1 x2 x3 x4 x5) := by intros; rfl
theorem pmsgAck : ∀ x0, Statement (.pmsgAck x0) := by intros; rfl
theorem tmrsyncLoad : ∀ x0 x1 x2, Statement (.tmrsyncLoad x0 x1 x2) := by intros; rfl
theorem domainReset : ∀ x0 x1 x2, Statement (.domainReset x0 x1 x2) := by intros; rfl
theorem throttleStep : ∀ x0 x1, Statement (.throttleStep x0 x1) := by intros; rfl
theorem thermalShutdown : ∀ x0 x1, Statement (.thermalShutdown x0 x1) := by intros; rfl
theorem clpwrWrite : ∀ x0 x1 x2, Statement (.clpwrWrite x0 x1 x2) := by intros; rfl
theorem linkTrained : ∀ x0, Statement (.linkTrained x0) := by intros; rfl
theorem aplicWiredSource : ∀ x0 x1 x2 x3, Statement (.aplicWiredSource x0 x1 x2 x3) := by intros; rfl
theorem inFieldTest : ∀ x0 x1, Statement (.inFieldTest x0 x1) := by intros; rfl

end Sys2Proof.Laws.Encoding
end

