-- ==== Sys2Proof/Tests/Slice0.lean ====
section
/-! SUPPORT. Tests of the model: ill-formed terms, decoded words, single instructions, and witnesses that the hypotheses of the statements can be met. -/

namespace Sys2Proof.Tests

open Sys2Proof Sys2Proof.Machine

set_option Elab.async false

/-! ### Terms and states for the tests -/

/-- An extended form with v1 as its destination and no modifier. -/
def enc (func : BitVec 8) (ty : BitVec 4) (d a b c : Opnd) : Enc :=
  { form := .ext, sw := false, d := d, a := a, b := b, c := c, lit := 0, negA := false, absA := false, negB := false, absB := false, negC := false,
    absC := false, ord := 0, rnden := false, rnd := 0, func := func, ty := ty, pen := false, pinv := false, pred := 0, dscale := 0, clamp := 0 }

/-- A group in the issue stage whose 32 lanes are active. -/
def grp : Group := Group.placed {}

/-- The group with the low words of v2 to v5. -/
def vGrp (a b c d : Word) : Group := { grp with v := [(2, lanesOf a), (3, lanesOf b), (4, lanesOf c), (5, lanesOf d)] }

/-- The machine with that group in slot 0 of team 0, and one page of HBM that it may use. -/
def st (g : Group) : State :=
  { State.reset with
    groups := [(0, g)], teams := [(0, { slots := [(0, 0)], chunks := 1 })], cores := [(0, { utlb := [placeEntry] })]
    hub := { State.reset.hub with memcap := 2 ^ 34, live := 1 } }

def after (i : Instr) (s : State) : State := match exec i s with
  | .next t => t
  | _ => {}

def nexts (i : Instr) (s : State) : Bool := match exec i s with
  | .next _ => true
  | _ => false

/-- v1 of lane 0, FSTAT and the program counter of lane 0 after an instruction on v2, v3 and v4. -/
def v1 (i : Instr) (a b c : Word) : Word := ((after i (st (vGrp a b c 0))).group 0).raw 1 0
def flags (i : Instr) (a b c : Word) : Flags := ((after i (st (vGrp a b c 0))).group 0).fstat

/-- v1 ← an operation of v2, v3 and v4. -/
def e3 (func : BitVec 8) (ty : BitVec 4) : Enc := enc func ty (.v 1) (.v 2) (.v 3) (.v 4)
def e2 (func : BitVec 8) (ty : BitVec 4) : Enc := enc func ty (.v 1) (.v 2) (.v 3) .zero
def e1 (func : BitVec 8) (ty : BitVec 4) : Enc := enc func ty (.v 1) (.v 2) .zero .zero
def sat (e : Enc) : Enc := { e with clamp := 3 }

/-! ### Instructions: results of 10 Table 10 and of the examples of 08 and 11 -/

theorem test_iadd_wraps : v1 (.iadd (e2 0 3)) 0x7FFFFFFF 1 0 = 0x80000000 := by decide +kernel
theorem test_iadd_sat : v1 (.iadd (sat (e2 0 3))) 0x7FFFFFFF 1 0 = 0x7FFFFFFF ∧ flags (.iadd (sat (e2 0 3))) 0x7FFFFFFF 1 0 = 0x20 := by decide +kernel
theorem test_imulh_signed : v1 (.imulh (e2 0 3)) 0xFFFFFFFE 3 0 = 0xFFFFFFFF := by decide +kernel
theorem test_imulh_unsigned : v1 (.imulh (e2 0 7)) 0xFFFFFFFE 3 0 = 2 := by decide +kernel
theorem test_iabsd : v1 (.iabsd (e2 0 3)) 0x80000000 0x7FFFFFFF 0 = 0xFFFFFFFF := by decide +kernel
theorem test_iabsd_sat : v1 (.iabsd (sat (e2 0 3))) 0x80000000 0x7FFFFFFF 0 = 0x7FFFFFFF := by decide +kernel
theorem test_sar : v1 (.sar (e2 0 7)) 0x80000000 40 0 = 0xFFFFFFFF := by decide +kernel
theorem test_rot : v1 (.rot (e2 0 7)) 0x80000001 33 0 = 3 := by decide +kernel
theorem test_clz : v1 (.clz (e1 0 7)) 0x00010000 0 0 = 15 := by decide +kernel
theorem test_bfe_signed : v1 (.bfe (e3 0 3)) 0xF00 8 4 = 0xFFFFFFFF := by decide +kernel
theorem test_bfe_unsigned : v1 (.bfe (e3 0 7)) 0xF00 8 4 = 0xF := by decide +kernel
theorem test_bfi : v1 (.bfi (e3 0 7)) 5 0xFFFFFFFF 0x0304 = 0xFFFFFFDF := by decide +kernel
theorem test_prmt : v1 (.prmt (e3 0 7)) 0x44332211 0x88776655 0x7F40 = 0x88FF5511 := by decide +kernel
/-- 500.0 is 0x43FA0000 and −0.001 is 0xBA83126F. -/
theorem test_f8pk : v1 (.f8pk (e3 0 0)) 0x43FA0000 0xBA83126F 0x12340000 = 0x1234817E := by decide +kernel
theorem test_fadd : v1 (.fadd (e2 0 12)) 0x3F800000 0x40000000 0 = 0x40400000 := by decide +kernel


/-! ### Witnesses: the hypotheses of the statements about instructions can be met -/

/-- An instruction, its own condition, a state and what else the clause asks of the context. -/
structure Wit where
  i : Instr
  own : Ctx → State → Option (BitVec 8)
  s : State
  p : Ctx → Bool := fun _ => true

def Wit.ok (w : Wit) : Bool := match w.s.ctxOf w.i with
  | some c => c.g.canIssue && w.s.alone c.g && c.e.allocOk c.g c.p && (!c.p.priv || c.priv) && c.e.kindsOk c.p && (w.own c w.s == none) &&
      !c.interlocked && w.p c
  | none => false

/-- There is a context in which the instruction issues and the clause's other hypotheses hold. -/
def Wit.Met (w : Wit) : Prop := ∃ c, Issues w.i w.own w.s c ∧ w.p c = true

theorem met_all (L : List Wit) (h : L.all Wit.ok = true) : ∀ w ∈ L, w.Met := by
  intro w hw
  have := List.all_eq_true.mp h w hw
  unfold Wit.ok at this
  split at this
  · rename_i c hc
    simp only [Bool.and_eq_true, beq_iff_eq, Bool.not_eq_true', Bool.or_eq_true] at this
    obtain ⟨⟨⟨⟨⟨⟨⟨h1, h2⟩, h3⟩, h4⟩, h5⟩, h6⟩, h7⟩, h8⟩ := this
    refine ⟨c, ⟨hc, h1, h2, h3, ?_, h5, h6, h7⟩, h8⟩
    intro hp
    cases h4 with
    | inl h => rw [hp] at h; cases h
    | inr h => exact h
  · cases this

/-- 64-bit operands, in pairs. -/
def w2 (func : BitVec 8) (ty : BitVec 4) : Enc := enc func ty (.v 6) (.v 2) (.v 4) .zero

/-- The witness in the plain state, with values in v2 to v5. -/
def wit (i : Instr) (p : Ctx → Bool := fun _ => true) : Wit := ⟨i, noOwn, st (vGrp 8 1 2 3), p⟩
/-- The same with a state of its own. -/
def witS (i : Instr) (s : State) (p : Ctx → Bool := fun _ => true) : Wit := ⟨i, noOwn, s, p⟩

theorem witness_IntegerArithmetic : ∀ w ∈ [wit (.iadd (e2 0 3)), wit (.isub (sat (w2 0 8))), wit (.iadd3 (e3 0 3)), wit (.imul (e2 0 1)), wit (.imulh (e2 0 7)),
    wit (.imad (e3 0 3)), wit (.imadWide (enc 1 3 (.v 6) (.v 2) (.v 3) (.v 4))), wit (.imin (e2 0 5)), wit (.imax (e2 0 3)), wit (.iabsd (e2 0 3)),
    wit (.lea (e2 31 3)) fun c => decide (c.e.func.toNat < c.ity.bits), wit (.lea (e2 32 3)) fun c => decide (c.ity.bits ≤ c.e.func.toNat)],
    w.Met := met_all _ (by decide +kernel)

theorem witness_BitOperations : ∀ w ∈ [wit (.and (e2 0 7)), wit (.or (e2 0 7)), wit (.xor (w2 0 8)), wit (.not (e1 0 7)), wit (.shl (e2 0 7)),
    wit (.shr (e2 0 7)), wit (.sar (e2 0 7)), wit (.rot (e2 0 7)), wit (.popc (e1 0 7)), wit (.clz (e1 0 8))], w.Met := met_all _ (by decide +kernel)

theorem witness_FieldOperations : ∀ w ∈ [wit (.bfe (e3 0 3)), wit (.bfi (e3 0 7)), wit (.prmt (e3 0 7))], w.Met := met_all _ (by decide +kernel)

/-- D names predicate 1. -/
def ep (func : BitVec 8) (ty : BitVec 4) : Enc := e2 func ty

theorem witness_Comparisons : ∀ w ∈ [wit (.isetp (ep 5 3)), wit (.fsetp (ep 0x0D 12)) fun c => decide (¬ (6 ≤ c.e.func.toNat % 8 ∧ c.e.func.getLsbD 3 = true)),
    wit (.fsetp (ep 0x0E 12)) fun c => decide (6 ≤ c.e.func.toNat % 8) && c.e.func.getLsbD 3], w.Met := met_all _ (by decide +kernel)

theorem witness_MovesAndSelect : ∀ w ∈ [wit (.sel (e2 9 3)), wit (.mov (enc 0 8 (.v 6) (.v 2) .zero .zero)), wit (.movs (enc 0 7 (.s 1) (.v 2) .zero .zero)),
    wit (.bcast (enc 0 7 (.s 1) (.v 2) (.imm 33) .zero)) fun c => decide (((1 : Lane).val) = c.ub.toNat % 32)], w.Met := met_all _ (by decide +kernel)

theorem witness_LaneInstructions : ∀ w ∈ [wit (.voteMask (e1 0 7)), wit (.voteSome (e1 1 7)), wit (.voteEvery (e1 2 7)), wit (.voteSame (e1 3 8)),
    wit (.voteCount (e1 4 7)), wit (.shflLane (e2 0 7)), wit (.shflBack (e3 1 7)), wit (.shflFwd (e3 2 7)), wit (.shflMix (e2 3 7)), wit (.shflRot (w2 4 8)),
    wit (.elect (enc 0 0 (.v 1) .zero .zero .zero)), wit (.electHi (enc 1 0 (.v 1) .zero .zero .zero)), wit (.matchPeers (e1 0 7)),
    wit (.matchUniform (e1 1 7))], w.Met := met_all _ (by decide +kernel)

theorem witness_FloatArithmetic : ∀ w ∈ [wit (.fadd (e2 0 12)), wit (.fmul (e2 0 10)), wit (.ffma (e3 0 11)), wit (.dadd (enc 0 13 (.v 6) (.v 2) (.v 4) .zero)),
    wit (.dmul (enc 0 13 (.v 6) (.v 2) (.v 4) .zero)), wit (.dfma (enc 0 13 (.v 6) (.v 2) (.v 4) (.v 8))), wit (.frcp (e1 0 12)), wit (.fsqrt (e1 0 12)),
    wit (.hadd2 (e2 0 14)), wit (.hmul2 (e2 0 15)), wit (.hfma2 (e3 0 14))], w.Met := met_all _ (by decide +kernel)

theorem witness_FloatSelection : ∀ w ∈ [wit (.fmin (e2 0 12)), wit (.fmax (w2 0 13)), wit (.fclass (e1 0 9)), wit (.frsq (e1 0 12)), wit (.fexp2 (e1 0 12)),
    wit (.flog2 (e1 0 12)), wit (.fsin (e1 0 12)), wit (.fcos (e1 0 0))], w.Met := met_all _ (by decide +kernel)

theorem witness_Conversions : ∀ w ∈ [wit (.fcvt (e1 0x0C 11)) fun c => decide (fcvtBad c.e = false),
    wit (.icvt (e1 0x31 3)) fun c => decide (1 ≤ c.e.func.toNat % 16 ∧ c.e.func.toNat % 16 ≤ 8 ∧ selOk (codeWidth (c.e.func &&& 15)) (c.e.func.toNat / 16 % 4) = true),
    wit (.f8pk (e3 3 0)), wit (.pack (e2 0 6)) fun c => decide (c.e.ty = 6), wit (.pack (e2 0 15)) fun c => decide (c.e.ty ≠ 6)],
    w.Met := met_all _ (by decide +kernel)

/-- No operand; with SW. -/
def e0 (func : BitVec 8 := 0) : Enc := enc func 0 .zero .zero .zero .zero
def sw (e : Enc) : Enc := { e with sw := true }
/-- Active in the lanes where p1 holds, and a state in which it holds in lane 0 only. -/
def onP1 (e : Enc) : Enc := { e with pen := true, pred := 1 }
def lane0 : State := st { vGrp 8 1 2 3 with pw := (lanesOf 0).set 0 2 }
/-- Predicated on p2, which holds in no lane. -/
def off (e : Enc) : Enc := { e with pen := true, pred := 2 }
def noLane (c : Ctx) : Bool := c.act == 0
def someLane (c : Ctx) : Bool := c.act != 0

theorem witness_NopYieldAndExit : ∀ w ∈ [wit (.nop e0), wit (.nop (sw e0)) fun c => c.e.sw, wit (.yield e0), wit (.exit e0),
    witS (.exit (onP1 e0)) lane0 fun c => ((lane0.team c.g.team).cv == []) && !c.g.inh && (c.g.exited ||| c.act != ~~~ 0)],
    w.Met := met_all _ (by decide +kernel)

def goesAligned (c : Ctx) (t : Lane → DWord) : Bool := (List.finRange 32).all fun l => !laneIn c.act l || (t l).toNat % 4 == 0
def rel (c : Ctx) : DWord := c.pc + 4 * ((c.ua.setWidth 32 : Word).signExtend 64)
def eu (func : BitVec 8) (a : Opnd) : Enc := enc func 0 .zero a .zero .zero
def link (a : Opnd) : Enc := enc 0 0 (.v 6) a .zero .zero

theorem witness_Branches : ∀ w ∈ [wit (.bra (eu 0 (.imm 5))) fun c => goesAligned c fun _ => rel c, wit (.bru (eu 0x11 (.imm 5))) fun c => goesAligned c fun _ => rel c,
    wit (.brx (enc 7 0 .zero (.v 2) (.imm 9) .zero)), wit (.ret (eu 0 (.v 2))), ⟨.call (link (.imm 7)), linkOk, st (vGrp 8 0 0 0), fun c => goesAligned c fun _ => rel c⟩,
    ⟨.callx (link (.v 2)), linkOk, st (vGrp 8 0 0 0), fun c => goesAligned c (c.a .int)⟩], w.Met := met_all _ (by decide +kernel)

/-- A group whose program counter is no multiple of 4 has a relative target that is none either. -/
def oddPc : State := st { vGrp 10 0 0 0 with pc := lanesOf 0x100000002 }
def bad (c : Ctx) (t : Lane → DWord) : Bool := (maskOf fun l => laneIn c.act l && decide ((t l).toNat % 4 ≠ 0)) != 0

theorem witness_MisalignedTargets : ∀ w ∈ [witS (.bra (eu 0 (.imm 5))) oddPc fun c => bad c fun _ => rel c,
    witS (.bru (eu 0 (.imm 5))) oddPc fun c => bad c (fun _ => rel c), witS (.bru (eu 8 (.imm 5))) oddPc fun c => c.bruTaken && bad c (fun _ => rel c),
    witS (.brx (enc 0 0 .zero (.v 2) (.imm 9) .zero)) oddPc fun c => bad c fun _ => c.next + 36, witS (.ret (eu 0 (.v 2))) oddPc fun c => bad c (c.a .int),
    ⟨.call (link (.imm 7)), linkOk, oddPc, fun c => bad c fun _ => rel c⟩, ⟨.callx (link (.v 2)), linkOk, oddPc, fun c => bad c (c.a .int)⟩],
    w.Met := met_all _ (by decide +kernel)

/-- The plain state with a convergence register 3. -/
def cvSt (r : CvReg) : State :=
  let s := st (vGrp 0 1 2 3)
  { s with teams := [(0, { slots := [(0, 0)], chunks := 1, cv := [(3, r)] })] }
def cvEnc (d a b : Opnd) : Enc := enc 3 0 d a b .zero
/-- cvset of `n` groups from group `f` on. -/
def cvset (f n : BitVec 10) : Instr := .cvset (cvEnc (.s 1) (.imm f) (.imm n))
def openReg : CvReg := { st := .open, members := 32, groups := 1 }
def halfReg : CvReg := { openReg with signs := [{ gidx := 0, lanes := 1 }] }
/-- The register of a team whose MMA waits for an entry of the queue. -/
def pendReg : CvReg := { openReg with pend := [{ id := 1, team := 0, slot := 0, uid := 0, gidx := 0, op := 0xD0, pc := 0 }] }
/-- A generation of the register has completed in this cycle. -/
def wokenReg : CvReg := { openReg with doneAt := some 0 }
/-- Every lane of the group is exited but lane 31, which is not in its batch. -/
def dyingSt : State :=
  let s := st { vGrp 0 1 2 3 with exited := ~~~ 0 }
  s
def cvInTime (s : State) (c : Ctx) : Bool := !s.cvLate c.g.team 3
def cvLegal (s : State) (c : Ctx) : Bool := cvInTime s c && c.act != 0 && c.ub.toNat != 0 && decide (c.ua.toNat + c.ub.toNat ≤ (s.team c.g.team).ngroups)
def cvHeld (s : State) (c : Ctx) : Bool :=
  let r := (s.team c.g.team).cvReg 3
  (r.st == .open && r.signedCount != 0) || s.cvBusy c.g.team 3
/-- The register of that state; it was not set in this cycle, and the group was woken in it or not. -/
def regIs (s : State) (x : CvState) (c : Ctx) (woken : Bool := false) : Bool :=
  let r := (s.team c.g.team).cvReg 3
  c.act != 0 && r.st == x && cvInTime s c && !r.justSet s.cycle && r.wokenAt c.g s.cycle == woken

theorem witness_Convergence : ∀ w ∈ [wit (.cvset (off (cvEnc (.s 1) (.zero) (.imm 1)))) noLane,
    witS (cvset 1 1) (cvSt {}) (fun c => cvInTime (cvSt {}) c && c.act != 0 && decide (((cvSt {}).team c.g.team).ngroups < c.ua.toNat + c.ub.toNat)),
    witS (cvset 0x3FF 0x3FF) (cvSt {}) (fun c => cvInTime (cvSt {}) c && c.act != 0 && decide (((cvSt {}).team c.g.team).ngroups < c.ua.toNat + c.ub.toNat)),
    witS (.cvset (cvEnc (.s 1) .zero .zero)) (cvSt {}) (fun c => cvInTime (cvSt {}) c && c.act != 0 && c.ub.toNat == 0),
    witS (.cvset (cvEnc (.s 1) .zero (.imm 1))) (cvSt halfReg) (fun c => cvLegal (cvSt halfReg) c && cvHeld (cvSt halfReg) c),
    witS (.cvset (cvEnc (.s 1) .zero (.imm 1))) (cvSt pendReg) (fun c => cvLegal (cvSt pendReg) c && cvHeld (cvSt pendReg) c),
    witS (.cvset (cvEnc (.s 1) .zero (.imm 1))) dyingSt (fun c => cvLegal dyingSt c && !cvHeld dyingSt c && dyingSt.liveLanes 0 0 1 == 0),
    witS (.cvset (cvEnc (.s 1) .zero (.imm 1))) (cvSt openReg) (fun c => cvLegal (cvSt openReg) c && !cvHeld (cvSt openReg) c && (cvSt openReg).liveLanes 0 0 1 != 0),
    ⟨.sign (off (e0 3)), signOk, cvSt openReg, noLane⟩, ⟨.sign (e0 3), signOk, cvSt openReg, regIs (cvSt openReg) .open⟩,
    ⟨.sign (e0 3), signOk, cvSt { openReg with st := .faulted }, regIs (cvSt { openReg with st := .faulted }) .faulted⟩,
    wit (.cvwait (off (cvEnc (.s 1) .zero .zero))) noLane, witS (.cvwait (cvEnc (.s 1) .zero .zero)) (cvSt {}) (regIs (cvSt {}) .free),
    witS (.cvwait (cvEnc (.s 1) .zero .zero)) (cvSt { openReg with st := .faulted }) (regIs (cvSt { openReg with st := .faulted }) .faulted),
    witS (.cvwait (cvEnc (.s 1) .zero .zero)) (cvSt openReg) (regIs (cvSt openReg) .open),
    witS (.cvwait (cvEnc (.s 1) .zero .zero)) (cvSt wokenReg) (fun c => regIs (cvSt wokenReg) .open c true)], w.Met := met_all _ (by decide +kernel)

theorem witness_SigningCountsLanes : let s := cvSt openReg
    let r := (s.team 0).cvReg 3
    3 < 16 ∧ r.st = .open ∧ (1 : LaneMask) ≠ 0 ∧ 1 &&& r.signedOf 0 = 0 ∧ r.signedCount + countLanes 1 ≠ r.members := by
  decide +kernel

theorem witness_Barriers : ∀ w ∈ [wit (.bar (off e0)) noLane, wit (.bar e0) someLane, wit (.barG (off (e0 1))) noLane, wit (.barG (e0 1)) someLane,
    wit (.barNamed (off (enc 0x3E 0 .zero (.imm 1) .zero .zero))) noLane, wit (.barNamed (enc 0x3E 0 .zero (.imm 1) .zero .zero)) someLane,
    wit (.barrive (off (enc 15 0 .zero (.imm 1) .zero .zero))) noLane, wit (.barrive (enc 15 0 .zero (.imm 1) .zero .zero)) someLane,
    wit (.barwait (off (e0 15))) noLane, wit (.barwait (e0 15)) someLane], w.Met := met_all _ (by decide +kernel)

/-- A team of two groups that are not gone. -/
def twoSt : State :=
  let s := st (vGrp 0 1 2 3)
  { s with groups := [(0, grp), (1, { grp with gidx := 1 })], teams := [(0, { ngroups := 2, slots := [(0, 0), (1, 1)] })] }

theorem witness_TeamBarrierParks : ¬ (∀ i ∈ twoSt.liveGroups 0, i ∈ (twoSt.team 0).barArr ++ [0]) := by decide +kernel

theorem witness_RequestsCoverTheLanes : ∀ l : Lane, laneIn (~~~ 0) l = true → (fun l : Lane => 2 ^ 32 + 16 * l.val) l % 16 = 0 := by decide +kernel

/-- v2:v3 is an address of the page, v4 one of the scratchpad; the team has a parameter window there. -/
def mGrp : Group := { vGrp 0x100 1 0x40 0 with v := [(2, lanesOf 0x100), (3, lanesOf 1), (4, lanesOf 0x40), (5, lanesOf 0)] }
def mSt : State :=
  { st mGrp with launches := [(0, { words := [0, 0, 0, 0, 0, 0, 0, 0, 0, 0, 0x100000200, 0x100] })] }
/-- Every lane passes and there is room for `n` requests. -/
def passes (s : State) (chk : Ctx → State → Lane → LaneChk) (n : Ctx → Nat) (c : Ctx) : Bool :=
  c.act != 0 && (List.finRange 32).all (fun l => !laneIn c.act l || (chk c s l).good) && decide (s.requests c.core + n c ≤ 4096)
/-- The requests of an access of the lanes' own width, and of an atomic. -/
def reqs (s : State) (chk : Ctx → State → Lane → LaneChk) (c : Ctx) : Nat := (piecesOf c.eff c.bytes fun l => (chk c s l).pa).length
def areqs (s : State) (chk : Ctx → State → Lane → LaneChk) (c : Ctx) : Nat := (piecesOf c.eff (c.e.tyWidth / 8) fun l => (chk c s l).pa).length
def lpass (s : State) (chk : Ctx → State → Lane → LaneChk) : Ctx → Bool := passes s chk (reqs s chk)
def apass (s : State) (chk : Ctx → State → Lane → LaneChk) : Ctx → Bool := passes s chk (areqs s chk)
def gload (c : Ctx) (s : State) (l : Lane) : LaneChk := s.checkGlobal c.slot c.priv c.g.asid .load c.bytes c.bytes (c.gaddr c.xs l)
def gstore (c : Ctx) (s : State) (l : Lane) : LaneChk := s.checkGlobal c.slot c.priv c.g.asid .store c.bytes c.bytes (c.gaddr c.xs l)
def gatom (c : Ctx) (s : State) (l : Lane) : LaneChk := s.checkGlobal c.slot c.priv c.g.asid .atomic (c.e.tyWidth / 8) (c.e.tyWidth / 8) (c.a .int l)
def sload (c : Ctx) (s : State) (l : Lane) : LaneChk := s.checkSpad c.slot c.bytes c.bytes (c.saddr c.xs l)
def satom (c : Ctx) (s : State) (l : Lane) : LaneChk := s.checkSpad c.slot (c.e.tyWidth / 8) (c.e.tyWidth / 8) (c.a .int l).toNat
/-- A global access at v2:v3 with an index in B, and a scratchpad access at v4. -/
def ge (func : BitVec 8) (ty : BitVec 4) : Enc := enc func ty (.v 8) (.v 2) (.imm 4) .zero
def se (func : BitVec 8) (ty : BitVec 4) : Enc := enc func ty (.v 8) (.v 4) .zero .zero

theorem witness_LoadsSend : ∀ w ∈ [wit (.ld (off (ge 0 3))) noLane, witS (.ld (ge 0 3)) mSt (lpass mSt gload), witS (.lds (se 1 0)) mSt (lpass mSt sload),
    wit (.lds (off (se 0 3))) noLane, wit (.ldc (off (se 0 3))) noLane, witS (.ldc (se 0 3)) mSt (lpass mSt Ctx.windowChk),
    wit (.qunpk (off (enc 0 14 (.v 8) (.s 2) (.s 4) .zero))) noLane,
    witS (.qunpk (enc 1 14 (.v 8) (.imm 64) (.imm 8) .zero)) mSt fun c =>
      c.act != 0 && decide (mSt.requests c.core + 18 ≤ 4096) && (c.qunpkChk mSt).1.good && (c.qunpkChk mSt).2.good],
    w.Met := met_all _ (by decide +kernel)

theorem witness_StoresSend : ∀ w ∈ [wit (.st (off (ge 0 3))) noLane, witS (.st (ge 0 3)) mSt (lpass mSt gstore), wit (.sts (off (se 0 3))) noLane,
    witS (.sts (se 0 1)) mSt (lpass mSt sload)], w.Met := met_all _ (by decide +kernel)

/-- An atomic at the address in A. -/
def ae (func : BitVec 8) (ty : BitVec 4) (a : Opnd) (c : Opnd := .zero) : Enc := enc func ty (.v 8) a .one c

theorem witness_AtomicsSend : ∀ w ∈ [wit (.atom (off (ae 0 7 (.v 2)))) noLane, witS (.atom (ae 0 7 (.v 2))) mSt (apass mSt gatom),
    wit (.atomCas (off (ae 7 7 (.v 2) (.v 5)))) noLane, witS (.atomCas (ae 7 7 (.v 2) (.v 5))) mSt (apass mSt gatom),
    wit (.atoms (off (ae 0 7 (.v 4)))) noLane, witS (.atoms (ae 0 8 (.v 4))) mSt (apass mSt satom),
    witS (.red (off { ae 0 7 (.v 2) with d := .zero })) mSt (fun c => noLane c && !c.e.func.getLsbD 4),
    witS (.red { ae 0 7 (.v 2) with d := .zero }) mSt (fun c => !c.e.func.getLsbD 4 && apass mSt gatom c),
    witS (.red (off { ae 16 7 (.v 4) with d := .zero })) mSt (fun c => noLane c && c.e.func.getLsbD 4),
    witS (.red { ae 16 7 (.v 4) with d := .zero }) mSt (fun c => c.e.func.getLsbD 4 && apass mSt satom c),
    wit (.arrive (off (enc 3 0 .zero (.imm 64) .zero .zero))) noLane,
    witS (.arrive (enc 1 0 .zero (.imm 64) (.imm 5) .zero)) mSt (passes mSt Ctx.arriveChk fun _ => 1),
    wit (.atomf (off (enc 0 7 .zero (.v 2) .one (.v 4)))) noLane, witS (.atomf (enc 0 7 (.imm 64) (.v 2) .one (.v 4))) mSt (apass mSt Ctx.atomfChk)],
    w.Met := met_all _ (by decide +kernel)

/-- Every lane fails with ALIGNMENT: the address is 2 modulo 4. -/
def fails (s : State) (chk : Ctx → State → Lane → LaneChk) (c : Ctx) : Bool :=
  c.act == ~~~ 0 && (List.finRange 32).all (fun l => match chk c s l with
    | .fault k _ _ _ _ _ => k == 0x03
    | _ => false) && classOrder.contains 0x03
def badSt : State := { mSt with groups := [(0, { mGrp with v := [(2, lanesOf 0x102), (3, lanesOf 1), (4, lanesOf 0x42), (5, lanesOf 0)] })] }

theorem witness_FailingLanes : ∀ w ∈ [witS (.ld (ge 0 3)) badSt (fails badSt gload), witS (.st (ge 0 3)) badSt (fails badSt gstore),
    witS (.lds (se 0 3)) badSt (fails badSt sload), witS (.sts (se 0 3)) badSt (fails badSt sload), witS (.ldc (se 0 3)) badSt (fails badSt Ctx.windowChk),
    witS (.atom (ae 0 7 (.v 2))) badSt (fails badSt gatom), witS (.atomCas (ae 7 7 (.v 2) (.v 5))) badSt (fails badSt gatom),
    witS (.atoms (ae 0 7 (.v 4))) badSt (fails badSt satom)], w.Met := met_all _ (by decide +kernel)

/-- The page is a register page, or may not be written. -/
def pageSt (ty : Nat) (wr : Bool) : State := { mSt with cores := [(0, { utlb := [{ placeEntry with ty := ty, wr := wr }] })] }
theorem witness_AddressChecks : ((0x100000000 : DWord).toNat % 4 = 0 ∧ (0x100000002 : DWord).toNat % 4 ≠ 0 ∧ 2 ^ 55 ≤ (0x80000000000000 : DWord).toNat) ∧
    (∃ e, ((pageSt 2 true).core 0).utlb.find? (·.hit 0 0x100000000) = some e ∧ e.ty = 2) ∧
    (∃ e, ((pageSt 1 false).core 0).utlb.find? (·.hit 0 0x100000000) = some e ∧ ¬ (e.ty = 2 ∧ false = false) ∧ e.permits .store = false) ∧
    (∃ e, ((pageSt 1 true).core 0).utlb.find? (·.hit 0 0x100000000) = some e ∧ e.permits .store = true ∧
      (pageSt 1 true).refuse false .store e.ty (e.frame + 0x100000000 % 2 ^ e.size) 4 = none) ∧
    (mSt.team (mSt.group 0).team).spadSize < 4096 + 4 ∧ 4092 + 4 ≤ (mSt.team (mSt.group 0).team).spadSize :=
  ⟨by decide +kernel, ⟨_, rfl, by decide +kernel⟩, ⟨_, rfl, by decide +kernel⟩, ⟨_, rfl, by decide +kernel⟩, by decide +kernel⟩

/-- The lanes of a prefetch all have a translation; they name `n` lines, and there is room for them. -/
def fetchesLines (s : State) (c : Ctx) (n : Nat) : Bool :=
  let chk (l : Lane) : LaneChk := s.checkGlobal c.slot c.priv c.g.asid .load 4 1 (c.gaddr c.xs l)
  c.act != 0 && (List.finRange 32).all (fun l => match chk l with
    | .wait _ => false
    | _ => true) && ((c.prefetchLines chk).length == n) && decide (s.requests c.core + n ≤ 4096)
theorem witness_PrefetchAndCacheControl : ∀ w ∈ [wit (.prefetch (off (enc 0 0 .zero (.v 2) .zero .zero))) noLane,
    witS (.prefetch (enc 0 0 .zero (.v 2) .zero .zero)) mSt (fun c => fetchesLines mSt c 1),
    witS (.prefetch (enc 0 0 .zero (.v 2) .zero .zero)) (pageSt 2 true) (fun c => fetchesLines (pageSt 2 true) c 0),
    wit (.cctl (off (enc 0 0 .zero (.v 2) .zero .zero))) noLane, wit (.cctl (enc 1 0 .zero .zero .zero .zero)) someLane,
    wit (.cctl (enc 3 0 .zero .zero .zero .zero)) someLane, witS (.cctl (enc 0 0 .zero (.v 2) .zero .zero)) mSt (passes mSt Ctx.cctlChk fun _ => 0),
    witS (.cctl (enc 2 0 .zero (.v 2) .zero .zero)) mSt (passes mSt Ctx.cctlChk fun _ => 0)], w.Met := met_all _ (by decide +kernel)

def ends (s : State) (c : Ctx) : Bool :=
  c.act != 0 && decide ((s.copiesOf c.slot).length < 64) &&
    (List.finRange 32).all fun l => !laneIn c.act l || ((c.acpChk s l).1.good && (c.acpChk s l).2.good)
def copies (s : State) (c : Ctx) : Bool :=
  c.act != 0 && decide ((s.copiesOf c.slot).length < 64) && (match c.acopyChks s with
    | .ok _ => true
    | _ => false)
/-- From v2:v3 in memory to the scratchpad at v4; s2:s3 and s4 hold the same. The cluster's TLB holds the page. -/
def cpSt : State := { mSt with groups := [(0, { mGrp with s := [(2, 0x100), (3, 1), (4, 0x40)] })], clusters := [(0, { tlb := [placeEntry] })] }
def ecp (a b c d : Opnd) : Enc := enc 0x23 0 d a b c

theorem witness_CopiesStart : ∀ w ∈ [wit (.acp (off (ecp (.v 2) .zero .zero (.v 4)))) noLane, witS (.acp (ecp (.v 2) .zero .zero (.v 4))) cpSt (ends cpSt),
    wit (.acopy (off (ecp (.s 2) .zero .zero (.s 4)))) noLane, witS (.acopy (ecp (.s 2) (.imm 48) .zero (.s 4))) cpSt (copies cpSt)],
    w.Met := met_all _ (by decide +kernel)

/-- Tag 2 is done and tag 15 has a copy under way. -/
def tagSt (done pend : Bool) : State :=
  st { vGrp 0 0 0 0 with v := [(2, lanesOf 0x18004)], tags := (if done then [(2, { done := true })] else []) ++ (if pend then [(15, { pend := 1 })] else []) }
def et (func : BitVec 8 := 0) : Enc := enc func 0 (.s 1) (.v 2) .zero .zero
def tagMask (c : Ctx) : Bool := (List.finRange 32).all (fun l => c.a .int l == c.ua) && (c.ua.setWidth 16 : BitVec 16) == 0x8004
def tagIs (done pend : Bool) (c : Ctx) : Bool :=
  tagMask c && c.act != 0 && ((List.range 16).any (fun t => (0x8004 : BitVec 16).getLsbD t && (c.g.tag t).done) == done) &&
    ((List.range 16).any (fun t => (0x8004 : BitVec 16).getLsbD t && (c.g.tag t).pend != 0) == pend)

theorem witness_TagInstructions : ∀ w ∈ [witS (.tffs (off (et 0))) (tagSt true true) (fun c => noLane c && tagMask c),
    witS (.tffs (et 1)) (tagSt true true) (tagIs true true), witS (.twaitany (off (et 1))) (tagSt true true) (fun c => noLane c && tagMask c),
    witS (.twaitany (et 1)) (tagSt true true) (tagIs true true), witS (.tffs (et 0)) (tagSt false true) (tagIs false true),
    witS (.twaitany (et 0)) (tagSt false false) (tagIs false false), witS (.twaitany (et 0)) (tagSt false true) (tagIs false true),
    witS (.twaitall (off (et 0))) (tagSt true true) (fun c => noLane c && tagMask c), witS (.twaitall (et 0)) (tagSt true false) (tagIs true false),
    witS (.twaitall (et 0)) (tagSt true true) (tagIs true true)], w.Met := met_all _ (by decide +kernel)

/-- Tokens 0 to n − 1 are outstanding. -/
def tokSt (n : Nat) : State := st { vGrp 0 0 0 0 with ftok := (List.range n).map fun t => (t, []) }
def ef (d : Opnd) (m : BitVec 10) : Enc := enc 0 0 d (.imm m) .zero .zero
def isOut (c : Ctx) (t : Nat) : Bool := (SMap.find c.g.ftok t).isSome

theorem witness_Fences : ∀ w ∈ [wit (.fissue (off (ef (.s 1) 31))) noLane,
    witS (.fissue (ef (.s 1) 31)) (tokSt 15) (fun c => c.act != 0 && !isOut c 15 && (List.range 15).all (isOut c)),
    witS (.fissue (ef (.s 1) 31)) (tokSt 16) (fun c => c.act != 0 && (List.range 16).all (isOut c)),
    wit (.fwait (off (ef .zero 3))) noLane, witS (.fwait (ef .zero 15)) (tokSt 15) (fun c => decide (c.ua.toNat % 2 ^ 32 = 15) && !isOut c 15),
    witS (.fwait (ef .zero 16)) (tokSt 0) (fun c => decide (16 ≤ c.ua.toNat % 2 ^ 32) && c.g.ftok.all fun p => decide (16 ≤ p.1)),
    witS (.fwait (ef .zero 15)) (tokSt 16) (fun c => c.act != 0 && decide (c.ua.toNat % 2 ^ 32 < 16) && isOut c 15),
    witS (.fwait (ef .zero 16)) (tokSt 1) (fun c => c.act != 0 && decide (16 ≤ c.ua.toNat % 2 ^ 32) && c.g.ftok.any fun p => decide (p.1 < 16)),
    wit (.fence (off (ef .zero 1))) noLane, witS (.fence (ef .zero 1)) (tokSt 15) (fun c => c.act != 0 && !isOut c 15 && (List.range 15).all (isOut c))],
    w.Met := met_all _ (by decide +kernel)

def ew : Enc := enc 0 0 (.s 6) (.s 2) (.imm 5) .zero

theorem witness_WaitsPark : ∀ w ∈ [⟨.wait (off ew), waitOwn, cpSt, noLane⟩, ⟨.wait ew, waitOwn, cpSt, fun c => c.g.wait.isNone && passes cpSt Ctx.waitChk (fun _ => 1) c⟩,
    wit (.nsleep (off (ef .zero 1))) noLane, wit (.nsleep (ef .zero 1)) (fun c => c.act != 0 && decide (c.ua.toNat % 2 ^ 32 ≠ 0)),
    wit (.nsleep (enc 0 0 .zero .zero .zero .zero)) (fun c => c.act != 0 && decide (c.ua.toNat % 2 ^ 32 = 0))], w.Met := met_all _ (by decide +kernel)

/-- A team with two tiles, whose core's queue holds `n` operations. -/
def tileSt (n : Nat) : State :=
  let o : MatOp := { id := 1, team := 0, slot := 0, uid := 0, gidx := 0, op := 0xD1, pc := 0 }
  { cpSt with teams := [(0, { slots := [(0, 0)], chunks := 8, acc := 2 })]
              cores := [(0, { utlb := [placeEntry], tileOwner := [(0, 0), (3, 0)], mq := List.replicate n o })] }
def tile (i : Instr) (n : Nat) (p : Ctx → Bool) : Wit := ⟨i, tileOk, tileSt n, p⟩
/-- Tile 1 at s2:s3 with a stride of 256 bytes; FUNC bit 3 is the scratchpad. -/
def em (func : BitVec 8) (ty : BitVec 4) (a : Opnd) : Enc := enc func ty (.s 6) a (.imm 256) .zero
def tiled (w : Nat) (c : Ctx) : Bool :=
  let b := c.ub.toNat % 2 ^ 32
  c.act != 0 && decide (c.ua.toNat % 16 = 0 ∧ b % 16 = 0 ∧ 64 * w ≤ b) &&
    (!c.e.func.getLsbD 3 || decide (c.ua.toNat % 2 ^ 32 + 63 * b + 64 * w ≤ ((tileSt 3).team c.g.team).spadSize)) && !(tileSt 3).holdAccess c.slot &&
    ((tileSt 3).core c.core).mqRoom
def roomy (n : Nat) (b : Bool) (c : Ctx) : Bool := c.act != 0 && (((tileSt n).core c.core).mqRoom == b)

theorem witness_TileInstructions : ∀ w ∈ [tile (.mzero (off (e0 1))) 0 noLane, tile (.mzero (e0 1)) 4 (roomy 4 false), tile (.mzero (e0 1)) 3 (roomy 3 true),
    tile (.mld (off (em 1 12 (.s 2)))) 0 noLane, tile (.mld (em 1 12 (.s 2))) 3 (tiled 4), tile (.mst (off (em 9 12 (.s 4)))) 0 noLane,
    tile (.mst (em 9 12 (.s 4))) 3 (tiled 4), tile (.mcvt (off (em 1 9 (.s 2)))) 0 noLane, tile (.mcvt (em 1 9 (.s 2))) 3 (tiled 1),
    tile (.mld (em 1 12 (.s 2))) 4 (fun c => (tileSt 3).holdAccess c.slot == false && roomy 4 false c), tile (.mrd (enc 1 0 (.v 8) (.imm 63) .zero .zero)) 4 (roomy 4 false),
    ⟨.mwr (enc 1 0 (.v 8) (.imm 63) .zero .zero), mwrOwn, tileSt 4, roomy 4 false⟩,
    tile (.mcvt (em 1 10 (.s 2))) 3 (tiled 2), tile (.mcvt (em 1 11 (.s 2))) 3 (tiled 2), tile (.mrd (off (enc 1 0 (.v 8) (.imm 63) .zero .zero))) 0 noLane,
    tile (.mrd (enc 1 0 (.v 8) (.imm 63) .zero .zero)) 3 (fun c => decide (c.ua.toNat % 2 ^ 32 < 64) && roomy 3 true c),
    ⟨.mwr (off (enc 1 0 (.v 8) (.imm 63) .zero .zero)), mwrOwn, tileSt 0, noLane⟩,
    ⟨.mwr (enc 1 0 (.v 8) (.imm 63) .zero .zero), mwrOwn, tileSt 3, fun c => decide (c.ua.toNat % 2 ^ 32 < 64) && roomy 3 true c⟩],
    w.Met := met_all _ (by decide +kernel)

/-- The register has been set in this cycle. -/
def setReg : CvReg := { openReg with setAt := some 0 }
def emma : Enc := enc 3 0 (.s 6) (.s 8) (.s 12) .one
/-- mwait on the token of s2. -/
def waitSt (t : Word) (r : CvReg) : State := { cvSt r with groups := [(0, { grp with s := [(2, t)] })] }
def emw : Enc := enc 0 0 (.s 6) (.s 2) .zero .zero
def tokIs (s : State) (bad done : Bool) (c : Ctx) : Bool :=
  let t := s.team c.g.team
  c.act != 0 && (tokenInvalid t (c.ua.setWidth 32) == bad) && (bad || (t.tokenDone (c.ua.setWidth 32) == done))

theorem witness_MmaAndItsWaits : ∀ w ∈ [⟨.mma (off emma), signOk, cvSt openReg, noLane⟩,
    ⟨.mma emma, signOk, cvSt { openReg with st := .faulted }, fun c => !(cvSt openReg).holdAccess c.slot && regIs (cvSt { openReg with st := .faulted }) .faulted c⟩,
    ⟨.mma emma, signOk, cvSt openReg, fun c => !(cvSt openReg).holdAccess c.slot && regIs (cvSt openReg) .open c⟩,
    ⟨.mma emma, signOk, cvSt setReg, fun c => c.act != 0 && (((cvSt setReg).team c.g.team).cvReg 3).justSet (cvSt setReg).cycle⟩,
    wit (.mofence (off e0)) noLane, wit (.mofence e0) someLane, wit (.mwait (off emw)) noLane,
    witS (.mwait emw) (waitSt 0x100000 openReg) (tokIs (waitSt 0x100000 openReg) true false),
    witS (.mwait emw) (waitSt 0xFFFF3 openReg) (tokIs (waitSt 0xFFFF3 openReg) false true),
    witS (.mwait emw) (waitSt 0x13 openReg) (tokIs (waitSt 0x13 openReg) false false)], w.Met := met_all _ (by decide +kernel)

/-- A team of one tile, whose area's lines the homes hold. -/
def oneTile : State := { tileSt 0 with teams := [(0, { slots := [(0, 0)], acc := 1 })], lines := (List.range 128).map fun k => (0x2000002 + k, { valid := true }) }
def frozenSt : State := { tileSt 0 with cores := [(0, { mq := [{ id := 1, team := 0, slot := 0, uid := 0, gidx := 0, op := 0xD2, pc := 0, st := .held }] })] }
def edr : Enc := enc 0 0 (.s 6) (.s 2) .zero .zero
def block64 (c : Ctx) : Bool := c.act != 0 && decide (c.ua.toNat % 64 = 0 ∧ c.ub.toNat % 64 = 0 ∧ c.uc.toNat % 64 = 0) && !oneTile.holdAccess c.slot

theorem witness_DrainingAndRefilling : ∀ w ∈ [⟨.mdrain (off edr), drainOwn, oneTile, noLane⟩,
    ⟨.mdrain edr, drainOwn, oneTile, fun c => block64 c && (oneTile.core 0).mqRoom⟩, ⟨.mfill (off { edr with d := .zero }), drainOwn, oneTile, noLane⟩,
    ⟨.mfill { edr with d := .zero }, drainOwn, oneTile, fun c => block64 c && c.ub == 0 && (oneTile.allOpen c.slot == []) &&
      ((c.fillBlocks oneTile (oneTile.team 0)).all fun a => (c.blockChk oneTile a).good) &&
        match oneTile.lineReads c.cluster 64 ((c.fillBlocks oneTile (oneTile.team 0)).map fun a => (c.blockChk oneTile a).pa) with
        | .ok _ => true
        | _ => false⟩,
    wit (.mresume (off (ef .zero 0x3FF))) noLane,
    witS (.mresume (ef .zero 0x3FF)) frozenSt (fun c => c.act != 0 && (frozenSt.core 0).mq.all fun o => o.st != .frozen)], w.Met := met_all _ (by decide +kernel)

def memW (l : List (Nat × Nat)) : List Host.Cell := l.foldl (fun m p => Memory.write m p.1 p.2 8) []
/-- A region at 0x100008000 with four counters, `f` in the first word of its block, and the words `ws` of a record at v2:v3. -/
def taskSt (f : Nat) (ws : List (Nat × Nat)) (task : Option Task := none) : State :=
  { mSt with
    groups := [(0, { mGrp with rcb := 0x100008000, asid := 0, task := task, taskrec := if task.isSome then 0x100000100 else 0 })]
    mem := memW ([(0x100008000, 0x800000 + f), (0x100008058, 4), (0x100008030, 0x20000), (0x100009000, 2 ^ 63 + 1)] ++ ws.map fun w => (0x100000100 + 8 * w.1, w.2))
    launches := [(0, { rcb := 0x100008000, desc := 0x100009000 })], lines := [(0x2000002, { valid := true })] }
/-- The record is read, its status is `st`, and there is room for a task or not. -/
def recIs (s : State) (n : Nat) (p : Nat → Bool) (rm : Bool) (c : Ctx) : Bool :=
  c.act != 0 && decide (c.ua.toNat % 64 = 0) && (match c.readRec s c.ua n with
    | .ok ws v => p (v.taskStatus c.g.rcb ws) && (v.room useTask c.g.rcb == rm)
    | _ => false)
def esp (a : Opnd) : Enc := enc 0 0 (.s 6) a .zero .zero
def etarm (func : BitVec 8) (a : BitVec 10) : Enc := enc func 0 (.s 6) (.imm a) .zero (if func = 0 then .s 2 else .zero)
def aTask : Task :=
  { addr := 0x100000100, entry := 0x100000400, prio := 0, succA := 0, succB := 0, rcb := 0x100008000, asid := 0, cwaddr := 0, since := 0,
    spawned := true, rank := 0 }
/-- The launch record of one team of one group. -/
def launchWords : List (Nat × Nat) := [(2, 2 ^ 32 + 1), (3, 1), (4, 0x22011)]
def sRegs (s : State) : State := { s with groups := s.groups.map fun g => (g.1, { g.2 with s := [(2, 0x100), (3, 1), (4, 0x40)] }) }
def launchIs (s : State) (zero : Bool) (c : Ctx) : Bool :=
  c.act != 0 && decide (c.ua.toNat % 128 = 0) && (match c.readRec s c.ua 16 with
    | .ok ws v => (v.submitStatus ws (some (c.g.rcb, v.descOf c.slot)) ((SMap.get v.launches (v.team c.g.team).launch {}).depth + 1) == 0) == zero
    | _ => false)
def launchSt : State := taskSt 0x80 launchWords
def readySt : State := { taskSt 0 [] with clusters := [(0, { ready := [aTask] })], cycle := 1 }

theorem witness_TaskInstructions : ∀ w ∈ [wit (.tspawn (off (esp (.s 2)))) noLane, wit (.tspawn (esp .one)) (fun c => c.act != 0 && decide (c.ua.toNat % 64 ≠ 0)),
    witS (.tspawn (esp (.s 2))) (sRegs (taskSt 0 [(0, 1)])) (recIs (sRegs (taskSt 0 [(0, 1)])) 8 (· != 0) true),
    witS (.tspawn (esp (.s 2))) (sRegs (taskSt 8 [])) (recIs (sRegs (taskSt 8 [])) 8 (· == 0) false),
    witS (.tspawn (esp (.s 2))) (sRegs (taskSt 0 [])) (recIs (sRegs (taskSt 0 [])) 8 (· == 0) true), wit (.tarm (off (etarm 0 0))) noLane,
    witS (.tarm (etarm 0 4)) (taskSt 0 []) (fun c => c.act != 0 && decide ((taskSt 0 []).ctrn c.g.rcb ≤ c.ua.toNat % 2 ^ 32)),
    witS (.tarm (etarm 1 3)) (taskSt 0 []) (fun c => c.act != 0 && c.e.func.getLsbD 0 && decide (c.ua.toNat % 2 ^ 32 < (taskSt 0 []).ctrn c.g.rcb)),
    witS (.tarm (etarm 0 3)) (sRegs (taskSt 0 [])) (fun c => c.act != 0 && !c.e.func.getLsbD 0 && decide (c.ua.toNat % 2 ^ 32 < (taskSt 0 []).ctrn c.g.rcb ∧
      c.uc.toNat % 64 = 0) && (match c.readRec (sRegs (taskSt 0 [])) c.uc 8 with
        | .ok ws v => v.taskStatus c.g.rcb ws == 0
        | _ => false)),
    wit (.tdec (off (enc 0 0 .zero .lane .zero .zero))) noLane,
    witS (.tdec (onP1 (enc 0 0 .zero .lane .zero .zero))) (taskSt 0 []) noLane,
    witS (.tdec (enc 0 0 .zero (.imm 3) .zero .zero)) (taskSt 0 []) (fun c => c.act != 0 &&
      (List.finRange 32).all fun l => decide ((c.a .int l).toNat % 2 ^ 32 < (taskSt 0 []).ctrn c.g.rcb)),
    ⟨.tdone e0, tdoneOwn, taskSt 0 [] (some aTask), fun c => (c.g.task == some aTask) && (aTask.succs.all fun i => decide (i < (taskSt 0 [] (some aTask)).ctrn c.g.rcb)) &&
      passes (taskSt 0 [] (some aTask)) (fun _ _ _ => .ok 0 none) (fun _ => 1) c⟩,
    wit (.tlaunch (off (esp (.s 2)))) noLane, wit (.tlaunch (esp .one)) (fun c => c.act != 0 && decide (c.ua.toNat % 128 ≠ 0)),
    witS (.tlaunch (esp (.s 2))) (sRegs (taskSt 0 [])) (launchIs (sRegs (taskSt 0 [])) false),
    witS (.tlaunch (esp (.s 2))) (sRegs launchSt) (launchIs (sRegs launchSt) true),
    ⟨.tget (enc 0 0 (.s 6) .zero .zero .zero), tgetOwn, readySt, fun c =>
      firstTask (readySt.takeable c.g.rcb readySt.cycle) (readySt.cluster c.cluster).ready == some aTask⟩,
    ⟨.tget (enc 0 0 (.s 6) .zero .zero .zero), tgetOwn, taskSt 0 [], fun c =>
      firstTask ((taskSt 0 []).takeable c.g.rcb 0) ((taskSt 0 []).cluster c.cluster).ready == none⟩],
    w.Met := met_all _ (by decide +kernel)

def rdOk : Ctx → State → Option (BitVec 8) := fun c _ => srFate c false
def wrOk : Ctx → State → Option (BitVec 8) := fun c _ => srFate c true
def rd (n : BitVec 8) : Instr := .srd (enc n 0 (.v 6) .zero .zero .zero)
def wr (n : BitVec 8) : Instr := .swr (enc n 0 .zero (.imm 5) .zero .zero)

theorem witness_SpecialRegisters : ∀ w ∈ ([0x01, 0x0F, 0x10, 0x12, 0x19, 0x20, 0x21, 0x6C, 0x6E].map fun n => (⟨rd n, rdOk, mSt, fun c => decide (c.e.func = n)⟩ : Wit)) ++
    ([0x13, 0x18, 0x19, 0x32, 0x33, 0x6C, 0x6D, 0x6E, 0x72, 0x73].map fun n => (⟨wr n, wrOk, mSt, fun c => c.act != 0 && decide (c.e.func = n)⟩ : Wit)) ++
    [⟨.swr (off (enc 0x19 0 .zero (.imm 1) .zero .zero)), wrOk, mSt, noLane⟩], w.Met := met_all _ (by decide +kernel)

def userSt : State := { mSt with groups := [(0, { mGrp with asid := 1 })] }
theorem witness_SpecialRegisterFates : ∀ w ∈ [witS (rd 0x30) userSt (fun c => (srFate c false == some 0x06) && c.e.ty == 0 && !c.priv),
    witS (rd 0x30) mSt (fun c => c.priv && c.e.ty == 0), witS (.srd (enc 0x13 0 (.s 1) .zero .zero .zero)) mSt (fun c => (srFate c false == some 0x05) && c.e.ty == 0),
    witS (.srd (enc 0x01 8 (.s 2) .zero .zero .zero)) mSt (fun c => (srFate c false == some 0x05) && c.e.ty == 8),
    witS (wr 0x12) mSt (fun c => (srFate c true == some 0x05) && c.e.ty == 0 && !c.e.a.perLane)], w.Met := met_all _ (by decide +kernel)

/-- Lanes 1 to 31 are exited or call-parked already. -/
def lastSt : State := st { vGrp 8 1 2 3 with exited := 0xFFFF0000, callParked := 0xFFFE, batch := 1 }
theorem witness_ScallParksItsLanes : ∀ w ∈ [wit (.scall (off (e0 0))) noLane, wit (.scall (e0 1)) (fun c => c.act != 0 && !c.g.routine),
    witS (.scall (e0 0)) lastSt (fun c => c.act != 0 && (c.g.exited ||| c.g.callParked ||| c.act == ~~~ 0))], w.Met := met_all _ (by decide +kernel)

def etr : Enc := enc 0 0 .zero (.imm 0x1FF) .zero .zero
theorem witness_Traps : ∀ w ∈ [wit (.trap (off etr)) noLane, wit (.trap etr) (fun c => c.act != 0 && !c.e.sw), wit (.trap (sw etr)) someLane,
    wit (.bkpt (off etr)) noLane, wit (.bkpt etr) (fun c => c.act != 0 && !c.e.sw), wit (.bkpt (sw etr)) someLane,
    wit (.bkpt etr) (fun c => c.act != 0 && ((st (vGrp 8 1 2 3)).team c.g.team).pre == .none_)], w.Met := met_all _ (by decide +kernel)

/-- A record that may be written, and queues with room and without. -/
def aFault : FaultInfo := { cls := 0x12, lanes := 1, pc := 0 }
theorem witness_ExceptionEntry : aFault.cls ≠ 0x08 ∧ (mSt.team (mSt.group 0).team).pre = .none_ ∧ aFault.kind < 8 ∧ aFault.space < 4 ∧ aFault.level < 4 ∧
    ({ fhead := 1, ftail := 0 } : Cluster).fqFull = true ∧ ({} : Cluster).fqFull = false ∧ ({} : Cluster).fwait = [] := by decide +kernel

theorem witness_Delivery : ({ grp with trapvec := 4 } : Group).canDeliver true = true ∧ ({ grp with uivec := 4 } : Group).canDeliver false = true ∧
    (mSt.group 0).canDeliver true = false := by decide +kernel

/-- In the handler: its lanes, SYNC, and the file kept. -/
def inhSt (lanes : LaneMask) (sync : Bool) (k : Option RunSave) : State :=
  st { vGrp 8 1 2 3 with inh := true, traplanes := lanes, sync := sync, trapSave := k, batch := 1 }
def aSave : RunSave := { l0 := LEntry.undef, l1 := LEntry.undef, q := [], batch := 1, count := 0 }
/-- Some active lane's TRAPRET is no multiple of 4. -/
def badRet (c : Ctx) : Bool := bad c fun l => c.g.trapret[l]
def oddRet : State := { inhSt 1 true none with groups := (inhSt 1 true none).groups.map fun g => (g.1, { g.2 with trapret := lanesOf 2 }) }
theorem witness_ReturnFromTheHandler : ∀ w ∈ ([⟨.uiret e0, uiretOwn, inhSt 3 true none, fun c => !badRet c && c.g.midRun.isNone && c.g.traplanes &&& ~~~ c.g.batch != 0⟩,
    ⟨.uiret e0, uiretOwn, oddRet, fun c => badRet c && c.g.midRun.isNone⟩,
    ⟨.uiret e0, uiretOwn, inhSt 1 false none, fun c => !badRet c && c.g.midRun.isNone && c.g.traplanes &&& ~~~ c.g.batch == 0⟩,
    ⟨.uiret e0, uiretOwn, inhSt 1 true (some aSave), fun c => !badRet c && c.g.midRun.isNone && c.g.traplanes &&& ~~~ c.g.batch == 0 && c.g.trapSave == some aSave⟩] : List Wit),
    w.Met := met_all _ (by decide +kernel)

def eui (func : BitVec 8) : Enc := enc func 0 (.s 6) (.imm 5) .zero .zero
def npSt (n : Nat) : State := st { vGrp 0 0 0 0 with npdepth := n }
def ets (func : BitVec 8) : Enc := enc func 0 (.s 6) .zero .zero .zero
theorem witness_MasksSectionsAndTime : ∀ w ∈ [wit (.uimask (off (eui 0))) noLane, wit (.uimask (eui 0)) someLane, wit (.uimask (eui 1)) someLane, wit (.uimask (eui 2)) someLane,
    wit (.npbegin (off e0)) noLane, witS (.npbegin e0) (npSt 14) (fun c => c.act != 0 && decide (c.g.npdepth < 15)),
    witS (.npbegin e0) (npSt 15) (fun c => c.act != 0 && decide (15 ≤ c.g.npdepth)), wit (.npend (off e0)) noLane, witS (.npend e0) (npSt 1) someLane,
    wit (.ckpt (off e0)) noLane, wit (.ckpt e0) (fun c => !((st (vGrp 8 1 2 3)).team c.g.team).paired), wit (.tstampr (off (ets 1))) noLane,
    wit (.tstampr (ets 0)) (fun c => !c.e.func.getLsbD 0), wit (.tstampr (ets 1)) (fun c => c.act != 0 && c.e.func.getLsbD 0)], w.Met := met_all _ (by decide +kernel)

/-- A team whose group holds one block of each kind; with the core full, there is room after another team has gone. -/
def growSt (full : Bool) : State :=
  let s := st { vGrp 0 0 0 0 with vblk := 1, sblk := 1, sids := [0] }
  if full then { s with teams := s.teams ++ [(1, { chunks := 239 })] } else s
def egr (n : BitVec 10) : Enc := enc 0 0 (.s 6) (.imm n) .zero .zero
theorem witness_GrowAndCarve : ∀ w ∈ [wit (.grow (off (egr 1))) noLane, witS (.grow (egr 8)) (growSt false) (fun c => c.act != 0 && (growSt false).growNever c.slot (c.ua.toNat % 2 ^ 32) 0),
    witS (.grow (egr 7)) (growSt false) (fun c => c.act != 0 && !(growSt false).growNever c.slot 7 0 && (growSt false).growFits c.slot 7 0),
    witS (.grow (egr 7)) (growSt true) (fun c => c.act != 0 && !(growSt true).growNever c.slot 7 0 && !(growSt true).growFits c.slot 7 0),
    wit (.carve (off (egr 1))) noLane, wit (.carve (egr 1)) someLane], w.Met := met_all _ (by decide +kernel)

/-- A routine of a group of one block of each kind, whose save area is the page. -/
def rtSt : State :=
  { mSt with
    groups := [(0, { mGrp with routine := true, v := [], s := [(2, 0), (3, 1)] })], stash := [(0, { vblk := 1, sblk := 1 })]
    lines := (List.range 512).map fun k => (0x2000000 + k, { valid := true }) }
def eg (part : BitVec 8) : Enc := enc part 0 .zero (.s 2) .zero .zero
def partPlaces (r : Right) (c : Ctx) : List Nat := (List.range ((SMap.get rtSt.stash c.slot {}).partSize (c.e.func.toNat % 8))).map fun k =>
  (rtSt.checkGlobal c.slot c.priv c.g.asid r 8 8 (c.ua + BitVec.ofNat 64 (8 * k))).pa
/-- What a save asks of its places, and a restore of its reads. -/
def placesOk (r : Right) (c : Ctx) : Bool :=
  if r = .store then (partPlaces r c).all fun a => rtSt.unitFree c.cluster a 8 true && rtSt.fateFrom c.cluster a != .moved
  else match rtSt.lineReads c.cluster 8 (partPlaces r c) with
    | .ok _ => true
    | _ => false
def partOk (r : Right) (c : Ctx) : Bool :=
  placesOk r c && c.act != 0 && decide (c.ua.toNat % 64 = 0) && !rtSt.holdAccess c.slot && (rtSt.allOpen c.slot == []) &&
    (List.range ((SMap.get rtSt.stash c.slot {}).partSize (c.e.func.toNat % 8))).all fun k =>
      (rtSt.checkGlobal c.slot c.priv c.g.asid r 8 8 (c.ua + BitVec.ofNat 64 (8 * k))).good
theorem witness_SaveAndRestore : ∀ w ∈ ([⟨.gsave (off (eg 0)), routineOnly, rtSt, noLane⟩, ⟨.gsave (eg 4), routineOnly, rtSt, partOk .store⟩,
    ⟨.grest (off (eg 0)), routineOnly, rtSt, noLane⟩, ⟨.grest (eg 0), routineOnly, rtSt, partOk .load⟩] : List Wit), w.Met := met_all _ (by decide +kernel)

/-- The context of an instruction that does not issue: its operands lie outside, it is privileged, or it waits for l0. -/
def blockedBy (i : Instr) (s : State) (p : Ctx → Bool) : Bool := match s.ctxOf i with
  | some c => c.g.canIssue && s.alone c.g && p c
  | none => false
def smallSt : State := st { vGrp 0 0 0 0 with vblk := 1 }
def pendSt : State := { mSt with parts := [(0, { l0 := { LEntry.undef with pend := some 1 } })] }
theorem witness_Malformed : blockedBy (.iadd (enc 0 3 (.v 32) .one .one .zero)) smallSt (fun c => !c.e.allocOk c.g c.p) = true ∧
    blockedBy (.mdrain edr) userSt (fun c => c.e.allocOk c.g c.p && c.e.kindsOk c.p) = true ∧
    blockedBy (.gsave (eg 0)) userSt (fun c => c.e.allocOk c.g c.p && c.p.priv && c.g.asid != 0) = true ∧
    blockedBy (.bra (eu 0 (.v 2))) mSt (fun c => c.e.allocOk c.g c.p && !c.p.priv && !c.e.kindsOk c.p) = true ∧
    blockedBy (.iadd (enc 0 3 (.v 1) .l0 .one .zero)) pendSt (fun c => c.e.allocOk c.g c.p && !c.p.priv && c.e.kindsOk c.p && c.interlocked) = true := by
  decide +kernel

/-! ### Witnesses: encoding, decoding, steps and fetching -/

def decodes (ws : List Word) : Bool := match decode ws with
  | .ok _ => true
  | .error _ => false
def rejects (ws : List Word) (r : Reject) : Bool := match decode ws with
  | .ok _ => false
  | .error e => e == r

theorem witness_Encoding : (Instr.iadd (e2 0 3)).wf = true ∧ (Instr.iadd (e2 0 3)).enc.isSome = true ∧ decodes [0xD6205488] = true := by decide +kernel

/-- A word placed at the program counter: `iadd v1, v2, v3` in its base form, a word of zeros, and a group that has ended its run. -/
def stepSt (nbits w : Nat) : State := State.reset.withFetchWord nbits w
def fetches (s : State) (i : Bool) : Bool := match (s.nextAction exec).2.fetch 0 with
  | .instr _ _ => i
  | .stop _ => !i

theorem witness_StepRuns : (stepSt 32 0xD6205488).stopped = false ∧ ((stepSt 32 0xD6205488).nextAction exec).1 = .issue 0 ∧
    (((stepSt 32 0xD6205488).nextAction exec).2.group 0).canIssue = true ∧ fetches (stepSt 32 0xD6205488) true = true ∧ fetches (stepSt 32 0) false = true ∧
    (Instr.packageReset).spec = none ∧ ({ stepSt 32 0 with agenda := [.event .packageReset] } : State).agenda = .event .packageReset :: [] ∧
    ({ stepSt 32 0 with agenda := [.tick 3 1] } : State).agenda = .tick 3 1 :: [] := by decide +kernel

def isOk (r : LaneChk) (pa : Nat) : Bool := match r with
  | .ok p _ => p == pa
  | _ => false
def gives (s : State) (n : Nat) : List Word := match fetchWords 0 (s.group 0).batchPc 1 0 s with
  | .ok [w] t => (match fetchWords 0 (s.group 0).batchPc n 1 t with
    | .ok ws _ => w :: ws
    | _ => [])
  | _ => []
def cachedSt : State := { stepSt 32 0xD6205488 with cores := [(0, { utlb := [placeEntry], icache := [(placeAddr / 128, List.replicate 32 7)] })] }

theorem witness_Fetch : isOk ((stepSt 32 0xD6205488).checkGlobal 0 true 0 .fetch 4 4 (BitVec.ofNat 64 placeAddr)) placeAddr = true ∧ placeAddr % 4 = 0 ∧
    SMap.find (cachedSt.core 0).icache (placeAddr / 128) = some (List.replicate 32 7) ∧ SMap.find ((stepSt 32 0).core 0).icache (placeAddr / 128) = none ∧
    ((stepSt 32 0).line placeAddr).valid = true ∧ (stepSt 32 0).fateFrom 0 placeAddr = .perform ∧
    (stepSt 32 0).behindRing placeAddr 4 = false ∧ (stepSt 32 0).linePsn placeAddr = false ∧
    ((stepSt 32 0).group 0).trapHere = false ∧ (stepSt 32 0).pairHold 0 = false ∧ gives (stepSt 32 0xD6205488) 0 = [0xD6205488] ∧
    decodes (gives (stepSt 96 0x000070000400410804288502) 2) = true ∧ rejects (gives (stepSt 32 0) 0) .illegalOpcode = true ∧
    rejects (gives (stepSt 96 0x200070000400410804288502) 2) .illegalEncoding = true := by decide +kernel

theorem witness_StepKeepsMemoryForm : Memory.wf (stepSt 32 0xD6205488).mem = true ∧ (match step (stepSt 32 0xD6205488) with
    | .next _ => true
    | _ => false) = true := by decide +kernel

theorem witness_HomeWrites (pa : Nat) : (∀ h, h = mSt.homeNow pa ∨ h ∈ mSt.homesOf pa → (mSt.slice h).mon = [] ∧ (mSt.slice h).sphead = []) ∧
    (mSt.line pa).dec = false := ⟨fun _ _ => ⟨rfl, rfl⟩, rfl⟩

theorem witness_OperandValues : (8 : Nat) ∈ [8, 16, 32, 64] ∧ 448 < (0x1FF : BitVec 10).toInt ∧ (0x200 : BitVec 10).toInt < -448 := by decide +kernel

/-! ### Witnesses: events -/

/-- No granule is on the move and no ring holds a write. -/
structure Still (s : State) : Prop where
  even : s.hub.odd = false
  first : s.hub.prev = none
  unsealed : s.hub.granule = none
  rings : s.slices = []

theorem Still.performs {s : State} (h : Still s) (home pa : Nat) : s.homeFate home pa = .perform := by
  simp [State.homeFate, h.even, h.first]

/-- Every request is performed. -/
theorem Still.fateBy {s : State} (h : Still s) (d : RouteDesc) (pa : Nat) : s.fateBy d pa = .perform := by
  unfold State.fateBy
  split
  · exact h.performs _ _
  · rfl

theorem Still.notMoved {s : State} (h : Still s) (point pa : Nat) : s.fateFrom point pa ≠ .moved := by
  rw [State.fateFrom, h.fateBy]
  decide

theorem Still.free {s : State} (h : Still s) (point pa n : Nat) (wr : Bool) : s.unitFree point pa n wr = true := by
  have hold : s.ringHolds (s.homeNow pa) pa n = false := by
    simp [State.ringHolds, State.bucketUsed, State.slice, h.rings, SMap.get]
  have p : s.passes point pa = true := by rw [State.passes, State.fateFrom, h.fateBy]; rfl
  have f : s.fillHeld pa = false := by
    have q : ∀ a, s.sealed a = false := fun a => by simp [State.sealed, h.unsealed]
    unfold State.fillHeld
    split <;> simp [q]
  have b : s.behindRing pa n = false := by simp [State.behindRing, h.rings]
  simp [State.unitFree, hold, p, f, b]

theorem Still.allFree {s : State} (h : Still s) (point : Nat) (wr : Bool) (l : List (Nat × Nat)) :
    s.allFree point wr l = true ∧ ∀ p ∈ l, s.fateFrom point p.1 ≠ .moved :=
  ⟨List.all_eq_true.mpr fun _ _ => h.free _ _ _ _, fun _ _ => h.notMoved _ _⟩

def isStill (s : State) : Bool := !s.hub.odd && s.hub.prev.isNone && s.hub.granule.isNone && s.slices.isEmpty

theorem Still.of {s : State} (h : isStill s = true) : Still s := by
  simp only [isStill, Bool.and_eq_true, Bool.not_eq_true', Option.isNone_iff_eq_none, List.isEmpty_iff] at h
  exact ⟨h.1.1.1, h.1.1.2, h.1.2, h.2⟩

theorem mSt_still : Still mSt := .of (by decide +kernel)

/-- Half way through a migration off stack 1, past the page of the tests. -/
def movHub : Hub := { mSt.hub with phase := 1, mstate := 2, live := 2, retire := 2, mnext := 0x20000, mend := 0x40000 }

/-- The two hashes of that migration send a granule to different stacks. -/
theorem homes_apart (pa : Nat) : homeUnder 2 pa ≠ homeUnder 0 pa := by
  have h : stacksOf 2 = [1] := by decide
  have k : stacksOf 0 = [] := by decide
  have e : Config.interleave 32 (pa / 2 ^ 16) % 32 / 32 = 0 := Nat.div_eq_of_lt (Nat.mod_lt _ (by decide))
  simp only [homeUnder, h, k, List.length_cons, List.length_nil, List.getD_nil, Nat.zero_add, Nat.mul_one, e, List.getD_cons_zero]
  omega

/-- A request by a descriptor of before the migration is refused with MOVED. -/
theorem moves {s : State} (h : s.hub = movHub) (pa : Nat) (lo : pRange pa = .hbm) (cap : pa < 2 ^ 33) : s.fateBy {} pa = .moved := by
  have g : granuleOf pa < s.hub.mnext := by rw [h]; show pa / 2 ^ 16 < 0x20000; omega
  have c : pa < s.hub.memcap := by rw [h]; show pa < 2 ^ 34; omega
  have ho : s.hub.odd = true := by rw [h]; decide
  have ne : homeUnder s.hub.live pa ≠ homeUnder s.hub.newLive pa := by rw [h]; exact homes_apart pa
  have b : s.homeBy {} pa = homeUnder s.hub.live pa := rfl
  rw [State.fateBy, b]
  simp [lo, c, State.homeFate, ho, ne, g]

def pieceAt (a : Nat) (home : Nat := 0) : Piece := { addr := a, size := 4, parts := [{ lane := 0, off := 0, n := 4, voff := 0 }], home := home, cap := 2 ^ 34 }
def access (k : AccKind) (ps : List Piece) : Access :=
  { slot := 0, uid := 0, pc := 0, space := .global, kind := k, lanes := 1, ord := 0, priv := false, cached := false, bits := 32, signed := false,
    pieces := ps, data := lanesOf 0, after := [], ea := lanesOf 0, run := 0, cycle := 0, dest := if k = .load then some ⟨.v 8, 32, 1, 0⟩ else none }
/-- An access 1 of two requests of a group, whose lines are valid. -/
def accSt (k : AccKind) (f : Piece → Piece := id) : State :=
  { mSt with accs := [(1, access k [f (pieceAt 0x100000100), pieceAt 0x100000200])], lines := [(0x2000002, { valid := true }), (0x2000004, { valid := true })] }
def hartAt (pa : Nat) : HartReq := { agent := .service 0 .machine, pa := pa, n := 8 }
/-- An access whose first request waits in a ring. -/
def ringSt : State := { accSt .store (fun p => { p with stalled := true }) with slices := [(0, { stall := [{ acc := 1, piece := 0 }], grsize := 4 })] }

theorem witness_HomesPerformRequests :
    (∀ k ∈ [AccKind.load, .store, .atomic 0 7], (accSt k).pieceOpen 1 0 = some (access k [pieceAt 0x100000100, pieceAt 0x100000200], pieceAt 0x100000100)) ∧
    (pieceAt 0x100000100).isLocal = true ∧ pRange 0x100000100 = .hbm ∧ ((accSt .load).line 0x100000100).valid = true ∧
    ((accSt .load).line 0x100000100).psn = false ∧ (∀ h, ((accSt .load).slice h).mon = [] ∧ ((accSt .load).slice h).sphead = []) ∧
    (accSt .load).containedOf (access .load []) = none ∧
    (∀ k ∈ [HartOp.load, .store, .amo], (accSt .load).hartDue k (hartAt 0x100000300) = true) ∧
    ringSt.ringNext 0 = some ({ acc := 1, piece := 0 }, access .store [{ pieceAt 0x100000100 with stalled := true }, pieceAt 0x100000200],
      { pieceAt 0x100000100 with stalled := true }) ∧
    (accSt .load).sealed 0x100000300 = false ∧ (SMap.find (accSt .load (fun p => { p with moved := true })).accs 1).isSome = true ∧
    (({ mSt with accs := [(1, access .load [{ pieceAt 0x100000100 with done := true }])] } : State).responseDue 1).isSome = true :=
  ⟨by decide +kernel, by decide +kernel, by decide +kernel, by decide +kernel, by decide +kernel, fun _ => ⟨rfl, rfl⟩, by decide +kernel, by decide +kernel,
    by decide +kernel, by decide +kernel, by decide +kernel, by decide +kernel⟩

/-- The first request is granted by its slice, which no other domain waits at; its line is not decoded, and another request of the access is open. -/
theorem witness_HomesGrant : (∀ k ∈ [AccKind.load, .store, .atomic 0 7],
      (accSt k).pieceGrant (access k [pieceAt 0x100000100, pieceAt 0x100000200]) (pieceAt 0x100000100) = true) ∧
    (∀ d ∈ (accSt .load).waitingAt 0, d = (accSt .load).clusterDomain (slotCluster 0)) ∧ ((accSt .load).line 0x100000100).dec = false ∧
    (access .load [pieceAt 0x100000100, pieceAt 0x100000200]).stale = false ∧
    (∃ j q, j ≠ 0 ∧ (access .load [pieceAt 0x100000100, pieceAt 0x100000200]).pieces[j]? = some q ∧ q.done = false) :=
  ⟨by decide +kernel, by decide +kernel, by decide +kernel, rfl, 1, pieceAt 0x100000200, by decide, rfl, rfl⟩

/-- An access whose translation a shootdown has removed; an atomic that has begun; a slice whose ring owes records. -/
def staleAcc : Access := { access .load [pieceAt 0x100000100, pieceAt 0x100000200] with stale := true }
def begunAcc : Access := access (.atomic 0 7) [pieceAt 0x100000100, pieceAt 0x100000200, { pieceAt 0x100000300 with done := true }]
theorem witness_HomesPerformOthers : ({ accSt .load with accs := [(1, staleAcc)] } : State).pieceOpen 1 0 = some (staleAcc, pieceAt 0x100000100) ∧
    ({ accSt .load with accs := [(1, begunAcc)] } : State).pieceOpen 1 0 = some (begunAcc, pieceAt 0x100000100) ∧ begunAcc.untouched = false ∧ begunAcc.bad = false ∧
    (({ mSt with slices := [(0, { owed := [(1, 2)] })] } : State).slice 0).owed ≠ [] ∧ (ringSt.slice 0).owed = [] ∧
    mSt.windowOf (lineOf 0x100000300) = none := by decide +kernel

/-- No home turns the request away before MEMCAP, out of a migration. -/
theorem witness_TurnedAway (h : Nat) : (accSt .load).turned h (2 ^ 34) 0x100000100 4 false = .no := by
  have : (accSt .load).homeFate h 0x100000100 = .perform := rfl
  simp [State.turned, this]

theorem witness_HomeLineFill (pa : Nat) : mSt.deadAt pa = false := by simp [State.deadAt, mSt, st, State.reset]

def aDest : Dest := ⟨.v 8, 32, ~~~ 0, 5⟩
theorem witness_ReturnedResults : (∀ z ∈ (pendSt.group 0).haz, z.seq ≤ aDest.seq) ∧ (∀ r, aDest.opnd.firstReg = some r → r + 1 ≤ 264 ∨ 1024 ≤ r) ∧
    (pendSt.part (slotPart 0)).l0.pend = some 1 ∧ ({ access .load [] with bits := 16 } : Access).once = false := by
  refine ⟨by decide +kernel, ?_, by decide +kernel, by decide +kernel⟩
  intro r h
  simp only [aDest, Opnd.firstReg, Option.some.injEq] at h
  subst h
  decide

def spadAcc : Access := { access .load [pieceAt 64] with space := .spad }
def fwdAcc : Access := { access (.atomic 0 7) [{ pieceAt 0x100000100 with done := true }] with fwd := some (lanesOf 64, 128) }
def aWalk : Walk := { asid := 1, page := 5, desc := 0x100009000, req := [], running := true }
def aCas : CasReq := { addr := 0x100000100, old := 0, frame := 0, cap := 2 ^ 34, route := {} }
def clSt (c : Cluster) : State := { mSt with clusters := [(0, c)] }
def shootSt : State := { mSt with shoots := [{ core := 0, token := 7, scope := 0, asid := 0, va := 0, clusters := [], accs := [], copies := [], waits := [] }] }
theorem witness_ScratchpadAndTranslation : ({ mSt with accs := [(1, spadAcc)] } : State).arbDue 0 = true ∧
    ({ mSt with teams := [(0, { badPar := [(0, 3, 1)] })] } : State).groupFree 0 1 = true ∧
    (({ mSt with accs := [(1, fwdAcc)] } : State).forwardDue 1 0).isSome = true ∧ SMap.find fwdAcc.fwdAt 0 = none ∧ ({ mSt with accs := [(1, fwdAcc)] } : State).accTeam fwdAcc = 0 ∧
    (tokSt 1).tokenDue 0 0 = true ∧ (({ mSt with hub := { mSt.hub with fwin := [(0, { busy := true })] } } : State).fwin 0).busy = true ∧
    ((clSt { missWait := [aWalk] }).cluster 0).admitDue = true ∧ (clSt { walks := [aWalk], desc := [(1, { en := true, root := 0x100000000, shadow := 0, shlimit := 0, addr := 0x100009000 })] }).walkDue 0 1 5 = some aWalk ∧
    (clSt { walks := [{ aWalk with cas := some aCas }] }).casDue 0 1 5 = some ({ aWalk with cas := some aCas }, aCas) ∧
    (shootSt.shootDue 0 7).isSome = true := by decide +kernel

/-- The addition to a shadow counter may be made; its home holds the line; a forwarded value has been granted; a CAS by an old descriptor. -/
def shadowSt : State := { mSt with shadows := [(0, 0x100000400, 8, 1, 3)], lines := [(0x2000008, { valid := true })] }
theorem witness_ShadowAdd : shadowSt.shadows[0]? = some (0, 0x100000400, 8, 1, 3) ∧ shadowSt.fateFrom 0 (0x100000400 + 2 * 1) = .perform ∧
    shadowSt.fillHeld (0x100000400 + 2 * 1) = false ∧ shadowSt.behindRing (0x100000400 + 2 * 1) 2 = false ∧
    shadowSt.ringHolds (shadowSt.homeNow (0x100000400 + 2 * 1)) (0x100000400 + 2 * 1) 2 = false ∧ 0x100000400 + 2 * 1 < shadowSt.hub.memcap ∧
    (shadowSt.line (0x100000400 + 2 * 1)).valid = true ∧ shadowSt.scaleHit (0x100000400 + 2 * 1) 2 = false ∧
    shadowSt.homesOf (0x100000400 + 2 * 1) = [shadowSt.homeNow (0x100000400 + 2 * 1)] :=
  ⟨rfl, (Still.fateBy (.of (by decide +kernel)) _ _), by decide +kernel, by decide +kernel, rfl, by decide +kernel, by decide +kernel, by decide +kernel, rfl⟩
theorem witness_Forwarded : ({ fwdAcc with fwdAt := [(0, (false, 3))] } : Access).fwd = some (lanesOf 64, 128) ∧
    SMap.find ({ fwdAcc with fwdAt := [(0, (false, 3))] } : Access).fwdAt 0 = some (false, 3) := by decide +kernel
theorem witness_CasFate : (clSt { walks := [{ aWalk with cas := some aCas }] }).fateBy aCas.route aCas.addr ≠ .moved := by
  rw [Still.fateBy (.of (by decide +kernel))]
  decide
def movCas : State := { clSt { walks := [{ aWalk with cas := some aCas }] } with hub := movHub }
theorem witness_CasMoved : movCas.casDue 0 1 5 = some ({ aWalk with cas := some aCas }, aCas) ∧ movCas.fateBy aCas.route aCas.addr = .moved := by
  have k : movCas.fateBy aCas.route aCas.addr = .moved := moves rfl _ (by decide) (by decide)
  have w : (movCas.cluster 0).walk 1 5 = some { aWalk with cas := some aCas } := by decide +kernel
  refine ⟨?_, k⟩
  rw [State.casDue]
  simp only [w, k]
  decide +kernel

/-- Group 0 waits for a word of its page: its WAIT has come to the word's arbiter. -/
def aWait (a : Nat) (opnd deadline : DWord) : WaitReq :=
  { pc := 0, sp := false, addr := a, ea := 0, w64 := false, cmp := 0, acq := false, opnd := opnd, deadline := deadline, d := ⟨.zero, 0, 1, 0⟩, lanes := 1, cap := 2 ^ 34 }
def waitingSt (w : WaitReq) (now : DWord := 0) : State :=
  { mSt with groups := [(0, { mGrp with st := .blocked, blocks := [.wait], wait := some w })], waits := [(0, 0)], tstamp := now,
             lines := [(w.addr / 128, { valid := true })] }
def checks (w : WaitReq) (sat late : Bool) (now : DWord := 0) : Bool :=
  let s := waitingSt w now
  s.waitDue 0 == some w && decide (w.addr < w.cap) && (s.line w.addr).valid && !(s.line w.addr).psn &&
    satisfies w.cmp (s.valueAt w.addr w.w64) w.opnd w.w64 == sat && (w.deadline != 0 && decide (w.deadline.toNat ≤ s.tstamp.toNat)) == late
def aMon : MonEntry := { w64 := false, cmp := 0, acq := false, addr := 0x100000100, opnd := 1, deadline := 5, ctx := 0, dom := 0, waiter := 0, rcb := 0, slotpa := 0 }
def aWatch : Watch := { slot := 0, uid := 0, team := 0, addr := 64, w64 := false, cmp := 0, opnd := 1, deadline := 5 }
def aReq : ArmReq := { entry := { core := 0, idx := 0, w64 := false, cmp := 0, addr := 0x100000100, opnd := 0 }, cap := 2 ^ 34, route := {} }
def enSt (en : Bool) : State := { waitingSt (aWait 0x100000100 1 0) with slices := (List.range 256).map fun k => (k, { en := en }) }
/-- A slice of 256 equal ones, whichever is the home. -/
theorem witness_Registers : (List.range 256).all (fun h => ((enSt true).slice h).en && decide (((enSt true).slice h).mon.length < min 1024 ((enSt true).slice h).limit) &&
    !((enSt false).slice h).en && !((enSt false).slice h).spen) = true ∧ (aWait 0x100000100 1 0).mark = false := by decide +kernel

theorem witness_WaitingGroupsWake : checks (aWait 0x100000100 0 0) true false = true ∧ checks (aWait 0x100000100 1 5) false true 5 = true ∧
    checks (aWait 0x100000100 1 6) false false 5 = true ∧ (waitingSt { aWait 0x100000100 0 0 with cap := 0x100000100 }).waitDue 0 = some { aWait 0x100000100 0 0 with cap := 0x100000100 } ∧
    ({ mSt with wakes := [{ waiter := 0, ctx := 0, status := 1, val := 0, psn := false }] } : State).wakes[0]? =
      some { waiter := 0, ctx := 0, status := 1, val := 0, psn := false } ∧
    ({ mSt with watch := [aWatch], tstamp := 5 } : State).lateWatch 0 = some aWatch ∧
    ({ mSt with slices := [(3, { mon := [aMon] })], tstamp := 5 } : State).lateEntry 3 0 = some aMon ∧
    ({ mSt with groups := [(0, { mGrp with st := .blocked, blocks := [.wait], wait := some (aWait 0x100000100 1 0), uivec := 4, uipend := 1 })] } : State).withdrawDue 0 = true ∧
    ({ mSt with groups := [(0, { mGrp with st := .blocked, blocks := [.nsleep 5] })], tstamp := 5 } : State).sleepOver 0 = some (.nsleep 5) ∧
    ({ mSt with groups := [(0, { mGrp with st := .blocked, blocks := [.bar] })] } : State).gateDue 0 = true ∧
    ({ mSt with armReqs := [aReq] } : State).armDue 0 = some aReq ∧
    ((clSt { fwait := [{ slot := 0, uid := 0, words := [0], mode := .retry }] }).cluster 0).fqFull = false := by decide +kernel

/-- A WAIT that is due: not stale and performed where it was sent; stale; sent by an old descriptor. -/
theorem witness_WaitFates : (aWait 0x100000100 0 0).stale = false ∧ (waitingSt (aWait 0x100000100 0 0)).fateBy {} 0x100000100 ≠ .moved ∧
    (waitingSt { aWait 0x100000100 0 0 with stale := true }).waitDue 0 = some { aWait 0x100000100 0 0 with stale := true } := by
  refine ⟨rfl, ?_, by decide +kernel⟩
  rw [Still.fateBy (.of (by decide +kernel))]
  decide
def movWait : State := { waitingSt (aWait 0x100000100 0 0) with hub := movHub }
theorem witness_WaitMoved : movWait.waitDue 0 = some (aWait 0x100000100 0 0) ∧ movWait.fateBy {} 0x100000100 = .moved := by
  have k : movWait.fateBy (aWait 0x100000100 0 0).route (aWait 0x100000100 0 0).addr = .moved := moves rfl _ (by decide) (by decide)
  have g : (movWait.group 0).wait = some (aWait 0x100000100 0 0) := rfl
  refine ⟨?_, k⟩
  rw [State.waitDue]
  simp only [g, k]
  decide +kernel

def gSt (g : Group) : State := { mSt with groups := [(0, g)] }
/-- A launch of one team in a region whose cluster mask holds cluster 0, its record in the state. -/
def launchable : Launch := { words := (List.range 16).map fun k => BitVec.ofNat 64 ((launchWords.find? (·.1 == k)).elim 0 (·.2)), rcb := 0x100008000, desc := 0x100009000, asid := 1 }
def placeSt : State := { taskSt 0 [] with mem := memW [(0x100008000, 0x800000), (0x100008010, 1), (0x100009000, 2 ^ 63 + 1)], launches := [(1, launchable)], groups := [], teams := [] }
def savedSt : State :=
  { placeSt with launches := [(1, { launchable with next := 1 })], saved := [(0x100008800, { team := { launch := 1, slots := [(0, 0)] }, groups := [(0, grp)], valid := true, want := some 4 })] }
/-- A full core whose only group waits for blocks, and one with room. -/
def growing (full : Bool) : State := { growSt full with groups := [(0, { grp with vblk := 1, sblk := 1, sids := [0], st := .blocked, blocks := [.grow 7 0 ⟨.zero, 0, 1, 0⟩ 0] })], cycle := 3000000 }
theorem witness_GroupsAndTeamsGoOn : (gSt { mGrp with st := .ready }).selectable 0 = some 0 ∧ ({ mGrp with ended := true }).st = .issuing ∧
    ({ mGrp with count := 1024 }).ended = false ∧ ({ mGrp with st := .draining }).gone = false ∧ (gSt { mGrp with st := .draining }).resultsOut 0 = false ∧
    0 < ({ mGrp with npdepth := 1 }).npdepth ∧ ({ mGrp with npdepth := 1 }).npover = false ∧ ({ mGrp with npdepth := 1, npLimit := 0 }).npLimit ≤ (gSt mGrp).cycle - 0 ∧
    (gSt { mGrp with st := .saving }).routineDue 0 = true ∧ placeSt.nextPlaced = some (.launch 1, 0) ∧ savedSt.nextPlaced = some (.saved 0x100008800, 0) ∧
    (launchable.reserved = false ∧ launchable.next < launchable.total ∧ 3000000 < ({ placeSt with cycle := 3000001 } : State).cycle - launchable.since) ∧
    ({ gSt { mGrp with exited := ~~~ 0 } with launches := [(0, launchable)] } : State).retireDue 0 = true ∧
    ({ gSt { mGrp with exited := ~~~ 0, st := .empty } with launches := [] } : State).retireDue 0 = true ∧
    ({ taskSt 0 [] with mem := memW [(0x100008000, 0x800000), (0x100008060, 0x100000100), (0x100000100, 0), (0x100000110, 2 ^ 32 + 1)], tstamp := 1000000,
                        clusters := [(0, { ready := [{ aTask with readyAt := 0 }] })], groups := [], launches := [] } : State).serverDue 0 0x100008000 = true ∧
    (growing false).growNext 0 = some (0, true) ∧ (growing true).growNext 0 = some (0, false) ∧ (growing true).growLate 0 = true ∧
    ({ cvSt halfReg with cycle := 2 ^ 40 } : State).cvLate 0 3 = true := by decide +kernel

/-- The home of the last team's completion word is reached. -/
theorem witness_RetireReaches (pa : Nat) : ({ gSt { mGrp with exited := ~~~ 0 } with launches := [(0, launchable)] } : State).fateFrom 0 pa ≠ .moved :=
  (Still.of (by decide +kernel)).notMoved _ _

def aCopy : Copy := { slot := 0, uid := 0, team := 0, tag := 1, pc := 0, asid := 0, priv := true, srcSp := false, dstSp := false,
                      pieces := [{ src := 0x100000100, dst := 0x100000200 }], after := [], lanes := 1 }
def copySt (done : Bool) (rd : Option CopyRead := none) : State :=
  { accSt .load with copies := [(1, { aCopy with pieces := [{ src := 0x100000100, dst := 0x100000200, rd := rd, done := done }] })], accs := [] }
def aArm : PendArm := { slot := 0, uid := 0, rcb := 0x100008000, idx := 3, init := 1, task := aTask, clr := false, dest := ⟨.zero, 0, 1, 0⟩, after := [] }
def aDec : PendDec := { slot := 0, uid := 0, rcb := 0x100008000, idx := 3, lanes := 1, pc := 0, aux := 0, copy := false, once := true, after := [], waits := false }
/-- Counter 0 at 0x100000400 is armed and holds 2. -/
def counterSt : State := { taskSt 0 [] with mem := memW [(0x100008050, 0x100000400), (0x100008058, 4), (0x100000400, 0x1000000002)], lines := [(0x2000008, { valid := true })] }
def opSt (o : MatOp) : State := { tileSt 0 with cores := [(0, { mq := [o] })] }
def anOp (op : Nat) : MatOp := { id := 1, team := 0, slot := 0, uid := 0, gidx := 0, op := op, pc := 0 }
theorem witness_EnginesAct : ((copySt false).copyDue 1 0).isSome = true ∧ (copySt false).refuse true .load 1 0x100000100 16 = none ∧
    (copySt false).refuse true .store 1 0x100000200 16 = none ∧ ((copySt false).team 0).commit = [] ∧ ((copySt false).line 0x100000200).valid = true ∧
    ((copySt true).copyOver 1).isSome = true ∧ ((copySt false (some (.ok 7))).copyDue 1 0).isSome = true ∧ aCopy.shares = false ∧
    ((copySt false).line 0x100000100).valid = true ∧ ((copySt false).line 0x100000200).dec = false ∧ ({ counterSt with arms := [(1, aArm)] } : State).armReady 1 = some aArm ∧
    ({ counterSt with decs := [(1, aDec)] } : State).decReady 1 = some aDec ∧ aDec.once = true ∧ counterSt.armedAt (counterSt.counterAt 0x100008000 0) = true ∧
    counterSt.counterBad (counterSt.counterAt 0x100008000 0) = none ∧ counterSt.hub.granule = none ∧ 1 < counterSt.countAt (counterSt.counterAt 0x100008000 0) ∧ (counterSt.line (counterSt.counterAt 0x100008000 0)).valid = true ∧
    (opSt (anOp 0xD1)).startDue 0 = some (anOp 0xD1) ∧ ((opSt { anOp 0xD0 with mma := some ⟨0, 0, 0⟩, st := .running, rows := 64 }).rowDue 0).isSome = true ∧
    (opSt { anOp 0xD1 with st := .running }).tileDue 0 1 = some { anOp 0xD1 with st := .running } := by decide +kernel

/-- A call of lane 0 whose v8 is the number and v9 an argument, in slot 0. -/
def aCall (num arg : Word) : Call := { slot := 0, uid := 0, lanes := 1, left := 1, all := false, pc := 0, args := [(0, lanesOf num), (1, lanesOf arg)], after := [] }
def callSt (num arg : Word) : State := after (.callSlotAssign 0) (clSt { callWait := [aCall num arg] })
def serves (num arg : Nat) : Bool := ((callSt (BitVec.ofNat 32 num) (BitVec.ofNat 32 arg)).serveDue num 0 0 0).isSome
theorem witness_CallsAndServices : callPageDue { agent := .service 0 .machine, pa := callBase 0, n := 8 } = true ∧
    (clSt { callWait := [aCall 1 64] }).callReady 0 = some (aCall 1 64, 0) ∧
    ((clSt { calls := [(0, { aCall 1 64 with due := 1 })] }).replyDue 0 0).isSome = true ∧
    (({ mSt with deferred := [{ cl := 0, call := 0, lane := 0, ms := 0 }], tstamp := 1000000 } : State).resumable 0 0 0).isSome = true ∧
    [0, 1, 2, 3, 4, 8, 9, 10, 16, 17, 18, 19, 32, 33, 40].all (fun n => serves n 0) = true ∧
    (callSt 1 64).allocOk 0 0 0 0x10000 = true ∧ ((callSt 99 0).unlisted 0 0 0).isSome = true ∧
    ((callSt 0 0).callRec 0 0).elim false (fun r => (callSt 0 0).retains 0 ((callSt 0 0).recArg2 r 0 0)) = true ∧
    ((callSt 4 1).serveDue 4 0 0 0).elim false (fun p => (callSt 4 1).recBadArgs p.1 0 p.2 && !(callSt 4 1).overQuota p.1.rcb 320) = true := by decide +kernel

/-- The action of lane 0 that is due in the state, with what is asked of it. -/
def served (s : State) (num : Nat) (p : Rec → Service → Bool) : Bool := (s.serveDue num 0 0 0).elim false fun q => p q.1 q.2
def costIn (s : State) (r : Rec) (v : Service) : Nat := if s.recBadArgs r 0 v then 320 else v.fixed + v.perLane * countLanes (s.actionLanes r 0 v)
def fitsIn (s : State) (r : Rec) (v : Service) : Bool := !s.recBadArgs r 0 v && !s.overQuota r.rcb (costIn s r v)
/-- The region that SVCQ allows no cycles. -/
def noQuota (num arg : Word) : State := { callSt num arg with mem := memW [(0, 32)] }
def emptyRange (s : State) (w : Right) (r : Rec) : Bool := match (s.takeRec r).winRange r.cl r.asid w (s.recArg2 r 0 1) (s.recArg r 0 3).toNat with
  | .ok _ => true
  | _ => false
theorem witness_Services :
    [2, 3, 4, 8, 9, 10, 16, 17, 18, 19, 32, 33, 40].all (fun n => served (callSt (BitVec.ofNat 32 n) 0) n (fitsIn (callSt (BitVec.ofNat 32 n) 0)) &&
      served (noQuota (BitVec.ofNat 32 n) 0) n fun r v => ((noQuota (BitVec.ofNat 32 n) 0).deferral r 0).isNone &&
        (noQuota (BitVec.ofNat 32 n) 0).overQuota r.rcb (costIn (noQuota (BitVec.ofNat 32 n) 0) r v)) = true ∧
    [8, 17, 19].all (fun n => served (callSt (BitVec.ofNat 32 n) 0) n fun r _ => emptyRange (callSt (BitVec.ofNat 32 n) 0) .store r) = true ∧
    [9, 16, 18].all (fun n => served (callSt (BitVec.ofNat 32 n) 0) n fun r _ => emptyRange (callSt (BitVec.ofNat 32 n) 0) .load r) = true ∧
    served (callSt 33 9) 33 (fun r v => fitsIn (callSt 33 9) r v &&
      (((callSt 33 9).takeRec r).ctxRegion ((callSt 33 9).recArg r (lowLane ((callSt 33 9).actionLanes r 0 v)) 0).toNat).isNone) = true ∧
    served { callSt 2 64 with heap := [⟨0, 64, 64, 0⟩] } 2 (fun r _ => r.asid == 0 && (callSt 2 64).recArg2 r 0 0 == 64) = true ∧
    served (callSt 1 64) 1 (fun r v => fitsIn (callSt 1 64) r v && (callSt 1 64).recArg r 0 2 == 0 && decide (sizeClass ((callSt 1 64).recArg2 r 0 0) ≤ 1024) &&
      decide ((lanesIn ((callSt 1 64).actionLanes r 0 v)).length ≤ (callSt 1 64).heapRoom r.rcb 64 1)) = true ∧
    (callSt 0 0).unlisted 0 0 0 = none ∧
    served (callSt 0 0) 0 (fun r v => fitsIn (callSt 0 0) r v && ((callSt 0 0).takeRec r).inProgress ((callSt 0 0).recArg2 r 0 0) 0) = true ∧
    served (callSt 0 5) 0 (fun r v => fitsIn (callSt 0 5) r v && !((callSt 0 5).takeRec r).inProgress 5 0 && (callSt 0 5).retains 6 5) = true := by decide +kernel

/-- Nothing holds the words that the services reach, once the record is taken. -/
def reached (num arg : Word) : Bool := served (callSt num arg) num.toNat fun r _ => isStill ((callSt num arg).takeRec r)
theorem witness_ServicesReach : [1, 2, 8, 9, 16, 17, 18, 19].all (fun n => reached n 0) = true ∧ reached 1 64 = true ∧ reached 2 64 = true := by decide +kernel
theorem witness_ReachedPlaces (s : State) (h : isStill s = true) (cl : Nat) (wr : Bool) (ps : List (Nat × Nat)) :
    s.allFree cl wr ps = true ∧ ∀ p ∈ ps, s.fateFrom cl p.1 ≠ .moved := (Still.of h).allFree cl wr ps

/-- A pair: team 0 leads, team 1 trails; their groups are in slots 0 and 1. -/
def pairTeam (f : Team → Team := id) : State :=
  let g : Group := { mGrp with st := .issuing }
  { mSt with
    teams := [(0, f { slots := [(0, 0)], paired := true, pair := some 1 }), (1, { slots := [(0, 1)], paired := true, pair := some 0, trail := true })]
    groups := [(0, g), (1, { g with team := 1, uid := 1 })] }
def sentPair (ts : Bool) : State :=
  { pairTeam with accs := [(1, { access .store [pieceAt 0x100000100] with scb := [0x2000002] })] ++
      (if ts then [(2, { access .store [pieceAt 0x100000100] with slot := 1, uid := 1, trail := true })] else []) }
def sideOps : PairOps := { instr := .nop e0, lanes := 1, vals := [] }
def sidePair : State := { pairTeam with groups := [(0, { mGrp with pairAt := some sideOps }), (1, { mGrp with team := 1, uid := 1, pairAt := some sideOps })] }
def lvqPair : State :=
  { pairTeam with groups := [(0, { mGrp with lvq := [{ seq := 4, instr := .nop e0, lanes := 1 }] }), (1, { mGrp with team := 1, uid := 1, blocks := [.lvq 4] })] }
/-- Both copies have one more instruction issued than the access asks for. -/
def aheadPair : State := { sentPair false with groups := [(0, { mGrp with seq := 1 }), (1, { mGrp with team := 1, uid := 1, seq := 1 })] }
def stepIs (o : Option ScbStep) (differ : Bool) : Bool := match o with
  | some (.compare _ _ _ _) => !differ
  | some .differ => differ
  | none => false
def ckptPair : State :=
  { pairTeam (fun t => { t with wantCkpt := true }) with groups := [(0, { mGrp with st := .ready }), (1, { mGrp with team := 1, uid := 1, st := .ready })] }
def discardSt : State :=
  { placeSt with mem := memW [(0x100008000, 0x800000), (0x100008010, 3), (0x100009000, 2 ^ 63 + 1)], teams := [(0, { struck := true, contained := true, launch := 1 })], launches := [(1, { launchable with next := 1 })] }
theorem witness_Pairs : stepIs ((sentPair true).scbNext 0 0) false = true ∧ stepIs (aheadPair.scbNext 0 0) true = true ∧
    (lvqPair.pairSlots 0 0).isSome = true ∧ (lvqPair.pairEntryDue 0 1).isSome = true ∧ sidePair.pairSlots 0 0 = some (0, 1) ∧
    (sidePair.pairEntryDue 0 1).isNone = true ∧ sidePair.sideDue 0 0 1 = true ∧ (ckptPair.team 0).pair = some 1 ∧ ckptPair.ckptDue 0 = true ∧
    (pairTeam fun t => { t with mism := some 0 }).mismatchDue 0 = true ∧ ((pairTeam fun t => { t with redeliver := true }).team 0).redeliver = true ∧
    discardSt.discardDue 0 = true ∧ (discardSt.team 0).again = true ∧ discardSt.relaunchAt 0 = some 8 ∧
    ({ discardSt with teams := [(0, { struck := true, contained := true, launch := 1, relaunch := 2 })] } : State).discardDue 0 = true := by decide +kernel

def migSt (mstate : Nat) (f : Hub → Hub := id) : State :=
  { mSt with hub := f { mSt.hub with phase := 1, mstate := mstate, live := 1, mnext := 3, mend := 9 } }
def drained : State := migSt 2 fun h => { h with granule := some 3, drained := true }
theorem homes_differ (g : Nat) : (migSt 2 fun h => { h with live := 2, retire := 2 }).oldHome g ≠ (migSt 2 fun h => { h with live := 2, retire := 2 }).newHome g :=
  homes_apart _
theorem witness_PackageEvents : ({ mSt with hub := { mSt.hub with lowering := true } } : State).oldRouted = false ∧
    ((migSt 1).hub.mnext ≠ (migSt 1).hub.mend ∧ (migSt 1).hub.migword = 0) ∧
    ((migSt 2 fun h => { h with idleUntil := 1 }).hub.idleUntil ≤ ({ migSt 2 with cycle := 1 } : State).cycle) ∧
    ((migSt 2).hub.granule = none ∧ (migSt 2).hub.idleUntil = 0 ∧ (migSt 2).hub.mnext < (migSt 2).hub.mend) ∧
    ((migSt 2 fun h => { h with granule := some 3 }).drainGranule = some 3) ∧ drained.handoverDue = some 3 ∧
    (mSt.hub.live.getLsbD 0 = true ∧ mSt.hub.dead.getLsbD 0 = false) ∧ ({ mSt with tstamp := 1000000 } : State).leakMs < 1000000 / 1000000 ∧
    100000 ≤ ({ mSt with tstamp := 100000 } : State).tstamp.toNat - mSt.mgmt.stepped ∧ 920 ≤ (920 : BitVec 16).toInt ∧
    (({ mSt with boot := { mSt.boot with stage := 1 } } : State).boot.stage ≠ 0 ∧ mSt.hub.live.getLsbD 7 = false ∧ mSt.hub.parked.getLsbD 7 = false) := by
  decide +kernel
theorem witness_SameHome (g : Nat) : (migSt 2).oldHome g = (migSt 2).newHome g := rfl

def hubMsg : HubMsg := { shard := 5, word0 := 0, body := [] }
def ioSt (f : HubIO → HubIO) : State := { mSt with io := f mSt.io }
def hartSt : State := { mSt with harts := [(2, { running := true })] }
def aTimer (ctl : DWord) : Timer := { rcb := 0, idx := 31, deadline := 7, ctl := ctl }
def linkSt (l : Link) : State := ioSt fun x => { x with links := [(66, l)] }
def mailSt : State := { mSt with mem := Memory.write [] (mailboxBase 5 + 0x80) (2 ^ 63) 8 }
theorem mail_head : mailSt.mailHead 5 = 0 := by
  have h : ∀ k, k < 0x80 → Memory.byte mailSt.mem (mailboxBase 5 + k) = 0 := by
    intro k hk
    show (Memory.write [] (mailboxBase 5 + 0x80) (2 ^ 63) 8).byte (mailboxBase 5 + k) = 0
    rw [Memory.byte_write_outside _ _ _ _ _ (Or.inl (by omega))]
    rfl
  have r : ∀ n k, k + n ≤ 0x80 → Memory.read mailSt.mem (mailboxBase 5 + k) n = 0 := by
    intro n
    induction n with
    | zero => intro k _; rfl
    | succ n ih =>
      intro k hk
      rw [Memory.read, h k (by omega), Nat.add_assoc, ih (k + 1) (by omega)]
      rfl
  rw [State.mailHead, State.dword, Memory.dword, r 8 0x40 (by decide)]
  rfl
theorem witness_MailboxReceive : mailSt.slotFull 5 (mailSt.mailHead 5) = true := by
  have e : mailboxSlot 5 0 = mailboxBase 5 + 0x80 := by simp [mailboxSlot]
  have m : mailSt.mem = Memory.write [] (mailboxBase 5 + 0x80) (2 ^ 63) 8 := rfl
  rw [mail_head, State.slotFull, State.dword, Memory.dword, e, m]
  have k := Memory.read_write_same 8 [] (mailboxBase 5 + 0x80) (2 ^ 63)
  rw [k]
  decide
/-- Mailbox 5 with its first slot full and its line present. -/
def fullSt : State := { mailSt with lines := [(mailboxBase 5 / 128, { valid := true })] }
theorem witness_PeerMessageHeld : (fullSt.claimMail 5).2.slotFull 5 (fullSt.claimMail 5).1 = true := by
  have hline : fullSt.line (mailboxBase 5) = { valid := true } := by simp [State.line, fullSt, SMap.get]
  have hx : fullSt.mailTail 5 = 0 := by
    have h : ∀ k, k < 0x80 → Memory.byte fullSt.mem (mailboxBase 5 + k) = 0 := by
      intro k hk
      show (Memory.write [] (mailboxBase 5 + 0x80) (2 ^ 63) 8).byte (mailboxBase 5 + k) = 0
      rw [Memory.byte_write_outside _ _ _ _ _ (Or.inl (by omega))]
      rfl
    have r : Memory.read fullSt.mem (mailboxBase 5) 8 = Memory.read [] (mailboxBase 5) 8 :=
      Memory.read_congr 8 _ _ _ fun i hi => h i (by omega)
    rw [State.mailTail, State.dword, Memory.dword, r]
    rfl
  have hm : (fullSt.claimMail 5).2.mem = Memory.putAll fullSt.mem (mailboxBase 5) (valueBytes 1 8) := by
    unfold State.claimMail State.storeD
    dsimp only
    rw [hx]
    have hn : fullSt.needLine (mailboxBase 5) = fullSt := by
      unfold State.needLine
      rw [hline]; rfl
    rw [hn, State.homeStore_mem _ _ _ _ rfl (by rw [hline])]
    rfl
  have hx2 : (fullSt.claimMail 5).1 = 0 := hx
  have e : mailboxSlot 5 0 = mailboxBase 5 + 0x80 := by simp [mailboxSlot]
  have hr : Memory.read (Memory.putAll fullSt.mem (mailboxBase 5) (valueBytes 1 8)) (mailboxBase 5 + 0x80) 8 = 2 ^ 63 % 256 ^ 8 := by
    rw [Memory.read_congr 8 _ fullSt.mem _ fun i hi => Memory.byte_putAll_outside _ _ _ _ (by
      intro b hb
      have : b.1 < 8 := by
        simp only [valueBytes, List.mem_map, List.mem_range] at hb
        obtain ⟨k, hk, rfl⟩ := hb
        exact hk
      omega)]
    have m : fullSt.mem = Memory.write [] (mailboxBase 5 + 0x80) (2 ^ 63) 8 := rfl
    rw [m]
    exact Memory.read_write_same 8 [] (mailboxBase 5 + 0x80) (2 ^ 63)
  rw [hx2, State.slotFull, State.dword, hm, e, Memory.dword, hr]
  decide
/-- Nothing holds the mailboxes in the states of these witnesses, from whichever point they are reached. -/
theorem witness_MailReached : ∀ s ∈ [mSt, mailSt, fullSt, hartSt, ioSt fun x => { x with held := [hubMsg] }], ∀ point shard x,
    s.mailOpen point shard x = true ∧ ∀ p ∈ mailWords shard x, s.fateFrom point p.1 ≠ .moved := by
  have h : [mSt, mailSt, fullSt, hartSt, ioSt fun x => { x with held := [hubMsg] }].all isStill = true := by decide +kernel
  exact fun s hs point shard x => (Still.of (List.all_eq_true.mp h s hs)).allFree point true (mailWords shard x)
theorem witness_DevicesReach (pa n : Nat) : mSt.rangeFree pa n true = true ∧ mSt.rangeFree pa n false = true ∧
    (∀ p ∈ lineParts pa n, mSt.fateFrom hubPorts p.1 ≠ .moved) ∧ mSt.fateFrom hubPorts pa ≠ .moved :=
  ⟨(mSt_still.allFree _ _ _).1, (mSt_still.allFree _ _ _).1, (mSt_still.allFree hubPorts true _).2, mSt_still.notMoved _ _⟩
theorem witness_WordTimer : (aTimer (2 ^ 62)).ctl.getLsbD 62 = true ∧ mSt.fateFrom hubPorts (aTimer (2 ^ 62)).word ≠ .moved :=
  ⟨by decide +kernel, mSt_still.notMoved _ _⟩
theorem witness_InterruptFiles : mSt.aplicFile 0 = true ∧ mSt.takesFrom 0 1 = true ∧ mSt.takesFrom 0 2 = false := by decide +kernel
theorem witness_EthQueues : (ioSt fun x => { x with qoff := [48] }).io.qoff.contains (16 * 3 + (ioSt fun x => { x with qoff := [48] }).steer 3 7 9) = true ∧
    mSt.io.qoff.contains (16 * 3 + mSt.steer 3 7 9) = false := by decide +kernel
theorem witness_MemcapLowers : mSt.slices = [] ∧ mSt.windows = [] ∧ mSt.accs = [] := by decide +kernel
theorem witness_OutsideEvents : mSt.mailRoom 127 = true ∧
    (ioSt fun x => { x with held := [hubMsg] }).heldFor 5 = some hubMsg ∧ (hartSt.hart 2).running = true ∧
    ((ioSt fun x => { x with outbox := [(2, { busy := true })] }).outbox 2).busy = true ∧ SMap.get mSt.io.heldPeer 2 [] = [] ∧
    (({ ioSt fun x => { x with timers := [aTimer 0] } with tstamp := 7 } : State).timerDue 0 31).isSome = true ∧ (aTimer 0).ctl.getLsbD 62 = false ∧
    (({ mSt with doms := [(15, { busy := true })] } : State).dom 15).busy = true ∧
    (linkSt { up := true }).answerDue 66 .nothing = true ∧ (66 < 67 ∧ 15 < linkLanes 66 ∧ ((linkSt { up := true }).link 66).training = false) ∧
    (32 < ((linkSt { up := true, msReplays := 33, rate := 2 }).link 66).msReplays ∧ ((linkSt { up := true, msReplays := 33, rate := 2 }).link 66).rate < 3) ∧
    3 ≤ ((linkSt { up := true, msReplays := 33, rate := 3 }).link 66).rate ∧ ((linkSt { training := true }).link 66).training = true ∧
    ((linkSt {}).link 66).up = false ∧ ({ linkSt { up := true } with tstamp := 1000 } : State).beatDue = true ∧
    ({ mSt with hub := { mSt.hub with peerwin := [(7, { en := true })] }, tstamp := 100000 } : State).peerSilent 7 = true ∧
    (linkSt { up := true }).peerDue 2 .load 0x100000100 8 = true ∧ mSt.rangeFree 0x100000100 300 true = true ∧
    mSt.dmaRefused .store 0x100000100 4 = false ∧ mSt.dmaRefused .store (2 ^ 43) 4 = true ∧ mSt.wordFree 0x100000100 = true ∧
    SMap.get mSt.io.wired 95 false ≠ true ∧ (∀ t ∈ mSt.teams, t.2.core / 8 ≠ 127) := by decide +kernel

/-- A read of the first root port's space by a hart, with the port's bridge open; a store has waited 50 ms; a window access that the window refuses. -/
def outHart : HartReq := { agent := .service 0 .machine, pa := (0xC00000000000 + 2 ^ 42), n := 8 }
theorem witness_Outbound : (mSt.outbound (.hart outHart) .load).isSome = true ∧ mSt.overdue (.hart outHart) = true ∧
    (mSt.outbound (.hart outHart) .load).elim false (fun x => ({ mSt with hub := { mSt.hub with bridge := [(x.1, [(0, 8)])] } } : State).bridged x.1 x.2) = true ∧
    mSt.ctxDue 0 .load { agent := .service 0 .machine, pa := 0xD00000000000, n := 8 } = true := by decide +kernel

/-! ### Witnesses: writes of registers -/

def svc0 : Agent := .service 0 .machine
def hubReg (o : Nat) : RegAddr := .mmio (0x1000000000 + o) 8
def row (s : State) (r : RegAddr) (v : DWord) (w : WriteRow) : Bool := s.writeRow svc0 r v == some w
def wide : DWord := 2 ^ 63
theorem witness_RegisterWrites : svc0.exists_ = true ∧ row mSt (hubReg 0x3008) 0 .other = true ∧ row mSt (hubReg 0x1000) (2 ^ 34) .memcapRaise = true ∧
    row mSt (hubReg 0x1000) (2 ^ 33) .memcapLower = true ∧ row mSt (hubReg 0x1008) 0x100 .stackmap = true ∧ row mSt (hubReg 0x1010) wide .mphaseGo = true ∧
    row mSt (hubReg 0x1030) 0 .migword = true ∧ row mSt (hubReg 0x2000) 1 .fwinEnable = true ∧
    row ({ mSt with hub := { mSt.hub with fwin := [(0, { en := true })] } } : State) (hubReg 0x2000) 0 .fwinDisable = true ∧
    row mSt (hubReg 0x100) 0x80 .peerwinClear = true ∧ row mSt (.mmio 0x10040028 8) 0 .grptrHead = true ∧
    row mSt (.mmio 0x10040038 8) (2 ^ 62) .glWake = true ∧ row mSt (.mmio 0x10040038 8) (2 ^ 63) .glTimeout = true ∧
    row mSt (.mmio 0x10040038 8) (2 ^ 63 + 2 ^ 62) .glRestart = true ∧ row mSt (.mmio 0x700000 8) wide .pairinjArm = true ∧
    row mSt (hubReg 0x1000000) 2 .bootStage = true ∧ row mSt (hubReg 0x1000000) 1 .bootOk = true ∧ row mSt (hubReg 0x5000) wide .ccbootRun = true := by
  decide +kernel
theorem witness_RegisterWrites2 : row mSt (hubReg 0x4000) (2 ^ 62) .domainReset = true ∧ row mSt (hubReg 0x13002080) 0 .pmsgSend = true ∧
    row mSt (hubReg 0x3000) 0 .tmrsyncLoad = true ∧ row mSt (hubReg 0x2001200) 0 .clpwr = true ∧ row mSt (.csr 0x5E3) 0 .portLaunch = true ∧
    row mSt (.csr 0x5E3) 1 .portRestore = true ∧ row mSt (.csr 0x5E5) 0 .preq = true ∧ row mSt (.csr 0x5E9) 0 .uisend = true ∧
    row mSt (.csr 0x5D5) 0 .fltRetry = true ∧ row mSt (.csr 0x5D5) 0x40 .fltDeliver = true ∧ row mSt (.csr 0x5D5) 0x80 .fltEnd = true ∧
    row mSt (.csr 0x5D4) 0 .fqptrHead = true ∧ row mSt (.csr 0x5D0) 0 .tlbAll = true ∧ row mSt (.csr 0x5D0) (2 ^ 62) .tlbAsid = true ∧
    row mSt (.csr 0x5D0) (2 ^ 63) .tlbPage = true ∧ row mSt (.csr 0x5C0) 1 .monArm = true ∧ row mSt (.csr 0x5C0) 0 .monDisarm = true ∧
    csrKnown 0x5C0 = true ∧ csrKnown 0x5FF = false ∧ (mSt.cluster 0).unanswered 63 = false ∧ mSt.hub.odd = false ∧
    (2 ^ 32 ≤ bits (2 ^ 32 : DWord) 51 16 * 2 ^ 16 ∧ bits (2 ^ 36 : DWord) 51 16 * 2 ^ 16 ≤ 2 ^ 36 * (stacksOf mSt.hub.live).length) ∧
    bits (2 ^ 32 - 1 : DWord) 51 16 * 2 ^ 16 < 2 ^ 32 ∧ (2 ^ 32 - 1) % 2 ^ 52 / 8 * 8 < 2 ^ 32 ∧ (mSt.hart 0).running = false := by decide +kernel

/-! ### Ill-formed terms: each check of WellFormed refuses one -/

theorem test_wf_good : (Instr.iadd (e2 0 3)).wf = true := by decide +kernel
theorem test_wf_func : (Instr.iadd (e2 1 3)).wf = false := by decide +kernel
theorem test_wf_base_with_field : (Instr.iadd { e2 0 3 with form := .base }).wf = false := by decide +kernel
theorem test_wf_literal_value : (Instr.iadd { e2 0 3 with lit := 1 }).wf = false := by decide +kernel
theorem test_wf_immediate_zero : (Instr.iadd { e2 0 3 with b := .imm 0 }).wf = false := by decide +kernel
theorem test_wf_base_operand : (Instr.iadd { e2 0 0 with form := .base, b := .v 96 }).wf = false := by decide +kernel
theorem test_wf_extended_only : (Instr.icvt { e1 0 0 with form := .base }).wf = false := by decide +kernel
theorem test_wf_literal_named : (Instr.iadd { e2 0 3 with b := .lit }).wf = false := by decide +kernel
theorem test_wf_literal_unnamed : (Instr.iadd { e2 0 3 with form := .extLit }).wf = false := by decide +kernel
theorem test_wf_unused_operand : (Instr.iadd (e3 0 3)).wf = false := by decide +kernel
theorem test_wf_unused_modifier : (Instr.imulh { e2 0 3 with negA := true }).wf = false := by decide +kernel
theorem test_wf_type : (Instr.iadd (e2 0 12)).wf = false := by decide +kernel
theorem test_wf_clamp : (Instr.imulh (sat (e2 0 3))).wf = false := by decide +kernel
theorem test_wf_dscale : (Instr.iadd { e2 0 3 with dscale := 1 }).wf = false := by decide +kernel
theorem test_wf_rounding : (Instr.iadd { e2 0 3 with rnden := true }).wf = false := by decide +kernel
theorem test_wf_ord : (Instr.iadd { e2 0 3 with ord := 1 }).wf = false := by decide +kernel
theorem test_wf_predicate : (Instr.iadd { e2 0 3 with pinv := true }).wf = false := by decide +kernel
theorem test_wf_no_predication : (Instr.yield (onP1 e0)).wf = false := by decide +kernel
theorem test_wf_scalar_destination : (Instr.iadd { e2 0 3 with d := .s 1 }).wf = false := by decide +kernel
theorem test_wf_no_predicate_there : (Instr.isetp { e2 0 3 with d := .v 9 }).wf = false := by decide +kernel

/-! ### Decoding: words written from 09 Tables 2 to 5 and the opcode tables -/

/-- A base word: OP, D, A, B. -/
def base (op d a b : Nat) : List Word := [BitVec.ofNat 32 (op * 2 ^ 3 + d * 2 ^ 11 + a * 2 ^ 18 + b * 2 ^ 25)]
/-- Three extended words of full operand codes. -/
def ext (op d a b c func ty : Nat) (ord : Nat := 0) : List Word :=
  [BitVec.ofNat 32 (2 + op * 2 ^ 3 + d % 128 * 2 ^ 11 + a % 128 * 2 ^ 18 + b % 128 * 2 ^ 25),
   BitVec.ofNat 32 (d / 128 + a / 128 * 2 ^ 5 + b / 128 * 2 ^ 10 + c * 2 ^ 15), BitVec.ofNat 32 (func * 2 ^ 16 + ty * 2 ^ 12 + ord * 2 ^ 27)]
def reads (ws : List Word) (i : Instr) : Bool := match decode ws with
  | .ok (j, []) => j == i
  | _ => false
def b0 (d a b : Opnd) : Enc := { enc 0 0 d a b .zero with form := .base }

theorem test_decode_control : reads (base 0x01 0x6B 0x6B 0x6B) (.nop (b0 .zero .zero .zero)) = true ∧
    reads (ext 0x02 0x800 0xC05 0x800 0x800 0 0) (.bra (eu 0 (.imm 5))) = true ∧
    reads (ext 0x0B 1 2 3 0x800 4 7) (.shflRot (e2 4 7)) = true ∧ reads (ext 0x0E 0x401 0x800 0xC01 0x800 3 0) (.cvset (cvEnc (.s 1) .zero (.imm 1))) = true := by decide +kernel
theorem test_decode_integer : reads (base 0x20 1 2 0x5F) (.iadd (b0 (.v 1) (.v 2) (.v 95))) = true ∧ reads (base 0x21 0x67 0x70 0x7F) (.isub (b0 (.q 7) (.s 0) (.s 15))) = true ∧
    reads (ext 0x25 6 2 3 4 1 3) (.imadWide (enc 1 3 (.v 6) (.v 2) (.v 3) (.v 4))) = true ∧ reads (ext 0x3A 1 2 3 4 0 3) (.bfe (e3 0 3)) = true := by decide +kernel
theorem test_decode_moves : reads (ext 0x48 1 0x801 0x800 0x800 0 7) (.mov (enc 0 7 (.v 1) .lane .zero .zero)) = true ∧
    reads (ext 0x4B 6 0x800 0x800 0x800 0x20 0) (rd 0x20) = true ∧ reads (ext 0x4C 0x800 0xC05 0x800 0x800 0x19 0) (wr 0x19) = true ∧
    reads (base 0x49 0x71 0x68 0x6B) (.movs (b0 (.s 1) .l0 .zero)) = true := by decide +kernel
theorem test_decode_float : reads (ext 0x50 1 2 3 0x800 0 12) (.fadd (e2 0 12)) = true ∧ reads (ext 0x62 6 2 4 8 0 13) (.dfma (enc 0 13 (.v 6) (.v 2) (.v 4) (.v 8))) = true ∧
    reads (ext 0x81 1 2 0x800 0x800 0x31 3) (.icvt (e1 0x31 3)) = true ∧ reads (ext 0x83 1 2 3 4 3 0) (.f8pk (e3 3 0)) = true := by decide +kernel
theorem test_decode_memory : reads (ext 0x90 8 2 0xC04 0x800 0 3) (.ld (ge 0 3)) = true ∧ reads (base 0x92 8 4 0x6B) (.lds (b0 (.v 8) (.v 4) .zero)) = true ∧
    reads (ext 0xA0 8 2 0x802 5 7 7) (.atomCas (ae 7 7 (.v 2) (.v 5))) = true ∧ reads (ext 0x91 8 2 0xC04 0x800 0 3 2) (.st { ge 0 3 with ord := 2 }) = true := by decide +kernel
theorem test_decode_copies_and_waits : reads (ext 0xB0 4 2 0x800 0x800 0x23 0) (.acp (ecp (.v 2) .zero .zero (.v 4))) = true ∧
    reads (ext 0xC0 0x401 0xC1F 0x800 0x800 0 0) (.fissue (ef (.s 1) 31)) = true ∧ reads (ext 0xC3 0x800 0xC01 0x800 0x800 0x3E 0) (.barNamed (enc 0x3E 0 .zero (.imm 1) .zero .zero)) = true := by
  decide +kernel
theorem test_decode_rejects : rejects (base 0xFF 0 0 0) .illegalOpcode = true ∧ rejects (base 0x20 1 2 0x6E) .illegalEncoding = true ∧
    rejects (base 0x20 1 2 0x6A) .illegalEncoding = true ∧ rejects (ext 0x20 0x100 2 3 0x800 0 3) .illegalEncoding = true ∧ rejects (ext 0x3D 9 2 3 0x800 1 0) .illegalEncoding = true ∧
    rejects [0x00000102] .short = true := by decide +kernel

/-! ### Single instructions beside the tables -/

def pcOf (i : Instr) (s : State) (l : Lane) : DWord := (((after i s).group 0).pc)[l]
theorem test_bra : pcOf (.bra (eu 0 (.imm 5))) (st grp) 31 = 0x100000014 := by decide +kernel
theorem test_bra_predicated : pcOf (.bra (onP1 (eu 0 (.imm 5)))) lane0 0 = 0x100000014 ∧ pcOf (.bra (onP1 (eu 0 (.imm 5)))) lane0 1 = 0x10000000C := by decide +kernel
theorem test_isetp_ne : (((after (.isetp (enc 1 0 (.v 1) (.v 2) .zero .zero)) (st (vGrp 7 0 0 0))).group 0).pw)[(3 : Lane)] = 2 := by decide +kernel
theorem test_vote : ((after (.voteMask (enc 0 7 (.s 1) .lane .zero .zero)) (st grp)).group 0).raw 1025 0 = 0xFFFFFFFE := by decide +kernel
theorem test_shfl_back : ((after (.shflBack (enc 1 7 (.v 1) .lane .one (.imm 9))) (st grp)).group 0).raw 1 5 = 4 ∧
    ((after (.shflBack (enc 1 7 (.v 1) .lane .one (.imm 9))) (st grp)).group 0).raw 1 0 = 9 := by decide +kernel
theorem test_exit : ((after (.exit (onP1 e0)) lane0).group 0).exited = 1 := by decide +kernel
theorem test_swr_fmode : ((after (wr 0x19) (st grp)).group 0).fmode = 1 := by decide +kernel
theorem test_srd_actmask : ((after (.srd (onP1 (enc 0x10 0 (.v 6) .zero .zero .zero))) lane0).group 0).raw 6 0 = 1 := by decide +kernel
theorem test_trap_parks : ((after (.trap etr) (st grp)).group 0).st = .blocked ∧ ((after (.trap etr) (st grp)).cluster 0).ftail = 1 := by decide +kernel
theorem test_trap_record : (SMap.find ((after (.trap etr) (st grp)).cluster 0).fq 0).map (fun r => ((r.w 0).setWidth 8, (r.w 0).extractLsb' 32 32, r.w 1)) =
    some ((0x12 : BitVec 8), (0xFFFFFFFF : Word), (0x1FF : DWord)) := by decide +kernel
theorem test_load_sends : (SMap.find (after (.ld (ge 0 3)) mSt).accs 1).map (fun a => (a.pieces.map Piece.addr)) = some [0x100000104] := by decide +kernel
theorem test_bar_of_one_group : ((after (.bar e0) (st grp)).group 0).blocks = [] := by decide +kernel
theorem test_fissue_lowest : ((after (.fissue (ef (.s 1) 31)) (tokSt 15)).group 0).raw 1025 0 = 15 := by decide +kernel
theorem test_tffs_clears : ((after (.tffs (et 1)) (tagSt true true)).group 0).raw 1025 0 = 2 ∧ (((after (.tffs (et 1)) (tagSt true true)).group 0).tag 2).done = false := by decide +kernel
theorem test_tspawn_bad : ((after (.tspawn (esp .one)) (st grp)).group 0).raw 1030 0 = 6 := by decide +kernel
theorem test_grow : ((after (.grow (egr 7)) (growSt false)).group 0).vblk = 8 := by decide +kernel
theorem test_uiret : ((after (.uiret e0) (inhSt 1 true (some aSave))).group 0).inh = false := by decide +kernel
theorem test_hart_write_masks : ((after (.registerWrite svc0 (.csr 0x5C1) 7) mSt).svcCore 0).monopnd = 7 := by decide +kernel
theorem test_call_is_assigned : ((callSt 1 64).cluster 0).callWait = [] := by decide +kernel
end Sys2Proof.Tests
end

section
/-! The canonical form of the memory (R4, R45) is kept by every step: one lemma for each operation of the model that gives a state, in the order of the
model's files. `State.memOk.f` says that `f` keeps the form, `Out.memOk.f` that the outcome of `f` does; a proof names the operations of which `f` is made, the
last one first. -/

namespace Sys2Proof.Machine

open Sys2Proof

/-- An outcome whose next state, where it has one, keeps the canonical form of the memory. -/
inductive Out.memOk : Out → Prop
  | next {s : State} (hs : s.memOk) : Out.memOk (.next s)
  | fault {r : Fault} : Out.memOk (.fault r)
  | refused {r : Refusal} : Out.memOk (.refused r)

theorem Out.memOk.state {s : State} : Out.memOk (.next s) → s.memOk
  | .next hs => hs

theorem Out.memOk.ite {c : Prop} {i : Decidable c} {a b : Out} (ha : Out.memOk a) (hb : Out.memOk b) : Out.memOk (if c then a else b) := by
  split <;> assumption

theorem State.memOk.ite {c : Prop} {i : Decidable c} {a b : State} (ha : a.memOk) (hb : b.memOk) : (if c then a else b).memOk := by
  split <;> assumption

theorem State.memOk.iteSnd {α : Type} {c : Prop} {i : Decidable c} {a b : α × State} (ha : a.2.memOk) (hb : b.2.memOk) :
    (if c then a else b).2.memOk := by
  split <;> assumption

theorem State.memOk.foldl {α : Type} {f : State → α → State} {l : List α} {s : State} (hf : ∀ s x, s.memOk → (f s x).memOk) (hs : s.memOk) :
    (l.foldl f s).memOk := by
  induction l generalizing s with
  | nil => exact hs
  | cons x l ih => exact ih (hf s x hs)

/-- The canonical form speaks of the bytes alone: every other field may change. -/
theorem State.memOk.update {s : State} {cycle freeCtr cur nextId leakMs : Nat} {tstamp : DWord} {agenda : List Action} {stopped : Bool}
    {lines : SMap Line} {slices : SMap Slice} {dies : SMap Die} {clusters : SMap Cluster} {svc : SMap SvcCore} {cores : SMap Core}
    {parts : SMap Part} {groups stash : SMap Group} {teams : SMap Team} {saved ckpts : SMap SavedTeam} {launches : SMap Launch}
    {accs redos : SMap Access} {copies : SMap Copy} {arms : SMap PendArm} {decs : SMap PendDec} {bound : SMap Task} {waits : List (Nat × Nat)}
    {shadows : List (Nat × Nat × Nat × Nat × Nat)} {wakes : List Wake} {watch : List Watch} {hub : Hub} {io : HubIO} {boot : Boot} {mgmt : Mgmt}
    {harts : SMap Hart} {doms : SMap Dom} {buckets : SMap Bucket} {shoots : List Shootdown} {armReqs : List ArmReq} {svcUse : SMap (Nat × Nat)}
    {deferred : List Deferred} {heap : List HeapBlock} (hs : s.memOk) :
    State.memOk { s with
      cycle := cycle, tstamp := tstamp, freeCtr := freeCtr, agenda := agenda, cur := cur, stopped := stopped, lines := lines,
      slices := slices, dies := dies, clusters := clusters, svc := svc, cores := cores, parts := parts, groups := groups, stash := stash,
      teams := teams, saved := saved, ckpts := ckpts, launches := launches, accs := accs, redos := redos, copies := copies, arms := arms,
      decs := decs, bound := bound, waits := waits, shadows := shadows, wakes := wakes, watch := watch, nextId := nextId, hub := hub, io := io,
      boot := boot, mgmt := mgmt, harts := harts, doms := doms, buckets := buckets, leakMs := leakMs, shoots := shoots, armReqs := armReqs,
      svcUse := svcUse, deferred := deferred, heap := heap } :=
  hs



/-! ### What Machine/State.lean defines -/

theorem State.memOk.reset  : (State.reset).memOk :=
  Memory.wf_nil

/-! ### What Machine/Ops.lean defines -/

theorem State.memOk.setGroup {s : State} {slot : Nat} {g : Group} (hs : s.memOk) : (s.setGroup slot g).memOk :=
  .update hs

theorem State.memOk.updGroup {s : State} {slot : Nat} {f : Group → Group} (hs : s.memOk) : (s.updGroup slot f).memOk :=
  .setGroup hs

theorem State.memOk.setPart {s : State} {p : Nat} {x : Part} (hs : s.memOk) : (s.setPart p x).memOk :=
  .update hs

theorem State.memOk.setCore {s : State} {c : Nat} {x : Core} (hs : s.memOk) : (s.setCore c x).memOk :=
  .update hs

theorem State.memOk.setCluster {s : State} {c : Nat} {x : Cluster} (hs : s.memOk) : (s.setCluster c x).memOk :=
  .update hs

theorem State.memOk.setTeam {s : State} {t : Nat} {x : Team} (hs : s.memOk) : (s.setTeam t x).memOk :=
  .update hs

theorem State.memOk.updTeam {s : State} {t : Nat} {f : Team → Team} (hs : s.memOk) : (s.updTeam t f).memOk :=
  .setTeam hs

theorem State.memOk.setSlice {s : State} {k : Nat} {x : Slice} (hs : s.memOk) : (s.setSlice k x).memOk :=
  .update hs

theorem State.memOk.setDie {s : State} {d : Nat} {x : Die} (hs : s.memOk) : (s.setDie d x).memOk :=
  .update hs

theorem State.memOk.bump {s : State} (hs : s.memOk) : s.bump.memOk :=
  .update hs

theorem State.memOk.fresh {s : State} (hs : s.memOk) : s.fresh.2.memOk :=
  .update hs

theorem State.memOk.strike {s : State} {tm : Nat} (hs : s.memOk) : (s.strike tm).memOk :=
  .ite (.updTeam hs) hs

theorem State.memOk.postFaultFor {s : State} {slot : Nat} {g : Group} {mode : FaultMode} {f : FaultInfo} (hs : s.memOk) :
    (s.postFaultFor slot g mode f).memOk :=
  .setCluster (.ite (.strike hs) hs)

theorem State.memOk.postFault {s : State} {slot : Nat} {mode : FaultMode} {f : FaultInfo} (hs : s.memOk) : (s.postFault slot mode f).memOk :=
  .postFaultFor hs

theorem State.memOk.retired {c : Ctx} {x : LEntry} {pcs : Lanes DWord} {s : State} (hs : s.memOk) : (Machine.retire c x pcs s).memOk :=
  .bump (.updGroup (.setPart hs))

theorem State.memOk.done {c : Ctx} {s : State} (hs : s.memOk) : (done c s).memOk :=
  .retired hs

theorem State.memOk.result {c : Ctx} {fixed : Bool} {x : Lane → BitVec 128} {fl : Lane → Flags} {s : State} (hs : s.memOk) :
    (result c fixed x fl s).memOk :=
  .retired (.updGroup hs)

/-! ### What Machine/Memory.lean defines -/

theorem State.memOk.poke {s : State} {pa x n : Nat} (hs : s.memOk) : (s.poke pa x n).memOk :=
  Memory.wf_write _ _ _ _ hs

theorem State.memOk.addWord {s : State} {d : Int} {a : Nat} (hs : s.memOk) : (s.addWord d a).memOk :=
  .update (.poke hs)

/-! ### What Machine/Sync.lean defines -/

theorem State.memOk.updProg {s : State} {slot : Nat} {f : Group → Group} (hs : s.memOk) : (s.updProg slot f).memOk := by
  unfold State.updProg
  split
  · exact .update hs
  · exact .updGroup hs

theorem State.memOk.updUid {s : State} {slot uid : Nat} {f : Group → Group} (hs : s.memOk) : (s.updUid slot uid f).memOk := by
  refine .ite (.updGroup hs) ?_
  split
  · exact .ite (.update hs) hs
  · exact hs

theorem State.memOk.acquireInval {s : State} {core : Nat} (hs : s.memOk) : (s.acquireInval core).memOk :=
  .setCore hs

theorem State.memOk.takePreempt {s : State} {slot : Nat} (hs : s.memOk) : (s.takePreempt slot).memOk :=
  .setGroup (.setCluster hs)

theorem State.memOk.savingState {s : State} {tm : Nat} (hs : s.memOk) : (s.savingState tm).memOk :=
  .ite (.update hs) hs

theorem State.memOk.preTake {s : State} {tm : Nat} (hs : s.memOk) : (s.preTake tm).memOk := by
  unfold State.preTake
  dsimp only
  split
  · exact hs
  · exact .ite hs (.ite (.updTeam hs) (.savingState (.foldl (fun _ _ ht => .ite (.takePreempt ht) ht) hs)))

theorem State.memOk.raise {s : State} {slot : Nat} {mode : FaultMode} {f : FaultInfo} (hs : s.memOk) : (s.raise slot mode f).memOk :=
  .preTake (.updGroup (.postFault hs))

theorem State.memOk.raiseCode {s : State} {slot : Nat} {cls : BitVec 8} {pc : DWord} {act : LaneMask} (hs : s.memOk) :
    (s.raiseCode slot cls pc act).memOk :=
  .raise hs

theorem State.memOk.markerFault {s : State} {slot : Nat} {f : LateFault} (hs : s.memOk) : (s.markerFault slot f).memOk :=
  .updGroup (.postFault hs)

theorem State.memOk.settle {s : State} {slot : Nat} (hs : s.memOk) : (s.settle slot).memOk :=
  .ite (.ite (.foldl (fun _ _ ht => .markerFault ht) (.updGroup hs)) (.ite (.setGroup hs) hs)) hs

theorem State.memOk.lateFault {s : State} {slot : Nat} {f : LateFault} (hs : s.memOk) : (s.lateFault slot f).memOk :=
  .settle (.updProg hs)

theorem State.memOk.lateFor {s : State} {slot uid : Nat} {f : LateFault} (hs : s.memOk) : (s.lateFor slot uid f).memOk :=
  .settle (.updUid hs)

theorem State.memOk.release {s : State} {slot uid : Nat} {b : Block} (hs : s.memOk) : (s.release slot uid b).memOk :=
  .update hs

theorem State.memOk.unblock {s : State} {slot : Nat} {b : Block} {why : Nat} (hs : s.memOk) : (s.unblock slot b why).memOk :=
  .settle (.setCore (.release (.ite (.updProg hs) (.updGroup hs))))

theorem State.memOk.block {s : State} {slot : Nat} {b : Block} (hs : s.memOk) : (s.block slot b).memOk :=
  .updGroup hs

theorem State.memOk.putUniform {s : State} {slot : Nat} {b : Block} {d : Dest} {x : DWord} (hs : s.memOk) : (s.putUniform slot b d x).memOk :=
  .ite (.updProg hs) (.updGroup hs)

theorem State.memOk.setCv {s : State} {tm n : Nat} {r : CvReg} (hs : s.memOk) : (s.setCv tm n r).memOk :=
  .updTeam hs

theorem State.memOk.wakeMwait {s : State} {tm : Nat} (hs : s.memOk) : (s.wakeMwait tm).memOk := by
  refine .foldl (fun _ _ ht => .foldl (fun _ _ hu => ?_) ht) hs
  split
  · exact .ite (.unblock (.acquireInval (.ite (.updProg (.putUniform hu)) (.updGroup (.putUniform hu))))) hu
  · exact hu

theorem State.memOk.enqueueMmas {tm n k : Nat} {s : State} (hs : s.memOk) : (State.enqueueMmas tm n k s).memOk := by
  induction k generalizing s with
  | zero => exact hs
  | succ k ih =>
    unfold State.enqueueMmas
    dsimp only
    split
    · exact hs
    · exact .ite (ih (.setCv (.setCore hs))) hs

theorem State.memOk.retryMmas {s : State} (hs : s.memOk) : s.retryMmas.memOk :=
  .foldl (fun _ _ ht => .foldl (fun _ _ hu => .ite hu (.enqueueMmas hu)) ht) hs

theorem State.memOk.enqueueMma {s : State} {tm n : Nat} {old : CvReg} {m : MmaOps} {x : Sign} (hs : s.memOk) : (s.enqueueMma tm n old m x).memOk :=
  .enqueueMmas (.setCv (.fresh hs))

theorem State.memOk.cvExpel {s : State} {tm n : Nat} {old : CvReg} {gidx : Nat} (hs : s.memOk) : (s.cvExpel tm n old gidx).memOk :=
  .lateFault (.updProg hs)

theorem State.memOk.cvFault {s : State} {tm n : Nat} (hs : s.memOk) : (s.cvFault tm n).memOk :=
  .foldl (fun _ _ ht => .cvExpel ht) (.setCv hs)

theorem State.memOk.mmaCompletes {s : State} {tm n : Nat} {old : CvReg} {m : MmaOps} {x : Sign} (hs : s.memOk) : (s.mmaCompletes tm n old m x).memOk
    := by
  unfold State.mmaCompletes
  dsimp only
  split
  · exact .foldl (fun _ _ ht => .cvExpel ht) (.wakeMwait (.setCv (.lateFault hs)))
  · split
    · exact .foldl (fun _ _ ht => .cvExpel ht) (.wakeMwait (.setCv (.lateFault hs)))
    · exact .enqueueMma hs

theorem State.memOk.cvComplete {s : State} {tm n : Nat} (hs : s.memOk) : (s.cvComplete tm n).memOk := by
  unfold State.cvComplete
  dsimp only
  split
  · refine .mmaCompletes (.foldl (fun _ _ ht => .foldl (fun _ _ hu => ?_) ht) (.foldl (fun _ _ ht => .unblock ht) (.setCv hs)))
    split
    · exact .ite (.unblock (.putUniform hu)) hu
    · exact hu
  · refine .wakeMwait (.foldl (fun _ _ ht => .foldl (fun _ _ hu => ?_) ht) (.foldl (fun _ _ ht => .unblock ht) (.setCv hs)))
    split
    · exact .ite (.unblock (.putUniform hu)) hu
    · exact hu

theorem State.memOk.cvTest {tm n k : Nat} {s : State} (hs : s.memOk) : (State.cvTest tm n k s).memOk := by
  induction k generalizing s with
  | zero => exact hs
  | succ k ih => exact .ite (ih (.cvComplete hs)) hs

theorem State.memOk.cvSign {s : State} {slot n : Nat} {m : LaneMask} {ops : Option MmaOps} {pc next : DWord} {after : List Nat} (hs : s.memOk) :
    (s.cvSign slot n m ops pc next after).memOk :=
  .cvTest (.ite (.setCv hs) (.block (.setCv hs)))

theorem State.memOk.cvExit {s : State} {slot : Nat} {m : LaneMask} (hs : s.memOk) : (s.cvExit slot m).memOk :=
  .foldl (fun _ _ ht => .ite (.cvTest (.setCv ht)) ht) hs

theorem State.memOk.barTest {s : State} {tm : Nat} (hs : s.memOk) : (s.barTest tm).memOk :=
  .ite (.foldl (fun _ _ ht => .unblock ht) (.setTeam (.ite (.foldl (fun _ _ ht => .acquireInval ht) hs) hs))) hs

theorem State.memOk.setBar {s : State} {tm n : Nat} {b : NamedBar} (hs : s.memOk) : (s.setBar tm n b).memOk :=
  .updTeam hs

theorem State.memOk.namedClose {s : State} {tm n : Nat} (hs : s.memOk) : (s.namedClose tm n).memOk :=
  .ite hs (.foldl (fun _ _ ht => .foldl (fun _ _ hu => .ite (.unblock hu) hu) ht) (.setBar hs))

theorem State.memOk.pollTeam {s : State} {tm : Nat} (hs : s.memOk) : (s.pollTeam tm).memOk :=
  .foldl (fun _ _ ht => .namedClose ht) (.barTest hs)

theorem State.memOk.barrive {s : State} {slot n cnt : Nat} {after : List Nat} (hs : s.memOk) : (s.barrive slot n cnt after).memOk :=
  .namedClose (.foldl (fun _ _ ht => .unblock ht) (.ite (.block (.setBar hs)) (.setBar hs)))

theorem State.memOk.barwait {s : State} {slot n : Nat} (hs : s.memOk) : (s.barwait slot n).memOk := by
  unfold State.barwait
  dsimp only
  split
  · exact hs
  · exact .block hs

/-! ### What Machine/Translate.lean defines -/

theorem State.memOk.dropX {s : State} {cluster req : Nat} (hs : s.memOk) : (s.dropX cluster req).memOk :=
  .ite (.setCluster hs) hs

theorem State.memOk.admitPages {s : State} {cluster asid desc req : Nat} {pages : List Nat} (hs : s.memOk) :
    (s.admitPages cluster asid desc req pages).memOk :=
  .setCluster hs

theorem State.memOk.sendShadow {s : State} {cluster : Nat} {e : TlbEntry} (hs : s.memOk) : (s.sendShadow cluster e).memOk := by
  unfold State.sendShadow
  dsimp only
  split
  · exact hs
  · split
    · exact hs
    · exact .setCluster hs

theorem State.memOk.foldMicro {s : State} {core : Nat} {e : TlbEntry} (hs : s.memOk) : (s.foldMicro core e).memOk :=
  .ite (.setCluster (.setCore hs)) (.sendShadow (.setCore hs))

theorem State.memOk.evictTlb {s : State} {cl : Nat} {e : TlbEntry} (hs : s.memOk) : (s.evictTlb cl e).memOk :=
  .sendShadow (.setCluster hs)

theorem State.memOk.installTlb {s : State} {cl : Nat} {e : TlbEntry} (hs : s.memOk) : (s.installTlb cl e).memOk := by
  refine .setCluster (.ite ?_ hs)
  split
  · exact .evictTlb hs
  · exact hs

theorem State.memOk.useTlb {s : State} {core : Nat} {e : TlbEntry} (hs : s.memOk) : (s.useTlb core e).memOk := by
  refine .ite (.setCore hs) (.setCore (.ite ?_ hs))
  split
  · exact .foldMicro hs
  · exact hs

theorem State.memOk.useTlbs {s : State} {core : Nat} {es : List TlbEntry} (hs : s.memOk) : (s.useTlbs core es).memOk :=
  .foldl (fun _ _ ht => .useTlb ht) hs

theorem State.memOk.useTlbsIn {s : State} {cl : Nat} {es : List TlbEntry} (hs : s.memOk) : (s.useTlbsIn cl es).memOk :=
  .setCluster hs

/-! ### What Machine/Access.lean defines -/

theorem Out.memOk.checked {c : Ctx} {kind : Nat} {m : LaneMask} {chk : Lane → LaneChk} {n : Nat} {go : State → Out} {s : State}
    (hgo : ∀ t, t.memOk → Out.memOk (go t)) (hs : s.memOk) : Out.memOk (c.checked kind m chk n go s) := by
  unfold Ctx.checked
  dsimp only
  split
  · exact .next (.admitPages hs)
  · split
    · exact .next (.raise (.dropX hs))
    · exact .ite (.next hs) (hgo _ (.useTlbs (.dropX hs)))

theorem State.memOk.race {s : State} {uid : Option Nat} {pa n : Nat} (hs : s.memOk) : (s.race uid pa n).memOk :=
  .ite (.update hs) hs

theorem State.memOk.l1Issue {s : State} {a : Access} (hs : s.memOk) : (s.l1Issue a).memOk := by
  unfold State.l1Issue
  dsimp only
  split
  · exact hs
  · exact hs
  · exact hs
  · exact .ite hs (.ite (.setCore hs) (.setCore hs))
  · exact .ite hs (.setCore hs)

theorem State.memOk.sendAccess {s : State} {a : Access} (hs : s.memOk) : (s.sendAccess a).2.memOk :=
  .update (.ite (.foldl (fun _ _ ht => .race ht) (.l1Issue (.fresh hs))) (.l1Issue (.fresh hs)))

/-! ### What Machine/Monitor.lean defines -/

theorem State.memOk.sendWake {s : State} {e : MonEntry} {status : Nat} {v : DWord} {psn : Bool} (hs : s.memOk) : (s.sendWake e status v psn).memOk
    :=
  .update hs

theorem State.memOk.dropMon {s : State} {home : Nat} {e : MonEntry} (hs : s.memOk) : (s.dropMon home e).memOk :=
  .foldl (fun _ _ ht => .addWord ht) (.setSlice hs)

theorem State.memOk.appendRec {s : State} {home w0 w1 : Nat} (hs : s.memOk) : (s.appendRec home w0 w1).memOk :=
  .setSlice (.poke (.poke hs))

theorem State.memOk.payRecs {home k : Nat} {s : State} (hs : s.memOk) : (s.payRecs home k).memOk := by
  induction k generalizing s with
  | zero => exact hs
  | succ k ih =>
    unfold State.payRecs
    dsimp only
    split
    · exact hs
    · exact .ite hs (ih (.appendRec (.setSlice hs)))

theorem State.memOk.writeRec {s : State} {home d : Nat} {psn : Bool} (hs : s.memOk) : (s.writeRec home d psn).memOk :=
  .payRecs (.setSlice hs)

theorem State.memOk.deadlineRec {s : State} {home slot : Nat} {deadline : DWord} (hs : s.memOk) : (s.deadlineRec home slot deadline).memOk :=
  .appendRec hs

theorem State.memOk.linkSlot {s : State} {home : Nat} {e : MonEntry} (hs : s.memOk) : (s.linkSlot home e).memOk :=
  .setSlice (.ite (.poke (.poke (.poke (.poke (.foldl (fun _ _ ht => .poke ht) hs))))) (.poke (.poke (.poke (.poke (.poke (.foldl (fun _ _ ht =>
    .poke ht) hs)))))))

theorem State.memOk.unlinkSlot {s : State} {home slot : Nat} (hs : s.memOk) : (s.unlinkSlot home slot).memOk :=
  .setSlice (.poke (.ite (.ite hs (.poke hs)) (.poke (.ite hs (.poke hs)))))

theorem State.memOk.spill {s t : State} {home : Nat} {e : MonEntry} (hs : s.memOk) (ht : s.spill home e = some t) : t.memOk := by
  unfold State.spill at ht
  dsimp only at ht
  split_ifs at ht <;> cases ht
  · exact .setSlice (.linkSlot hs)
  · exact .deadlineRec (.setSlice (.linkSlot hs))

theorem State.memOk.setSvc {s : State} {c : Nat} {x : SvcCore} (hs : s.memOk) : (s.setSvc c x).memOk :=
  .update hs

theorem State.memOk.machineCheck {s : State} {cl : Nat} {what : MchkWhat} (hs : s.memOk) : (s.machineCheck cl what).memOk :=
  .setSvc hs

theorem State.memOk.setMonstat {s : State} {core idx status : Nat} {v : Option DWord} (hs : s.memOk) : (s.setMonstat core idx status v).memOk :=
  .setSvc hs

theorem State.memOk.fireArm {s : State} {home : Nat} {e : SvcEntry} {status : Nat} {v : DWord} (hs : s.memOk) : (s.fireArm home e status v).memOk :=
  .setMonstat (.setSlice hs)

theorem State.memOk.afterWriteFor {k home pa n : Nat} {s : State} (hs : s.memOk) : (State.afterWriteFor k home pa n s).memOk := by
  induction k generalizing home pa n s with
  | zero => exact hs
  | succ k ih =>
    exact .foldl (fun _ _ => .foldl fun _ _ => ih)
      (.foldl (fun _ _ hs => .fireArm hs) (.foldl (fun _ _ hs => .ite (.writeRec hs) hs) (.foldl (fun _ _ hs => .dropMon (.sendWake hs)) hs)))

theorem State.memOk.afterWrite {s : State} {home pa n : Nat} (hs : s.memOk) : (s.afterWrite home pa n).memOk :=
  .afterWriteFor hs

theorem State.memOk.charge {s : State} {u : Usage} {rcb : Nat} {d : Int} (hs : s.memOk) : (s.charge u rcb d).memOk :=
  .foldl (fun _ _ ht => .foldl (fun _ _ hu => .afterWrite hu) ht) (.foldl (fun _ _ ht => .addWord ht) hs)

theorem State.memOk.freeMon {s : State} {home : Nat} {e : MonEntry} (hs : s.memOk) : (s.freeMon home e).memOk :=
  .charge (.setSlice hs)

theorem State.memOk.addMon {s : State} {home : Nat} {e : MonEntry} (hs : s.memOk) : (s.addMon home e).memOk :=
  .charge (.setSlice hs)

theorem State.memOk.deviceWrite {s : State} {a x n : Nat} (hs : s.memOk) : (s.deviceWrite a x n).memOk :=
  .foldl (fun _ _ ht => .afterWrite ht) (.update (.poke hs))

theorem State.memOk.afterPoison {s : State} {home line : Nat} (hs : s.memOk) : (s.afterPoison home line).memOk :=
  .foldl (fun _ _ ht => .writeRec ht) (.foldl (fun _ _ ht => .freeMon (.sendWake ht)) hs)

theorem State.memOk.waitHome {s : State} {home : Nat} {w : WaitReq} {e : MonEntry} (hs : s.memOk) : (s.waitHome home w e).memOk := by
  refine .ite (.sendWake hs) (.ite (.sendWake hs) (.ite (.sendWake hs) (.ite (.sendWake hs) (.ite (.addMon hs) (.ite ?_ (.sendWake hs))))))
  split
  · exact .spill hs ‹_›
  · exact .sendWake hs

/-! ### What Machine/Teams.lean defines -/

theorem State.memOk.enqueueLaunch {s : State} {r : LaunchRec} {addr : DWord} {depth rcb desc cluster : Nat} {service : Bool} {rel : List Nat}
    (hs : s.memOk) : (s.enqueueLaunch r addr depth rcb desc cluster service rel).memOk :=
  .update (.charge (.fresh hs))

theorem State.memOk.trimSet {s : State} {core line ways : Nat} (hs : s.memOk) : (s.trimSet core line ways).memOk :=
  .setCore hs

theorem State.memOk.trimL1 {s : State} {core : Nat} (hs : s.memOk) : (s.trimL1 core).memOk :=
  .foldl (fun _ _ ht => .trimSet ht) hs

theorem State.memOk.placeGroup {s : State} {tm i : Nat} {r : LaunchRec} {la : Launch} (hs : s.memOk) : (s.placeGroup tm i r la).memOk :=
  .setTeam (.setPart (.setGroup (.fresh hs)))

theorem State.memOk.placeTeam {s : State} {lid : Nat} {r : LaunchRec} {idx f : Nat} (hs : s.memOk) : (s.placeTeam lid r idx f).2.memOk := by
  refine .update (.foldl (fun _ _ ht => .acquireInval (.trimL1 ht)) (.foldl (fun _ _ ht => .setCore ht) ?_))
  split
  · exact .setCluster (.foldl (fun _ _ ht => .placeGroup ht) (.setTeam (.fresh hs)))
  · exact .foldl (fun _ _ ht => .placeGroup ht) (.setTeam (.fresh hs))

theorem State.memOk.makeReady {s : State} {agent : Nat} {t : Task} (hs : s.memOk) : (s.makeReady agent t).memOk :=
  .setCluster hs

theorem State.memOk.cleanOwn {s : State} {core : Nat} (hs : s.memOk) : (s.cleanOwn core).memOk :=
  .trimL1 (.setCore hs)

theorem State.memOk.dropDesc {s : State} {cl asid : Nat} (hs : s.memOk) : (s.dropDesc cl asid).memOk :=
  .ite hs (.setCluster hs)

theorem State.memOk.freeTeam {s : State} {tm : Nat} (hs : s.memOk) : (s.freeTeam tm).memOk :=
  .update (.dropDesc (.foldl (fun _ _ ht => .setCore ht) (.update hs)))

theorem State.memOk.discardTeam {s : State} {tm : Nat} (hs : s.memOk) : (s.discardTeam tm).memOk :=
  .retryMmas (.freeTeam (.update hs))

theorem State.memOk.endDomain {s : State} {rcb : Nat} (hs : s.memOk) : (s.endDomain rcb).memOk :=
  .foldl (fun _ _ ht => .deviceWrite ht) (.foldl (fun _ _ ht => .foldl (fun _ _ hu => .unlinkSlot hu) (.foldl (fun _ _ hu => .freeMon hu) ht))
    (.foldl (fun _ _ ht => .update (.charge ht)) (.foldl (fun _ _ ht => .discardTeam ht) (.foldl (fun _ _ ht => .foldl (fun _ _ hu => .update
    (.charge (.deviceWrite hu))) ht) (.update (.foldl (fun _ _ ht => .charge ht) (.foldl (fun _ _ ht => .charge ht) (.update hs))))))))

/-! ### What Machine/Home.lean defines -/

theorem State.memOk.setLine {s : State} {pa : Nat} {l : Line} (hs : s.memOk) : (s.setLine pa l).memOk :=
  .update hs

theorem State.memOk.evictLine {s : State} {pa : Nat} (hs : s.memOk) : (s.evictLine pa).memOk :=
  .setLine hs

theorem State.memOk.homeRoom {s : State} {home pa : Nat} (hs : s.memOk) : (s.homeRoom home pa).memOk :=
  .ite hs (.evictLine hs)

theorem State.memOk.poisonLine {s : State} {home pa cause : Nat} (hs : s.memOk) : (s.poisonLine home pa cause).memOk :=
  .ite (.setLine hs) (.afterPoison (.machineCheck (.setSlice (.setLine hs))))

theorem State.memOk.install {s : State} {home pa : Nat} (hs : s.memOk) : (s.install home pa).memOk :=
  .ite (.poisonLine (.setLine (.homeRoom hs))) (.setLine (.homeRoom hs))

theorem State.memOk.sideLine {s : State} {pa : Nat} (hs : s.memOk) : (s.sideLine pa).memOk :=
  .ite hs (.install hs)

theorem State.memOk.sideLines {s : State} {pa : Nat} (hs : s.memOk) : (s.sideLines pa).memOk := by
  unfold State.sideLines
  split
  · exact hs
  · exact .sideLine (.sideLine hs)

theorem State.memOk.thresh {s : State} {home pa : Nat} (hs : s.memOk) : (s.thresh home pa).memOk := by
  unfold State.thresh
  dsimp only
  split
  · exact .setLine hs
  · exact .ite (.setLine hs) (.ite (.poisonLine (.setLine hs)) (.setLine hs))

theorem State.memOk.poisonLineIf {s : State} {c : Bool} {home pa cause : Nat} (hs : s.memOk) : (if c then s.poisonLine home pa cause else s).memOk
    :=
  .ite (.poisonLine hs) hs

theorem State.memOk.fillLine {s : State} {home pa : Nat} {bad : Bool} (hs : s.memOk) : (s.fillLine home pa bad).memOk :=
  .poisonLineIf (.poisonLineIf (.thresh (.setLine (.homeRoom (.sideLines hs)))))

theorem State.memOk.deliverPsn {s : State} {home pa : Nat} (hs : s.memOk) : (s.deliverPsn home pa).memOk :=
  .setSlice hs

theorem State.memOk.homeWrite {s : State} {home pa : Nat} {bs : SMap Byte} {full : Bool} {who : Option Agent} (hs : s.memOk) :
    (s.homeWrite home pa bs full who).memOk :=
  .ite hs (.afterWrite (.ite (.thresh (.setLine (Memory.wf_putAll _ _ _ hs))) (.setLine (Memory.wf_putAll _ _ _ hs))))

theorem State.memOk.homeStore {s : State} {pa x n : Nat} (hs : s.memOk) : (s.homeStore pa x n).memOk :=
  .foldl (fun _ _ ht => .afterWrite ht) (.homeWrite hs)

theorem State.memOk.needLine {s : State} {pa : Nat} (hs : s.memOk) : (s.needLine pa).memOk :=
  .ite hs (.fillLine hs)

theorem State.memOk.refreshDesc {s : State} {point : Nat} (hs : s.memOk) : (s.refreshDesc point).memOk :=
  .update hs

theorem State.memOk.refreshAll {s : State} (hs : s.memOk) : s.refreshAll.memOk :=
  .update hs

theorem State.memOk.movedAt {s : State} {point : Nat} (hs : s.memOk) : (s.movedAt point).memOk :=
  .update (.refreshDesc hs)

theorem State.memOk.sendFrom {s : State} {point pa : Nat} {go : State → State} (hs : s.memOk) (hgo : ∀ t, t.memOk → (go t).memOk) :
    (s.sendFrom point pa go).memOk := by
  unfold State.sendFrom
  split
  · exact .movedAt hs
  · exact hgo _ hs

theorem State.memOk.sendAll {s : State} {point : Nat} {l : List (Nat × Nat)} {go : State → State} (hs : s.memOk) (hgo : ∀ t, t.memOk → (go t).memOk)
    : (s.sendAll point l go).memOk :=
  .ite (.movedAt hs) (hgo _ hs)

theorem State.memOk.unitWrite {s : State} {pa : Nat} {bs : SMap Byte} {full : Bool} (hs : s.memOk) : (s.unitWrite pa bs full).memOk :=
  .ite (.race (.homeWrite (.needLine hs))) hs

theorem State.memOk.unitPoison {s : State} {pa : Nat} (hs : s.memOk) : (s.unitPoison pa).memOk :=
  .ite (.deliverPsn (.needLine hs)) (.needLine hs)

/-- The state that a unit's read of a line leaves keeps the canonical form. -/
def LineRead.memOk : LineRead → Prop
  | .ok s | .wait s | .bad _ s => s.memOk

theorem State.memOk.lineRead {s : State} {point pa n : Nat} {r : LineRead} (hs : s.memOk) (hr : s.lineRead point pa n = r) : r.memOk := by
  subst hr
  unfold State.lineRead
  dsimp only
  split_ifs
  · split
    · exact State.memOk.bump hs
    · exact hs
  · exact State.memOk.movedAt hs
  · exact hs
  · exact State.memOk.deliverPsn (.needLine hs)
  · exact State.memOk.needLine hs

theorem State.memOk.lineRead_ok {s t : State} {point pa n : Nat} (hs : s.memOk) (e : s.lineRead point pa n = .ok t) : t.memOk := hs.lineRead e
theorem State.memOk.lineRead_wait {s t : State} {point pa n : Nat} (hs : s.memOk) (e : s.lineRead point pa n = .wait t) : t.memOk := hs.lineRead e
theorem State.memOk.lineRead_bad {s t : State} {point pa n : Nat} {k : BitVec 8} (hs : s.memOk) (e : s.lineRead point pa n = .bad k t) : t.memOk :=
  hs.lineRead e

theorem State.memOk.lineReads {point n : Nat} {l : List Nat} {s : State} {r : LineRead} (hs : s.memOk) (hr : s.lineReads point n l = r) : r.memOk :=
    by
  induction l generalizing s with
  | nil => subst hr; exact hs
  | cons a l ih =>
    unfold State.lineReads at hr
    split at hr
    · exact ih (hs.lineRead_ok ‹_›) hr
    · exact hs.lineRead hr

theorem State.memOk.lineReads_ok {s t : State} {point n : Nat} {l : List Nat} (hs : s.memOk) (e : s.lineReads point n l = .ok t) : t.memOk :=
    hs.lineReads e
theorem State.memOk.lineReads_wait {s t : State} {point n : Nat} {l : List Nat} (hs : s.memOk) (e : s.lineReads point n l = .wait t) : t.memOk :=
  hs.lineReads e
theorem State.memOk.lineReads_bad {s t : State} {point n : Nat} {l : List Nat} {k : BitVec 8} (hs : s.memOk) (e : s.lineReads point n l = .bad k t)
    :
    t.memOk := hs.lineReads e

theorem State.memOk.spadWrite {s : State} {tm a : Nat} {bs : SMap Byte} (hs : s.memOk) : (s.spadWrite tm a bs).memOk :=
  .ite hs (.foldl (fun _ _ ht => .update ht) (.update (.setTeam hs)))

theorem State.memOk.spadPoison {s : State} {tm a : Nat} (hs : s.memOk) : (s.spadPoison tm a).memOk :=
  .updTeam hs

/-! ### What Machine/Pair.lean defines -/

theorem State.memOk.dropWord {s : State} {core pa : Nat} (hs : s.memOk) : (s.dropWord core pa).memOk :=
  .setCore hs

theorem State.memOk.unstage {s : State} {pa : Nat} (hs : s.memOk) : (s.unstage pa).memOk :=
  .update hs

theorem State.memOk.commitDword {s : State} {t : Team} {full : Bool} {a : Nat} (hs : s.memOk) : (s.commitDword t full a).memOk :=
  .foldl (fun _ _ ht => .dropWord (.dropWord ht)) (.unstage (.homeWrite (.needLine hs)))

theorem State.memOk.commitTeam {s : State} {tm : Nat} (hs : s.memOk) : (s.commitTeam tm).memOk :=
  .updTeam (.foldl (fun _ _ ht => .commitDword ht) hs)

theorem Out.memOk.containedIssue {s : State} {c : Ctx} {i : Instr} {body : State → Out} (hs : s.memOk)
    (hbody : ∀ t, t.memOk → Out.memOk (body t)) : Out.memOk (s.containedIssue c i body) := by
  have hb := hbody s hs
  unfold State.containedIssue
  split
  · exact hb
  · split
    · rename_i e
      rw [e] at hb
      exact .ite hb (.ite (hbody _ (.commitTeam hs)) (.next hs))
    · exact hb

theorem State.memOk.mismatch {s : State} {g : Group} (hs : s.memOk) : (s.mismatch g).memOk :=
  .updTeam hs

theorem State.memOk.peaks {s : State} {cl : Nat} (hs : s.memOk) : (s.peaks cl).memOk :=
  .setCluster hs

theorem State.memOk.slack {s : State} {slot : Nat} (hs : s.memOk) : (s.slack slot).memOk :=
  .ite hs (.updGroup (.setCluster hs))

theorem Out.memOk.standAt {s : State} {c : Ctx} {i : Instr} (hs : s.memOk) : Out.memOk (s.standAt c i) :=
  .ite (.next hs) (.next (.updGroup hs))

theorem State.memOk.logResult {s : State} {lead gidx : Nat} {e : LvqEntry} (hs : s.memOk) : (s.logResult lead gidx e).memOk :=
  .updTeam hs

theorem State.memOk.dropEntry {s : State} {slot seq : Nat} (hs : s.memOk) : (s.dropEntry slot seq).memOk :=
  .updGroup hs

theorem State.memOk.logEffect {s : State} {c : Ctx} {i : Instr} {e : LvqEntry} (hs : s.memOk) : (s.logEffect c i e).memOk :=
  .updGroup (.updTeam (.setCluster hs))

theorem Out.memOk.leadTake {s : State} {c : Ctx} {i : Instr} {side : Bool} {body : State → Out} (hs : s.memOk)
    (hbody : ∀ t, t.memOk → Out.memOk (body t)) : Out.memOk (s.leadTake c i side body) := by
  unfold State.leadTake
  dsimp only
  have hb := hbody (s.updGroup c.slot fun g => { g with lvq := g.lvq ++ [{ seq := c.g.seq, instr := i, lanes := c.act }] }) (.updGroup hs)
  split
  · rename_i e
    rw [e] at hb
    have ht := hb.state
    exact .ite (.next (.updGroup (.dropEntry ht))) (.next (.peaks (.ite (.logEffect (.updGroup ht)) (.updGroup ht))))
  · exact hb

theorem State.memOk.mirrorCopy {s : State} {c : Ctx} {e : LvqEntry} (hs : s.memOk) : (s.mirrorCopy c e).memOk := by
  unfold State.mirrorCopy
  dsimp only
  split
  · exact hs
  · exact .updGroup (.update (.fresh hs))

theorem State.memOk.mirrorAtomf {s : State} {c : Ctx} {e : LvqEntry} (hs : s.memOk) : (s.mirrorAtomf c e).memOk := by
  unfold State.mirrorAtomf
  dsimp only
  split
  · exact hs
  · exact .update (.fresh hs)

theorem State.memOk.takeEntry {c : Ctx} {i : Instr} {e : LvqEntry} {s : State} (hs : s.memOk) : (c.takeEntry i e s).memOk := by
  unfold Ctx.takeEntry
  split
  · exact .done (.mirrorAtomf hs)
  · exact .done (.mirrorCopy hs)
  · exact .done (.mirrorCopy hs)
  · exact .retired (.updGroup hs)
  · split
    · exact .done hs
    · exact .retired (.updGroup hs)

theorem State.memOk.parkFor {c : Ctx} {i : Instr} {s : State} (hs : s.memOk) : (c.parkFor i s).memOk := by
  refine .done (.block ?_)
  split
  · exact .updGroup hs
  · exact hs

theorem State.memOk.tookSide {s : State} {c : Ctx} {side : Bool} (hs : s.memOk) : (s.tookSide c side).memOk :=
  .updGroup hs

theorem Out.memOk.leadIssue {s : State} {c : Ctx} {i : Instr} {body : State → Out} (hs : s.memOk)
    (hbody : ∀ t, t.memOk → Out.memOk (body t)) : Out.memOk (s.leadIssue c i body) := by
  have hb := hbody s hs
  unfold State.leadIssue
  refine .ite (.next (.slack hs)) ?_
  split
  · split
    · rename_i e
      rw [e] at hb
      exact .next (.updGroup hb.state)
    · exact hb
  · split
    · rename_i e
      rw [e] at hb
      exact .ite (.next (.slack hs)) (.next (.peaks (.updGroup hb.state)))
    · exact hb
  · exact .leadTake hs hbody
  · split
    · exact .standAt hs
    · exact .leadTake hs hbody
    · exact .next (.tookSide (.takeEntry hs))

theorem Out.memOk.trailIssue {s : State} {c : Ctx} {i : Instr} {body : State → Out} (hs : s.memOk) (hbody : ∀ t, t.memOk → Out.memOk (body t)) :
    Out.memOk (s.trailIssue c i body) := by
  unfold State.trailIssue
  dsimp only
  split
  · exact .next (.tookSide (.takeEntry hs))
  · refine .ite (.ite (.standAt hs) (.next (.mismatch hs))) ?_
    split
    · exact .ite (hbody _ hs) (.next (.mismatch hs))
    · exact .ite (.next (.mismatch hs)) (.ite (.next (.tookSide (.parkFor hs))) (.ite (.next hs) (.next (.dropEntry (.logResult (.tookSide
        (.takeEntry hs)))))))

theorem Out.memOk.guarded {s : State} {c : Ctx} {i : Instr} {body : State → Out} (hs : s.memOk) (hbody : ∀ t, t.memOk → Out.memOk (body t)) :
    Out.memOk (s.guarded c i body) :=
  .ite (hbody _ hs) (.ite (.containedIssue hs hbody) (.ite (.trailIssue hs hbody) (.leadIssue hs hbody)))

theorem Out.memOk.issue {i : Instr} {own : Ctx → State → Option (BitVec 8)} {body : Ctx → State → Out} {s : State}
    (hbody : ∀ c t, t.memOk → Out.memOk (body c t)) (hs : s.memOk) : Out.memOk (issue i own body s) := by
  unfold Machine.issue
  dsimp only
  split
  · refine .ite (.next hs) (.ite (.next hs) (.ite (.next (.raiseCode hs)) (.ite (.next (.raiseCode hs)) (.ite (.next (.raiseCode hs)) ?_))))
    split
    · exact .next (.raiseCode hs)
    · exact .ite (.next hs) (.guarded hs (fun _ ht => hbody _ _ ht))
  · exact .next hs

theorem State.memOk.mirrorTrap {s : State} {slot : Nat} {sync : Bool} {cls : BitVec 8} {addr : DWord} {back : LaneMask} {pc : DWord} (hs : s.memOk)
    : (s.mirrorTrap slot sync cls addr back pc).memOk :=
  .ite hs (.updGroup (.updGroup hs))

theorem State.memOk.takeTrap {s : State} {slot : Nat} (hs : s.memOk) : (s.takeTrap slot).memOk := by
  unfold State.takeTrap
  dsimp only
  split
  · exact hs
  · exact .setGroup hs

/-! ### What Machine/Control.lean defines -/

theorem State.memOk.branch {c : Ctx} {link : Bool} {t : Lane → DWord} {s : State} (hs : s.memOk) : (branch c link t s).memOk :=
  .ite (.raise hs) (.ite (.retired (.updGroup hs)) (.retired hs))

theorem Out.memOk.execNop {f : Enc} {s : State} (hs : s.memOk) : Out.memOk (execNop f s) :=
  .issue (fun _ _ ht => .next (.done ht)) hs

theorem Out.memOk.execBra {f : Enc} {s : State} (hs : s.memOk) : Out.memOk (execBra f s) :=
  .issue (fun _ _ ht => .next (.branch ht)) hs

theorem Out.memOk.execBru {f : Enc} {s : State} (hs : s.memOk) : Out.memOk (execBru f s) :=
  .issue (fun _ _ ht => .next (.branch ht)) hs

theorem Out.memOk.execBrx {f : Enc} {s : State} (hs : s.memOk) : Out.memOk (execBrx f s) :=
  .issue (fun _ _ ht => .next (.branch ht)) hs

theorem Out.memOk.execCall {f : Enc} {s : State} (hs : s.memOk) : Out.memOk (execCall f s) :=
  .issue (fun _ _ ht => .next (.branch ht)) hs

theorem Out.memOk.execCallx {f : Enc} {s : State} (hs : s.memOk) : Out.memOk (execCallx f s) :=
  .issue (fun _ _ ht => .next (.branch ht)) hs

theorem Out.memOk.execRet {f : Enc} {s : State} (hs : s.memOk) : Out.memOk (execRet f s) :=
  .issue (fun _ _ ht => .next (.branch ht)) hs

theorem State.memOk.cvCatch {s : State} {tm n : Nat} (hs : s.memOk) : (s.cvCatch tm n).memOk :=
  .ite (.cvFault hs) hs

theorem Out.memOk.execExit {f : Enc} {s : State} (hs : s.memOk) : Out.memOk (execExit f s) :=
  .issue (fun _ _ ht => .next (.done (.ite (.pollTeam (.ite (.updGroup ht) (.cvExit (.foldl (fun _ _ hu => .cvCatch hu) (.updGroup ht))))) (.ite
    (.updGroup ht) (.cvExit (.foldl (fun _ _ hu => .cvCatch hu) (.updGroup ht))))))) hs

theorem Out.memOk.execYield {f : Enc} {s : State} (hs : s.memOk) : Out.memOk (execYield f s) :=
  .issue (fun _ _ ht => .next (.done ht)) hs

theorem Out.memOk.groupLevel {i : Instr} {own : Ctx → State → Option (BitVec 8)} {f : Ctx → State → State} {s : State}
    (hf : ∀ c t, t.memOk → (f c t).memOk) (hs : s.memOk) : Out.memOk (groupLevel i own f s) :=
  .issue (fun _ _ ht => .next (.done (.ite ht (hf _ _ ht)))) hs

theorem Out.memOk.execCvset {f : Enc} {s : State} (hs : s.memOk) : Out.memOk (execCvset f s) :=
  .issue (fun _ _ ht => .ite (.next (.result ht)) (.next (.result (.setCv (.cvCatch ht))))) hs

theorem State.memOk.faultedSync {c : Ctx} {n kind : Nat} {s : State} (hs : s.memOk) : (faultedSync c n kind s).memOk :=
  .lateFault hs

theorem Out.memOk.execSign {f : Enc} {s : State} (hs : s.memOk) : Out.memOk (execSign f s) :=
  .issue (fun _ _ ht => .ite (.next (.done ht)) (.ite (.next ht) (.next (.done (.ite (.faultedSync (.cvCatch ht)) (.cvSign (.cvCatch ht))))))) hs

theorem Out.memOk.execCvwait {f : Enc} {s : State} (hs : s.memOk) : Out.memOk (execCvwait f s) :=
  .issue (fun _ _ ht => .ite (.next (.result ht)) (.ite (.next ht) (.ite (.next (.result (.cvCatch ht))) (.ite (.next (.done (.faultedSync (.cvCatch
    ht)))) (.next (.retired (.updGroup (.block (.cvCatch ht))))))))) hs

theorem State.memOk.arriveTeam {s : State} {slot : Nat} {global : Bool} (hs : s.memOk) : (s.arriveTeam slot global).memOk :=
  .barTest (.block (.updTeam hs))

theorem Out.memOk.execBar {f : Enc} {s : State} (hs : s.memOk) : Out.memOk (execBar f s) :=
  .groupLevel (fun _ _ ht => .arriveTeam ht) hs

theorem Out.memOk.execBarG {f : Enc} {s : State} (hs : s.memOk) : Out.memOk (execBarG f s) :=
  .groupLevel (fun _ _ ht => .arriveTeam ht) hs

theorem Out.memOk.execBarNamed {f : Enc} {s : State} (hs : s.memOk) : Out.memOk (execBarNamed f s) :=
  .groupLevel (fun _ _ ht => .barwait (.barrive ht)) hs

theorem Out.memOk.execBarrive {f : Enc} {s : State} (hs : s.memOk) : Out.memOk (execBarrive f s) :=
  .groupLevel (fun _ _ ht => .barrive ht) hs

theorem Out.memOk.execBarwait {f : Enc} {s : State} (hs : s.memOk) : Out.memOk (execBarwait f s) :=
  .groupLevel (fun _ _ ht => .barwait ht) hs

/-! ### What Machine/Integer.lean defines -/

theorem State.memOk.intResult {c : Ctx} {t : IntTy} {x : Lane → Int} {s : State} (hs : s.memOk) : (intResult c t x s).memOk :=
  .result hs

theorem Out.memOk.intOp {i : Instr} {f : Int → Int → Int → IntTy → Int} {s : State} (hs : s.memOk) : Out.memOk (intOp i f s) :=
  .issue (fun _ _ ht => .next (.intResult ht)) hs

theorem Out.memOk.execIadd {f : Enc} {s : State} (hs : s.memOk) : Out.memOk (execIadd f s) :=
  .intOp hs

theorem Out.memOk.execIsub {f : Enc} {s : State} (hs : s.memOk) : Out.memOk (execIsub f s) :=
  .intOp hs

theorem Out.memOk.execIadd3 {f : Enc} {s : State} (hs : s.memOk) : Out.memOk (execIadd3 f s) :=
  .intOp hs

theorem Out.memOk.execImul {f : Enc} {s : State} (hs : s.memOk) : Out.memOk (execImul f s) :=
  .intOp hs

theorem Out.memOk.execImulh {f : Enc} {s : State} (hs : s.memOk) : Out.memOk (execImulh f s) :=
  .intOp hs

theorem Out.memOk.execImad {f : Enc} {s : State} (hs : s.memOk) : Out.memOk (execImad f s) :=
  .intOp hs

theorem Out.memOk.execImin {f : Enc} {s : State} (hs : s.memOk) : Out.memOk (execImin f s) :=
  .intOp hs

theorem Out.memOk.execImax {f : Enc} {s : State} (hs : s.memOk) : Out.memOk (execImax f s) :=
  .intOp hs

theorem Out.memOk.execIabsd {f : Enc} {s : State} (hs : s.memOk) : Out.memOk (execIabsd f s) :=
  .intOp hs

theorem Out.memOk.execImadWide {f : Enc} {s : State} (hs : s.memOk) : Out.memOk (execImadWide f s) :=
  .issue (fun _ _ ht => .next (.intResult ht)) hs

theorem Out.memOk.execLea {f : Enc} {s : State} (hs : s.memOk) : Out.memOk (execLea f s) :=
  .issue (fun _ _ ht => .next (.intResult ht)) hs

theorem Out.memOk.bitOp {i : Instr} {f : Nat → Nat → Nat → Nat → Nat} {s : State} (hs : s.memOk) : Out.memOk (bitOp i f s) :=
  .issue (fun _ _ ht => .next (.result ht)) hs

theorem Out.memOk.execAnd {f : Enc} {s : State} (hs : s.memOk) : Out.memOk (execAnd f s) :=
  .bitOp hs

theorem Out.memOk.execOr {f : Enc} {s : State} (hs : s.memOk) : Out.memOk (execOr f s) :=
  .bitOp hs

theorem Out.memOk.execXor {f : Enc} {s : State} (hs : s.memOk) : Out.memOk (execXor f s) :=
  .bitOp hs

theorem Out.memOk.execNot {f : Enc} {s : State} (hs : s.memOk) : Out.memOk (execNot f s) :=
  .bitOp hs

theorem Out.memOk.execShl {f : Enc} {s : State} (hs : s.memOk) : Out.memOk (execShl f s) :=
  .bitOp hs

theorem Out.memOk.execShr {f : Enc} {s : State} (hs : s.memOk) : Out.memOk (execShr f s) :=
  .bitOp hs

theorem Out.memOk.execSar {f : Enc} {s : State} (hs : s.memOk) : Out.memOk (execSar f s) :=
  .bitOp hs

theorem Out.memOk.execRot {f : Enc} {s : State} (hs : s.memOk) : Out.memOk (execRot f s) :=
  .bitOp hs

theorem Out.memOk.execPopc {f : Enc} {s : State} (hs : s.memOk) : Out.memOk (execPopc f s) :=
  .bitOp hs

theorem Out.memOk.execClz {f : Enc} {s : State} (hs : s.memOk) : Out.memOk (execClz f s) :=
  .bitOp hs

theorem Out.memOk.execBfi {f : Enc} {s : State} (hs : s.memOk) : Out.memOk (execBfi f s) :=
  .bitOp hs

theorem Out.memOk.execPrmt {f : Enc} {s : State} (hs : s.memOk) : Out.memOk (execPrmt f s) :=
  .bitOp hs

theorem Out.memOk.execBfe {f : Enc} {s : State} (hs : s.memOk) : Out.memOk (execBfe f s) :=
  .issue (fun _ _ ht => .next (.result ht)) hs

theorem State.memOk.predResult {c : Ctx} {fixed : Bool} {x : Lane → Bool} {fl : Lane → Flags} {s : State} (hs : s.memOk) :
    (predResult c fixed x fl s).memOk :=
  .done (.updGroup hs)

theorem Out.memOk.execIsetp {f : Enc} {s : State} (hs : s.memOk) : Out.memOk (execIsetp f s) :=
  .issue (fun _ _ ht => .next (.predResult ht)) hs

theorem Out.memOk.execSel {f : Enc} {s : State} (hs : s.memOk) : Out.memOk (execSel f s) :=
  .issue (fun _ _ ht => .next (.result ht)) hs

/-! ### What Machine/FloatOps.lean defines -/

theorem State.memOk.floatResult {c : Ctx} {fixed : Bool} {x : Lane → FRes} {s : State} (hs : s.memOk) : (floatResult c fixed x s).memOk :=
  .result hs

theorem Out.memOk.farith {i : Instr} {d : FFmt} {fixed : Bool} {f : RMode → FVal → FVal → FVal → Exact} {s : State} (hs : s.memOk) : Out.memOk
    (farith i d fixed f s) :=
  .issue (fun _ _ ht => .next (.floatResult ht)) hs

theorem Out.memOk.execFadd {f : Enc} {s : State} (hs : s.memOk) : Out.memOk (execFadd f s) :=
  .farith hs

theorem Out.memOk.execFmul {f : Enc} {s : State} (hs : s.memOk) : Out.memOk (execFmul f s) :=
  .farith hs

theorem Out.memOk.execFfma {f : Enc} {s : State} (hs : s.memOk) : Out.memOk (execFfma f s) :=
  .farith hs

theorem Out.memOk.execDadd {f : Enc} {s : State} (hs : s.memOk) : Out.memOk (execDadd f s) :=
  .farith hs

theorem Out.memOk.execDmul {f : Enc} {s : State} (hs : s.memOk) : Out.memOk (execDmul f s) :=
  .farith hs

theorem Out.memOk.execDfma {f : Enc} {s : State} (hs : s.memOk) : Out.memOk (execDfma f s) :=
  .farith hs

theorem Out.memOk.execFrcp {f : Enc} {s : State} (hs : s.memOk) : Out.memOk (execFrcp f s) :=
  .farith hs

theorem Out.memOk.execFsqrt {f : Enc} {s : State} (hs : s.memOk) : Out.memOk (execFsqrt f s) :=
  .farith hs

theorem Out.memOk.harith {i : Instr} {f : RMode → FVal → FVal → FVal → Exact} {s : State} (hs : s.memOk) : Out.memOk (harith i f s) :=
  .issue (fun _ _ ht => .next (.floatResult ht)) hs

theorem Out.memOk.execHadd2 {f : Enc} {s : State} (hs : s.memOk) : Out.memOk (execHadd2 f s) :=
  .harith hs

theorem Out.memOk.execHmul2 {f : Enc} {s : State} (hs : s.memOk) : Out.memOk (execHmul2 f s) :=
  .harith hs

theorem Out.memOk.execHfma2 {f : Enc} {s : State} (hs : s.memOk) : Out.memOk (execHfma2 f s) :=
  .harith hs

theorem Out.memOk.minMaxOp {i : Instr} {isMax : Bool} {s : State} (hs : s.memOk) : Out.memOk (minMaxOp i isMax s) :=
  .issue (fun _ _ ht => .next (.floatResult ht)) hs

theorem Out.memOk.execFmin {f : Enc} {s : State} (hs : s.memOk) : Out.memOk (execFmin f s) :=
  .minMaxOp hs

theorem Out.memOk.execFmax {f : Enc} {s : State} (hs : s.memOk) : Out.memOk (execFmax f s) :=
  .minMaxOp hs

theorem Out.memOk.execFsetp {f : Enc} {s : State} (hs : s.memOk) : Out.memOk (execFsetp f s) :=
  .issue (fun _ _ ht => .next (.predResult ht)) hs

theorem Out.memOk.execFclass {f : Enc} {s : State} (hs : s.memOk) : Out.memOk (execFclass f s) :=
  .issue (fun _ _ ht => .next (.result ht)) hs

theorem Out.memOk.specialOp {i : Instr} {k : SpecialFn} {s : State} (hs : s.memOk) : Out.memOk (specialOp i k s) :=
  .issue (fun _ _ ht => .next (.floatResult ht)) hs

theorem Out.memOk.execFrsq {f : Enc} {s : State} (hs : s.memOk) : Out.memOk (execFrsq f s) :=
  .specialOp hs

theorem Out.memOk.execFexp2 {f : Enc} {s : State} (hs : s.memOk) : Out.memOk (execFexp2 f s) :=
  .specialOp hs

theorem Out.memOk.execFlog2 {f : Enc} {s : State} (hs : s.memOk) : Out.memOk (execFlog2 f s) :=
  .specialOp hs

theorem Out.memOk.execFsin {f : Enc} {s : State} (hs : s.memOk) : Out.memOk (execFsin f s) :=
  .specialOp hs

theorem Out.memOk.execFcos {f : Enc} {s : State} (hs : s.memOk) : Out.memOk (execFcos f s) :=
  .specialOp hs

theorem Out.memOk.execFcvt {f : Enc} {s : State} (hs : s.memOk) : Out.memOk (execFcvt f s) :=
  .issue (fun _ _ ht => .next (.floatResult ht)) hs

theorem Out.memOk.execIcvt {f : Enc} {s : State} (hs : s.memOk) : Out.memOk (execIcvt f s) :=
  .issue (fun _ _ ht => .next (.intResult ht)) hs

theorem Out.memOk.execF8pk {f : Enc} {s : State} (hs : s.memOk) : Out.memOk (execF8pk f s) :=
  .issue (fun _ _ ht => .next (.floatResult ht)) hs

theorem Out.memOk.execPack {f : Enc} {s : State} (hs : s.memOk) : Out.memOk (execPack f s) :=
  .issue (fun _ _ ht => .next (.floatResult ht)) hs

/-! ### What Machine/LoadStore.lean defines -/

theorem Out.memOk.loadOp {c : Ctx} {space : Space} {chk : Lane → LaneChk} {ea : Lane → DWord} {s : State} {window : optParam Bool false}
    (hs : s.memOk) : Out.memOk (loadOp c space chk ea s window) :=
  .ite (.next (.retired hs)) (.checked (fun _ ht => .next (.retired (.sendAccess ht))) hs)

theorem Out.memOk.storeOp {c : Ctx} {space : Space} {chk : Lane → LaneChk} {ea : Lane → DWord} {s : State} (hs : s.memOk) : Out.memOk
    (storeOp c space chk ea s) :=
  .ite (.next (.done hs)) (.checked (fun _ ht => .next (.done (.sendAccess ht))) hs)

theorem Out.memOk.execLd {f : Enc} {s : State} (hs : s.memOk) : Out.memOk (execLd f s) :=
  .issue (fun _ _ ht => .loadOp ht) hs

theorem Out.memOk.execSt {f : Enc} {s : State} (hs : s.memOk) : Out.memOk (execSt f s) :=
  .issue (fun _ _ ht => .storeOp ht) hs

theorem Out.memOk.execLds {f : Enc} {s : State} (hs : s.memOk) : Out.memOk (execLds f s) :=
  .issue (fun _ _ ht => .loadOp ht) hs

theorem Out.memOk.execSts {f : Enc} {s : State} (hs : s.memOk) : Out.memOk (execSts f s) :=
  .issue (fun _ _ ht => .storeOp ht) hs

theorem Out.memOk.execLdc {f : Enc} {s : State} (hs : s.memOk) : Out.memOk (execLdc f s) :=
  .issue (fun _ _ ht => .loadOp ht) hs

theorem Out.memOk.execPrefetch {f : Enc} {s : State} (hs : s.memOk) : Out.memOk (execPrefetch f s) := by
  refine .issue (fun _ _ ht => .ite (.next (.done ht)) ?_) hs
  split
  · exact .next (.admitPages ht)
  · exact .ite (.next ht) (.ite (.next (.done (.useTlbs (.dropX ht)))) (.next (.done (.sendAccess (.useTlbs (.dropX ht))))))

theorem Out.memOk.execCctl {f : Enc} {s : State} (hs : s.memOk) : Out.memOk (execCctl f s) := by
  refine .issue (fun _ _ ht => .ite (.next (.done ht)) ?_) hs
  split
  · exact .next (.done (.setCore ht))
  · exact .next (.done (.updGroup ht))
  · exact .checked (fun _ hu => .next (.done (.ite (.setCore hu) (.updGroup hu)))) ht

/-! ### What Machine/Atomics.lean defines -/

theorem Out.memOk.atomicOp {c : Ctx} {space : Space} {ret : Bool} {chk : Lane → LaneChk} {ea : Lane → DWord} {s : State} (hs : s.memOk) : Out.memOk
    (atomicOp c space ret chk ea s) :=
  .ite (.next (.done hs)) (.checked (fun _ ht => .ite (.next (.retired (.sendAccess ht))) (.next (.done (.sendAccess ht)))) hs)

theorem Out.memOk.execAtom {f : Enc} {s : State} (hs : s.memOk) : Out.memOk (execAtom f s) :=
  .issue (fun _ _ ht => .atomicOp ht) hs

theorem Out.memOk.execAtomCas {f : Enc} {s : State} (hs : s.memOk) : Out.memOk (execAtomCas f s) :=
  .issue (fun _ _ ht => .atomicOp ht) hs

theorem Out.memOk.execAtoms {f : Enc} {s : State} (hs : s.memOk) : Out.memOk (execAtoms f s) :=
  .issue (fun _ _ ht => .atomicOp ht) hs

theorem Out.memOk.execRed {f : Enc} {s : State} (hs : s.memOk) : Out.memOk (execRed f s) :=
  .issue (fun _ _ ht => .ite (.atomicOp ht) (.atomicOp ht)) hs

theorem Out.memOk.execAtomf {f : Enc} {s : State} (hs : s.memOk) : Out.memOk (execAtomf f s) :=
  .issue (fun _ _ ht => .ite (.next (.done ht)) (.checked (fun _ hu => .next (.done (.sendAccess hu))) ht)) hs

theorem Out.memOk.execArrive {f : Enc} {s : State} (hs : s.memOk) : Out.memOk (execArrive f s) :=
  .issue (fun _ _ ht => .ite (.next (.done ht)) (.checked (fun _ hu => .next (.done (.sendAccess hu))) ht)) hs

theorem Out.memOk.execQunpk {f : Enc} {s : State} (hs : s.memOk) : Out.memOk (execQunpk f s) :=
  .issue (fun _ _ ht => .ite (.next (.done ht)) (.checked (fun _ hu => .next (.retired (.sendAccess hu))) ht)) hs

theorem State.memOk.waitL1 {s : State} {core a : Nat} (hs : s.memOk) : (s.waitL1 core a).memOk :=
  .setCore hs

theorem Out.memOk.execWait {f : Enc} {s : State} (hs : s.memOk) : Out.memOk (execWait f s) :=
  .issue (fun _ _ ht => .ite (.next (.done ht)) (.ite (.next ht) (.checked (fun _ hu => .next (.done (.block (.update (.updGroup (.ite hu (.waitL1
    (.waitL1 hu)))))))) ht))) hs

theorem Out.memOk.execNsleep {f : Enc} {s : State} (hs : s.memOk) : Out.memOk (execNsleep f s) :=
  .issue (fun _ _ ht => .ite (.next (.done ht)) (.ite (.next (.done ht)) (.next (.done (.block ht))))) hs

/-! ### What Machine/Hub.lean defines -/

theorem State.memOk.setFwin {s : State} {n : Nat} {w : Fwin} (hs : s.memOk) : (s.setFwin n w).memOk :=
  .update hs

theorem State.memOk.writeFwinCtl {s : State} {n : Nat} {v m : DWord} (hs : s.memOk) : (s.writeFwinCtl n v m).memOk :=
  .ite hs (.ite (.setFwin hs) (.setFwin hs))

theorem State.memOk.writeFwinBase {s : State} {n k : Nat} {v m : DWord} (hs : s.memOk) : (s.writeFwinBase n k v m).memOk := by
  refine .ite (.setFwin hs) ?_
  split
  · exact .setFwin hs
  · exact .setFwin hs
  · exact .setFwin hs

theorem State.memOk.capWindows {s : State} (hs : s.memOk) : s.capWindows.memOk :=
  .foldl (fun _ _ ht => .ite (.setFwin ht) ht) hs

theorem State.memOk.migRefuse {s : State} (hs : s.memOk) : s.migRefuse.memOk :=
  .update hs

theorem Memory.wf_foldl_put {f : Nat → Nat} {g : Nat → Byte} (l : List Nat) {m : Memory} (hs : Memory.wf m = true) :
    Memory.wf (l.foldl (fun m k => Memory.put m (f k) (g k)) m) = true := by
  induction l generalizing m with
  | nil => exact hs
  | cons k l ih => exact ih (Memory.wf_put _ _ _ hs)

theorem State.memOk.lostBytes {s : State} {old new : Nat} (hs : s.memOk) : (s.lostBytes old new).memOk := by
  unfold State.lostBytes
  exact .ite hs (Memory.wf_foldl_put _ hs)

theorem State.memOk.writeMemcap {s : State} {v m : DWord} (hs : s.memOk) : (s.writeMemcap v m).memOk :=
  .ite (.migRefuse hs) (.update (.lostBytes hs))

theorem State.memOk.writeStackmap {s : State} {v m : DWord} (hs : s.memOk) : (s.writeStackmap v m).memOk :=
  .ite hs (.ite (.migRefuse hs) (.update hs))

theorem State.memOk.closeBegin {s : State} (hs : s.memOk) : s.closeBegin.memOk :=
  .ite (.update hs) hs

theorem State.memOk.go {s : State} (hs : s.memOk) : s.go.memOk :=
  .ite (.update hs) (.migRefuse hs)

theorem State.memOk.writeMigTarget {s : State} (hs : s.memOk) : s.writeMigTarget.memOk :=
  .ite hs (.homeStore hs)

theorem State.memOk.writeMigword {s : State} {v m : DWord} (hs : s.memOk) : (s.writeMigword v m).memOk :=
  .ite (.update hs) (.migRefuse hs)

theorem State.memOk.writeMigshare {s : State} {v m : DWord} (hs : s.memOk) : (s.writeMigshare v m).memOk :=
  .ite hs (.update hs)

theorem State.memOk.writeMigstat {s : State} {v m : DWord} (hs : s.memOk) : (s.writeMigstat v m).memOk :=
  .update hs

theorem State.memOk.writePeerwin {s : State} {k : Nat} {v m : DWord} (hs : s.memOk) : (s.writePeerwin k v m).memOk :=
  .ite (.update (.update hs)) (.update hs)

theorem State.memOk.glWake {s : State} {home slot status : Nat} {v : DWord} {psn : Bool} (hs : s.memOk) : (s.glWake home slot status v psn).memOk :=
  .sendWake (.unlinkSlot hs)

theorem State.memOk.glcmd {s : State} {home : Nat} {v : DWord} (hs : s.memOk) : (s.glcmd home v).memOk := by
  refine .ite hs ?_
  split
  · exact .setSlice (.glWake hs)
  · exact .glWake hs
  · exact .glWake hs
  · exact hs

theorem State.memOk.writeMon {s : State} {home k : Nat} {v m : DWord} (hs : s.memOk) : (s.writeMon home k v m).memOk := by
  unfold State.writeMon
  dsimp only
  split
  · exact .setSlice hs
  · exact .setSlice hs
  · exact .setSlice hs
  · exact .setSlice hs
  · exact .setSlice hs
  · exact .ite (.setSlice hs) hs
  · exact .setSlice hs
  · exact .ite (.glcmd hs) hs
  · exact hs

theorem State.memOk.setSilo {s : State} {d : Nat} {x : Die} (hs : s.memOk) : (s.setSilo d x).memOk :=
  .ite (.setSvc (.setDie hs)) (.ite (.setSvc (.setDie hs)) (.setDie hs))

theorem State.memOk.writeSilo {s : State} {d k : Nat} {v m : DWord} (hs : s.memOk) : (s.writeSilo d k v m).memOk := by
  unfold State.writeSilo
  dsimp only
  split
  · exact .setSilo hs
  · exact .setSilo hs
  · exact .setSilo hs
  · exact .setSilo hs
  · exact hs

theorem State.memOk.nvCount {s : State} {unit : Nat} (hs : s.memOk) : (s.nvCount unit).memOk :=
  .update hs

theorem State.memOk.bucketEvent {s : State} {off weight cluster : Nat} {uncorrectable : Bool} (hs : s.memOk) :
    (s.bucketEvent off weight cluster uncorrectable).memOk :=
  .ite (.ite (.nvCount hs) hs) (.ite (.machineCheck (.nvCount (.update (.ite (.nvCount hs) hs)))) (.update (.ite (.nvCount hs) hs)))

theorem State.memOk.setLink {s : State} {k : Nat} {l : Link} (hs : s.memOk) : (s.setLink k l).memOk :=
  .update hs

/-! ### What Machine/Faults.lean defines -/

theorem State.memOk.deliverSync {s : State} {slot : Nat} {cls : BitVec 8} {addr : DWord} {ret : Lanes DWord} (hs : s.memOk) :
    (s.deliverSync slot cls addr ret).memOk :=
  .ite (.setGroup hs) (.endDomain hs)

theorem State.memOk.mirrorFault {s : State} {slot : Nat} {r : FaultMode} {cls : BitVec 8} {addr : DWord} (hs : s.memOk) :
    (s.mirrorFault slot r cls addr).memOk :=
  .ite (.mirrorTrap hs) hs

theorem State.memOk.deliverParked {s : State} {slot : Nat} {cls : BitVec 8} {addr : DWord} {ret : Lanes DWord} (hs : s.memOk) :
    (s.deliverParked slot cls addr ret).memOk :=
  .ite (.unblock (.deliverSync hs)) (.deliverSync hs)

theorem State.memOk.updOp {s : State} {core id : Nat} {f : MatOp → MatOp} (hs : s.memOk) : (s.updOp core id f).memOk :=
  .setCore hs

theorem State.memOk.finishOp {s : State} {core : Nat} {o : MatOp} (hs : s.memOk) : (s.finishOp core o).memOk :=
  .retryMmas (.wakeMwait (.ite (.setCore hs) (.ite (.setCv (.setCore hs)) (.updTeam (.setCore hs)))))

theorem State.memOk.finishOps {core k : Nat} {s : State} (hs : s.memOk) : (State.finishOps core k s).memOk := by
  induction k generalizing s with
  | zero => exact hs
  | succ k ih =>
    unfold State.finishOps
    split
    · exact ih (.finishOp hs)
    · exact hs

theorem State.memOk.endOp {s : State} {core id : Nat} {abandoned : Bool} (hs : s.memOk) : (s.endOp core id abandoned).memOk :=
  .finishOps (.retryMmas (.updOp hs))

theorem State.memOk.takePend {s : State} {slot : Nat} (hs : s.memOk) : (s.takePend slot).memOk := by
  unfold State.takePend
  dsimp only
  split
  · exact hs
  · exact .ite (.updGroup hs) (.deliverSync (.setGroup (.mirrorFault hs)))

theorem State.memOk.postTrap {s : State} {slot : Nat} {cls : BitVec 8} {addr : DWord} (hs : s.memOk) : (s.postTrap slot cls addr).memOk :=
  .ite (.takePend (.updProg hs)) (.updProg hs)

theorem State.memOk.answer {s : State} {cl idx act : Nat} (hs : s.memOk) : (s.answer cl idx act).memOk := by
  unfold State.answer
  dsimp only
  split
  · exact hs
  · refine .ite (.setCluster hs) (.ite (.endDomain (.setCluster hs)) ?_)
    split
    · exact .ite (.endDomain (.ite (.mirrorFault (.setCluster hs)) (.setCluster hs))) (.updTeam (.ite (.mirrorFault (.setCluster hs)) (.setCluster
        hs)))
    · exact .ite (.ite (.mirrorFault (.setCluster hs)) (.setCluster hs)) (.postTrap (.ite (.mirrorFault (.setCluster hs)) (.setCluster hs)))
    · split
      · exact .ite (.mirrorFault (.setCluster hs)) (.setCluster hs)
      · refine .ite (.updOp (.ite (.mirrorFault (.setCluster hs)) (.setCluster hs))) ?_
        split
        · exact .postTrap (.endOp (.ite (.mirrorFault (.setCluster hs)) (.setCluster hs)))
        · exact .endOp (.ite (.mirrorFault (.setCluster hs)) (.setCluster hs))
    · exact .ite (.updGroup (.update (.update (.ite (.mirrorFault (.setCluster hs)) (.setCluster hs))))) (.deliverParked (.update (.ite
        (.mirrorFault (.setCluster hs)) (.setCluster hs))))
    · exact .ite (.update (.updGroup (.ite (.mirrorFault (.setCluster hs)) (.setCluster hs)))) (.deliverParked (.updGroup (.ite (.mirrorFault
        (.setCluster hs)) (.setCluster hs))))
    · exact .ite (.unblock (.ite (.mirrorFault (.setCluster hs)) (.setCluster hs))) (.deliverParked (.ite (.mirrorFault (.setCluster hs))
        (.setCluster hs)))
    · exact .ite (.unblock (.setGroup (.ite (.mirrorFault (.setCluster hs)) (.setCluster hs)))) (.deliverParked (.ite (.mirrorFault (.setCluster
        hs)) (.setCluster hs)))
    · exact .ite (.unblock (.setGroup (.ite (.mirrorFault (.setCluster hs)) (.setCluster hs)))) (.deliverParked (.ite (.mirrorFault (.setCluster
        hs)) (.setCluster hs)))

/-! ### What Machine/SpecialRegs.lean defines -/

theorem Out.memOk.execSrd {f : Enc} {s : State} (hs : s.memOk) : Out.memOk (execSrd f s) :=
  .issue (fun _ _ ht => .next (.result ht)) hs

theorem Out.memOk.execSwr {f : Enc} {s : State} (hs : s.memOk) : Out.memOk (execSwr f s) :=
  .issue (fun _ _ ht => .next (.done (.ite ht (.updGroup ht)))) hs

/-! ### What Machine/Copy.lean defines -/

theorem State.memOk.sendCopy {c : Ctx} {s : State} {ps : List CopyPiece} {arv tdc : Option Word} (hs : s.memOk) : (c.sendCopy s ps arv tdc).memOk :=
  .updGroup (.update (.fresh hs))

theorem Out.memOk.execAcopy {f : Enc} {s : State} (hs : s.memOk) : Out.memOk (execAcopy f s) := by
  refine .issue (fun _ _ ht => .ite (.next (.done ht)) (.ite (.next ht) ?_)) hs
  split
  · exact .next (.admitPages ht)
  · exact .next (.raise (.dropX ht))
  · exact .next (.done (.sendCopy (.useTlbsIn (.dropX ht))))

theorem Out.memOk.execAcp {f : Enc} {s : State} (hs : s.memOk) : Out.memOk (execAcp f s) := by
  refine .issue (fun _ _ ht => .ite (.next (.done ht)) (.ite (.next ht) (.ite (.next (.admitPages ht)) ?_))) hs
  split
  · exact .next (.raise (.dropX ht))
  · exact .next (.done (.sendCopy (.useTlbsIn (.dropX ht))))

theorem State.memOk.takeTag {s : State} {slot t : Nat} {clr : Bool} (hs : s.memOk) : (s.takeTag slot t clr).memOk :=
  .acquireInval (.ite (.updGroup hs) hs)

theorem Out.memOk.execTffs {f : Enc} {s : State} (hs : s.memOk) : Out.memOk (execTffs f s) := by
  refine .issue (fun _ _ ht => .ite (.next (.result ht)) ?_) hs
  split
  · exact .next (.result (.takeTag ht))
  · exact .next (.result ht)

theorem Out.memOk.execTwaitany {f : Enc} {s : State} (hs : s.memOk) : Out.memOk (execTwaitany f s) := by
  refine .issue (fun _ _ ht => .ite (.next (.result ht)) ?_) hs
  split
  · exact .next (.result (.takeTag ht))
  · exact .ite (.next (.result ht)) (.next (.done (.block ht)))

theorem Out.memOk.execTwaitall {f : Enc} {s : State} (hs : s.memOk) : Out.memOk (execTwaitall f s) :=
  .issue (fun _ _ ht => .ite (.next (.result ht)) (.ite (.next (.result (.acquireInval ht))) (.next (.done (.block ht))))) hs

theorem State.memOk.takeToken {s : State} {slot t : Nat} {mask : Word} (hs : s.memOk) : (s.takeToken slot t mask).memOk :=
  .updGroup hs

theorem Out.memOk.execFissue {f : Enc} {s : State} (hs : s.memOk) : Out.memOk (execFissue f s) := by
  refine .issue (fun _ _ ht => .ite (.next (.result ht)) ?_) hs
  split
  · exact .next ht
  · exact .next (.result (.takeToken ht))

theorem Out.memOk.execFwait {f : Enc} {s : State} (hs : s.memOk) : Out.memOk (execFwait f s) :=
  .groupLevel (fun _ _ ht => .ite ht (.block ht)) hs

theorem Out.memOk.execFence {f : Enc} {s : State} (hs : s.memOk) : Out.memOk (execFence f s) := by
  refine .issue (fun _ _ ht => .ite (.next (.done ht)) ?_) hs
  split
  · exact .next ht
  · exact .next (.done (.block (.takeToken ht)))

/-! ### What Machine/Matrix.lean defines -/

theorem Out.memOk.execMma {f : Enc} {s : State} (hs : s.memOk) : Out.memOk (execMma f s) :=
  .issue (fun _ _ ht => .ite (.next (.result ht)) (.ite (.next ht) (.ite (.next (.done (.faultedSync (.cvCatch ht)))) (.next (.result (.updGroup
    (.cvSign (.cvCatch ht)))))))) hs

theorem State.memOk.bumpSeq {s : State} {tm j : Nat} (hs : s.memOk) : (s.bumpSeq tm j).memOk :=
  .updTeam hs

theorem State.memOk.pushOp {s : State} {core : Nat} {o : MatOp} (hs : s.memOk) : (s.pushOp core o).memOk :=
  .setCore hs

theorem Out.memOk.tileFault {c : Ctx} {cls : BitVec 8} {space : Nat} {a : DWord} {s : State} (hs : s.memOk) : Out.memOk (c.tileFault cls space a s)
    :=
  .next (.raise hs)

theorem Out.memOk.execMzero {f : Enc} {s : State} (hs : s.memOk) : Out.memOk (execMzero f s) :=
  .issue (fun _ _ ht => .ite (.next (.done ht)) (.ite (.next ht) (.next (.done (.pushOp (.fresh ht)))))) hs

theorem Out.memOk.tileMem {i : Instr} {op : Nat} {s : State} (hs : s.memOk) : Out.memOk (tileMem i op s) :=
  .issue (fun _ _ ht => .ite (.next (.result ht)) (.ite (.tileFault ht) (.ite (.tileFault ht) (.ite (.tileFault ht) (.ite (.next ht) (.next (.result
    (.pushOp (.bumpSeq (.fresh ht)))))))))) hs

theorem Out.memOk.execMld {f : Enc} {s : State} (hs : s.memOk) : Out.memOk (execMld f s) :=
  .tileMem hs

theorem Out.memOk.execMst {f : Enc} {s : State} (hs : s.memOk) : Out.memOk (execMst f s) :=
  .tileMem hs

theorem Out.memOk.execMcvt {f : Enc} {s : State} (hs : s.memOk) : Out.memOk (execMcvt f s) :=
  .tileMem hs

theorem Out.memOk.execMrd {f : Enc} {s : State} (hs : s.memOk) : Out.memOk (execMrd f s) :=
  .issue (fun _ _ ht => .ite (.next (.result ht)) (.ite (.tileFault ht) (.ite (.next ht) (.next (.retired (.pushOp (.fresh ht))))))) hs

theorem Out.memOk.execMwr {f : Enc} {s : State} (hs : s.memOk) : Out.memOk (execMwr f s) :=
  .issue (fun _ _ ht => .ite (.next (.done ht)) (.ite (.tileFault ht) (.ite (.next ht) (.next (.done (.pushOp (.fresh ht))))))) hs

theorem Out.memOk.execMofence {f : Enc} {s : State} (hs : s.memOk) : Out.memOk (execMofence f s) :=
  .groupLevel (fun _ _ ht => .foldl (fun _ _ hu => .setCore hu) ht) hs

theorem Out.memOk.execMwait {f : Enc} {s : State} (hs : s.memOk) : Out.memOk (execMwait f s) :=
  .issue (fun _ _ ht => .ite (.next (.result ht)) (.ite (.next (.result ht)) (.ite (.next (.result (.acquireInval (.updGroup ht)))) (.next (.done
    (.block ht)))))) hs

theorem Out.memOk.execMdrain {f : Enc} {s : State} (hs : s.memOk) : Out.memOk (execMdrain f s) := by
  refine .issue (fun _ _ ht => .ite (.next (.result ht)) ?_) hs
  split
  · exact .tileFault ht
  · exact .ite (.next ht) (.next (.result (.foldl (fun _ _ hu => .pushOp hu) (.bumpSeq (.fresh ht)))))

theorem Out.memOk.execMfill {f : Enc} {s : State} (hs : s.memOk) : Out.memOk (execMfill f s) := by
  refine .issue (fun c s hs => .ite (.next (.done hs)) ?_) hs
  split
  · exact .tileFault hs
  · refine .ite (.next hs) ?_
    split
    · exact .next (.admitPages hs)
    · exact .next (.raise (.dropX hs))
    · split
      · exact .next (hs.lineReads_wait ‹_›)
      · exact .next (.raise (.dropX (hs.lineReads_bad ‹_›)))
      · rename_i e
        have hu := hs.lineReads_ok e
        refine .ite (.next (.raiseCode (.bump (.useTlbsIn (.dropX hu))))) (.next (.done (.foldl (fun s j hs => ?_) (.bump (.useTlbsIn (.dropX hu))))))
        exact .ite (.foldl (fun _ _ ht => .pushOp (.fresh ht)) (.setCore hs)) (.updTeam (.foldl (fun _ _ ht => .pushOp (.fresh ht)) (.setCore hs)))

theorem Out.memOk.execMresume {f : Enc} {s : State} (hs : s.memOk) : Out.memOk (execMresume f s) := by
  refine .groupLevel (fun _ _ ht => .foldl (fun _ _ hu => .foldl (fun _ _ hv => ?_) hu) ht) hs
  split
  · exact .updOp hv
  · split
    · exact .answer hv
    · exact hv
  · exact hv

/-! ### What Machine/SaveRestore.lean defines -/

theorem Out.memOk.partOp {i : Instr} {r : Right} {eff : Ctx → Group → Nat → (Nat → Nat) → State → State} {s : State}
    (heff : ∀ c g n pa t, t.memOk → (eff c g n pa t).memOk) (hs : s.memOk) : Out.memOk (partOp i r eff s) := by
  refine .issue (fun c s hs => ?_) hs
  refine .ite (.next (.done hs)) (.ite (.next (.raise hs)) (.ite (.next hs) ?_))
  split
  · exact .next (.admitPages hs)
  · exact .next (.raise (.dropX hs))
  · refine .ite ?_ (.next (.ite (.sendAll hs fun _ hs => .done (heff _ _ _ _ _ (.useTlbs (.dropX hs)))) hs))
    split
    · exact .next (hs.lineReads_wait ‹_›)
    · exact .next (.raise (.dropX (hs.lineReads_bad ‹_›)))
    · exact .next (.done (heff _ _ _ _ _ (.useTlbs (.dropX (hs.lineReads_ok ‹_›)))))

theorem Out.memOk.execGsave {f : Enc} {s : State} (hs : s.memOk) : Out.memOk (execGsave f s) :=
  .partOp (fun _ _ _ _ _ ht => .foldl (fun _ _ hu => .unitWrite hu) ht) hs

theorem Out.memOk.execGrest {f : Enc} {s : State} (hs : s.memOk) : Out.memOk (execGrest f s) :=
  .partOp (fun _ _ _ _ _ ht => .update ht) hs

/-! ### What Machine/SaveArea.lean defines -/

theorem State.memOk.putSaved {s : State} {t : Team} {area : Nat} {g : Group} (hs : s.memOk) : (s.putSaved t area g).memOk :=
  .homeStore (.foldl (fun _ _ ht => .homeStore ht) hs)

theorem State.memOk.putPart {s : State} {a : Nat} {g : Group} {part off : Nat} (hs : s.memOk) : (s.putPart a g part off).memOk :=
  .foldl (fun _ _ ht => .homeStore ht) hs

theorem State.memOk.putGroup {s : State} {a : Nat} {g : Group} (hs : s.memOk) : (s.putGroup a g).memOk :=
  .foldl (fun _ _ ht => .putPart ht) hs

theorem State.memOk.putHeader {s : State} {t : Team} {area id calls : Nat} (hs : s.memOk) : (s.putHeader t area id calls).memOk :=
  .foldl (fun _ _ ht => .foldl (fun _ _ hu => .homeStore hu) ht) (.foldl (fun _ _ ht => .homeStore ht) hs)

theorem State.memOk.putTeam {s : State} {area : Nat} {v : SavedTeam} (hs : s.memOk) : (s.putTeam area v).memOk :=
  .homeStore (.foldl (fun _ _ ht => .foldl (fun _ _ hu => .homeStore hu) ht) (.foldl (fun _ _ ht => .homeStore ht) (.foldl (fun _ _ ht => .putGroup
    ht) (.putHeader hs))))

/-! ### What Machine/Tasks.lean defines -/

theorem State.memOk.giveTask {s : State} {slot : Nat} {t : Task} {d : Dest} {ret : DWord} (hs : s.memOk) : (s.giveTask slot t d ret).memOk :=
  .acquireInval (.updGroup hs)

theorem State.memOk.dispatch {cl rcb now n : Nat} {s : State} (hs : s.memOk) : (State.dispatch cl rcb now n s).memOk := by
  induction n generalizing s with
  | zero => exact hs
  | succ n ih =>
    unfold State.dispatch
    dsimp only
    split
    · exact ih (.unblock (.giveTask (.setCluster hs)))
    · exact hs

theorem State.memOk.dispatchAll {s : State} {now : Nat} (hs : s.memOk) : (s.dispatchAll now).memOk :=
  .foldl (fun _ _ ht => .foldl (fun _ _ hu => .dispatch hu) ht) hs

theorem State.memOk.ready {s : State} {agent : Nat} {t : Task} (hs : s.memOk) : (s.ready agent t).memOk :=
  .dispatchAll (.makeReady hs)

/-- The state that the read of a record leaves keeps the canonical form. -/
def RecRead.memOk : RecRead → Prop
  | .ok _ s | .wait s | .fault _ s => s.memOk

theorem State.memOk.readRec {c : Ctx} {s : State} {a : DWord} {n : Nat} {r : RecRead} (hs : s.memOk) (hr : c.readRec s a n = r) : r.memOk := by
  subst hr
  unfold Ctx.readRec
  dsimp only
  split
  · exact State.memOk.admitPages hs
  · split
    · exact State.memOk.dropX hs
    · split
      · exact hs
      · split
        · exact hs.lineRead_wait ‹_›
        · exact State.memOk.useTlbs (.dropX (hs.lineRead_bad ‹_›))
        · exact State.memOk.useTlbs (.dropX (.ite (hs.lineRead_ok ‹_›) (.bump (hs.lineRead_ok ‹_›))))

theorem State.memOk.readRec_ok {c : Ctx} {s t : State} {a : DWord} {n : Nat} {w : List DWord} (hs : s.memOk) (e : c.readRec s a n = .ok w t) :
    t.memOk :=
  hs.readRec e
theorem State.memOk.readRec_wait {c : Ctx} {s t : State} {a : DWord} {n : Nat} (hs : s.memOk) (e : c.readRec s a n = .wait t) : t.memOk :=
    hs.readRec e
theorem State.memOk.readRec_fault {c : Ctx} {s t : State} {a : DWord} {n : Nat} {x : FaultInfo} (hs : s.memOk) (e : c.readRec s a n = .fault x t) :
    t.memOk := hs.readRec e

theorem Out.memOk.statusOut {c : Ctx} {n : Nat} {s : State} (hs : s.memOk) : Out.memOk (statusOut c n s) :=
  .next (.result hs)

theorem Out.memOk.execTspawn {f : Enc} {s : State} (hs : s.memOk) : Out.memOk (execTspawn f s) := by
  refine .issue (fun c s hs => .ite (.statusOut hs) (.ite (.statusOut hs) ?_)) hs
  split
  · exact .next (hs.readRec_wait ‹_›)
  · exact .next (.raise (hs.readRec_fault ‹_›))
  · rename_i e
    have ht := hs.readRec_ok e
    split
    · exact .ite (.statusOut (.ready (.charge ht))) (.statusOut ht)
    · exact .statusOut ht

theorem Out.memOk.execTarm {f : Enc} {s : State} (hs : s.memOk) : Out.memOk (execTarm f s) := by
  refine .issue (fun c s hs => .ite (.statusOut hs) (.ite (.next (.raise hs)) (.ite (.next (.retired (.fresh hs))) (.ite (.statusOut hs) ?_)))) hs
  split
  · exact .next (hs.readRec_wait ‹_›)
  · exact .next (.raise (hs.readRec_fault ‹_›))
  · rename_i e
    have ht := hs.readRec_ok e
    split
    · exact .next (.retired (.fresh ht))
    · exact .statusOut ht

theorem State.memOk.sendDec {s : State} {c : Ctx} {i : Nat} {m : LaneMask} {once : Bool} {after : List Nat} (hs : s.memOk) :
    (s.sendDec c i m once after).memOk :=
  .update (.fresh hs)

theorem Out.memOk.execTdec {f : Enc} {s : State} (hs : s.memOk) : Out.memOk (execTdec f s) :=
  .issue (fun _ _ ht => .ite (.next (.done ht)) (.ite (.next (.raise ht)) (.next (.done (.foldl (fun _ _ hu => .sendDec hu) ht))))) hs

theorem Out.memOk.execTdone {f : Enc} {s : State} (hs : s.memOk) : Out.memOk (execTdone f s) := by
  refine .issue (fun c s hs => ?_) hs
  dsimp only
  split
  · exact .next (.raise hs)
  · exact .checked (fun _ hs => .next (.retired (.updGroup (.charge (.foldl (fun _ _ ht => .sendDec ht) (.ite hs (.sendAccess hs))))))) hs

theorem Out.memOk.execTlaunch {f : Enc} {s : State} (hs : s.memOk) : Out.memOk (execTlaunch f s) := by
  refine .issue (fun c s hs => .ite (.statusOut hs) (.ite (.statusOut hs) ?_)) hs
  split
  · exact .next (hs.readRec_wait ‹_›)
  · exact .next (.raise (hs.readRec_fault ‹_›))
  · rename_i e
    have ht := hs.readRec_ok e
    dsimp only
    split
    · exact .statusOut (.enqueueLaunch ht)
    · exact .statusOut ht

theorem Out.memOk.execTget {f : Enc} {s : State} (hs : s.memOk) : Out.memOk (execTget f s) := by
  refine .issue (fun c s hs => ?_) hs
  dsimp only
  split
  · exact .next (.retired (.giveTask (.setCluster hs)))
  · exact .next (.done (.block hs))

/-! ### What Machine/System.lean defines -/

theorem Out.memOk.execScall {f : Enc} {s : State} (hs : s.memOk) : Out.memOk (execScall f s) :=
  .issue (fun _ _ ht => .ite (.next (.done ht)) (.next (.done (.ite (.block (.updGroup (.setCluster ht))) (.updGroup (.setCluster ht)))))) hs

theorem Out.memOk.trapOp {i : Instr} {cls : BitVec 8} {s : State} (hs : s.memOk) : Out.memOk (trapOp i cls s) :=
  .issue (fun _ _ ht => .ite (.next (.done ht)) (.next (.ite (.updGroup (.raise ht)) (.raise ht)))) hs

theorem Out.memOk.execTrap {f : Enc} {s : State} (hs : s.memOk) : Out.memOk (execTrap f s) :=
  .trapOp hs

theorem Out.memOk.execBkpt {f : Enc} {s : State} (hs : s.memOk) : Out.memOk (execBkpt f s) :=
  .trapOp hs

theorem Out.memOk.execUiret {f : Enc} {s : State} (hs : s.memOk) : Out.memOk (execUiret f s) := by
  refine .issue (fun c s hs => .ite (.next (.raise hs)) ?_) hs
  have ht : (retire c LEntry.undef c.g.trapret (s.updGroup c.slot fun g => g.leaveTrap c.g.batch)).memOk := .retired (.updGroup hs)
  dsimp only
  split
  · exact .ite (.next ht) (.next (.updGroup (.setPart ht)))
  · exact .next ht

theorem Out.memOk.execUimask {f : Enc} {s : State} (hs : s.memOk) : Out.memOk (execUimask f s) :=
  .issue (fun _ _ ht => .next (.result (.ite ht (.updGroup ht)))) hs

theorem Out.memOk.execNpbegin {f : Enc} {s : State} (hs : s.memOk) : Out.memOk (execNpbegin f s) :=
  .issue (fun _ _ ht => .ite (.next (.done ht)) (.ite (.next (.done (.updGroup ht))) (.next (.raise (.updGroup ht))))) hs

theorem Out.memOk.execNpend {f : Enc} {s : State} (hs : s.memOk) : Out.memOk (execNpend f s) :=
  .groupLevel (fun _ _ ht => .updGroup ht) hs

theorem State.memOk.growGroup {s : State} {slot v q : Nat} (hs : s.memOk) : (s.growGroup slot v q).memOk :=
  .trimL1 (.setGroup hs)

theorem Out.memOk.execGrow {f : Enc} {s : State} (hs : s.memOk) : Out.memOk (execGrow f s) :=
  .issue (fun _ _ ht => .ite (.statusOut ht) (.ite (.statusOut ht) (.ite (.statusOut (.growGroup ht)) (.next (.done (.block ht)))))) hs

theorem State.memOk.carveTeam {s : State} {tm v q bytes : Nat} (hs : s.memOk) : (s.carveTeam tm v q bytes).memOk :=
  .foldl (fun _ _ ht => .trimL1 ht) (.foldl (fun _ _ ht => .ite ht (.updProg ht)) (.setTeam hs))

theorem State.memOk.carveTest {s : State} {tm : Nat} (hs : s.memOk) : (s.carveTest tm).memOk := by
  unfold State.carveTest
  dsimp only
  split
  · exact hs
  · refine .ite (.foldl (fun _ _ ht => .foldl (fun _ _ hu => ?_) ht) (.updTeam (.ite (.carveTeam hs) hs))) hs
    split
    · exact .unblock (.putUniform hu)
    · exact hu

theorem State.memOk.poll {s : State} {tm : Nat} (hs : s.memOk) : (s.poll tm).memOk :=
  .dispatchAll (.carveTest (.pollTeam hs))

theorem Out.memOk.execCarve {f : Enc} {s : State} (hs : s.memOk) : Out.memOk (execCarve f s) :=
  .issue (fun _ _ ht => .ite (.statusOut ht) (.next (.done (.block (.updTeam ht))))) hs

theorem Out.memOk.execCkpt {f : Enc} {s : State} (hs : s.memOk) : Out.memOk (execCkpt f s) :=
  .groupLevel (fun _ _ ht => .ite (.updTeam (.block ht)) ht) hs

theorem Out.memOk.execTstampr {f : Enc} {s : State} (hs : s.memOk) : Out.memOk (execTstampr f s) :=
  .issue (fun _ _ ht => .ite (.next (.result ht)) (.next (.done (.block (.takeToken ht))))) hs

/-! ### What Machine/Routine.lean defines -/

theorem State.memOk.endWait {s : State} {slot st : Nat} {v : DWord} (hs : s.memOk) : (s.endWait slot st v).memOk := by
  unfold State.endWait
  dsimp only
  split
  · exact hs
  · exact .ite (.lateFault (.updGroup hs)) (.unblock (.ite (.acquireInval (.updGroup hs)) (.updGroup hs)))

theorem State.memOk.beginSave {s : State} {tm : Nat} (hs : s.memOk) : (s.beginSave tm).memOk := by
  unfold State.beginSave
  split
  · exact hs
  · exact hs

theorem State.memOk.startRoutine {s : State} {slot : Nat} (hs : s.memOk) : (s.startRoutine slot).memOk :=
  .setGroup (.update (.setPart (.fresh (.ite hs (.beginSave hs)))))

theorem State.memOk.putCall {s : State} {area r : Nat} {ws : List DWord} (hs : s.memOk) : (s.putCall area r ws).memOk :=
  .foldl (fun _ _ ht => .homeStore ht) hs

theorem State.memOk.groupSaved {s : State} {tm id gidx : Nat} (hs : s.memOk) : (s.groupSaved tm id gidx).memOk :=
  .updTeam (.putSaved (.update hs))

theorem State.memOk.teamSaved {s : State} {tm id area : Nat} (hs : s.memOk) : (s.teamSaved tm id area).memOk :=
  .ite (.setSvc (.update (.freeTeam (.setTeam (.update (.putHeader (.foldl (fun _ _ ht => .putCall ht) (.setCluster hs)))))))) (.update (.freeTeam
    (.setTeam (.update (.putHeader (.foldl (fun _ _ ht => .putCall ht) (.setCluster hs)))))))

theorem State.memOk.saveDone {s : State} {tm : Nat} (hs : s.memOk) : (s.saveDone tm).memOk := by
  unfold State.saveDone
  dsimp only
  split
  · exact .ite hs (.ite (.teamSaved (.foldl (fun _ _ ht => .groupSaved ht) hs)) (.foldl (fun _ _ ht => .groupSaved ht) hs))
  · exact hs

theorem State.memOk.saveRan {s : State} {slot : Nat} (hs : s.memOk) : (s.saveRan slot).memOk :=
  .saveDone (.updTeam (.updGroup hs))

theorem State.memOk.groupRestored {s : State} {slot : Nat} {g : Group} (hs : s.memOk) : (s.groupRestored slot g).memOk := by
  unfold State.groupRestored
  dsimp only
  split
  · exact .endWait (.setGroup (.update hs))
  · exact .ite (.update (.setGroup (.update hs))) (.setGroup (.update hs))

theorem State.memOk.layCore {s : State} {tm base : Nat} {tiles : SMap (SMap Word)} {ops : List (Nat × MatOp)} {j : Nat} (hs : s.memOk) :
    (s.layCore tm base tiles ops j).memOk :=
  .acquireInval (.setCore hs)

theorem State.memOk.layCopy {s : State} {tm : Nat} {u : Team} {tiles : SMap (SMap Word)} {ops : List (Nat × MatOp)} (hs : s.memOk) :
    (s.layCopy tm u tiles ops).memOk :=
  .foldl (fun _ _ ht => .layCore ht) (.updTeam (.update hs))

theorem State.memOk.putCopyGroup {s : State} {slot : Nat} {g : Group} (hs : s.memOk) : (s.putCopyGroup slot g).memOk := by
  unfold State.putCopyGroup
  dsimp only
  split
  · exact .ite (.update (.setGroup hs)) (.setGroup hs)
  · exact .setGroup hs

theorem State.memOk.mirrorTeam {s : State} {tm : Nat} (hs : s.memOk) : (s.mirrorTeam tm).memOk := by
  unfold State.mirrorTeam
  dsimp only
  split
  · exact hs
  · exact .layCopy (.foldl (fun _ _ ht => .putCopyGroup (.updGroup (.fresh ht))) hs)

theorem State.memOk.routineEnd {s : State} {slot : Nat} (hs : s.memOk) : (s.routineEnd slot).memOk :=
  .ite (.mirrorTeam (.updTeam (.ite (.groupRestored (.setPart hs)) (.saveRan (.setPart hs))))) (.updTeam (.ite (.groupRestored (.setPart hs))
    (.saveRan (.setPart hs))))

/-! ### What Machine/Issue.lean defines -/

theorem Out.memOk.event {s : State} {due : Bool} {t : State} (hs : s.memOk) (hs1 : t.memOk) : Out.memOk (event s due t) :=
  .ite (.next hs1) (.next hs)

theorem State.memOk.fillIcache {s : State} {core pa : Nat} (hs : s.memOk) : (s.fillIcache core pa).memOk :=
  .ite hs (.ite (.setCore hs) (.bump (.setCore hs)))

/-- The state that a fetch of words leaves keeps the canonical form. -/
def Fetched.memOk : Fetched → Prop
  | .ok _ s | .stop s => s.memOk

theorem Fetched.memOk.of_eq {a b : Fetched} (e : a = b) (ha : a.memOk) : b.memOk := e ▸ ha

theorem State.memOk.fetchWords {slot n k : Nat} {pc : DWord} {s : State} {r : Fetched} (hs : s.memOk)
    (hr : fetchWords slot pc n k s = r) : r.memOk := by
  subst hr
  induction n generalizing k s with
  | zero => exact hs
  | succ n ih =>
    unfold Machine.fetchWords
    dsimp only
    split
    · exact State.memOk.admitPages hs
    · exact State.memOk.raise (.dropX hs)
    · split
      · rename_i e
        split_ifs at e
        exact hs.lineRead_wait e
      · rename_i e
        split_ifs at e
        exact State.memOk.raise (.useTlbs (.dropX (hs.lineRead_bad e)))
      · rename_i t e
        have ht : t.memOk := by
          split_ifs at e
          · cases e; exact hs
          · exact hs.lineRead_ok e
        split
        · rename_i e
          have hf : (Fetched.ok _ _).memOk := .of_eq e (ih (.fillIcache (.useTlbs (.dropX ht))))
          exact hf
        · exact .of_eq ‹_› (ih (.fillIcache (.useTlbs (.dropX ht))))

/-- The state that a fetch leaves keeps the canonical form. -/
def FetchRes.memOk : FetchRes → Prop
  | .instr _ s | .stop s => s.memOk

theorem State.memOk.fetch {s : State} {slot : Nat} {r : FetchRes} (hs : s.memOk) (hr : s.fetch slot = r) : r.memOk := by
  subst hr
  unfold State.fetch
  dsimp only
  split_ifs
  · exact State.memOk.takeTrap hs
  · exact hs
  · split
    · exact hs.fetchWords ‹_›
    · rename_i e
      have h0 := hs.fetchWords e
      split
      · exact State.memOk.fetchWords h0 ‹_›
      · rename_i e
        have h1 := State.memOk.fetchWords h0 e
        split
        · exact h1
        · exact State.memOk.raiseCode h1
        · exact State.memOk.raiseCode h1

theorem State.memOk.startRun {s : State} {slot : Nat} (hs : s.memOk) : (s.startRun slot).memOk := by
  unfold State.startRun
  dsimp only
  split
  · exact .ite (.setGroup (.setPart (.setCore (.setPart hs)))) (.setGroup (.setPart (.setCore (.setPart hs))))
  · exact .setGroup (.setPart (.setCore (.setPart hs)))

theorem State.memOk.selectRun {s : State} {slot : Nat} (hs : s.memOk) : (s.selectRun slot).memOk :=
  .ite (.takePend hs) (.startRun hs)

theorem Out.memOk.execIssueSelect {p : Nat} {s : State} (hs : s.memOk) : Out.memOk (execIssueSelect p s) := by
  refine .event hs ?_
  split
  · exact .selectRun hs
  · exact hs

theorem State.memOk.deliverInterrupt {s : State} {slot : Nat} (hs : s.memOk) : (s.deliverInterrupt slot).memOk :=
  .foldl (fun _ _ ht => .unblock ht) (.bump (.setGroup (.mirrorTrap hs)))

theorem State.memOk.overrun {s : State} {slot : Nat} (hs : s.memOk) : (s.overrun slot).memOk :=
  .updGroup (.markerFault hs)

theorem State.memOk.uiTake {s : State} {slot : Nat} (hs : s.memOk) : (s.uiTake slot).memOk :=
  .ite (.deliverInterrupt hs) hs

theorem State.memOk.atRunEnd {s : State} {slot : Nat} (hs : s.memOk) : (s.atRunEnd slot).memOk :=
  .uiTake (.preTake (.ite (.takePend (.ite (.overrun (.settle hs)) (.settle hs))) (.ite (.overrun (.settle hs)) (.settle hs))))

theorem State.memOk.dropIcache {s : State} {slot : Nat} (hs : s.memOk) : (s.dropIcache slot).memOk :=
  .ite (.updGroup (.setCore hs)) (.ite hs (.updGroup (.setCore hs)))

theorem State.memOk.endRun {s : State} {slot : Nat} (hs : s.memOk) : (s.endRun slot).memOk :=
  .ite (.poll (.uiTake (.preTake (.routineEnd (.updGroup (.dropIcache hs)))))) (.poll (.atRunEnd (.updGroup (.dropIcache hs))))

theorem Out.memOk.execRunEnd {slot : Nat} {s : State} (hs : s.memOk) : Out.memOk (execRunEnd slot s) :=
  .event hs (.endRun hs)

theorem Out.memOk.execRunmaxMarker {slot : Nat} {s : State} (hs : s.memOk) : Out.memOk (execRunmaxMarker slot s) :=
  .event hs (.updGroup hs)

theorem Out.memOk.execResultsDrained {slot : Nat} {s : State} (hs : s.memOk) : Out.memOk (execResultsDrained slot s) :=
  .event hs (.preTake (.updGroup hs))

theorem Out.memOk.execNopreemptOverrun {slot : Nat} {s : State} (hs : s.memOk) : Out.memOk (execNopreemptOverrun slot s) := by
  refine .event hs ?_
  split
  · exact .preTake (.overrun hs)
  · exact .preTake (.overrun hs)
  · exact .updGroup hs

/-! ### What Machine/Calls.lean defines -/

theorem State.memOk.setHart {s : State} {h : Nat} {x : Hart} (hs : s.memOk) : (s.setHart h x).memOk :=
  .update hs

theorem State.memOk.hartGot {s : State} {a : Agent} {v : DWord} (hs : s.memOk) : (s.hartGot a v).memOk := by
  unfold State.hartGot
  split
  · exact .setSvc hs
  · exact .setHart hs

theorem State.memOk.hartOk {s : State} {a : Agent} (hs : s.memOk) : (s.hartOk a).memOk := by
  unfold State.hartOk
  split
  · exact .setSvc hs
  · exact .setHart hs

theorem State.memOk.hartExc {s : State} {a : Agent} {cause : Nat} {tval : DWord} (hs : s.memOk) : (s.hartExc a cause tval).memOk := by
  unfold State.hartExc
  split
  · exact .setSvc hs
  · exact .setHart hs

theorem State.memOk.pageStore {s : State} {cl a x n : Nat} (hs : s.memOk) : (s.pageStore cl a x n).memOk :=
  .ite hs (.setCluster hs)

theorem State.memOk.callPage {s : State} {k : HartOp} {r : HartReq} (hs : s.memOk) : (s.callPage k r).memOk := by
  refine .ite (.hartExc hs) ?_
  split
  · exact .hartGot hs
  · exact .hartOk (.pageStore hs)
  · exact .hartGot (.pageStore hs)

theorem Out.memOk.execCallPageAccess {k : HartOp} {r : HartReq} {s : State} (hs : s.memOk) : Out.memOk (execCallPageAccess k r s) :=
  .event hs (.callPage hs)

theorem State.memOk.assignCall {s : State} {cl : Nat} {x : Call} {k : Nat} (hs : s.memOk) : (s.assignCall cl x k).memOk :=
  .setSvc (.setCluster hs)

theorem Out.memOk.execCallSlotAssign {cl : Nat} {s : State} (hs : s.memOk) : Out.memOk (execCallSlotAssign cl s) := by
  unfold Machine.execCallSlotAssign
  split
  · exact .next (.assignCall hs)
  · exact .next hs

theorem State.memOk.resumeCall {s : State} {cl k : Nat} {x : Call} (hs : s.memOk) : (s.resumeCall cl k x).memOk :=
  .ite (.unblock (.ite (.updGroup (.setCluster hs)) (.bump (.updGroup (.setCluster hs))))) (.ite (.updGroup (.setCluster hs)) (.bump (.updGroup
    (.setCluster hs))))

theorem Out.memOk.execCallReplyResume {cl k : Nat} {s : State} (hs : s.memOk) : Out.memOk (execCallReplyResume cl k s) := by
  unfold Machine.execCallReplyResume
  split
  · exact .next (.resumeCall hs)
  · exact .next hs

theorem State.memOk.replyTo {s : State} {cl k : Nat} {m : LaneMask} {status : Nat} {value : Lane → DWord} (hs : s.memOk) :
    (s.replyTo cl k m status value).memOk :=
  .pageStore (.foldl (fun _ _ ht => .pageStore (.pageStore ht)) hs)

theorem State.memOk.restartCall {s : State} {cl k : Nat} {x : Call} (hs : s.memOk) : (s.restartCall cl k x).memOk :=
  .replyTo hs

theorem State.memOk.restartSlots {s : State} {home : Nat} (hs : s.memOk) : (s.restartSlots home).memOk :=
  .foldl (fun _ _ ht => .glWake ht) hs

theorem State.memOk.shardRestart {s : State} {cl : Nat} (hs : s.memOk) : (s.shardRestart cl).memOk :=
  .update (.foldl (fun _ _ ht => .restartSlots ht) (.foldl (fun _ _ ht => .restartCall ht) hs))

theorem Out.memOk.execShardRestart {cl : Nat} {s : State} (hs : s.memOk) : Out.memOk (execShardRestart cl s) :=
  .event hs (.shardRestart hs)

/-! ### What Machine/Walker.lean defines -/

theorem State.memOk.walksEnd {s : State} {cl asid : Nat} {c : Cluster} (hs : s.memOk) : (s.walksEnd cl asid c).memOk :=
  .dropDesc (.setCluster hs)

theorem State.memOk.endWalk {s : State} {cl : Nat} {e : TlbEntry} {level : Nat} {x : DWord} (hs : s.memOk) : (s.endWalk cl e level x).memOk :=
  .walksEnd (.installTlb hs)

theorem State.memOk.failWalk {s : State} {cl : Nat} {w : Walk} {f : XFault} (hs : s.memOk) : (s.failWalk cl w f).memOk :=
  .walksEnd hs

theorem State.memOk.rootWalk {s t : State} {cl : Nat} {w v : Walk} (hs : s.memOk) (ht : s.rootWalk cl w = some (v, t)) : t.memOk := by
  unfold State.rootWalk at ht
  dsimp only at ht
  split at ht
  · split_ifs at ht; cases ht; exact hs
  · split at ht
    · split_ifs at ht; cases ht; exact .setCluster hs
    · cases ht

theorem State.memOk.rootFail {s : State} {cl : Nat} {w : Walk} (hs : s.memOk) : (s.rootFail cl w).memOk := by
  refine .failWalk ?_
  split
  · exact .ite (.setCluster hs) hs
  · exact hs

theorem State.memOk.rooted {s t : State} {cl : Nat} {w v : Walk} (hs : s.memOk) (ht : s.rooted cl w = some (v, t)) : t.memOk := by
  unfold State.rooted at ht
  split_ifs at ht
  · cases ht; exact hs
  · exact .rootWalk hs ht

theorem State.memOk.siloCount {s : State} {d k : Nat} (hs : s.memOk) : (s.siloCount d k).memOk :=
  .setDie hs

theorem State.memOk.siloPop {d n : Nat} {s : State} (hs : s.memOk) : (s.siloPop d n).2.memOk := by
  induction n generalizing s with
  | zero => exact hs
  | succ n ih => exact .iteSnd hs (.iteSnd (ih (.siloCount (.setSilo hs))) (.setSilo hs))

theorem State.memOk.siloPush {s : State} {d f : Nat} (hs : s.memOk) : (s.siloPush d f).memOk :=
  .homeStore (.setSilo hs)

theorem State.memOk.walkEntry {s : State} {cl : Nat} {w : Walk} {a : Nat} {x : DWord} (hs : s.memOk) : (s.walkEntry cl w a x).memOk := by
  have hp : (s.siloPop (cl / 16) 4097).2.memOk := .siloPop hs
  unfold State.walkEntry
  generalize s.siloPop (cl / 16) 4097 = p at hp ⊢
  obtain ⟨frame, t⟩ := p
  cases pteKind w.level x with
  | invalid => exact .failWalk hs
  | table => exact .setCluster hs
  | leaf => exact .endWalk hs
  | unbacked =>
    cases frame with
    | none => exact .failWalk (.siloCount hp)
    | some f => exact .setCluster hp

theorem State.memOk.walkStep {s : State} {cl : Nat} {w : Walk} (hs : s.memOk) : (s.walkStep cl w).memOk := by
  unfold State.walkStep
  split
  · exact .rootFail hs
  · rename_i e
    have ht := State.memOk.rooted hs e
    dsimp only
    split
    · exact .failWalk ht
    · split
      · exact ht.lineRead_wait ‹_›
      · exact .failWalk (ht.lineRead_bad ‹_›)
      · exact .walkEntry (ht.lineRead_ok ‹_›)

theorem Out.memOk.execWalkStep {cl asid page : Nat} {s : State} (hs : s.memOk) : Out.memOk (execWalkStep cl asid page s) := by
  unfold Machine.execWalkStep
  split
  · exact .next (.walkStep hs)
  · exact .next hs

theorem State.memOk.casResult {s : State} {cl : Nat} {w : Walk} {q : CasReq} (hs : s.memOk) : (s.casResult cl w q).memOk := by
  unfold State.casResult
  dsimp only
  split
  · exact .failWalk (.siloPush hs)
  · exact .ite (.failWalk (.siloPush (.deliverPsn (.needLine hs)))) (.ite (.ite (.setCluster (.siloCount (.homeStore (.needLine hs)))) (.endWalk
      (.setCluster (.siloCount (.homeStore (.needLine hs)))))) (.setCluster (.siloCount (.siloPush (.needLine hs)))))

theorem Out.memOk.execFirstTouchCasResult {cl asid page : Nat} {s : State} (hs : s.memOk) : Out.memOk (execFirstTouchCasResult cl asid page s) := by
  unfold Machine.execFirstTouchCasResult
  dsimp only
  split
  · exact .ite (.next (.setCluster (.movedAt hs))) (.next (.casResult hs))
  · exact .next hs

theorem Out.memOk.execMissMergeAdmit {cl : Nat} {s : State} (hs : s.memOk) : Out.memOk (execMissMergeAdmit cl s) :=
  .event hs (.setCluster hs)

theorem State.memOk.shadowAdd {s : State} {x : Nat × Nat × Nat × Nat × Nat} (hs : s.memOk) : (s.shadowAdd x).memOk :=
  .ite (.setCluster hs) (.homeStore (.needLine hs))

theorem Out.memOk.execShadowAdd {i : Nat} {s : State} (hs : s.memOk) : Out.memOk (execShadowAdd i s) := by
  unfold Machine.execShadowAdd
  dsimp only
  split
  · exact .event hs (.sendFrom hs (fun _ ht => .shadowAdd (.update ht)))
  · exact .next hs

theorem State.memOk.dropTlb {s : State} {cl scope asid va : Nat} (hs : s.memOk) : (s.dropTlb cl scope asid va).memOk :=
  .foldl (fun _ _ ht => .evictTlb ht) (.foldl (fun _ _ ht => .foldl (fun _ _ hu => .foldMicro hu) ht) hs)

theorem State.memOk.staleRedos {s : State} {cls : List Nat} {scope asid va : Nat} (hs : s.memOk) : (s.staleRedos cls scope asid va).memOk :=
  .update hs

theorem State.memOk.shootdown {s : State} {c : Nat} {v : DWord} (hs : s.memOk) : (s.shootdown c v).memOk :=
  .update (.staleRedos (.foldl (fun _ _ ht => .setCluster (.dropTlb ht)) (.setSvc hs)))

theorem State.memOk.shootDone {s : State} {d : Shootdown} (hs : s.memOk) : (s.shootDone d).memOk :=
  .update (.setSvc hs)

theorem Out.memOk.execShootdownComplete {c t : Nat} {s : State} (hs : s.memOk) : Out.memOk (execShootdownComplete c t s) := by
  unfold Machine.execShootdownComplete
  split
  · exact .next (.shootDone hs)
  · exact .next hs

theorem State.memOk.winPoison {s : State} {cl asid va n : Nat} {cls : BitVec 8} (hs : s.memOk) : (s.winPoison cl asid va n cls).memOk := by
  refine .ite (.foldl (fun _ _ ht => ?_) hs) hs
  split
  · exact .unitPoison ht
  · exact ht

theorem State.memOk.winWrite {s : State} {cl asid va : Nat} {bs : List Byte} (hs : s.memOk) : (s.winWrite cl asid va bs).memOk :=
  .foldl (fun _ _ ht => .unstage (.unitWrite ht)) hs

theorem State.memOk.winMiss {s : State} {cl asid : Nat} {pages : List Nat} (hs : s.memOk) : (s.winMiss cl asid pages).memOk :=
  .admitPages hs

/-! ### What Machine/TeamEvents.lean defines -/

theorem State.memOk.placeSavedGroup {s : State} {tm : Nat} {g : Group} (hs : s.memOk) : (s.placeSavedGroup tm g).memOk :=
  .setTeam (.setGroup hs)

theorem State.memOk.loadDesc {s : State} {cl asid desc : Nat} (hs : s.memOk) : (s.loadDesc cl asid desc).memOk := by
  unfold State.loadDesc
  dsimp only
  split
  · exact .setCluster hs
  · exact hs

theorem State.memOk.placeCall {s : State} {cl slot : Nat} {x : Call} {ws : List DWord} (hs : s.memOk) : (s.placeCall cl slot x ws).memOk := by
  unfold State.placeCall
  dsimp only
  split
  · exact .setCluster hs
  · exact .setSvc (.setCluster hs)

theorem State.memOk.placeTrailing {s : State} {tr asid : Nat} {g : Group} (hs : s.memOk) : (s.placeTrailing tr asid g).memOk :=
  .setTeam (.setGroup (.fresh hs))

theorem State.memOk.placeSecond {s : State} {tm : Nat} {v : SavedTeam} {asid : Nat} (hs : s.memOk) : (s.placeSecond tm v asid).memOk :=
  .ite hs (.update (.foldl (fun _ _ ht => .setCore ht) (.foldl (fun _ _ ht => .placeTrailing ht) (.updTeam (.setTeam (.fresh hs))))))

theorem State.memOk.placeSaved {s : State} {a f : Nat} (hs : s.memOk) : (s.placeSaved a f).memOk := by
  refine .placeSecond (.update (.foldl (fun _ _ ht => ?_) (.foldl (fun _ _ ht => .acquireInval (.trimL1 ht)) (.foldl (fun _ _ ht => .setCore ht)
    (.loadDesc (.foldl (fun _ _ ht => .placeSavedGroup ht) (.setTeam (.fresh hs))))))))
  split
  · exact .placeCall ht
  · exact ht

theorem State.memOk.placeNext {s : State} {id f : Nat} (hs : s.memOk) : (s.placeNext id f).memOk :=
  .ite (.placeTeam hs) (.updTeam (.updTeam (.placeTeam (.placeTeam hs))))

theorem Out.memOk.execTeamPlace {restore : Bool} {id : Nat} {s : State} (hs : s.memOk) : Out.memOk (execTeamPlace restore id s) := by
  unfold Machine.execTeamPlace
  split
  · exact .next (.ite (.placeSaved hs) (.placeNext hs))
  · exact .next hs

theorem Out.memOk.execLaunchReserve {la : Nat} {s : State} (hs : s.memOk) : Out.memOk (execLaunchReserve la s) :=
  .event hs (.update hs)

theorem Out.memOk.execSaveRoutineStart {slot : Nat} {s : State} (hs : s.memOk) : Out.memOk (execSaveRoutineStart slot s) :=
  .event hs (.startRoutine hs)

theorem State.memOk.endLaunch {s : State} {cl id : Nat} {w : CwChk} (hs : s.memOk) : (s.endLaunch cl id w).memOk := by
  refine .update (.charge ?_)
  split
  · exact .unitWrite (.useTlbsIn hs)
  · exact .machineCheck hs
  · exact hs

theorem State.memOk.retire {s : State} {tm : Nat} (hs : s.memOk) : (s.retire tm).memOk := by
  unfold State.retire
  dsimp only
  split
  · exact .admitPages (.commitTeam hs)
  · exact .ite (.endLaunch (.update (.foldl (fun _ _ ht => .freeTeam ht) (.commitTeam hs)))) (.update (.foldl (fun _ _ ht => .freeTeam ht)
      (.commitTeam hs)))

theorem Out.memOk.execTeamRetire {tm : Nat} {s : State} (hs : s.memOk) : Out.memOk (execTeamRetire tm s) := by
  refine .event hs ?_
  split
  · exact .sendFrom hs (fun _ ht => .retire ht)
  · exact .retire hs

theorem Out.memOk.execTaskServerRequest {cl rcb : Nat} {s : State} (hs : s.memOk) : Out.memOk (execTaskServerRequest cl rcb s) :=
  .event hs (.setSvc hs)

theorem State.memOk.endGrow {s : State} {slot : Nat} {ok : Bool} (hs : s.memOk) : (s.endGrow slot ok).memOk := by
  unfold State.endGrow
  dsimp only
  split
  · exact hs
  · exact .unblock (.putUniform (.ite (.growGroup hs) hs))

theorem Out.memOk.execGrowGrant {core : Nat} {s : State} (hs : s.memOk) : Out.memOk (execGrowGrant core s) := by
  unfold Machine.execGrowGrant
  split
  · exact .next (.endGrow hs)
  · exact .next hs

theorem Out.memOk.execGrowTimeout {slot : Nat} {s : State} (hs : s.memOk) : Out.memOk (execGrowTimeout slot s) :=
  .event hs (.endGrow hs)

theorem Out.memOk.execCvTimeout {tm n : Nat} {s : State} (hs : s.memOk) : Out.memOk (execCvTimeout tm n s) :=
  .event hs (.cvFault hs)

theorem State.memOk.setLaunchSt {s : State} {c st : Nat} (hs : s.memOk) : (s.setLaunchSt c st).memOk :=
  .setSvc hs

theorem State.memOk.portLaunch {s : State} {c pa : Nat} (hs : s.memOk) : (s.portLaunch c pa).memOk := by
  unfold State.portLaunch
  dsimp only
  split
  · exact .setLaunchSt hs
  · split
    · exact .setLaunchSt (.enqueueLaunch hs)
    · exact .setLaunchSt hs

theorem State.memOk.portRestore {s : State} {c a : Nat} (hs : s.memOk) : (s.portRestore c a).memOk := by
  unfold State.portRestore
  split
  · exact .setLaunchSt hs
  · split
    · exact .setLaunchSt hs
    · exact .setLaunchSt (.update (.fresh hs))

theorem State.memOk.writeLaunchp {s t : State} {c : Nat} {v : DWord} (hs : s.memOk) (ht : s.writeLaunchp c v = some t) : t.memOk := by
  unfold State.writeLaunchp at ht
  split_ifs at ht <;> cases ht
  · exact .portRestore hs
  · exact .portLaunch hs

theorem State.memOk.writePreq {s t : State} {c : Nat} {v : DWord} (hs : s.memOk) (ht : s.writePreq c v = some t) : t.memOk := by
  unfold State.writePreq at ht
  dsimp only at ht
  split_ifs at ht
  split at ht <;> cases ht
  · exact .setSvc hs
  · exact .preTake (.updTeam (.setSvc hs))

theorem State.memOk.raiseUi {s : State} {slot : Nat} {m : Word} (hs : s.memOk) : (s.raiseUi slot m).memOk :=
  .ite (.deliverInterrupt (.ite hs (.updProg hs))) (.ite hs (.updProg hs))

theorem State.memOk.updSaved {s : State} {id gidx : Nat} {f : Group → Group} (hs : s.memOk) : (s.updSaved id gidx f).memOk :=
  .update (.putSaved hs)

theorem State.memOk.uiTo {s : State} {ctx gidx : Nat} {m : Word} (hs : s.memOk) : (s.uiTo ctx gidx m).memOk := by
  unfold State.uiTo
  split
  · exact .ite (.raiseUi hs) hs
  · split
    · exact .ite (.updSaved hs) hs
    · exact hs

theorem State.memOk.writeUisend {s t : State} {v : DWord} (hs : s.memOk) (ht : s.writeUisend v = some t) : t.memOk := by
  unfold State.writeUisend at ht
  split_ifs at ht
  cases ht
  exact .uiTo hs

/-! ### What Machine/Domains.lean defines -/

theorem State.memOk.storeD {s : State} {pa : Nat} {x : DWord} (hs : s.memOk) : (s.storeD pa x).memOk :=
  .homeStore (.needLine hs)

theorem State.memOk.claimMail {s : State} {shard : Nat} (hs : s.memOk) : (s.claimMail shard).2.memOk :=
  .storeD hs

theorem State.memOk.fillMail {s : State} {m : HubMsg} {x : Nat} (hs : s.memOk) : (s.fillMail m x).memOk :=
  .storeD (.foldl (fun _ _ ht => .storeD ht) hs)

theorem State.memOk.sendMail {s : State} {m : HubMsg} (hs : s.memOk) : (s.sendMail m).memOk :=
  .fillMail (.claimMail hs)

theorem Out.memOk.execMailboxSend {sender shard ty sq : Nat} {body : List DWord} {s : State} (hs : s.memOk) : Out.memOk
    (execMailboxSend sender shard ty sq body s) :=
  .event hs (.sendAll hs (fun _ ht => .sendMail ht))

theorem Out.memOk.execMailboxReceive {shard : Nat} {s : State} (hs : s.memOk) : Out.memOk (execMailboxReceive shard s) :=
  .event hs (.sendAll hs (fun _ ht => .setSvc (.storeD (.storeD ht))))

theorem State.memOk.doorbell {s : State} {shard : Nat} {x : Word} (hs : s.memOk) : (s.doorbell shard x).memOk :=
  .ite (.sendMail (.bump hs)) (.update (.bump hs))

theorem Out.memOk.execMsiDoorbell {c : Nat} {x : Word} {s : State} (hs : s.memOk) : Out.memOk (execMsiDoorbell c x s) :=
  .event hs (.doorbell hs)

theorem Out.memOk.execDoorbellDeliver {c : Nat} {s : State} (hs : s.memOk) : Out.memOk (execDoorbellDeliver c s) := by
  unfold Machine.execDoorbellDeliver
  split
  · exact .event hs (.sendAll hs (fun _ ht => .sendMail (.update ht)))
  · exact .next hs

theorem State.memOk.zmsg {s : State} {h shard : Nat} {m : HubMsg} (hs : s.memOk) : (s.zmsg h shard m).memOk :=
  .ite (.hartGot hs) (.ite (.hartGot hs) (.hartGot (.sendMail hs)))

theorem Out.memOk.zmsgEvent {h shard : Nat} {s : State} {go : State → State} (hs : s.memOk) (hgo : ∀ t, t.memOk → (go t).memOk) : Out.memOk
    (zmsgEvent h shard s go) :=
  .event hs (.ite (hgo _ hs) (.sendAll hs hgo))

theorem Out.memOk.execZmsgMsgSend {h shard pa : Nat} {s : State} (hs : s.memOk) : Out.memOk (execZmsgMsgSend h shard pa s) :=
  .zmsgEvent hs (fun _ ht => .zmsg ht)

theorem Out.memOk.execZmsgLaunch {h shard pa : Nat} {s : State} (hs : s.memOk) : Out.memOk (execZmsgLaunch h shard pa s) :=
  .zmsgEvent hs (fun _ ht => .bump (.zmsg ht))

theorem State.memOk.setOutbox {s : State} {p : Nat} {x : Outbox} (hs : s.memOk) : (s.setOutbox p x).memOk :=
  .update hs

theorem State.memOk.writePmsggo {s : State} {p : Nat} {shard : Option Nat} {v : DWord} (hs : s.memOk) : (s.writePmsggo p shard v).memOk := by
  unfold State.writePmsggo
  dsimp only
  split
  · exact hs
  · exact .ite (.setOutbox hs) (.ite hs (.ite (.setOutbox hs) (.setOutbox hs)))

theorem Out.memOk.execPmsgAck {p : Nat} {s : State} (hs : s.memOk) : Out.memOk (execPmsgAck p s) :=
  .event hs (.setOutbox hs)

theorem Out.memOk.execPeerMessageReceive {p shard src pos : Nat} {w0 : DWord} {body : List DWord} {s : State} (hs : s.memOk) : Out.memOk
    (execPeerMessageReceive p shard src pos w0 body s) := by
  unfold Machine.execPeerMessageReceive
  dsimp only
  split
  · exact .event hs (.sendAll hs (fun _ ht => .fillMail (.update ht)))
  · exact .event hs (.sendAll hs (fun _ ht => .ite (.update (.claimMail ht)) (.fillMail (.claimMail ht))))

theorem State.memOk.writeTmrsync {s : State} {v : DWord} (hs : s.memOk) : (s.writeTmrsync v).memOk :=
  .ite (.update hs) (.update hs)

theorem State.memOk.fireTimer {s : State} {t : Timer} (hs : s.memOk) : (s.fireTimer t).memOk :=
  .ite (.ite (.homeStore (.needLine (.update hs))) (.update hs)) (.uiTo (.update hs))

theorem Out.memOk.execRegionTimerFire {rcb idx : Nat} {s : State} (hs : s.memOk) : Out.memOk (execRegionTimerFire rcb idx s) := by
  unfold Machine.execRegionTimerFire
  split
  · exact .next (.ite (.sendFrom hs (fun _ ht => .fireTimer ht)) (.fireTimer hs))
  · exact .next hs

theorem State.memOk.setDom {s : State} {d : Nat} {x : Dom} (hs : s.memOk) : (s.setDom d x).memOk :=
  .update hs

theorem State.memOk.pendId {s : State} {file id : Nat} (hs : s.memOk) : (s.pendId file id).memOk :=
  .ite (.update hs) hs

theorem State.memOk.dropDomain {s : State} {d : Nat} {x : Dom} (hs : s.memOk) : (s.dropDomain d x).memOk :=
  .update (.foldl (fun _ _ ht => .discardTeam ht) hs)

theorem State.memOk.cancelAt {s : State} {d : Nat} {x : Dom} {home : Nat} (hs : s.memOk) : (s.cancelAt d x home).memOk :=
  .foldl (fun _ _ ht => .fireArm ht) (.setSlice (.foldl (fun _ _ ht => .ite (.unlinkSlot ht) (.ite (.glWake ht) ht)) (.foldl (fun _ _ ht => .freeMon
    (.sendWake ht)) (.foldl (fun _ _ ht => .freeMon ht) hs))))

theorem State.memOk.resetDomain {s : State} {d : Nat} (hs : s.memOk) : (s.resetDomain d).memOk :=
  .foldl (fun _ _ ht => .shardRestart ht) (.foldl (fun _ _ ht => .cancelAt ht) (.dropDomain (.setDom hs)))

theorem State.memOk.writeDomtab {s : State} {d k : Nat} {v m : DWord} (hs : s.memOk) : (s.writeDomtab d k v m).memOk :=
  .ite hs (.ite (.resetDomain (.setDom hs)) (.setDom hs))

theorem State.memOk.endReset {s : State} {d : Nat} (hs : s.memOk) : (s.endReset d).memOk :=
  .setDom (.ite (Memory.wf_filter _ _ hs) hs)

theorem Out.memOk.execDomainResetComplete {d : Nat} {s : State} (hs : s.memOk) : Out.memOk (execDomainResetComplete d s) :=
  .event hs (.endReset hs)

theorem State.memOk.writeCcboot {s : State} {h : Nat} {v m : DWord} (hs : s.memOk) : (s.writeCcboot h v m).memOk :=
  .ite hs (.setHart hs)

theorem Out.memOk.execMeasure {h : BitVec 512} {s : State} (hs : s.memOk) : Out.memOk (execMeasure h s) :=
  .event hs (.update hs)

theorem Out.memOk.execAttest {nonce : BitVec 512} {s : State} (hs : s.memOk) : Out.memOk (execAttest nonce s) :=
  .event hs (.update hs)

theorem State.memOk.runImage {s : State} {k f : Nat} (hs : s.memOk) : (s.runImage k f).memOk :=
  Memory.wf_write _ _ _ _ hs

theorem State.memOk.bootRom {s : State} (hs : s.memOk) : s.bootRom.memOk := by
  unfold State.bootRom
  split
  · exact .runImage hs
  · split
    · exact .runImage hs
    · exact .update hs

theorem Out.memOk.execPackageReset {s : State} : Out.memOk (execPackageReset s) :=
  .next (.bootRom (.update .reset))

theorem Out.memOk.execHbmTrainingComplete {k : Nat} {ok : Bool} {s : State} (hs : s.memOk) : Out.memOk (execHbmTrainingComplete k ok s) :=
  .event hs (.ite (.update hs) (.update hs))

theorem State.memOk.writeBootstat {s : State} {w : Writer} {v m : DWord} (hs : s.memOk) : (s.writeBootstat w v m).memOk :=
  .ite hs (.update hs)

theorem State.memOk.writeClpwr {s : State} {k : Nat} {v m : DWord} (hs : s.memOk) : (s.writeClpwr k v m).memOk :=
  .ite hs (.update hs)

theorem Out.memOk.execThrottleStep {power : Nat} {temps : List (BitVec 16)} {s : State} (hs : s.memOk) : Out.memOk (execThrottleStep power temps s)
    :=
  .event hs (.update hs)

theorem Out.memOk.execThermalShutdown {d : Nat} {temp : BitVec 16} {s : State} (hs : s.memOk) : Out.memOk (execThermalShutdown d temp s) :=
  .event hs (.update .reset)

/-! ### What Machine/Regs.lean defines -/

theorem State.memOk.writeFallow {s : State} {k : Nat} {v m : DWord} (hs : s.memOk) : (s.writeFallow k v m).memOk := by
  unfold State.writeFallow
  split
  · exact .writeMemcap hs
  · exact .writeStackmap hs
  · exact .ite (.go hs) hs
  · exact .writeMigshare hs
  · exact .writeMigstat hs
  · exact .writeMigword hs
  · exact hs

theorem State.memOk.foreignWrite {s : State} (hs : s.memOk) : s.foreignWrite.memOk :=
  .update (.bump hs)

theorem State.memOk.msiWrite {s : State} {page o : Nat} {v m : DWord} (hs : s.memOk) : (s.msiWrite page o v m).memOk :=
  .ite (.pendId hs) (.foreignWrite hs)

theorem State.memOk.writeReg {s : State} {w : Writer} {v m : DWord} {reg : Reg} (hs : s.memOk) : (s.writeReg w v m reg).memOk := by
  unfold State.writeReg
  split
  · exact .setCluster hs
  · exact .update hs
  · exact .writeMon hs
  · exact .setLink hs
  · exact .writeSilo hs
  · exact .writePeerwin hs
  · exact .ite hs (.writeFallow hs)
  · exact .ite (.writeFwinCtl hs) (.writeFwinBase hs)
  · exact .ite (.writeTmrsync hs) hs
  · exact .update hs
  · exact .writeDomtab hs
  · exact .writeCcboot hs
  · exact .writeBootstat hs
  · exact Memory.wf_write _ _ _ _ hs
  · exact .update hs
  · exact .update hs
  · exact .writeClpwr hs
  · exact .ite hs (.doorbell hs)
  · exact .setOutbox hs
  · exact .ite (.writePmsggo hs) hs
  · exact .setOutbox hs
  · exact .msiWrite hs
  · exact .foreignWrite hs
  · exact hs
  · exact hs
  · exact hs
  · exact hs

theorem State.memOk.mmioWrite {s : State} {w : Writer} {off n : Nat} {v : DWord} (hs : s.memOk) : (s.mmioWrite w off n v).memOk :=
  .writeReg hs

theorem State.memOk.disarm {s : State} {c idx : Nat} (hs : s.memOk) : (s.disarm c idx).memOk :=
  .update hs

theorem State.memOk.writeMonarm {s : State} {c : Nat} {v : DWord} (hs : s.memOk) : (s.writeMonarm c v).memOk :=
  .ite (.update (.setSvc (.disarm hs))) (.setSvc (.disarm hs))

theorem State.memOk.writeTlbinv {s t : State} {c : Nat} {v : DWord} (hs : s.memOk) (ht : s.writeTlbinv c v = some t) : t.memOk := by
  have hs : (s.shootdown c (v &&& 0xF87FFFFFFFFFFFFF)).memOk := .shootdown hs
  unfold State.writeTlbinv at ht
  dsimp only at ht
  split_ifs at ht <;> cases ht
  · split
    · exact .shootDone hs
    · exact hs
  · exact hs

theorem State.memOk.writeFltack {s t : State} {c : Nat} {v : DWord} (hs : s.memOk) (ht : s.writeFltack c v = some t) : t.memOk := by
  unfold State.writeFltack at ht
  dsimp only at ht
  split_ifs at ht
  cases ht
  exact .answer hs

theorem State.memOk.csrWrite {s t : State} {c n : Nat} {v : DWord} (hs : s.memOk) (ht : s.csrWrite c n v = some t) : t.memOk := by
  unfold State.csrWrite at ht
  dsimp only at ht
  split_ifs at ht
  split at ht
  case h_4 => exact .writeTlbinv hs ht
  case h_9 => exact .writeFltack hs ht
  case h_12 => exact .writeLaunchp hs ht
  case h_13 => exact .writePreq hs ht
  case h_16 => exact .writeUisend hs ht
  case h_1 => cases ht; exact .writeMonarm hs
  case h_8 => cases ht; exact .setCluster hs
  all_goals cases ht; exact .setSvc hs

theorem State.memOk.plainWrite {s t : State} {a : Agent} {n : Nat} {v : DWord} (hs : s.memOk) (ht : s.plainWrite a n v = some t) : t.memOk := by
  unfold State.plainWrite at ht
  split at ht
  · cases ht
  · split at ht
    · split_ifs at ht <;> cases ht
      · exact .setSvc hs
      · exact .setSvc hs
      · exact hs
    · cases ht; exact .setHart hs

theorem State.memOk.hartStored {s t : State} {a : Agent} (hs1 : t.memOk) : (s.hartStored t a).memOk :=
  .ite (.update hs1) (.hartOk hs1)

theorem State.memOk.hartWrite {s : State} {a : Agent} {r : RegAddr} {v : DWord} (hs : s.memOk) : (s.hartWrite a r v).memOk := by
  unfold State.hartWrite
  split
  · exact .ite (.hartExc hs) (.hartStored (.mmioWrite hs))
  · split
    · rename_i e
      split_ifs at e
      · exact .hartOk (.plainWrite hs e)
      · split at e
        · split_ifs at e
          exact .hartOk (.csrWrite hs e)
        · cases e
    · exact .hartExc hs

theorem Out.memOk.writeEvent {w : WriteRow} {a : Agent} {r : RegAddr} {v : DWord} {s : State} (hs : s.memOk) : Out.memOk (writeEvent w a r v s) :=
  .event hs (.hartWrite hs)

theorem Out.memOk.execRegisterWrite {a : Agent} {r : RegAddr} {v : DWord} {s : State} (hs : s.memOk) : Out.memOk (execRegisterWrite a r v s) :=
  .writeEvent hs

theorem Out.memOk.execMemcapRaise {a : Agent} {r : RegAddr} {v : DWord} {s : State} (hs : s.memOk) : Out.memOk (execMemcapRaise a r v s) :=
  .writeEvent hs

theorem Out.memOk.execMemcapLower {a : Agent} {r : RegAddr} {v : DWord} {s : State} (hs : s.memOk) : Out.memOk (execMemcapLower a r v s) :=
  .writeEvent hs

theorem Out.memOk.execStackmapRetireWrite {a : Agent} {r : RegAddr} {v : DWord} {s : State} (hs : s.memOk) : Out.memOk
    (execStackmapRetireWrite a r v s) :=
  .writeEvent hs

theorem Out.memOk.execMphaseGo {a : Agent} {r : RegAddr} {v : DWord} {s : State} (hs : s.memOk) : Out.memOk (execMphaseGo a r v s) :=
  .writeEvent hs

theorem Out.memOk.execMigwordWrite {a : Agent} {r : RegAddr} {v : DWord} {s : State} (hs : s.memOk) : Out.memOk (execMigwordWrite a r v s) :=
  .writeEvent hs

theorem Out.memOk.execFwinEnable {a : Agent} {r : RegAddr} {v : DWord} {s : State} (hs : s.memOk) : Out.memOk (execFwinEnable a r v s) :=
  .writeEvent hs

theorem Out.memOk.execFwinDisable {a : Agent} {r : RegAddr} {v : DWord} {s : State} (hs : s.memOk) : Out.memOk (execFwinDisable a r v s) :=
  .writeEvent hs

theorem Out.memOk.execPeerwinFencedClear {a : Agent} {r : RegAddr} {v : DWord} {s : State} (hs : s.memOk) : Out.memOk
    (execPeerwinFencedClear a r v s) :=
  .writeEvent hs

theorem Out.memOk.execGrptrHeadWrite {a : Agent} {r : RegAddr} {v : DWord} {s : State} (hs : s.memOk) : Out.memOk (execGrptrHeadWrite a r v s) :=
  .writeEvent hs

theorem Out.memOk.execGlcmdWake {a : Agent} {r : RegAddr} {v : DWord} {s : State} (hs : s.memOk) : Out.memOk (execGlcmdWake a r v s) :=
  .writeEvent hs

theorem Out.memOk.execGlcmdTimeout {a : Agent} {r : RegAddr} {v : DWord} {s : State} (hs : s.memOk) : Out.memOk (execGlcmdTimeout a r v s) :=
  .writeEvent hs

theorem Out.memOk.execGlcmdRestart {a : Agent} {r : RegAddr} {v : DWord} {s : State} (hs : s.memOk) : Out.memOk (execGlcmdRestart a r v s) :=
  .writeEvent hs

theorem Out.memOk.execPairinjArm {a : Agent} {r : RegAddr} {v : DWord} {s : State} (hs : s.memOk) : Out.memOk (execPairinjArm a r v s) :=
  .writeEvent hs

theorem Out.memOk.execBootstatStageWrite {a : Agent} {r : RegAddr} {v : DWord} {s : State} (hs : s.memOk) : Out.memOk
    (execBootstatStageWrite a r v s) :=
  .writeEvent hs

theorem Out.memOk.execBootstatOkWrite {a : Agent} {r : RegAddr} {v : DWord} {s : State} (hs : s.memOk) : Out.memOk (execBootstatOkWrite a r v s) :=
  .writeEvent hs

theorem Out.memOk.execCcbootRun {a : Agent} {r : RegAddr} {v : DWord} {s : State} (hs : s.memOk) : Out.memOk (execCcbootRun a r v s) :=
  .writeEvent hs

theorem Out.memOk.execDomainReset {a : Agent} {r : RegAddr} {v : DWord} {s : State} (hs : s.memOk) : Out.memOk (execDomainReset a r v s) :=
  .writeEvent hs

theorem Out.memOk.execPmsgSend {a : Agent} {r : RegAddr} {v : DWord} {s : State} (hs : s.memOk) : Out.memOk (execPmsgSend a r v s) :=
  .writeEvent hs

theorem Out.memOk.execTmrsyncLoad {a : Agent} {r : RegAddr} {v : DWord} {s : State} (hs : s.memOk) : Out.memOk (execTmrsyncLoad a r v s) :=
  .writeEvent hs

theorem Out.memOk.execClpwrWrite {a : Agent} {r : RegAddr} {v : DWord} {s : State} (hs : s.memOk) : Out.memOk (execClpwrWrite a r v s) :=
  .writeEvent hs

theorem Out.memOk.execLaunchPortLaunch {a : Agent} {r : RegAddr} {v : DWord} {s : State} (hs : s.memOk) : Out.memOk (execLaunchPortLaunch a r v s)
    :=
  .writeEvent hs

theorem Out.memOk.execLaunchPortRestore {a : Agent} {r : RegAddr} {v : DWord} {s : State} (hs : s.memOk) : Out.memOk (execLaunchPortRestore a r v s)
    :=
  .writeEvent hs

theorem Out.memOk.execPreqWrite {a : Agent} {r : RegAddr} {v : DWord} {s : State} (hs : s.memOk) : Out.memOk (execPreqWrite a r v s) :=
  .writeEvent hs

theorem Out.memOk.execUisendWrite {a : Agent} {r : RegAddr} {v : DWord} {s : State} (hs : s.memOk) : Out.memOk (execUisendWrite a r v s) :=
  .writeEvent hs

theorem Out.memOk.execFltackRetry {a : Agent} {r : RegAddr} {v : DWord} {s : State} (hs : s.memOk) : Out.memOk (execFltackRetry a r v s) :=
  .writeEvent hs

theorem Out.memOk.execFltackDeliver {a : Agent} {r : RegAddr} {v : DWord} {s : State} (hs : s.memOk) : Out.memOk (execFltackDeliver a r v s) :=
  .writeEvent hs

theorem Out.memOk.execFltackEndDomain {a : Agent} {r : RegAddr} {v : DWord} {s : State} (hs : s.memOk) : Out.memOk (execFltackEndDomain a r v s) :=
  .writeEvent hs

theorem Out.memOk.execFqptrHeadWrite {a : Agent} {r : RegAddr} {v : DWord} {s : State} (hs : s.memOk) : Out.memOk (execFqptrHeadWrite a r v s) :=
  .writeEvent hs

theorem Out.memOk.execTlbinvAll {a : Agent} {r : RegAddr} {v : DWord} {s : State} (hs : s.memOk) : Out.memOk (execTlbinvAll a r v s) :=
  .writeEvent hs

theorem Out.memOk.execTlbinvAsid {a : Agent} {r : RegAddr} {v : DWord} {s : State} (hs : s.memOk) : Out.memOk (execTlbinvAsid a r v s) :=
  .writeEvent hs

theorem Out.memOk.execTlbinvPage {a : Agent} {r : RegAddr} {v : DWord} {s : State} (hs : s.memOk) : Out.memOk (execTlbinvPage a r v s) :=
  .writeEvent hs

theorem Out.memOk.execMonarmArm {a : Agent} {r : RegAddr} {v : DWord} {s : State} (hs : s.memOk) : Out.memOk (execMonarmArm a r v s) :=
  .writeEvent hs

theorem Out.memOk.execMonarmDisarm {a : Agent} {r : RegAddr} {v : DWord} {s : State} (hs : s.memOk) : Out.memOk (execMonarmDisarm a r v s) :=
  .writeEvent hs

theorem State.memOk.readCsr {s : State} {a : Agent} {n : Nat} (hs : s.memOk) : (s.readCsr a n).memOk := by
  unfold State.readCsr
  dsimp only
  split
  · exact .hartGot hs
  · exact .hartExc hs
  · exact .ite (.hartExc hs) (.ite (.hartGot (.bump hs)) (.ite (.setSvc (.hartGot hs)) (.hartGot hs)))

theorem Out.memOk.execMchkRead {h : HartName} {m : Mode} {n : Nat} {s : State} (hs : s.memOk) : Out.memOk (execMchkRead h m n s) :=
  .event hs (.readCsr hs)

/-! ### What Machine/HomeEvents.lean defines -/

theorem State.memOk.closeAccess {s : State} {id : Nat} {a : Access} (hs : s.memOk) : (s.closeAccess id a).memOk :=
  .ite (.ite (.lateFor (.update (.ite (.updUid (.update hs)) (.update hs)))) (.ite (.updUid (.update hs)) (.update hs))) (.ite (.unblock (.update
    hs)) (.update hs))

theorem State.memOk.performed {s : State} {id : Nat} (hs : s.memOk) : (s.performed id).memOk := by
  unfold State.performed
  dsimp only
  split
  · exact hs
  · exact .ite hs (.foldl (fun _ _ ht => .saveDone ht) (.ite (.poll (.ite (.settle (.ite (.ite (.acquireInval (.ite (.updUid (.update hs)) (.update
      hs))) (.ite (.updUid (.update hs)) (.update hs))) (.closeAccess (.ite (.acquireInval (.ite (.updUid (.update hs)) (.update hs))) (.ite
      (.updUid (.update hs)) (.update hs)))))) (.ite (.ite (.acquireInval (.ite (.updUid (.update hs)) (.update hs))) (.ite (.updUid (.update hs))
      (.update hs))) (.closeAccess (.ite (.acquireInval (.ite (.updUid (.update hs)) (.update hs))) (.ite (.updUid (.update hs)) (.update hs)))))))
      (.ite (.settle (.ite (.ite (.acquireInval (.ite (.updUid (.update hs)) (.update hs))) (.ite (.updUid (.update hs)) (.update hs)))
      (.closeAccess (.ite (.acquireInval (.ite (.updUid (.update hs)) (.update hs))) (.ite (.updUid (.update hs)) (.update hs)))))) (.ite (.ite
      (.acquireInval (.ite (.updUid (.update hs)) (.update hs))) (.ite (.updUid (.update hs)) (.update hs))) (.closeAccess (.ite (.acquireInval
      (.ite (.updUid (.update hs)) (.update hs))) (.ite (.updUid (.update hs)) (.update hs))))))))

theorem State.memOk.setPiece {s : State} {id i : Nat} {a : Access} {p : Piece} (hs : s.memOk) : (s.setPiece id i a p).memOk :=
  .update hs

theorem State.memOk.donePiece {s : State} {id i : Nat} {a : Access} {p : Piece} (hs : s.memOk) : (s.donePiece id i a p).memOk :=
  .performed (.setPiece hs)

theorem State.memOk.refusePiece {s : State} {id i : Nat} {a : Access} {p : Piece} {cls : BitVec 8} (hs : s.memOk) :
    (s.refusePiece id i a p cls).memOk :=
  .donePiece hs

theorem State.memOk.turnPiece {s : State} {id i : Nat} {a : Access} {p : Piece} {x : Turned} (hs : s.memOk) : (s.turnPiece id i a p x).memOk := by
  unfold State.turnPiece
  dsimp only
  split
  · exact .refusePiece hs
  · exact .update (.setPiece hs)
  · exact .update (.setPiece hs)
  · exact .update (.setPiece hs)
  · exact hs

theorem State.memOk.fillL1 {s : State} {core : Nat} {p : Piece} (hs : s.memOk) : (s.fillL1 core p).memOk :=
  .ite (.setCore hs) (.ite (.setCore (.trimSet hs)) (.trimSet hs))

theorem State.memOk.readPiece {s : State} {id i : Nat} {a : Access} {p : Piece} (hs : s.memOk) : (s.readPiece id i a p).memOk := by
  unfold State.readPiece
  dsimp only
  split
  · exact .donePiece (.bump hs)
  · exact .donePiece (.ite (.fillL1 (.ite (.strike (.deliverPsn (.needLine hs))) (.needLine hs))) (.ite (.strike (.deliverPsn (.needLine hs)))
      (.needLine hs)))

theorem State.memOk.l1Written {s : State} {a : Access} {p : Piece} (hs : s.memOk) : (s.l1Written a p).memOk :=
  .setCore hs

theorem State.memOk.holdStore {s : State} {tm pa : Nat} {bs : SMap Byte} (hs : s.memOk) : (s.holdStore tm pa bs).memOk :=
  .updTeam hs

theorem State.memOk.writePiece {s : State} {id i : Nat} {a : Access} {p : Piece} (hs : s.memOk) : (s.writePiece id i a p).memOk := by
  unfold State.writePiece
  dsimp only
  split
  · exact .ite (.setPiece (.mmioWrite hs)) (.donePiece (.mmioWrite hs))
  · split
    · exact .donePiece (.holdStore hs)
    · refine .cleanOwn (.donePiece (.unstage (.l1Written (.homeWrite (.needLine ?_)))))
      split
      · exact .commitTeam hs
      · exact hs

theorem State.memOk.judge {s : State} {a : Access} (hs : s.memOk) : (s.judge a).1.memOk := by
  unfold State.judge
  refine List.foldlRecOn (motive := fun x : State × Access => x.1.memOk) _ _ hs fun x hx p _ => ?_
  dsimp only
  split
  · exact State.memOk.strike (.deliverPsn (.needLine hx))
  · exact State.memOk.needLine hx

theorem State.memOk.overBad {s : State} {id : Nat} {a : Access} (hs : s.memOk) : (s.overBad id a).memOk :=
  .performed (.update hs)

theorem State.memOk.atomPiece {s : State} {id i : Nat} {a : Access} {p : Piece} {op : Nat} {ty : BitVec 4} (hs : s.memOk) :
    (s.atomPiece id i a p op ty).memOk := by
  have hj : (if a.untouched then s.judge a else (s, a)).1.memOk := by
    split
    · exact .judge hs
    · exact hs
  exact .ite (.overBad hj) (.cleanOwn (.performed (.unstage (.l1Written (.setPiece (.homeWrite (.needLine hj)))))))

theorem State.memOk.doPiece {s : State} {id i : Nat} {a : Access} {p : Piece} (hs : s.memOk) : (s.doPiece id i a p).memOk := by
  unfold State.doPiece
  split
  · exact .readPiece hs
  · exact .readPiece hs
  · exact .readPiece hs
  · exact .writePiece hs
  · exact .atomPiece hs

theorem State.memOk.homePiece {s : State} {id i : Nat} {a : Access} {p : Piece} (hs : s.memOk) : (s.homePiece id i a p).memOk :=
  .ite (.setSlice (.setPiece hs)) (.doPiece hs)

theorem State.memOk.arrivePiece {s : State} {id i : Nat} {a : Access} {p : Piece} (hs : s.memOk) : (s.arrivePiece id i a p).memOk := by
  unfold State.arrivePiece
  split
  · refine .ite (.homePiece hs) ?_
    split
    · exact .homePiece hs
    · exact .turnPiece hs
  · exact .doPiece hs

theorem State.memOk.translateAgain {s : State} {id : Nat} {a : Access} (hs : s.memOk) : (s.translateAgain id a).memOk :=
  .ite (.admitPages hs) (.ite (.performed (.update (.dropX hs))) (.update (.useTlbs (.dropX hs))))

theorem State.memOk.grantFor {s : State} {home d : Nat} (hs : s.memOk) : (s.grantFor home d).memOk :=
  .ite hs (.setSlice hs)

theorem State.memOk.granted {s : State} {a : Access} {p : Piece} (hs : s.memOk) : (s.granted a p).memOk :=
  .ite (.grantFor hs) hs

theorem Out.memOk.pieceEvent {kind : AccKind → Bool} {id i : Nat} {s : State} (hs : s.memOk) : Out.memOk (pieceEvent kind id i s) := by
  unfold Machine.pieceEvent
  split
  · exact .event hs (.ite (.translateAgain hs) (.arrivePiece (.granted hs)))
  · exact .next hs

theorem State.memOk.hartAccess {s : State} {k : HartOp} {r : HartReq} (hs : s.memOk) : (s.hartAccess k r).memOk := by
  unfold State.hartAccess
  dsimp only
  split
  · refine .ite (.hartExc (.ite (.deliverPsn (.needLine hs)) (.needLine hs))) ?_
    split
    · exact .hartGot (.ite (.setLine (.needLine hs)) (.needLine hs))
    · exact .hartOk (.race (.unstage (.homeWrite (.needLine hs))))
    · exact .hartGot (.race (.unstage (.homeWrite (.needLine hs))))
  · exact .ite (.bump (.hartGot hs)) (.hartExc hs)
  · exact .hartExc hs

theorem Out.memOk.hartEvent {k : HartOp} {r : HartReq} {s : State} (hs : s.memOk) : Out.memOk (hartEvent k r s) :=
  .event hs (.sendFrom hs (fun _ ht => .hartAccess ht))

theorem Out.memOk.execHomeRead {q : HomeReq} {s : State} (hs : s.memOk) : Out.memOk (execHomeRead q s) := by
  unfold Machine.execHomeRead
  split
  · exact .pieceEvent hs
  · exact .hartEvent hs

theorem Out.memOk.execHomeWrite {q : HomeReq} {s : State} (hs : s.memOk) : Out.memOk (execHomeWrite q s) := by
  unfold Machine.execHomeWrite
  split
  · exact .pieceEvent hs
  · exact .hartEvent hs

theorem Out.memOk.execHomeAtomic {q : HomeReq} {s : State} (hs : s.memOk) : Out.memOk (execHomeAtomic q s) := by
  unfold Machine.execHomeAtomic
  split
  · exact .pieceEvent hs
  · exact .hartEvent hs

theorem Out.memOk.execRingStallRelease {home : Nat} {s : State} (hs : s.memOk) : Out.memOk (execRingStallRelease home s) := by
  refine .ite (.next (.payRecs hs)) ?_
  split
  · exact .next (.doPiece (.setPiece (.setSlice hs)))
  · exact .next hs

theorem Out.memOk.execMovedReplay {acc i : Nat} {s : State} (hs : s.memOk) : Out.memOk (execMovedReplay acc i s) := by
  unfold Machine.execMovedReplay
  dsimp only
  split
  · exact .next hs
  · split
    · exact .next hs
    · exact .event hs (.setPiece (.refreshDesc hs))

theorem State.memOk.homeFill {s : State} {pa bank : Nat} {e : FlitCheck} (hs : s.memOk) : (s.homeFill pa bank e).memOk := by
  unfold State.homeFill
  dsimp only
  split
  · exact .fillLine (.evictLine hs)
  · exact .bucketEvent (.setSlice (.fillLine (.evictLine hs)))
  · exact .bucketEvent (.fillLine (.evictLine hs))

theorem Out.memOk.execHomeLineFill {pa bank : Nat} {e : FlitCheck} {s : State} (hs : s.memOk) : Out.memOk (execHomeLineFill pa bank e s) :=
  .event hs (.homeFill hs)

theorem State.memOk.evictHome {s : State} {pa : Nat} (hs : s.memOk) : (s.evictHome pa).memOk :=
  .ite hs (.evictLine hs)

theorem State.memOk.evictL1 {s : State} {core pa : Nat} (hs : s.memOk) : (s.evictL1 core pa).memOk :=
  .ite hs (.setCore hs)

theorem State.memOk.l1Parity {s : State} {core pa : Nat} (hs : s.memOk) : (s.l1Parity core pa).memOk :=
  .setCore hs

theorem State.memOk.giveResult {s : State} {slot uid id : Nat} {d : Dest} {v : Option (Lane → BitVec 128)} {fl : Flags} (hs : s.memOk) :
    (s.giveResult slot uid id d v fl).memOk :=
  .setPart (.updUid hs)

theorem State.memOk.respond {s : State} {id : Nat} {a : Access} (hs : s.memOk) : (s.respond id a).memOk := by
  refine .ite (.poll (.settle (.closeAccess ?_))) (.closeAccess ?_)
  · split
    · exact .giveResult (.bump hs)
    · exact hs
  · split
    · exact .giveResult (.bump hs)
    · exact hs

theorem Out.memOk.execLoadResponse {acc : Nat} {s : State} (hs : s.memOk) : Out.memOk (execLoadResponse acc s) := by
  unfold Machine.execLoadResponse
  split
  · exact .next (.respond hs)
  · exact .next hs

/-! ### What Machine/SpadEvents.lean defines -/

theorem State.memOk.parityBad {s : State} {tm core row g : Nat} (hs : s.memOk) : (s.parityBad tm core row g).memOk :=
  .updTeam hs

theorem State.memOk.spadReadPiece {s : State} {tm id i : Nat} {a : Access} {p : Piece} (hs : s.memOk) : (s.spadReadPiece tm id i a p).memOk :=
  .donePiece hs

theorem State.memOk.spadAtom {s : State} {tm id i : Nat} {a : Access} {p : Piece} {op : Nat} {ty : BitVec 4} (hs : s.memOk) :
    (s.spadAtom tm id i a p op ty).memOk :=
  .ite (.overBad hs) (.performed (.setPiece (.spadWrite hs)))

theorem State.memOk.spadCheck {s : State} {slot uid : Nat} {w : WaitReq} (hs : s.memOk) : (s.spadCheck slot uid w).memOk :=
  .ite (.update (.update hs)) (.ite (.update (.update hs)) (.ite (.update (.update hs)) (.update (.update hs))))

theorem State.memOk.setCopyPiece {s : State} {id i : Nat} {k : Copy} {p : CopyPiece} {bad : Bool} (hs : s.memOk) :
    (s.setCopyPiece id i k p bad).memOk :=
  .update hs

theorem State.memOk.copyReadSpad {s : State} {id i : Nat} {k : Copy} {p : CopyPiece} (hs : s.memOk) : (s.copyReadSpad id i k p).memOk :=
  .setCopyPiece hs

theorem State.memOk.spoilSpad {s : State} {tm a : Nat} (hs : s.memOk) : (s.spoilSpad tm a).memOk :=
  .foldl (fun _ _ ht => .spadPoison ht) (.strike hs)

theorem State.memOk.copyWriteSpad {s : State} {id i : Nat} {k : Copy} {p : CopyPiece} (hs : s.memOk) : (s.copyWriteSpad id i k p).memOk := by
  unfold State.copyWriteSpad
  dsimp only
  split
  · exact hs
  · split
    · exact .setCopyPiece (.bump (.spadWrite hs))
    · exact .setCopyPiece (.spoilSpad (.bump (.spadWrite hs)))

theorem State.memOk.arriveFwd {s : State} {acc l : Nat} {a : Access} {d : Word} (hs : s.memOk) : (s.arriveFwd acc l a d).memOk :=
  .performed (.ite (.lateFor (.update hs)) (.spadWrite (.update hs)))

theorem State.memOk.forwardSpad {s : State} {acc l : Nat} {a : Access} (hs : s.memOk) : (s.forwardSpad acc l a).memOk := by
  unfold State.forwardSpad
  split
  · exact .arriveFwd hs
  · split
    · exact State.memOk.spadWrite hs
    · exact hs
  · exact hs

theorem State.memOk.matrixSpad {s : State} {core op tm a : Nat} (hs : s.memOk) : (s.matrixSpad core op tm a).memOk :=
  .setCore hs

theorem State.memOk.grantSpad {s : State} {core : Nat} {q : SpadReq} (hs : s.memOk) : (s.grantSpad core q).memOk := by
  unfold State.grantSpad
  dsimp only
  split
  · split
    · exact .spadCheck (.ite hs (.setCore hs))
    · exact .ite hs (.setCore hs)
  · split
    · exact .copyReadSpad (.ite hs (.setCore hs))
    · exact .ite hs (.setCore hs)
  · split
    · exact .copyWriteSpad (.ite hs (.setCore hs))
    · exact .ite hs (.setCore hs)
  · split
    · exact .forwardSpad (.ite hs (.setCore hs))
    · exact .ite hs (.setCore hs)
  · exact .matrixSpad (.ite hs (.setCore hs))
  · split
    · split
      · exact .spadReadPiece (.ite hs (.setCore hs))
      · exact .spadReadPiece (.ite hs (.setCore hs))
      · exact .spadReadPiece (.ite hs (.setCore hs))
      · exact .donePiece (.spadWrite (.ite hs (.setCore hs)))
      · exact .spadAtom (.ite hs (.setCore hs))
    · exact .ite hs (.setCore hs)

theorem State.memOk.markRebuild {s : State} {core : Nat} {q : SpadReq} {banks : List Nat} (hs : s.memOk) : (s.markRebuild core q banks).memOk :=
  .setCore hs

theorem State.memOk.poisonReq {s : State} {q : SpadReq} {banks : List Nat} (hs : s.memOk) : (s.poisonReq q banks).memOk :=
  .foldl (fun _ _ ht => .ite (.spadPoison ht) ht) (.strike hs)

theorem State.memOk.directGrant {core : Nat} {errs : List (Nat × Nat × Nat)} {s : State} {q : SpadReq} (hs : s.memOk) :
    (State.directGrant core errs s q).memOk := by
  unfold State.directGrant
  dsimp only
  split
  · exact .grantSpad (.ite (.parityBad hs) hs)
  · exact .grantSpad (.ite (.parityBad hs) hs)
  · exact .ite (.markRebuild (.ite (.parityBad hs) hs)) (.grantSpad (.poisonReq (.ite (.parityBad hs) hs)))
  · exact .grantSpad (.poisonReq (.ite (.parityBad hs) hs))

theorem State.memOk.rebuiltGrant {core : Nat} {errs : List (Nat × Nat × Nat)} {s : State} {x : SpadReq × Nat} (hs : s.memOk) :
    (State.rebuiltGrant core errs s x).memOk :=
  .ite (.grantSpad (.ite hs (.parityBad hs))) (.ite (.ite hs (.parityBad hs)) (.grantSpad (.poisonReq (.ite hs (.parityBad hs)))))

theorem State.memOk.spadErrors {s : State} {core corr bad : Nat} (hs : s.memOk) : (s.spadErrors core corr bad).memOk :=
  .foldl (fun _ _ ht => .bucketEvent ht) (.foldl (fun _ _ ht => .bucketEvent ht) hs)

theorem State.memOk.arbitrate {s : State} {core corr : Nat} {errs : List (Nat × Nat × Nat)} (hs : s.memOk) : (s.arbitrate core corr errs).memOk :=
  .spadErrors (.foldl (fun _ _ ht => .rebuiltGrant ht) (.foldl (fun _ _ ht => .directGrant ht) (.setCore hs)))

theorem Out.memOk.execScratchpadArbitration {core corr : Nat} {errs : List (Nat × Nat × Nat)} {s : State} (hs : s.memOk) : Out.memOk
    (execScratchpadArbitration core corr errs s) :=
  .event hs (.arbitrate hs)

theorem Out.memOk.execParityRowRecompute {core tm row g : Nat} {s : State} (hs : s.memOk) : Out.memOk (execParityRowRecompute core tm row g s) :=
  .event hs (.updTeam hs)

theorem Out.memOk.execAtomfForward {acc : Nat} {l : Lane} {s : State} (hs : s.memOk) : Out.memOk (execAtomfForward acc l s) := by
  unfold Machine.execAtomfForward
  split
  · exact .next (.update hs)
  · exact .next hs

theorem State.memOk.completeToken {s : State} {slot tok : Nat} (hs : s.memOk) : (s.completeToken slot tok).memOk := by
  refine .foldl (fun _ _ ht => .unblock ?_) (.updGroup hs)
  split
  · exact .putUniform ht
  · exact ht

theorem Out.memOk.execFenceTokenComplete {slot tok : Nat} {s : State} (hs : s.memOk) : Out.memOk (execFenceTokenComplete slot tok s) :=
  .event hs (.completeToken hs)

/-! ### What Machine/WaitEvents.lean defines -/

theorem State.memOk.waitAgain {s : State} {slot : Nat} {w : WaitReq} (hs : s.memOk) : (s.waitAgain slot w).memOk := by
  unfold State.waitAgain
  dsimp only
  split
  · exact .admitPages hs
  · exact .lateFault (.updGroup (.update (.dropX hs)))
  · exact .updGroup (.useTlbs (.dropX hs))

theorem State.memOk.waitMoved {s : State} {slot : Nat} {w : WaitReq} (hs : s.memOk) : (s.waitMoved slot w).memOk :=
  .updGroup (.movedAt hs)

theorem State.memOk.checkWait {s : State} {slot : Nat} {w : WaitReq} (hs : s.memOk) : (s.checkWait slot w).memOk :=
  .waitHome (.ite (.needLine (.update hs)) (.update hs))

theorem Out.memOk.execWaitCheck {slot : Nat} {s : State} (hs : s.memOk) : Out.memOk (execWaitCheck slot s) := by
  unfold Machine.execWaitCheck
  split
  · exact .next (.ite (.waitAgain hs) (.ite (.waitMoved hs) (.checkWait hs)))
  · exact .next hs

theorem State.memOk.waitSeen {s : State} {slot : Nat} {g : Group} (hs : s.memOk) : (s.waitSeen slot g).memOk := by
  unfold State.waitSeen
  split
  · exact .ite hs (.setCore hs)
  · exact hs

theorem State.memOk.acceptWake {s : State} {slot : Nat} {w : Wake} (hs : s.memOk) : (s.acceptWake slot w).memOk :=
  .ite (.waitSeen hs) (.ite (.updProg (.waitSeen hs)) (.endWait (.waitSeen hs)))

theorem State.memOk.rerouteWake {s : State} {w : Wake} (hs : s.memOk) : (s.rerouteWake w).memOk := by
  unfold State.rerouteWake
  split
  · exact .update hs
  · split
    · exact .updSaved hs
    · exact hs

theorem State.memOk.wakeArrives {s : State} {i : Nat} {w : Wake} (hs : s.memOk) : (s.wakeArrives i w).memOk :=
  .ite (.acceptWake (.update hs)) (.rerouteWake (.update hs))

theorem Out.memOk.execWakeArrival {i : Nat} {s : State} (hs : s.memOk) : Out.memOk (execWakeArrival i s) := by
  unfold Machine.execWakeArrival
  split
  · exact .next (.wakeArrives hs)
  · exact .next hs

theorem State.memOk.watchTimeout {s : State} {e : Watch} (hs : s.memOk) : (s.watchTimeout e).memOk :=
  .update hs

theorem Out.memOk.execMonitorTimeout {sp : Bool} {home i : Nat} {s : State} (hs : s.memOk) : Out.memOk (execMonitorTimeout sp home i s) := by
  refine .ite ?_ ?_
  · split
    · exact .next (.watchTimeout hs)
    · exact .next hs
  · split
    · exact .next (.freeMon (.sendWake hs))
    · exact .next hs

theorem State.memOk.withdrawPair {s : State} {slot : Nat} (hs : s.memOk) : (s.withdrawPair slot).memOk := by
  unfold State.withdrawPair
  dsimp only
  split
  · exact hs
  · exact .ite hs (.unblock (.updGroup (.updGroup (.updTeam (.dropEntry hs)))))

theorem State.memOk.dropWait {s : State} {slot : Nat} (hs : s.memOk) : (s.dropWait slot).memOk :=
  .foldl (fun _ _ ht => .ite (.unlinkSlot (.foldl (fun _ _ hu => .freeMon hu) ht)) (.foldl (fun _ _ hu => .freeMon hu) ht)) (.update hs)

theorem State.memOk.withdraw {s : State} {slot : Nat} (hs : s.memOk) : (s.withdraw slot).memOk := by
  unfold State.withdraw
  dsimp only
  split
  · exact .ite (.updGroup (.deliverInterrupt (.updGroup (.dropWait (.withdrawPair hs))))) (.deliverInterrupt (.updGroup (.dropWait (.withdrawPair
      hs))))
  · exact .deliverInterrupt (.updGroup (.dropWait (.withdrawPair hs)))

theorem Out.memOk.execWaitWithdraw {slot : Nat} {s : State} (hs : s.memOk) : Out.memOk (execWaitWithdraw slot s) :=
  .event hs (.withdraw hs)

theorem Out.memOk.execNsleepExpiry {slot : Nat} {s : State} (hs : s.memOk) : Out.memOk (execNsleepExpiry slot s) := by
  unfold Machine.execNsleepExpiry
  split
  · exact .next (.unblock hs)
  · exact .next hs

theorem Out.memOk.execClockGate {core : Nat} {s : State} (hs : s.memOk) : Out.memOk (execClockGate core s) :=
  .event hs (.setCore hs)

theorem State.memOk.armMoved {s : State} {i : Nat} {q : ArmReq} (hs : s.memOk) : (s.armMoved i q).memOk :=
  .update (.movedAt hs)

theorem State.memOk.checkArm {s : State} {i : Nat} {q : ArmReq} (hs : s.memOk) : (s.checkArm i q).memOk :=
  .ite (.setMonstat (.update hs)) (.ite (.setMonstat (.needLine (.update hs))) (.ite (.setMonstat (.needLine (.update hs))) (.setSlice (.needLine
    (.update hs)))))

theorem Out.memOk.execServiceArmCheck {i : Nat} {s : State} (hs : s.memOk) : Out.memOk (execServiceArmCheck i s) := by
  unfold Machine.execServiceArmCheck
  split
  · exact .next (.ite (.armMoved hs) (.checkArm hs))
  · exact .next hs

theorem Out.memOk.execFaultQueueAdmit {cl : Nat} {s : State} (hs : s.memOk) : Out.memOk (execFaultQueueAdmit cl s) := by
  unfold Machine.execFaultQueueAdmit
  split
  · exact .next (.setCluster hs)
  · exact .next hs

/-! ### What Machine/Fallow.lean defines -/

theorem State.memOk.updHub {s : State} {f : Hub → Hub} (hs : s.memOk) : (s.updHub f).memOk :=
  .update hs

theorem State.memOk.capEntries {s : State} {home : Nat} (hs : s.memOk) : (s.capEntries home).memOk :=
  .foldl (fun _ _ ht => .setMonstat (.setSlice ht)) (.foldl (fun _ _ ht => .glWake ht) (.foldl (fun _ _ ht => .freeMon (.sendWake ht)) hs))

theorem State.memOk.capStores {s : State} (hs : s.memOk) : s.capStores.memOk := by
  refine .foldl (fun _ _ ht => .foldl (fun _ _ hu => ?_) ht) (.updHub (.foldl (fun _ _ ht => .hartOk ht) hs))
  split
  · split
    · exact .ite (.donePiece hu) hu
    · exact hu
  · exact hu

theorem Out.memOk.execMemcapLowerSettle {s : State} (hs : s.memOk) : Out.memOk (execMemcapLowerSettle s) :=
  .event hs (.capStores (.updHub (.capWindows (.foldl (fun _ _ ht => .capEntries ht) hs))))

theorem Out.memOk.execFwinDropComplete {n : Nat} {s : State} (hs : s.memOk) : Out.memOk (execFwinDropComplete n s) :=
  .event hs (.setFwin (.update hs))

theorem Out.memOk.execMigrationEnterDone {s : State} (hs : s.memOk) : Out.memOk (execMigrationEnterDone s) :=
  .event hs (.closeBegin (.writeMigTarget (.updHub (.refreshAll hs))))

theorem Out.memOk.execMigrationIdleExpiry {s : State} (hs : s.memOk) : Out.memOk (execMigrationIdleExpiry s) :=
  .event hs (.closeBegin (.updHub hs))

theorem Out.memOk.execMigrationCloseDone {s : State} (hs : s.memOk) : Out.memOk (execMigrationCloseDone s) :=
  .event hs (.closeBegin (.writeMigTarget (.refreshAll (.updHub hs))))

theorem State.memOk.takeGranule {s : State} (hs : s.memOk) : s.takeGranule.memOk :=
  .ite (.closeBegin (.updHub hs)) (.updHub hs)

theorem Out.memOk.execMigrateGranule {s : State} (hs : s.memOk) : Out.memOk (execMigrateGranule s) :=
  .event hs (.takeGranule hs)

theorem State.memOk.copyGranule {s : State} {g : Nat} {failed : List Nat} (hs : s.memOk) : (s.copyGranule g failed).memOk := by
  unfold State.copyGranule
  extract_lets n lost fresh first filled sl
  have hf : filled.memOk := by unfold filled; exact .foldl (fun _ _ ht => .ite (.setLine ht) ht) hs
  clear_value first filled
  exact .updHub (.ite hf (.foldl (fun _ _ ht => .machineCheck ht) (.setSlice hf)))

theorem Out.memOk.execGranuleDrained {failed : List Nat} {s : State} (hs : s.memOk) : Out.memOk (execGranuleDrained failed s) := by
  unfold Machine.execGranuleDrained
  split
  · exact .next (.copyGranule hs)
  · exact .next hs

theorem State.memOk.moveEntry {s t : State} {o n : Nat} {e : MonEntry} (hs : s.memOk) (ht : s.moveEntry o n e = some t) : t.memOk := by
  have hc : ((s.setSlice o { s.slice o with mon := (s.slice o).mon.erase e }).charge useMon e.rcb (-1)).memOk := .charge (.setSlice hs)
  unfold State.moveEntry at ht
  dsimp only at ht
  split_ifs at ht
  · cases ht; exact .setSlice (.setSlice hs)
  · cases ht; exact .sendWake hc
  · split at ht <;> cases ht
    · exact .spill hc ‹_›
    · exact .sendWake hc

theorem State.memOk.moveSlot {s t : State} {o n slot : Nat} (hs : s.memOk) (ht : s.moveSlot o n slot = some t) : t.memOk := by
  unfold State.moveSlot at ht
  dsimp only at ht
  split at ht
  · cases ht
  · rw [← Option.some.inj ht]
    exact .ite (.linkSlot (.unlinkSlot hs)) (.deadlineRec (.linkSlot (.unlinkSlot hs)))

theorem State.memOk.moveArm {s : State} {o n : Nat} {e : SvcEntry} (hs : s.memOk) : (s.moveArm o n e).memOk :=
  .ite (.setSlice (.setSlice hs)) (.setMonstat (.setSlice hs))

theorem State.memOk.rehomeOne {s t : State} {o n g : Nat} (hs : s.memOk) (ht : s.rehomeOne o n g = .moved t) : t.memOk := by
  unfold State.rehomeOne at ht
  split at ht
  · split at ht <;> cases ht
    exact .moveEntry hs ‹_›
  · split at ht
    · split at ht <;> cases ht
      exact .moveSlot hs ‹_›
    · cases ht

theorem State.memOk.rehome {o n g k : Nat} {s : State} (hs : s.memOk) : (State.rehome o n g k s).1.memOk := by
  induction k generalizing s with
  | zero => exact hs
  | succ k ih =>
    unfold State.rehome
    split
    · exact hs
    · exact hs
    · exact ih (.rehomeOne hs ‹_›)

theorem State.memOk.handOver {s : State} {n : Nat} {r : Nat × Nat} (hs : s.memOk) : (s.handOver n r).memOk := by
  unfold State.handOver
  dsimp only
  split
  · exact hs
  · split
    · exact hs
    · exact .arrivePiece (.update hs)

theorem State.memOk.finishGranule {s : State} {o n g : Nat} (hs : s.memOk) : (s.finishGranule o n g).memOk :=
  .ite (.closeBegin (.foldl (fun _ _ ht => .handOver ht) (.updHub (.foldl (fun _ _ ht => .afterPoison ht) (.foldl (fun _ _ ht => .moveArm ht)
    hs))))) (.foldl (fun _ _ ht => .handOver ht) (.updHub (.foldl (fun _ _ ht => .afterPoison ht) (.foldl (fun _ _ ht => .moveArm ht) hs))))

theorem State.memOk.handover {s : State} {g : Nat} (hs : s.memOk) : (s.handover g).memOk := by
  unfold State.handover
  dsimp only
  exact .ite (.finishGranule (.rehome hs)) (.rehome hs)

theorem Out.memOk.execGranuleHandover {s : State} (hs : s.memOk) : Out.memOk (execGranuleHandover s) := by
  unfold Machine.execGranuleHandover
  split
  · exact .next (.handover hs)
  · exact .next hs

theorem Out.memOk.execStackDead {k : Nat} {s : State} (hs : s.memOk) : Out.memOk (execStackDead k s) :=
  .event hs (.machineCheck (.updHub hs))

/-! ### What Machine/CopyEvents.lean defines -/

theorem State.memOk.putEntry {s : State} {pa w0 w1 : Nat} (hs : s.memOk) : (s.putEntry pa w0 w1).memOk :=
  .homeWrite (.needLine hs)

theorem State.memOk.armCounter {s : State} {a : PendArm} (hs : s.memOk) : (s.armCounter a).2.memOk := by
  unfold State.armCounter
  refine .iteSnd hs (.iteSnd (.update ?_) (.iteSnd hs ?_))
  · exact .putEntry hs
  · have hc : (s.charge useTask a.rcb 1).memOk := .charge hs
    generalize s.charge useTask a.rcb 1 = t at hc
    dsimp only
    exact .iteSnd (.ready (.update (.putEntry hc))) (.bump (.update (.putEntry hc)))

theorem State.memOk.giveUniform {s : State} {slot uid id : Nat} {d : Dest} {x : DWord} (hs : s.memOk) : (s.giveUniform slot uid id d x).memOk :=
  .ite (.poll (.settle (.giveResult hs))) (.giveResult hs)

theorem State.memOk.doArm {s : State} {id : Nat} {a : PendArm} (hs : s.memOk) : (s.doArm id a).memOk := by
  unfold State.doArm
  dsimp only
  split
  · exact .lateFor (.giveResult (.update hs))
  · exact .giveUniform (.armCounter (.update hs))

theorem Out.memOk.execCounterArm {id : Nat} {s : State} (hs : s.memOk) : Out.memOk (execCounterArm id s) := by
  unfold Machine.execCounterArm
  split
  · exact .next (.sendFrom hs (fun _ ht => .doArm ht))
  · exact .next hs

theorem State.memOk.decFault {s : State} {d : PendDec} {f : LateFault} (hs : s.memOk) : (s.decFault d f).memOk :=
  .ite (.ite (.postFaultFor hs) hs) (.lateFor hs)

theorem State.memOk.decrement {s : State} {d : PendDec} (hs : s.memOk) : (s.decrement d).memOk := by
  unfold State.decrement
  dsimp only
  split
  · exact .decFault hs
  · exact .ite (.ite (.ready (.bump (.ite hs (.homeStore (.needLine hs))))) (.ite hs (.homeStore (.needLine hs)))) (.decFault (.ite (.ready (.bump
      (.ite hs (.homeStore (.needLine hs))))) (.ite hs (.homeStore (.needLine hs)))))

theorem State.memOk.doDec {s : State} {id : Nat} {d : PendDec} (hs : s.memOk) : (s.doDec id d).memOk :=
  .ite (.poll (.settle (.decrement (.update hs)))) (.decrement (.update hs))

theorem Out.memOk.execCounterDecrement {id : Nat} {s : State} (hs : s.memOk) : Out.memOk (execCounterDecrement id s) := by
  unfold Machine.execCounterDecrement
  split
  · exact .next (.sendFrom hs (fun _ ht => .doDec ht))
  · exact .next hs

theorem State.memOk.copyRead {s : State} {k : Copy} {pa : Nat} {data : BitVec 128} {st : Nat} (hs : s.memOk) : (s.copyRead k pa data st).2.memOk :=
  .iteSnd hs (.iteSnd (.iteSnd (.deliverPsn (.needLine hs)) (.needLine hs)) hs)

theorem State.memOk.copyWrite {s : State} {k : Copy} {pa : Nat} {r : CopyRead} {st : Nat} (hs : s.memOk) : (s.copyWrite k pa r st).2.memOk := by
  refine .iteSnd hs (.iteSnd ?_ hs)
  split
  · exact .bump (.race (.homeWrite (.needLine hs)))
  · exact .poisonLine (.bump (.race (.homeWrite (.needLine hs))))
  · exact .poisonLine (.bump (.race (.homeWrite (.needLine hs))))

theorem State.memOk.copyPiece {s : State} {id i : Nat} {k : Copy} {p : CopyPiece} {data : BitVec 128} {st : Nat} (hs : s.memOk) :
    (s.copyPiece id i k p data st).memOk := by
  unfold State.copyPiece
  split
  · exact .sendFrom hs (fun _ ht => .setCopyPiece (.copyRead ht))
  · exact .sendFrom hs (fun _ ht => .setCopyPiece (.copyWrite ht))

theorem Out.memOk.execCopyPiece {id i : Nat} {data : BitVec 128} {st : Nat} {s : State} (hs : s.memOk) : Out.memOk (execCopyPiece id i data st s) :=
    by
  unfold Machine.execCopyPiece
  split
  · exact .next (.copyPiece hs)
  · exact .next hs

theorem State.memOk.copyArrive {s : State} {k : Copy} (hs : s.memOk) : (s.copyArrive k).2.memOk := by
  unfold State.copyArrive
  dsimp only
  split
  · exact hs
  · exact .iteSnd hs (.spadWrite hs)

theorem State.memOk.copyDecrement {s : State} {k : Copy} (hs : s.memOk) : (s.copyDecrement k).memOk := by
  unfold State.copyDecrement
  dsimp only
  split
  · exact hs
  · exact .decrement hs

theorem State.memOk.wakeTags {s : State} {slot uid : Nat} (hs : s.memOk) : (s.wakeTags slot uid).memOk := by
  refine .ite hs (.foldl (fun _ _ ht => ?_) hs)
  split
  · refine .unblock (.acquireInval ?_)
    split
    · exact .updUid (.putUniform ht)
    · exact .putUniform ht
  · exact ht

theorem State.memOk.copyDone {s : State} {id : Nat} {k : Copy} (hs : s.memOk) : (s.copyDone id k).memOk := by
  have ha : (if k.mirror.isSome then (false, s) else s.copyArrive k).2.memOk := by
    split
    · exact hs
    · exact .copyArrive hs
  exact .poll (.wakeTags (.updUid (.updUid (.ite ha (.copyDecrement ha)))))

theorem Out.memOk.execCopyComplete {id : Nat} {s : State} (hs : s.memOk) : Out.memOk (execCopyComplete id s) := by
  unfold Machine.execCopyComplete
  split
  · refine .next ?_
    split
    · exact .sendFrom hs (fun _ ht => .copyDone ht)
    · exact .copyDone hs
  · exact .next hs

/-! ### What Machine/Linium.lean defines -/

theorem State.memOk.takeRec {s : State} {r : Rec} (hs : s.memOk) : (s.takeRec r).memOk :=
  .setSvc (.ite hs (.pageStore hs))

theorem State.memOk.svcSpend {s : State} {rcb cost : Nat} (hs : s.memOk) : (s.svcSpend rcb cost).memOk :=
  .update hs

theorem State.memOk.journal {s : State} {r : Rec} {m : LaneMask} {num status : Nat} {value : Lane → DWord} (hs : s.memOk) :
    (s.journal r m num status value).memOk :=
  .setSvc hs

theorem State.memOk.answerLanes {s : State} {r : Rec} {v : Service} {m : LaneMask} {status : Nat} {value : Lane → DWord} (hs : s.memOk) :
    (s.answerLanes r v m status value).memOk :=
  .ite hs (.replyTo (.ite (.journal hs) hs))

theorem Out.memOk.serve {num cl k : Nat} {l : Lane} {body : Rec → Service → LaneMask → State → State} {s : State}
    (hbody : ∀ r v m t, t.memOk → (body r v m t).memOk) (hs : s.memOk) : Out.memOk (serve num cl k l body s) := by
  unfold Machine.serve
  split
  · exact .next hs
  · rename_i r v e
    have ht : (s.takeRec r).memOk := .takeRec hs
    have hb := hbody r v (s.actionLanes r l v) _ ht
    exact .ite (.next (.update ht)) (.ite (.next (.replyTo (.svcSpend (.update ht)))) (.ite (.next hb) (.next (.svcSpend (.update hb)))))

theorem Out.memOk.execSvcqResume {cl k l : Nat} {s : State} (hs : s.memOk) : Out.memOk (execSvcqResume cl k l s) := by
  unfold Machine.execSvcqResume
  split
  · exact .next (.update hs)
  · exact .next hs

theorem State.memOk.throughWindow {s : State} {r : Rec} {v : Service} {m : LaneMask} {rt : Right} {va n : Nat} {go : State → State} (hs : s.memOk)
    (hgo : ∀ t, t.memOk → (go t).memOk) : (s.throughWindow r v m rt va n go).memOk := by
  unfold State.throughWindow
  dsimp only
  split
  · exact .ite (.sendAll hs (fun _ ht => hgo _ (.useTlbsIn (.dropX ht)))) hs
  · exact .winMiss hs
  · exact .answerLanes (.winPoison (.dropX hs))

theorem State.memOk.callStatus {s : State} {oldest : Nat} {r : Rec} {v : Service} {m : LaneMask} (hs : s.memOk) : (s.callStatus oldest r v m).memOk
    := by
  refine .ite (.answerLanes hs) (.ite (.answerLanes hs) ?_)
  split
  · exact .answerLanes hs
  · exact .ite (.answerLanes hs) (.throughWindow hs (fun _ ht => .answerLanes (.bump (.winWrite ht))))

theorem State.memOk.refuseCall {s : State} {r : Rec} {l : Lane} (hs : s.memOk) : (s.refuseCall r l).memOk :=
  .ite (.update (.takeRec hs)) (.replyTo (.svcSpend (.update (.takeRec hs))))

theorem Out.memOk.execCallStatus {cl k : Nat} {l : Lane} {oldest : Nat} {s : State} (hs : s.memOk) : Out.memOk (execCallStatus cl k l oldest s) :=
    by
  unfold Machine.execCallStatus
  split
  · exact .next (.refuseCall hs)
  · split
    · exact .ite (.serve (fun _ _ _ _ ht => .callStatus ht) hs) (.next hs)
    · exact .next hs

theorem State.memOk.heapCharge {s : State} {rcb : Nat} {d : Int} (hs : s.memOk) : (s.heapCharge rcb d).memOk :=
  .foldl (fun _ _ ht => .homeStore (.needLine ht)) hs

theorem State.memOk.memAlloc {s : State} {base : Nat} {r : Rec} {v : Service} {mask : LaneMask} (hs : s.memOk) : (s.memAlloc base r v mask).memOk :=
  .ite (.winMiss hs) (.ite hs (.sendAll hs (fun _ ht => .answerLanes (.answerLanes (.ite (.answerLanes (.update (.heapCharge (.ite (.foldl (fun _ _
    hu => .winWrite hu) (.useTlbsIn (.dropX ht))) (.useTlbsIn (.dropX ht)))))) (.foldl (fun _ _ hu => .answerLanes hu) (.update (.heapCharge (.ite
    (.foldl (fun _ _ hu => .winWrite hu) (.useTlbsIn (.dropX ht))) (.useTlbsIn (.dropX ht)))))))))))

theorem Out.memOk.execMemAlloc {cl k : Nat} {l : Lane} {base : Nat} {s : State} (hs : s.memOk) : Out.memOk (execMemAlloc cl k l base s) :=
  .ite (.serve (fun _ _ _ _ ht => .memAlloc ht) hs) (.next hs)

theorem State.memOk.memFree {s : State} {r : Rec} {v : Service} {m : LaneMask} (hs : s.memOk) : (s.memFree r v m).memOk := by
  unfold State.memFree
  dsimp only
  split
  · exact .ite hs (.sendAll hs (fun _ ht => .answerLanes (.update (.heapCharge ht))))
  · exact .answerLanes hs

theorem Out.memOk.execMemFree {cl k : Nat} {l : Lane} {s : State} (hs : s.memOk) : Out.memOk (execMemFree cl k l s) :=
  .serve (fun _ _ _ _ ht => .memFree ht) hs

theorem State.memOk.memProtect {s : State} {st : Nat} {r : Rec} {v : Service} {m : LaneMask} (hs : s.memOk) : (s.memProtect st r v m).memOk :=
  .ite (.answerLanes hs) (.ite hs (.sendAll hs (fun _ ht => .answerLanes (.foldl (fun _ _ hu => .setCluster (.dropTlb hu)) (.foldl (fun _ _ hu =>
    .homeStore (.needLine hu)) ht)))))

theorem Out.memOk.serveOut {num cl k : Nat} {l : Lane} {st : Nat} {body : Rec → Service → LaneMask → State → State} {s : State}
    (hbody : ∀ r v m t, t.memOk → (body r v m t).memOk) (hs : s.memOk) : Out.memOk (serveOut num cl k l st body s) := by
  unfold Machine.serveOut
  split
  · exact .ite (.serve hbody hs) (.next hs)
  · exact .next hs

theorem Out.memOk.execMemProtect {cl k : Nat} {l : Lane} {st : Nat} {s : State} (hs : s.memOk) : Out.memOk (execMemProtect cl k l st s) :=
  .serveOut (fun _ _ _ _ ht => .memProtect ht) hs

theorem Out.memOk.execMemInfo {cl k : Nat} {l : Lane} {s : State} (hs : s.memOk) : Out.memOk (execMemInfo cl k l s) :=
  .serve (fun _ _ _ _ ht => .answerLanes ht) hs

theorem State.memOk.serveIn {s : State} {st : Nat} {data : List Byte} {buf len : Nat} {r : Rec} {v : Service} {m : LaneMask} (hs : s.memOk) :
    (s.serveIn st data buf len r v m).memOk :=
  .ite (.answerLanes hs) (.throughWindow hs (fun _ ht => .answerLanes (.winWrite ht)))

theorem State.memOk.serveOutData {s : State} {st n buf len : Nat} {r : Rec} {v : Service} {m : LaneMask} (hs : s.memOk) :
    (s.serveOutData st n buf len r v m).memOk :=
  .ite (.answerLanes hs) (.throughWindow hs (fun _ ht => .answerLanes ht))

theorem Out.memOk.execFileRead {cl k : Nat} {l : Lane} {st : Nat} {data : List Byte} {s : State} (hs : s.memOk) : Out.memOk
    (execFileRead cl k l st data s) :=
  .serveOut (fun _ _ _ _ ht => .serveIn ht) hs

theorem Out.memOk.execFileWrite {cl k : Nat} {l : Lane} {st n : Nat} {s : State} (hs : s.memOk) : Out.memOk (execFileWrite cl k l st n s) :=
  .serveOut (fun _ _ _ _ ht => .serveOutData ht) hs

theorem Out.memOk.execFileSync {cl k : Nat} {l : Lane} {st : Nat} {s : State} (hs : s.memOk) : Out.memOk (execFileSync cl k l st s) :=
  .serveOut (fun _ _ _ _ ht => .answerLanes ht) hs

theorem Out.memOk.execUdpSend {cl k : Nat} {l : Lane} {st n : Nat} {s : State} (hs : s.memOk) : Out.memOk (execUdpSend cl k l st n s) :=
  .serveOut (fun _ _ _ _ ht => .serveOutData ht) hs

theorem Out.memOk.execUdpRecv {cl k : Nat} {l : Lane} {st : Nat} {data : List Byte} {s : State} (hs : s.memOk) : Out.memOk
    (execUdpRecv cl k l st data s) :=
  .serveOut (fun _ _ _ _ ht => .serveIn ht) hs

theorem Out.memOk.execRdgSend {cl k : Nat} {l : Lane} {st n : Nat} {s : State} (hs : s.memOk) : Out.memOk (execRdgSend cl k l st n s) :=
  .serveOut (fun _ _ _ _ ht => .serveOutData ht) hs

theorem Out.memOk.execRdgRecv {cl k : Nat} {l : Lane} {st : Nat} {data : List Byte} {s : State} (hs : s.memOk) : Out.memOk
    (execRdgRecv cl k l st data s) :=
  .serveOut (fun _ _ _ _ ht => .serveIn ht) hs

theorem Out.memOk.execCtrlNotify {cl k : Nat} {l : Lane} {st : Nat} {s : State} (hs : s.memOk) : Out.memOk (execCtrlNotify cl k l st s) :=
  .serveOut (fun _ _ _ _ ht => .answerLanes ht) hs

theorem Out.memOk.execHandleInfo {cl k : Nat} {l : Lane} {st : Nat} {data : List Byte} {s : State} (hs : s.memOk) : Out.memOk
    (execHandleInfo cl k l st data s) :=
  .serveOut (fun _ _ _ _ ht => .ite (.answerLanes ht) (.throughWindow ht (fun _ hu => .answerLanes (.winWrite hu)))) hs

/-! ### What Machine/MatrixEvents.lean defines -/

theorem State.memOk.freezeOp {s : State} {core : Nat} {o : MatOp} {f : FaultInfo} (hs : s.memOk) : (s.freezeOp core o f).memOk :=
  .updOp (.postFaultFor (.dropX hs))

theorem State.memOk.useMat {s : State} {core : Nat} {es : List TlbEntry} (hs : s.memOk) : (s.useMat core es).memOk :=
  .ite (.dropX hs) (.setCluster (.dropX hs))

theorem State.memOk.matPoison {s : State} {core : Nat} {o : MatOp} {l : List Span} {k : BitVec 8} (hs : s.memOk) : (s.matPoison core o l k).memOk :=
  .ite (.foldl (fun _ _ ht => .ite (.deliverPsn ht) ht) (.strike hs)) hs

theorem State.memOk.reach {s : State} {core : Nat} {o : MatOp} {l : List Span} (hs : s.memOk) : (s.reach core o l).memOk :=
  .foldl (fun _ _ ht => .needLine ht) hs

theorem State.memOk.matStep {s : State} {core : Nat} {o : MatOp} {sp : Bool} {r : Right} {l : List Span} {chk : State → CopyChk}
    {go : State → State} (hs : s.memOk) (hgo : ∀ t, t.memOk → (go t).memOk) : (s.matStep core o sp r l chk go).memOk := by
  unfold State.matStep
  dsimp only
  split
  · exact .admitPages hs
  · exact .freezeOp (.ite (.matPoison (.reach hs)) hs)
  · exact .ite (hgo _ (.useMat hs)) (.ite (.ite (.updOp (hgo _ (.useMat hs))) (.updOp (.useMat hs))) (.sendAll (.useMat hs) (fun _ ht => hgo _
      (.reach ht))))

theorem State.memOk.stage {s : State} {core : Nat} {o : MatOp} {lines : List Nat} (hs : s.memOk) : (s.stage core o lines).memOk :=
  .setCore hs

theorem State.memOk.loadA {s : State} {core : Nat} {o : MatOp} {x : Operand} (hs : s.memOk) : (s.loadA core o x).memOk :=
  .matStep hs (fun _ ht => .updOp (.bump (.stage ht)))

theorem State.memOk.mmaRow {s : State} {core : Nat} {o : MatOp} {m : MmaOps} (hs : s.memOk) : (s.mmaRow core o m).memOk :=
  .matStep hs (fun _ ht => .updOp (.setCore (.bump (.stage ht))))

theorem State.memOk.startOp {s : State} {core : Nat} {o : MatOp} (hs : s.memOk) : (s.startOp core o).memOk := by
  unfold State.startOp
  split
  · exact .loadA hs
  · exact .updOp hs

theorem Out.memOk.execMatrixOpStart {core : Nat} {s : State} (hs : s.memOk) : Out.memOk (execMatrixOpStart core s) := by
  unfold Machine.execMatrixOpStart
  split
  · exact .next (.startOp hs)
  · exact .next hs

theorem Out.memOk.execMmaRow {core : Nat} {s : State} (hs : s.memOk) : Out.memOk (execMmaRow core s) := by
  unfold Machine.execMmaRow
  dsimp only
  split
  · exact .next (.ite (.endOp (.mmaRow hs)) (.mmaRow hs))
  · exact .next hs

theorem State.memOk.storeRow {s : State} {core : Nat} {o : MatOp} {a : DWord} {w : Nat} {vals : List Nat} (hs : s.memOk) :
    (s.storeRow core o a w vals).memOk :=
  .updOp (.peaks (.update (.fresh hs)))

theorem State.memOk.putTile {s : State} {core : Nat} {o : MatOp} {key : Nat} {vals : List (Nat × Nat)} (hs : s.memOk) :
    (s.putTile core o key vals).memOk :=
  .setCore hs

theorem State.memOk.tileStep {s : State} {core : Nat} {o : MatOp} (hs : s.memOk) : (s.tileStep core o).memOk :=
  .ite (.matStep hs (fun _ ht => .updOp (.putTile ht))) (.matStep hs (fun _ ht => .updOp (.storeRow ht)))

theorem State.memOk.tileRows {core id last : Nat} {due : State → MatOp → Bool} {stepOf : State → MatOp → State}
    (hstep : ∀ t o, t.memOk → (stepOf t o).memOk) {f : Nat} {s : State} (hs : s.memOk) : (State.tileRows core id last due stepOf f s).memOk := by
  induction f generalizing s with
  | zero => exact hs
  | succ f ih =>
    unfold State.tileRows
    split
    · exact hs
    · exact .ite hs (.ite (.endOp hs) (.ite (ih (hstep _ _ hs)) hs))

theorem State.memOk.doMrd {s : State} {core : Nat} {o : MatOp} (hs : s.memOk) : (s.doMrd core o).memOk := by
  refine .ite (.poll (.settle (.endOp ?_))) (.endOp ?_)
  · split
    · exact .giveResult (.bump hs)
    · exact .bump hs
  · split
    · exact .giveResult (.bump hs)
    · exact .bump hs

theorem State.memOk.doMwr {s : State} {core : Nat} {o : MatOp} (hs : s.memOk) : (s.doMwr core o).memOk :=
  .endOp (.bump (.putTile hs))

theorem State.memOk.doMzero {s : State} {core : Nat} {o : MatOp} (hs : s.memOk) : (s.doMzero core o).memOk :=
  .endOp (.bump (.putTile hs))

theorem State.memOk.removeOps {s : State} {core : Nat} {ops : List MatOp} (hs : s.memOk) : (s.removeOps core ops).memOk := by
  unfold State.removeOps
  refine .foldl (fun s o hs => ?_) (.setCore hs)
  dsimp only
  split
  · exact .setCluster hs
  · exact hs

theorem State.memOk.drainStep {s : State} {core : Nat} {o : MatOp} (hs : s.memOk) : (s.drainStep core o).memOk :=
  .matStep hs (fun _ ht => .updOp (.ite (.storeRow ht) (.ite ht (.removeOps (.foldl (fun _ _ hu => .storeRow hu) ht)))))

theorem State.memOk.tileRun {s : State} {core : Nat} {o : MatOp} (hs : s.memOk) : (s.tileRun core o).memOk := by
  unfold State.tileRun
  dsimp only
  split
  · exact .doMzero hs
  · exact .doMrd hs
  · exact .doMwr hs
  · exact .tileRows (fun _ _ ht => .drainStep ht) hs
  · exact .bump (.tileRows (fun _ _ ht => .tileStep ht) hs)

theorem Out.memOk.execTileOpComplete {core id : Nat} {s : State} (hs : s.memOk) : Out.memOk (execTileOpComplete core id s) := by
  unfold Machine.execTileOpComplete
  split
  · exact .next (.ite (.finishOps hs) (.tileRun hs))
  · exact .next hs

/-! ### What Machine/LinkEvents.lean defines -/

theorem State.memOk.leak {s : State} (hs : s.memOk) : s.leak.memOk :=
  .update hs

theorem Out.memOk.execLeakyBucketLeak {s : State} (hs : s.memOk) : Out.memOk (execLeakyBucketLeak s) :=
  .event hs (.leak hs)

theorem State.memOk.answerPiece {s : State} {id i : Nat} {a : Access} {p : Piece} {x : Answer} (hs : s.memOk) : (s.answerPiece id i a p x).memOk
    := by
  unfold State.answerPiece
  split
  · exact .refusePiece hs
  · exact .ite (.donePiece hs) (.donePiece hs)
  · split
    · exact .donePiece hs
    · exact .donePiece hs
    · exact .donePiece hs
    · exact .donePiece hs
    · exact .donePiece hs

theorem State.memOk.loseAll {s : State} {f : Access → Piece → Bool} (hs : s.memOk) : (s.loseAll f).memOk := by
  refine .foldl (fun _ _ ht => ?_) hs
  split
  · exact ht
  · split
    · exact .ite ht (.answerPiece ht)
    · exact ht

theorem State.memOk.answerHart {s : State} {k : HartOp} {r : HartReq} {x : Answer} (hs : s.memOk) : (s.answerHart k r x).memOk := by
  unfold State.answerHart
  split
  · exact .ite (.hartOk hs) (.hartGot hs)
  · exact .hartExc hs

theorem State.memOk.deliverFlit {s : State} {x : FlitLoad} (hs : s.memOk) : (s.deliverFlit x).memOk := by
  unfold State.deliverFlit
  split
  · exact hs
  · split
    · exact .answerPiece hs
    · exact hs
  · exact .answerHart hs

theorem State.memOk.replayed {s : State} {k : Nat} (hs : s.memOk) : (s.replayed k).memOk :=
  .setLink hs

theorem State.memOk.receiveFlit {s : State} {k lane seq : Nat} {c : FlitCheck} {f : FlitLoad} (hs : s.memOk) : (s.receiveFlit k lane seq c f).memOk
    := by
  refine .ite (.replayed ?_) (.ite (.deliverFlit (.setLink ?_)) ?_)
  · split
    · exact hs
    · exact .bucketEvent hs
    · exact .bucketEvent hs
  · split
    · exact hs
    · exact .bucketEvent hs
    · exact .bucketEvent hs
  · split
    · exact hs
    · exact .bucketEvent hs
    · exact .bucketEvent hs

theorem Out.memOk.execLinkFlitReceive {k lane seq : Nat} {c : FlitCheck} {f : FlitLoad} {s : State} (hs : s.memOk) : Out.memOk
    (execLinkFlitReceive k lane seq c f s) :=
  .event hs (.receiveFlit hs)

theorem State.memOk.loseCopies {s : State} {d : Nat} (hs : s.memOk) : (s.loseCopies d).memOk :=
  .foldl (fun _ _ ht => .ite ht (.update (.foldl (fun _ _ hu => .ite hu (.ite (.spoilSpad hu) (.copyWrite hu))) ht))) hs

theorem State.memOk.linkDown {s : State} {k : Nat} {rs : List Nat} (hs : s.memOk) : (s.linkDown k rs).memOk :=
  .ite (.setLink hs) (.ite (.setLink hs) (.foldl (fun _ _ ht => .endDomain ht) (.loseCopies (.loseAll (.setLink hs)))))

theorem State.memOk.retrain {s : State} {k : Nat} {rs : List Nat} (hs : s.memOk) : (s.retrain k rs).memOk :=
  .ite (.setLink hs) (.linkDown hs)

theorem Out.memOk.execLinkRetrain {k : Nat} {rs : List Nat} {s : State} (hs : s.memOk) : Out.memOk (execLinkRetrain k rs s) :=
  .event hs (.retrain hs)

theorem Out.memOk.execLinkRetrainDone {k : Nat} {ok : Bool} {rs : List Nat} {s : State} (hs : s.memOk) : Out.memOk (execLinkRetrainDone k ok rs s)
    :=
  .event hs (.ite (.setLink hs) (.linkDown hs))

theorem Out.memOk.execLinkTrained {k : Nat} {s : State} (hs : s.memOk) : Out.memOk (execLinkTrained k s) :=
  .event hs (.setLink hs)

theorem Out.memOk.execHeartbeatSend {s : State} (hs : s.memOk) : Out.memOk (execHeartbeatSend s) :=
  .event hs (.update hs)

theorem Out.memOk.execHeartbeatReceive {p pos : Nat} {s : State} (hs : s.memOk) : Out.memOk (execHeartbeatReceive p pos s) :=
  .event hs (.update hs)

theorem State.memOk.fenceOutbox {s : State} {p : Nat} (hs : s.memOk) : (s.fenceOutbox p).memOk :=
  .ite (.setOutbox hs) hs

theorem State.memOk.fencePeer {s : State} {k : Nat} (hs : s.memOk) : (s.fencePeer k).memOk :=
  .machineCheck (.fenceOutbox (.loseAll (.update hs)))

theorem Out.memOk.execHeartbeatTimeout {k : Nat} {s : State} (hs : s.memOk) : Out.memOk (execHeartbeatTimeout k s) :=
  .event hs (.fencePeer hs)

theorem State.memOk.reply {s : State} {port : Nat} {data : List Byte} {st : Nat} (hs : s.memOk) : (s.reply port data st).memOk :=
  .update hs

theorem State.memOk.peerRequest {s : State} {p : Nat} {k : HartOp} {pa n : Nat} {data : DWord} {op : Nat} {ty : BitVec 4} (hs : s.memOk) :
    (s.peerRequest p k pa n data op ty).memOk := by
  unfold State.peerRequest
  dsimp only
  split
  · exact .reply hs
  · refine .ite (.reply hs) (.ite (.reply (.deliverPsn (.needLine hs))) ?_)
    split
    · exact .reply (.needLine hs)
    · exact .reply (.race (.homeWrite (.needLine hs)))
    · exact .reply (.race (.homeWrite (.needLine hs)))

theorem Out.memOk.execPeerRequest {p : Nat} {k : HartOp} {pa n : Nat} {data : DWord} {op : Nat} {ty : BitVec 4} {s : State} (hs : s.memOk) :
    Out.memOk (execPeerRequest p k pa n data op ty s) :=
  .event hs (.sendFrom hs (fun _ ht => .peerRequest ht))

/-! ### What Machine/IoEvents.lean defines -/

theorem State.memOk.logAer {s : State} {port kind : Nat} (hs : s.memOk) : (s.logAer port kind).memOk :=
  .update hs

theorem State.memOk.completion {s : State} {port : Nat} {q : HomeReq} {k : HartOp} {data : Option DWord} {kind : Nat} (hs : s.memOk) :
    (s.completion port q k data kind).memOk := by
  unfold State.completion
  dsimp only
  split
  · split
    · exact hs
    · split
      · exact .answerPiece hs
      · exact .ite (.donePiece (.logAer hs)) (.answerPiece hs)
  · split
    · exact .answerHart hs
    · exact .ite (.hartGot (.logAer hs)) (.hartOk (.logAer hs))

theorem Out.memOk.execPcieCompletion {q : HomeReq} {k : HartOp} {data : Option DWord} {s : State} (hs : s.memOk) : Out.memOk
    (execPcieCompletion q k data s) := by
  unfold Machine.execPcieCompletion
  split
  · exact .event hs (.completion hs)
  · exact .next hs

theorem Out.memOk.execPcieCompletionTimeout {q : HomeReq} {k : HartOp} {s : State} (hs : s.memOk) : Out.memOk (execPcieCompletionTimeout q k s) :=
    by
  unfold Machine.execPcieCompletionTimeout
  split
  · exact .event hs (.completion hs)
  · exact .next hs

theorem State.memOk.dmaWrite {s : State} {pa : Nat} {bs : List Byte} (hs : s.memOk) : (s.dmaWrite pa bs).memOk :=
  .foldl (fun _ _ ht => .race (.homeWrite (.needLine ht))) hs

theorem State.memOk.msi {s t : State} {f : PcieFunction} {off : Nat} {x : Word} (hs : s.memOk) (ht : s.msi f off x = some t) : t.memOk := by
  unfold State.msi at ht
  split at ht
  · cases ht; exact .doorbell hs
  · dsimp only at ht; split_ifs at ht; cases ht; exact .pendId hs
  · cases ht

theorem State.memOk.dmaStore {s : State} {f : PcieFunction} {pa : Nat} {data : List Byte} (hs : s.memOk) : (s.dmaStore f pa data).memOk := by
  unfold State.dmaStore
  split
  · rename_i e
    split at e
    · split_ifs at e; exact .msi hs e
    · cases e
  · exact .ite (.logAer hs) (.sendAll hs fun _ hs => .dmaWrite hs)

theorem Out.memOk.execPcieInboundWrite {f : PcieFunction} {pa : Nat} {data : List Byte} {fault : Bool} {s : State} (hs : s.memOk) : Out.memOk
    (execPcieInboundWrite f pa data fault s) :=
  .event hs (.ite hs (.dmaStore hs))

theorem State.memOk.dmaRead {s : State} {port pa n : Nat} {fault : Bool} (hs : s.memOk) : (s.dmaRead port pa n fault).memOk :=
  .ite (.reply hs) (.ite (.reply (.logAer hs)) (.sendAll hs (fun _ ht => .reply (.foldl (fun _ _ hu => .deliverPsn hu) (.foldl (fun _ _ hu =>
    .needLine hu) ht)))))

theorem Out.memOk.execPcieInboundRead {port pa n : Nat} {fault : Bool} {s : State} (hs : s.memOk) : Out.memOk
    (execPcieInboundRead port pa n fault s) :=
  .event hs (.dmaRead hs)

theorem State.memOk.putWord {s : State} {pa x : Nat} (hs : s.memOk) : (s.putWord pa x).memOk :=
  .ite hs (.unitWrite hs)

theorem Out.memOk.execNvmeCompletion {q pa n : Nat} {s : State} (hs : s.memOk) : Out.memOk (execNvmeCompletion q pa n s) :=
  .event hs (.sendFrom hs (fun _ ht => .update (.putWord ht)))

theorem Out.memOk.execEthFrameReceive {port tuple hash pa : Nat} {data : List Byte} {cw : Nat} {s : State} (hs : s.memOk) : Out.memOk
    (execEthFrameReceive port tuple hash pa data cw s) :=
  .event hs (.ite hs (.sendAll hs (fun _ ht => .update (.putWord (.ite ht (.dmaWrite ht))))))

theorem Out.memOk.execAplicWiredSource {source : Nat} {level : Bool} {file id : Nat} {s : State} (hs : s.memOk) : Out.memOk
    (execAplicWiredSource source level file id s) :=
  .event hs (.pendId (.update hs))

theorem Out.memOk.execInFieldTest {cl w : Nat} {s : State} (hs : s.memOk) : Out.memOk (execInFieldTest cl w s) :=
  .event hs (.ite hs (.bucketEvent hs))

theorem State.memOk.ctxAccess {s : State} {c : Nat} {k : HartOp} {r : HartReq} (hs : s.memOk) : (s.ctxAccess c k r).memOk := by
  unfold State.ctxAccess
  dsimp only
  split
  · exact .winMiss hs
  · exact .hartExc (.winPoison (.dropX hs))
  · refine .sendFrom hs (fun _ ht => ?_)
    split
    · exact .ite (.hartExc (.ite (.needLine (.useTlbsIn (.dropX ht))) (.bump (.needLine (.useTlbsIn (.dropX ht)))))) (.hartGot (.ite (.needLine
        (.useTlbsIn (.dropX ht))) (.bump (.needLine (.useTlbsIn (.dropX ht))))))
    · exact .hartOk (.unstage (.unitWrite (.needLine (.useTlbsIn (.dropX ht)))))
    · exact .hartGot (.unstage (.unitWrite (.needLine (.useTlbsIn (.dropX ht)))))

theorem Out.memOk.execContextWindowAccess {c : Nat} {k : HartOp} {r : HartReq} {s : State} (hs : s.memOk) : Out.memOk
    (execContextWindowAccess c k r s) :=
  .event hs (.ctxAccess hs)

theorem State.memOk.uiSend {s : State} {r : Rec} {v : Service} {m : LaneMask} (hs : s.memOk) : (s.uiSend r v m).memOk :=
  .ite (.answerLanes (.uiTo hs)) (.answerLanes hs)

theorem Out.memOk.execUiSend {cl k : Nat} {l : Lane} {s : State} (hs : s.memOk) : Out.memOk (execUiSend cl k l s) :=
  .serve (fun _ _ _ _ ht => .uiSend ht) hs

/-! ### What Machine/Move.lean defines -/

theorem Out.memOk.execMov {f : Enc} {s : State} (hs : s.memOk) : Out.memOk (execMov f s) :=
  .issue (fun _ _ ht => .next (.result ht)) hs

theorem Out.memOk.execMovs {f : Enc} {s : State} (hs : s.memOk) : Out.memOk (execMovs f s) :=
  .issue (fun _ _ ht => .next (.result ht)) hs

theorem Out.memOk.execBcast {f : Enc} {s : State} (hs : s.memOk) : Out.memOk (execBcast f s) :=
  .issue (fun _ _ ht => .next (.result ht)) hs

theorem Out.memOk.voteOp {i : Instr} {f : Ctx → Word} {s : State} (hs : s.memOk) : Out.memOk (voteOp i f s) :=
  .issue (fun _ _ ht => .next (.result ht)) hs

theorem Out.memOk.execVoteMask {f : Enc} {s : State} (hs : s.memOk) : Out.memOk (execVoteMask f s) :=
  .voteOp hs

theorem Out.memOk.execVoteSome {f : Enc} {s : State} (hs : s.memOk) : Out.memOk (execVoteSome f s) :=
  .voteOp hs

theorem Out.memOk.execVoteEvery {f : Enc} {s : State} (hs : s.memOk) : Out.memOk (execVoteEvery f s) :=
  .voteOp hs

theorem Out.memOk.execVoteSame {f : Enc} {s : State} (hs : s.memOk) : Out.memOk (execVoteSame f s) :=
  .voteOp hs

theorem Out.memOk.execVoteCount {f : Enc} {s : State} (hs : s.memOk) : Out.memOk (execVoteCount f s) :=
  .voteOp hs

theorem Out.memOk.shflOp {i : Instr} {f : Int → Int → Int} {s : State} (hs : s.memOk) : Out.memOk (shflOp i f s) :=
  .issue (fun _ _ ht => .next (.result ht)) hs

theorem Out.memOk.execShflLane {f : Enc} {s : State} (hs : s.memOk) : Out.memOk (execShflLane f s) :=
  .shflOp hs

theorem Out.memOk.execShflBack {f : Enc} {s : State} (hs : s.memOk) : Out.memOk (execShflBack f s) :=
  .shflOp hs

theorem Out.memOk.execShflFwd {f : Enc} {s : State} (hs : s.memOk) : Out.memOk (execShflFwd f s) :=
  .shflOp hs

theorem Out.memOk.execShflMix {f : Enc} {s : State} (hs : s.memOk) : Out.memOk (execShflMix f s) :=
  .shflOp hs

theorem Out.memOk.execShflRot {f : Enc} {s : State} (hs : s.memOk) : Out.memOk (execShflRot f s) :=
  .shflOp hs

theorem Out.memOk.electOp {i : Instr} {f : LaneMask → Lane} {s : State} (hs : s.memOk) : Out.memOk (electOp i f s) :=
  .issue (fun _ _ ht => .next (.done (.updGroup ht))) hs

theorem Out.memOk.execElect {f : Enc} {s : State} (hs : s.memOk) : Out.memOk (execElect f s) :=
  .electOp hs

theorem Out.memOk.execElectHi {f : Enc} {s : State} (hs : s.memOk) : Out.memOk (execElectHi f s) :=
  .electOp hs

theorem Out.memOk.execMatchPeers {f : Enc} {s : State} (hs : s.memOk) : Out.memOk (execMatchPeers f s) :=
  .issue (fun _ _ ht => .next (.result ht)) hs

theorem Out.memOk.execMatchUniform {f : Enc} {s : State} (hs : s.memOk) : Out.memOk (execMatchUniform f s) :=
  .voteOp hs

/-! ### What Machine/PairEvents.lean defines -/

theorem State.memOk.scbCompare {s : State} {tm gidx id : Nat} {a : Access} {tid : Nat} {b : Access} (hs : s.memOk) :
    (s.scbCompare tm gidx id a tid b).memOk :=
  .ite (.performed hs) (.updTeam (.setCluster (.peaks hs)))

theorem Out.memOk.execPairScbCompare {tm gidx : Nat} {s : State} (hs : s.memOk) : Out.memOk (execPairScbCompare tm gidx s) := by
  unfold Machine.execPairScbCompare
  split
  · exact .next (.scbCompare hs)
  · exact .next (.updTeam hs)
  · exact .next hs

theorem State.memOk.giveEntry {s : State} {slot : Nat} {e : LvqEntry} {b : Block} (hs : s.memOk) : (s.giveEntry slot e b).memOk :=
  .unblock (.ite (.acquireInval (.updGroup hs)) (.updGroup hs))

theorem State.memOk.pairForward {s : State} {tm gidx ls ts : Nat} {e : LvqEntry} (hs : s.memOk) : (s.pairForward tm gidx ls ts e).memOk :=
  .dropEntry (.logResult (.giveEntry hs))

theorem State.memOk.sideCompare {s : State} {tm gidx ls ts : Nat} (hs : s.memOk) : (s.sideCompare tm gidx ls ts).memOk := by
  refine .ite (.updTeam hs) ?_
  split
  · exact .ite (.updTeam hs) (.updGroup (.updGroup hs))
  · exact .ite (.updTeam hs) (.updGroup hs)

theorem Out.memOk.execPairSideEffect {tm gidx : Nat} {s : State} (hs : s.memOk) : Out.memOk (execPairSideEffect tm gidx s) := by
  unfold Machine.execPairSideEffect
  split
  · exact .next hs
  · split
    · exact .next (.pairForward hs)
    · exact .event hs (.sideCompare hs)

theorem State.memOk.endCkpt {s : State} {slot : Nat} (hs : s.memOk) : (s.endCkpt slot).memOk :=
  .ite (.unblock (.updGroup (.updGroup hs))) (.updGroup hs)

theorem State.memOk.doCkpt {s : State} {tm tr : Nat} (hs : s.memOk) : (s.doCkpt tm tr).memOk :=
  .ite (.update (.putTeam (.foldl (fun _ _ ht => .endCkpt ht) (.foldl (fun _ _ ht => .endCkpt ht) (.updTeam hs))))) (.preTake (.updTeam
    (.discardTeam (.foldl (fun _ _ ht => .setGroup ht) (.update (.putTeam (.foldl (fun _ _ ht => .endCkpt ht) (.foldl (fun _ _ ht => .endCkpt ht)
    (.updTeam hs)))))))))

theorem Out.memOk.execTeamCheckpoint {tm : Nat} {s : State} (hs : s.memOk) : Out.memOk (execTeamCheckpoint tm s) := by
  refine .event hs ?_
  split
  · exact .doCkpt hs
  · exact hs

theorem State.memOk.wholeLog {s : State} {tm : Nat} (hs : s.memOk) : (s.wholeLog tm).memOk :=
  .foldl (fun _ _ ht => .foldl (fun _ _ hu => .ite (.logResult hu) (.updTeam hu)) ht) hs

theorem State.memOk.dropPairL1 {s : State} {as : List Access} (hs : s.memOk) : (s.dropPairL1 as).memOk :=
  .foldl (fun _ _ ht => .ite ht (.cleanOwn (.foldl (fun _ _ hu => .ite (.foldl (fun _ _ hv => .dropWord hv) hu) hu) ht))) hs

theorem State.memOk.stopPair {s : State} {tms : List Nat} (hs : s.memOk) : (s.stopPair tms).memOk :=
  .foldl (fun _ _ ht => .updGroup ht) (.dropPairL1 (.update (.foldl (fun _ _ ht => .ite (.dropWait ht) ht) hs)))

theorem State.memOk.restoreGroups {s : State} {tm tr gidx : Nat} {g : Group} (hs : s.memOk) : (s.restoreGroups tm tr gidx g).memOk :=
  .putCopyGroup (.fresh (.ite (.update (.setGroup (.update hs))) (.setGroup (.update hs))))

theorem State.memOk.giveTaskAgain {s : State} {tm tr gidx : Nat} {g : Group} (hs : s.memOk) : (s.giveTaskAgain tm tr gidx g).memOk := by
  refine .foldl (fun _ _ ht => ?_) hs
  split
  · split
    · exact .dropEntry (.giveEntry (.giveEntry ht))
    · exact ht
  · exact ht

theorem State.memOk.restorePair {s : State} {tm tr : Nat} (hs : s.memOk) : (s.restorePair tm tr).memOk :=
  .foldl (fun _ _ ht => .giveTaskAgain ht) (.layCopy (.layCopy (.foldl (fun _ _ ht => .restoreGroups ht) hs)))

theorem State.memOk.haltPair {s : State} {tm gidx : Nat} (hs : s.memOk) : (s.haltPair tm gidx).memOk :=
  .updGroup (.updTeam (.postFault hs))

theorem State.memOk.pairDeliver {s : State} {slot : Nat} (hs : s.memOk) : (s.pairDeliver slot).memOk :=
  .setGroup (.update hs)

theorem State.memOk.pairAnswered {s : State} {tm tr gidx : Nat} (hs : s.memOk) : (s.pairAnswered tm tr gidx).memOk :=
  .ite (.endDomain hs) (.ite (.pairDeliver (.pairDeliver (.updTeam (.restorePair hs)))) (.endDomain (.updTeam (.restorePair hs))))

theorem State.memOk.pairMismatch {s : State} {tm tr gidx : Nat} (hs : s.memOk) : (s.pairMismatch tm tr gidx).memOk :=
  .ite (.haltPair (.stopPair (.wholeLog (.bucketEvent (.setCluster hs))))) (.setCluster (.updTeam (.restorePair (.stopPair (.wholeLog (.bucketEvent
    (.setCluster hs)))))))

theorem Out.memOk.execPairMismatch {tm : Nat} {s : State} (hs : s.memOk) : Out.memOk (execPairMismatch tm s) := by
  refine .event hs ?_
  split
  · exact .ite (.pairAnswered hs) (.pairMismatch hs)
  · exact hs

theorem State.memOk.arrayError {s : State} {tm : Nat} (hs : s.memOk) : (s.arrayError tm).memOk :=
  .ite (.bucketEvent (.strike hs)) hs

theorem State.memOk.relaunchTeam {s : State} {tm f : Nat} (hs : s.memOk) : (s.relaunchTeam tm f).memOk :=
  .placeTeam (.bucketEvent (.discardTeam hs))

theorem Out.memOk.execContainedDiscard {tm : Nat} {s : State} (hs : s.memOk) : Out.memOk (execContainedDiscard tm s) := by
  refine .event hs ?_
  dsimp only
  split
  · exact .relaunchTeam hs
  · exact .endDomain hs

/-! ### What Machine/Dispatch.lean defines -/

theorem Out.memOk.exec {i : Instr} {s : State} (hs : s.memOk) : Out.memOk (exec i s) := by
  cases i with
  | nop => exact .execNop hs
  | bra => exact .execBra hs
  | bru => exact .execBru hs
  | brx => exact .execBrx hs
  | call => exact .execCall hs
  | callx => exact .execCallx hs
  | ret => exact .execRet hs
  | exit => exact .execExit hs
  | yield => exact .execYield hs
  | voteMask => exact .execVoteMask hs
  | voteSome => exact .execVoteSome hs
  | voteEvery => exact .execVoteEvery hs
  | voteSame => exact .execVoteSame hs
  | voteCount => exact .execVoteCount hs
  | shflLane => exact .execShflLane hs
  | shflBack => exact .execShflBack hs
  | shflFwd => exact .execShflFwd hs
  | shflMix => exact .execShflMix hs
  | shflRot => exact .execShflRot hs
  | elect => exact .execElect hs
  | electHi => exact .execElectHi hs
  | matchPeers => exact .execMatchPeers hs
  | matchUniform => exact .execMatchUniform hs
  | cvset => exact .execCvset hs
  | sign => exact .execSign hs
  | cvwait => exact .execCvwait hs
  | iadd => exact .execIadd hs
  | isub => exact .execIsub hs
  | iadd3 => exact .execIadd3 hs
  | imul => exact .execImul hs
  | imulh => exact .execImulh hs
  | imad => exact .execImad hs
  | imadWide => exact .execImadWide hs
  | lea => exact .execLea hs
  | imin => exact .execImin hs
  | imax => exact .execImax hs
  | iabsd => exact .execIabsd hs
  | and => exact .execAnd hs
  | or => exact .execOr hs
  | xor => exact .execXor hs
  | not => exact .execNot hs
  | shl => exact .execShl hs
  | shr => exact .execShr hs
  | sar => exact .execSar hs
  | rot => exact .execRot hs
  | popc => exact .execPopc hs
  | clz => exact .execClz hs
  | bfe => exact .execBfe hs
  | bfi => exact .execBfi hs
  | prmt => exact .execPrmt hs
  | isetp => exact .execIsetp hs
  | sel => exact .execSel hs
  | mov => exact .execMov hs
  | movs => exact .execMovs hs
  | bcast => exact .execBcast hs
  | srd => exact .execSrd hs
  | swr => exact .execSwr hs
  | fadd => exact .execFadd hs
  | fmul => exact .execFmul hs
  | ffma => exact .execFfma hs
  | fmin => exact .execFmin hs
  | fmax => exact .execFmax hs
  | fsetp => exact .execFsetp hs
  | fclass => exact .execFclass hs
  | frcp => exact .execFrcp hs
  | frsq => exact .execFrsq hs
  | fsqrt => exact .execFsqrt hs
  | fexp2 => exact .execFexp2 hs
  | flog2 => exact .execFlog2 hs
  | fsin => exact .execFsin hs
  | fcos => exact .execFcos hs
  | dadd => exact .execDadd hs
  | dmul => exact .execDmul hs
  | dfma => exact .execDfma hs
  | hadd2 => exact .execHadd2 hs
  | hmul2 => exact .execHmul2 hs
  | hfma2 => exact .execHfma2 hs
  | fcvt => exact .execFcvt hs
  | icvt => exact .execIcvt hs
  | qunpk => exact .execQunpk hs
  | f8pk => exact .execF8pk hs
  | pack => exact .execPack hs
  | ld => exact .execLd hs
  | st => exact .execSt hs
  | lds => exact .execLds hs
  | sts => exact .execSts hs
  | ldc => exact .execLdc hs
  | prefetch => exact .execPrefetch hs
  | cctl => exact .execCctl hs
  | atom => exact .execAtom hs
  | atomCas => exact .execAtomCas hs
  | atoms => exact .execAtoms hs
  | red => exact .execRed hs
  | atomf => exact .execAtomf hs
  | acp => exact .execAcp hs
  | acopy => exact .execAcopy hs
  | twaitany => exact .execTwaitany hs
  | twaitall => exact .execTwaitall hs
  | tffs => exact .execTffs hs
  | fissue => exact .execFissue hs
  | fwait => exact .execFwait hs
  | fence => exact .execFence hs
  | bar => exact .execBar hs
  | barG => exact .execBarG hs
  | barNamed => exact .execBarNamed hs
  | barrive => exact .execBarrive hs
  | barwait => exact .execBarwait hs
  | arrive => exact .execArrive hs
  | wait => exact .execWait hs
  | nsleep => exact .execNsleep hs
  | mma => exact .execMma hs
  | mzero => exact .execMzero hs
  | mld => exact .execMld hs
  | mst => exact .execMst hs
  | mrd => exact .execMrd hs
  | mwr => exact .execMwr hs
  | mcvt => exact .execMcvt hs
  | mofence => exact .execMofence hs
  | mwait => exact .execMwait hs
  | mdrain => exact .execMdrain hs
  | mfill => exact .execMfill hs
  | mresume => exact .execMresume hs
  | tspawn => exact .execTspawn hs
  | tarm => exact .execTarm hs
  | tdec => exact .execTdec hs
  | tdone => exact .execTdone hs
  | tlaunch => exact .execTlaunch hs
  | tget => exact .execTget hs
  | scall => exact .execScall hs
  | trap => exact .execTrap hs
  | bkpt => exact .execBkpt hs
  | uiret => exact .execUiret hs
  | uimask => exact .execUimask hs
  | npbegin => exact .execNpbegin hs
  | npend => exact .execNpend hs
  | grow => exact .execGrow hs
  | carve => exact .execCarve hs
  | ckpt => exact .execCkpt hs
  | tstampr => exact .execTstampr hs
  | gsave => exact .execGsave hs
  | grest => exact .execGrest hs
  | zmsgLaunch h shard pa => exact .execZmsgLaunch (pa := pa) hs
  | registerWrite => exact .execRegisterWrite hs
  | homeRead => exact .execHomeRead hs
  | homeWrite => exact .execHomeWrite hs
  | homeAtomic => exact .execHomeAtomic hs
  | ringStallRelease => exact .execRingStallRelease hs
  | homeLineFill => exact .execHomeLineFill hs
  | leakyBucketLeak => exact .execLeakyBucketLeak hs
  | loadResponse => exact .execLoadResponse hs
  | scratchpadArbitration => exact .execScratchpadArbitration hs
  | fwinDropComplete => exact .execFwinDropComplete hs
  | waitCheck => exact .execWaitCheck hs
  | wakeArrival => exact .execWakeArrival hs
  | monitorTimeout => exact .execMonitorTimeout hs
  | waitWithdraw => exact .execWaitWithdraw hs
  | nsleepExpiry => exact .execNsleepExpiry hs
  | clockGate => exact .execClockGate hs
  | serviceArmCheck => exact .execServiceArmCheck hs
  | missMergeAdmit => exact .execMissMergeAdmit hs
  | walkStep => exact .execWalkStep hs
  | firstTouchCasResult => exact .execFirstTouchCasResult hs
  | shadowAdd => exact .execShadowAdd hs
  | shootdownComplete => exact .execShootdownComplete hs
  | faultQueueAdmit => exact .execFaultQueueAdmit hs
  | fltackRetry => exact .execFltackRetry hs
  | fltackDeliver => exact .execFltackDeliver hs
  | memcapLowerSettle => exact .execMemcapLowerSettle hs
  | mphaseGo => exact .execMphaseGo hs
  | migrationEnterDone => exact .execMigrationEnterDone hs
  | migrateGranule => exact .execMigrateGranule hs
  | granuleDrained => exact .execGranuleDrained hs
  | granuleHandover => exact .execGranuleHandover hs
  | migrationIdleExpiry => exact .execMigrationIdleExpiry hs
  | migrationCloseDone => exact .execMigrationCloseDone hs
  | movedReplay => exact .execMovedReplay hs
  | issueSelect => exact .execIssueSelect hs
  | runEnd => exact .execRunEnd hs
  | runmaxMarker => exact .execRunmaxMarker hs
  | resultsDrained => exact .execResultsDrained hs
  | saveRoutineStart => exact .execSaveRoutineStart hs
  | teamPlace => exact .execTeamPlace hs
  | launchReserve => exact .execLaunchReserve hs
  | teamRetire => exact .execTeamRetire hs
  | taskServerRequest => exact .execTaskServerRequest hs
  | nopreemptOverrun => exact .execNopreemptOverrun hs
  | growGrant => exact .execGrowGrant hs
  | growTimeout => exact .execGrowTimeout hs
  | cvTimeout => exact .execCvTimeout hs
  | copyPiece => exact .execCopyPiece hs
  | copyComplete => exact .execCopyComplete hs
  | atomfForward => exact .execAtomfForward hs
  | fenceTokenComplete => exact .execFenceTokenComplete hs
  | matrixOpStart => exact .execMatrixOpStart hs
  | mmaRow => exact .execMmaRow hs
  | tileOpComplete => exact .execTileOpComplete hs
  | counterArm => exact .execCounterArm hs
  | counterDecrement => exact .execCounterDecrement hs
  | launchPortLaunch => exact .execLaunchPortLaunch hs
  | preqWrite => exact .execPreqWrite hs
  | callSlotAssign => exact .execCallSlotAssign hs
  | callReplyResume => exact .execCallReplyResume hs
  | memAlloc => exact .execMemAlloc hs
  | memInfo => exact .execMemInfo hs
  | mailboxSend => exact .execMailboxSend hs
  | mailboxReceive => exact .execMailboxReceive hs
  | pairScbCompare => exact .execPairScbCompare hs
  | pairSideEffect => exact .execPairSideEffect hs
  | teamCheckpoint => exact .execTeamCheckpoint hs
  | pairMismatch => exact .execPairMismatch hs
  | pairinjArm => exact .execPairinjArm hs
  | containedDiscard => exact .execContainedDiscard hs
  | heartbeatSend => exact .execHeartbeatSend hs
  | heartbeatTimeout => exact .execHeartbeatTimeout hs
  | doorbellDeliver => exact .execDoorbellDeliver hs
  | regionTimerFire => exact .execRegionTimerFire hs
  | domainResetComplete => exact .execDomainResetComplete hs
  | packageReset => exact .execPackageReset
  | hbmTrainingComplete => exact .execHbmTrainingComplete hs
  | bootstatStageWrite => exact .execBootstatStageWrite hs
  | bootstatOkWrite => exact .execBootstatOkWrite hs
  | measure => exact .execMeasure hs
  | attest => exact .execAttest hs
  | ccbootRun => exact .execCcbootRun hs
  | zmsgMsgSend => exact .execZmsgMsgSend hs
  | parityRowRecompute => exact .execParityRowRecompute hs
  | fwinEnable => exact .execFwinEnable hs
  | fwinDisable => exact .execFwinDisable hs
  | peerRequest => exact .execPeerRequest hs
  | grptrHeadWrite => exact .execGrptrHeadWrite hs
  | glcmdWake => exact .execGlcmdWake hs
  | glcmdTimeout => exact .execGlcmdTimeout hs
  | glcmdRestart => exact .execGlcmdRestart hs
  | monarmArm => exact .execMonarmArm hs
  | monarmDisarm => exact .execMonarmDisarm hs
  | tlbinvAll => exact .execTlbinvAll hs
  | tlbinvAsid => exact .execTlbinvAsid hs
  | tlbinvPage => exact .execTlbinvPage hs
  | fltackEndDomain => exact .execFltackEndDomain hs
  | fqptrHeadWrite => exact .execFqptrHeadWrite hs
  | memcapRaise => exact .execMemcapRaise hs
  | memcapLower => exact .execMemcapLower hs
  | stackmapRetireWrite => exact .execStackmapRetireWrite hs
  | migwordWrite => exact .execMigwordWrite hs
  | stackDead => exact .execStackDead hs
  | launchPortRestore => exact .execLaunchPortRestore hs
  | uisendWrite => exact .execUisendWrite hs
  | mchkRead => exact .execMchkRead hs
  | contextWindowAccess => exact .execContextWindowAccess hs
  | callPageAccess => exact .execCallPageAccess hs
  | callStatus => exact .execCallStatus hs
  | memFree => exact .execMemFree hs
  | memProtect => exact .execMemProtect hs
  | fileRead => exact .execFileRead hs
  | fileWrite => exact .execFileWrite hs
  | fileSync => exact .execFileSync hs
  | udpSend => exact .execUdpSend hs
  | udpRecv => exact .execUdpRecv hs
  | rdgSend => exact .execRdgSend hs
  | rdgRecv => exact .execRdgRecv hs
  | ctrlNotify => exact .execCtrlNotify hs
  | uiSend => exact .execUiSend hs
  | handleInfo => exact .execHandleInfo hs
  | svcqResume => exact .execSvcqResume hs
  | shardRestart => exact .execShardRestart hs
  | linkFlitReceive => exact .execLinkFlitReceive hs
  | linkRetrain => exact .execLinkRetrain hs
  | linkRetrainDone => exact .execLinkRetrainDone hs
  | heartbeatReceive => exact .execHeartbeatReceive hs
  | peerwinFencedClear => exact .execPeerwinFencedClear hs
  | msiDoorbell => exact .execMsiDoorbell hs
  | pcieCompletion => exact .execPcieCompletion hs
  | pcieCompletionTimeout => exact .execPcieCompletionTimeout hs
  | pcieInboundWrite => exact .execPcieInboundWrite hs
  | pcieInboundRead => exact .execPcieInboundRead hs
  | nvmeCompletion => exact .execNvmeCompletion hs
  | ethFrameReceive => exact .execEthFrameReceive hs
  | pmsgSend => exact .execPmsgSend hs
  | peerMessageReceive => exact .execPeerMessageReceive hs
  | pmsgAck => exact .execPmsgAck hs
  | tmrsyncLoad => exact .execTmrsyncLoad hs
  | domainReset => exact .execDomainReset hs
  | throttleStep => exact .execThrottleStep hs
  | thermalShutdown => exact .execThermalShutdown hs
  | clpwrWrite => exact .execClpwrWrite hs
  | linkTrained => exact .execLinkTrained hs
  | aplicWiredSource => exact .execAplicWiredSource hs
  | inFieldTest => exact .execInFieldTest hs

/-! ### What Machine/Schedule.lean defines -/

theorem State.memOk.nextAction {run : Instr → State → Out} {s : State} (hs : s.memOk) : (State.nextAction run s).2.memOk := by
  unfold State.nextAction
  split
  · exact .update hs
  · split
    · exact hs
    · split
      · exact .update hs
      · split
        · exact .update hs
        · exact hs

theorem State.memOk.tick {s : State} {cycles ns : Nat} (hs : s.memOk) : (s.tick cycles ns).memOk :=
  .update (.dispatchAll hs)

/-! ### What Machine/Step.lean defines -/

theorem Out.memOk.issueSlot {slot : Nat} {s : State} (hs : s.memOk) : Out.memOk (issueSlot slot s) := by
  unfold Machine.issueSlot
  split
  · split
    · rename_i e
      have ht := hs.fetch e
      exact .exec ht
    · rename_i e
      have ht := hs.fetch e
      exact .next ht
  · exact .next hs

theorem Out.memOk.act {a : Action} {s : State} (hs : s.memOk) : Out.memOk (act a s) := by
  unfold Machine.act
  split
  · exact .ite (.next hs) (.exec hs)
  · exact .issueSlot hs
  · exact .next (.tick hs)
  · exact .next (.evictHome hs)
  · exact .next (.evictL1 hs)
  · exact .next (.l1Parity hs)
  · exact .next (.arrayError hs)

theorem Out.memOk.step {s : State} (hs : s.memOk) : Out.memOk (step s) :=
  .ite .fault (.act (.nextAction hs))

/-- Settles O7: an outcome of a step keeps the form, because each action that the agenda may name does. -/
theorem stepKeepsMemoryForm : Obligations.StepKeepsMemoryForm := by
  intro s t hs e
  have h : Out.memOk (step s) := .step hs
  rw [e] at h
  exact h.state

end Sys2Proof.Machine
end

section
/-! A write at its home (R57, R95): where nothing waits on the home and its ring takes no records, what follows the write is that service arms fire (R116), and
these touch neither memory nor groups. -/

namespace Sys2Proof.Machine

open Sys2Proof

/-! ### The bytes of a value -/

theorem valueBytes_succ (x n : Nat) : valueBytes x (n + 1) = valueBytes x n ++ [(n, BitVec.ofNat 8 (x / 256 ^ n))] := by
  simp [valueBytes, List.range_succ]

theorem Memory.putAll_valueBytes_succ (m : Memory) (a x n : Nat) :
    m.putAll a (valueBytes x (n + 1)) = (m.putAll a (valueBytes x n)).put (a + n) (BitVec.ofNat 8 (x / 256 ^ n)) := by
  simp [Memory.putAll, valueBytes_succ]

theorem Memory.byte_putAll_valueBytes_inside (m : Memory) (a x n k : Nat) (h : k < n) :
    (m.putAll a (valueBytes x n)).byte (a + k) = BitVec.ofNat 8 (x / 256 ^ k) := by
  induction n with
  | zero => omega
  | succ n ih =>
    rw [Memory.putAll_valueBytes_succ]
    by_cases hk : k = n
    · rw [hk, Memory.byte_put_same]
    · rw [Memory.byte_put_ne _ _ _ _ (by omega), ih (by omega)]

theorem Memory.byte_putAll_valueBytes_outside (m : Memory) (a x n b : Nat) (h : b < a ∨ a + n ≤ b) :
    (m.putAll a (valueBytes x n)).byte b = m.byte b := by
  refine Memory.byte_putAll_outside _ _ _ _ fun c hc => ?_
  obtain ⟨k, hk, rfl⟩ := List.mem_map.1 hc
  have := List.mem_range.1 hk
  show b ≠ a + k
  omega

theorem Memory.read_putAll_valueBytes (m : Memory) (a x n : Nat) : (m.putAll a (valueBytes x n)).read a n = x % 256 ^ n := by
  rw [← Memory.read_write_same n m a x]
  refine Memory.read_congr n _ _ a fun i hi => ?_
  rw [Memory.byte_putAll_valueBytes_inside _ _ _ _ _ hi, Memory.byte_write_inside _ _ _ _ _ hi]

/-! ### What firing arms leave -/

/-- Nothing waits on a slice, and no spilled wait is linked to it. -/
def State.quiet (s : State) (home : Nat) : Prop := (s.slice home).mon = [] ∧ (s.slice home).sphead = []

/-- Two states that differ in the arms of slices and in what service cores have been told alone. -/
structure State.ArmsOf (s t : State) : Prop where
  rest : t = { s with slices := t.slices, svc := t.svc }
  quiet : ∀ h, s.quiet h → t.quiet h

theorem State.ArmsOf.refl (s : State) : s.ArmsOf s := ⟨rfl, fun _ => id⟩

theorem State.ArmsOf.trans {s t u : State} (h : s.ArmsOf t) (h' : t.ArmsOf u) : s.ArmsOf u := by
  refine ⟨?_, fun k hk => h'.quiet k (h.quiet k hk)⟩
  rw [h'.rest, h.rest]

theorem State.ArmsOf.foldl {α : Type} {f : State → α → State} (l : List α) {s : State} (hf : ∀ t x, s.ArmsOf t → x ∈ l → t.ArmsOf (f t x)) :
    s.ArmsOf (l.foldl f s) :=
  List.foldlRecOn (motive := s.ArmsOf) l f (.refl s) fun t ht x hx => ht.trans (hf t x ht hx)

theorem State.quiet_fireArm {s : State} {home k st : Nat} {e : SvcEntry} {v : DWord} (h : s.quiet k) : (s.fireArm home e st v).quiet k := by
  by_cases hk : k = home
  · subst hk
    simpa [State.quiet, State.fireArm, State.setMonstat, State.setSvc, State.setSlice, State.slice] using h
  · simpa [State.quiet, State.fireArm, State.setMonstat, State.setSvc, State.setSlice, State.slice, SMap.get_set_ne _ _ _ _ _ hk] using h

theorem State.armsOf_fireArm (s : State) (home st : Nat) (e : SvcEntry) (v : DWord) : s.ArmsOf (s.fireArm home e st v) :=
  ⟨rfl, fun _ => State.quiet_fireArm⟩

/-- R102: no record is due for a doubleword of a slice to which nothing is linked. -/
theorem State.bucketUsed_of_quiet {s : State} {home : Nat} (h : s.quiet home) (d : Nat) : s.bucketUsed home d = false := by
  simp [State.bucketUsed, h.2, SMap.get_nil]

theorem State.foldl_records_of_quiet {s : State} {home : Nat} (h : s.quiet home) (ds : List Nat) :
    ds.foldl (fun s d => if s.bucketUsed home d then s.writeRec home d false else s) s = s := by
  induction ds with
  | nil => rfl
  | cons d ds ih => rw [List.foldl_cons, State.bucketUsed_of_quiet h, if_neg Bool.false_ne_true, ih]

/-- AFTER_WRITE at a quiet home (R95). -/
theorem State.armsOf_afterWrite {s : State} {home : Nat} (h : s.quiet home) (pa n : Nat) : s.ArmsOf (s.afterWrite home pa n) := by
  simp only [State.afterWrite, State.afterWriteFor, h.1, List.filter_nil, List.flatMap_nil, List.eraseDups_nil, List.foldl_nil,
    State.foldl_records_of_quiet h]
  exact .foldl _ fun t e _ _ => t.armsOf_fireArm home 0 e _

theorem State.armsOf_afterWrites {s : State} {l : List Nat} (hl : ∀ h ∈ l, s.quiet h) (pa n : Nat) :
    s.ArmsOf (l.foldl (fun s h => s.afterWrite h pa n) s) :=
  .foldl _ fun _ h ht hh => State.armsOf_afterWrite (ht.quiet h (hl h hh)) pa n

/-! ### The write -/

/-- A state with bytes written, and their line as a write of a device leaves it. -/
def State.written (s : State) (pa : Nat) (bs : SMap Byte) : State :=
  { s with mem := Memory.putAll s.mem pa bs }.setLine pa { s.line pa with dirty := true, hub := false, svcv := false, svcm := false }

/-- A write of a device to a line without decode information (R51, R57). -/
theorem State.armsOf_homeWrite {s : State} {home pa : Nat} {bs : SMap Byte} (h : s.quiet home) (hl : (s.line pa).dec = false) (hb : bs ≠ []) :
    (s.written pa bs).ArmsOf (s.homeWrite home pa bs false none) := by
  have hd : (State.line { s with mem := Memory.putAll s.mem pa bs } pa).dec = false := hl
  unfold State.homeWrite
  rw [if_neg (by simpa using hb)]
  simp only [Bool.not_false, Bool.and_true, Bool.and_false]
  rw [if_neg (by rw [hd]; exact Bool.false_ne_true)]
  have hw : (s.written pa bs).quiet home := h
  exact State.armsOf_afterWrite hw _ _

theorem State.armsOf_homeStore {s : State} {pa x n : Nat} (h : ∀ k, k = s.homeNow pa ∨ k ∈ s.homesOf pa → s.quiet k) (hl : (s.line pa).dec = false)
    (hn : 0 < n) : (s.written pa (valueBytes x n)).ArmsOf (s.homeStore pa x n) := by
  have hb : valueBytes x n ≠ [] := by simp [valueBytes]; omega
  have hw := State.armsOf_homeWrite (h _ (.inl rfl)) hl hb
  exact hw.trans (State.armsOf_afterWrites (fun k hk => hw.quiet k (h k (.inr (List.mem_filter.1 hk).1))) pa n)

/-- A store of no bytes. -/
theorem State.armsOf_homeStore_zero {s : State} {pa x : Nat} (h : ∀ k, k = s.homeNow pa ∨ k ∈ s.homesOf pa → s.quiet k) :
    s.ArmsOf (s.homeStore pa x 0) :=
  State.armsOf_afterWrites (fun k hk => h k (.inr (List.mem_filter.1 hk).1)) pa 0

/-- What a store leaves, but for the arms that fire: its bytes, and a dirty line. -/
theorem State.homeStore_armsOf {s : State} {pa x n : Nat} (h : ∀ k, k = s.homeNow pa ∨ k ∈ s.homesOf pa → s.quiet k) (hl : (s.line pa).dec = false) :
    ∃ u : State, u.ArmsOf (s.homeStore pa x n) ∧ u.mem = Memory.putAll s.mem pa (valueBytes x n) ∧
      (u.groups = s.groups ∧ u.parts = s.parts ∧ u.teams = s.teams ∧ u.accs = s.accs) ∧ (0 < n → (u.line pa).dirty = true) := by
  rcases Nat.eq_zero_or_pos n with rfl | hn
  · exact ⟨s, State.armsOf_homeStore_zero h, rfl, ⟨rfl, rfl, rfl, rfl⟩, fun h => absurd h (lt_irrefl 0)⟩
  · exact ⟨_, State.armsOf_homeStore h hl hn, rfl, ⟨rfl, rfl, rfl, rfl⟩, fun _ => by simp [State.written, State.setLine, State.line]⟩

/-- Settles O8: the written state and what follows it differ in fired arms alone. -/
theorem homeWritesAreRead : Obligations.HomeWritesAreRead := by
  intro s pa x n h hl
  obtain ⟨u, hu, hm, ⟨hg, hp, ht, ha⟩, hline⟩ := State.homeStore_armsOf (x := x) (n := n) h hl
  intro t
  have hrest : t = { u with slices := t.slices, svc := t.svc } := hu.rest
  have htm : t.mem = Memory.putAll s.mem pa (valueBytes x n) := by rw [hrest]; exact hm
  refine ⟨fun k hk => ?_, fun a ha => ?_, fun h8 => ?_, fun h4 => ?_, ?_⟩
  · rw [htm, Memory.byte_putAll_valueBytes_inside _ _ _ _ _ hk]
  · rw [htm, Memory.byte_putAll_valueBytes_outside _ _ _ _ _ ha]
  · subst h8
    rw [State.dword, Memory.dword, htm, Memory.read_putAll_valueBytes]
    exact BitVec.eq_of_toNat_eq (by simp)
  · subst h4
    rw [State.word, htm, Memory.read_putAll_valueBytes]
    exact BitVec.eq_of_toNat_eq (by simp)
  · rw [hrest]
    exact ⟨hg, hp, ht, ha, hline⟩

end Sys2Proof.Machine
end

section
/-! Package reset (R4, R373): no map holds anything, so every unit is read at its default, and a register has the value of its table. -/

namespace Sys2Proof.Machine

open Sys2Proof

/-! ### Units that reset leaves at their defaults -/

@[simp] theorem State.group_reset (k : Nat) : State.reset.group k = {} := rfl
@[simp] theorem State.line_reset (pa : Nat) : State.reset.line pa = {} := rfl
@[simp] theorem State.slice_reset (k : Nat) : State.reset.slice k = { gcore := k % 32 / 2 } := rfl
@[simp] theorem State.die_reset (d : Nat) : State.reset.die d = {} := rfl
@[simp] theorem State.bucket_reset (o : Nat) : State.reset.bucket o = {} := rfl
@[simp] theorem State.fwin_reset (n : Nat) : State.reset.fwin n = {} := rfl
@[simp] theorem State.peerwin_reset (k : Nat) : State.reset.peerwin k = {} := rfl
@[simp] theorem State.dom_reset (d : Nat) : State.reset.dom d = { en := decide (d = 0) } := rfl
@[simp] theorem State.thermOf_reset (d : Nat) : State.reset.mgmt.thermOf d = {} := rfl
@[simp] theorem State.hart_reset (h : Nat) : State.reset.hart h = {} := rfl
@[simp] theorem State.svcCore_reset (c : Nat) : State.reset.svcCore c = {} := rfl

/-! ### Registers of such units -/

/-- A format window is disabled, with no bounds (02 Table 8). -/
theorem Fwin.reg_default (k : Nat) : Fwin.reg {} k = 0 := by
  unfold Fwin.reg
  split
  · rfl
  · exact Nat.zero_mul _
  · exact Nat.zero_mul _
  · rfl

theorem PeerWin.reg_default : PeerWin.reg {} = 0 := rfl

theorem Slice.monReg_zero_default (g : Nat) : Slice.monReg { gcore := g } 0 = g * 256 := by
  simp [Slice.monReg, Slice.moncfg, b2n, Slice.ringFull, Slice.ringUsed, Slice.ringSize]

/-- Beyond MONCFG and MONLIM every counter, ring register and spill head is 0 (04 Table 5). -/
theorem Slice.monReg_default (g k : Nat) (h : 2 ≤ k) : Slice.monReg { gcore := g } k = 0 := by
  match k, h with
  | 2, _ => simp [Slice.monReg]
  | 3, _ => simp [Slice.monReg, sat16]
  | 4, _ => simp [Slice.monReg]
  | 5, _ => simp [Slice.monReg]
  | 6, _ => rfl
  | _ + 7, _ => exact ite_self 0

theorem Die.siloReg_zero_default : Die.siloReg {} 0 = 0x04000000 := by decide

theorem Bucket.reg_default : Bucket.reg {} = 0x4000040000100000 := by decide

/-- Only domain 0 is enabled (17 Table 6). -/
theorem Dom.reg_zero_default (e : Bool) : Dom.reg { en := e } 0 = b2n e 63 := rfl

theorem Therm.reg_default : Therm.reg {} = 0x73690000 := by decide

/-- Settles O6: each unit at reset is its default, and each register is computed from it. -/
theorem resetValues : Obligations.ResetValues := by
  refine ⟨?groups, ?lines, rfl, rfl, rfl, rfl, rfl, rfl, rfl, rfl, rfl, rfl, ?fwins, ?peerwins, ?moncfg, ?mon, ?silo, ?bucket, by decide, ?domOff, ?domWeight,
    by decide, ?therm, ?harts, ?cores, rfl⟩
  case groups => intro k; rw [State.group_reset]
  case lines => intro a; rw [State.line_reset]
  case fwins => intro n k; simp only [State.readReg, State.fwin_reset, Fwin.reg_default]; rfl
  case peerwins => intro k; simp only [State.readReg, State.peerwin_reset, PeerWin.reg_default]; rfl
  case moncfg => intro j _; simp only [State.readReg, State.slice_reset, Slice.monReg_zero_default]; exact ⟨trivial, rfl⟩
  case mon => intro j k hk _; simp only [State.readReg, State.slice_reset, Slice.monReg_default _ k hk]; rfl
  case silo => intro d; simp only [State.readReg, State.die_reset, Die.siloReg_zero_default]; rfl
  case bucket => intro o; simp only [State.readReg, State.bucket_reset, Bucket.reg_default]; rfl
  case domOff => intro d hd; simp only [State.readReg, State.dom_reset, Dom.reg_zero_default, Nat.ne_of_gt hd]; rfl
  case domWeight => intro d; rfl
  case therm => intro d; simp only [State.readReg, State.thermOf_reset, Therm.reg_default]; rfl
  case harts => intro h; rw [State.hart_reset]
  case cores => intro c; rw [State.svcCore_reset]

end Sys2Proof.Machine
end

section
/-! Registers that harts reach (R7, R28, R344): a write that is accepted is that of the addressed register, a refused access is an exception, and a read of a
CSR leaves everything but its hart alone. -/

namespace Sys2Proof.Machine

open Sys2Proof

/-! ### What a hart gets of its access -/

@[simp] theorem State.svcCore_setSvc (s : State) (c : Nat) (x : SvcCore) : (s.setSvc c x).svcCore c = x := SMap.get_set_same _ _ _ _

@[simp] theorem State.hart_setHart (s : State) (h : Nat) (x : Hart) : (s.setHart h x).hart h = x := SMap.get_set_same _ _ _ _

@[simp] theorem State.svcCore_hartOk (s : State) (c : Nat) (m : Mode) : (s.hartOk (.service c m)).svcCore c = { s.svcCore c with exc := (0, 0) } :=
  State.svcCore_setSvc _ _ _

@[simp] theorem State.svcCore_hartGot (s : State) (c : Nat) (m : Mode) (v : DWord) :
    (s.hartGot (.service c m) v).svcCore c = { s.svcCore c with got := v, exc := (0, 0) } :=
  State.svcCore_setSvc _ _ _

theorem State.hart_hartOk_service (s : State) (c h : Nat) (m : Mode) : (s.hartOk (.service c m)).hart h = s.hart h := rfl

theorem State.hub_hartOk (s : State) (a : Agent) : (s.hartOk a).hub = s.hub := by cases a <;> rfl

/-- Completing a store changes of the hub at most the list of harts that wait for a lower MEMCAP (R139). -/
theorem State.hub_hartStored (s t : State) (a : Agent) : ∃ l, (s.hartStored t a).hub = { t.hub with capHarts := l } := by
  unfold State.hartStored
  split
  · exact ⟨_, rfl⟩
  · exact ⟨t.hub.capHarts, State.hub_hartOk t a⟩

/-- A store that does not lower MEMCAP completes at once. -/
theorem State.hartStored_of_le {s t : State} (a : Agent) (h : s.hub.memcap ≤ t.hub.memcap) : s.hartStored t a = t.hartOk a := if_neg (Nat.not_lt.2 h)

theorem exists_service {c : Nat} (m : Mode) (hc : c < 128) : (Agent.service c m).exists_ = true := decide_eq_true hc

/-! ### The rows of register writes -/

/-- The event of a write's own row performs it. -/
theorem writeEvent_of_row {w : WriteRow} {a : Agent} {r : RegAddr} {v : DWord} {s : State} (ha : a.exists_ = true) (h : s.writeRow a r v = some w) :
    writeEvent w a r v s = .next (s.hartWrite a r v) := by
  simp [writeEvent, event, ha, h]

/-! ### Writes of custom CSRs -/

/-- The CSRs of 15 Table 2 are none of those that RISC-V numbers. -/
theorem csrPlain_custom (c n : Nat) (m : Mode) (h : 0x5C0 ≤ n) : csrPlain (.service c m) n = false := by
  simp [csrPlain, csrSie, csrStimecmp, csrSatp]
  omega

theorem State.hartWrite_csr_user (s : State) (c n : Nat) (v : DWord) (h : 0x5C0 ≤ n) :
    s.hartWrite (.service c .user) (.csr n) v = s.hartExc (.service c .user) 2 0 := by
  simp [State.hartWrite, csrPlain_custom c n .user h, illegalInstr]

theorem State.hartWrite_csr_refused {s : State} {c n : Nat} {m : Mode} {v : DWord} (h : 0x5C0 ≤ n) (hw : s.csrWrite c n v = none) :
    s.hartWrite (.service c m) (.csr n) v = s.hartExc (.service c m) 2 0 := by
  simp [State.hartWrite, csrPlain_custom c n m h, hw, illegalInstr]

theorem State.hartWrite_csr_written {s t : State} {c n : Nat} {m : Mode} {v : DWord} (hm : m ≠ .user) (h : 0x5C0 ≤ n) (hw : s.csrWrite c n v = some t) :
    s.hartWrite (.service c m) (.csr n) v = t.hartOk (.service c m) := by
  simp [State.hartWrite, csrPlain_custom c n m h, hw, hm]

theorem State.svcCore_hartWrite_csr {s : State} {c n : Nat} {m : Mode} {v : DWord} {x : SvcCore} (hm : m ≠ .user) (h : 0x5C0 ≤ n)
    (hw : s.csrWrite c n v = some (s.setSvc c x)) : (s.hartWrite (.service c m) (.csr n) v).svcCore c = { x with exc := (0, 0) } := by
  rw [State.hartWrite_csr_written hm h hw, State.svcCore_hartOk, State.svcCore_setSvc]

/-- FLTACK refuses action 3 and a record that is not unanswered (R136). -/
theorem State.csrWrite_fltack_refused {s : State} {c : Nat} {v : DWord} (h : bits v 7 6 = 3 ∨ (s.cluster c).unanswered (bits v 5 0) = false) :
    s.csrWrite c 0x5D5 v = none := by
  rcases h with h | h <;> simp [State.csrWrite, csrKnown, csrRo, State.writeFltack, h]

/-- TLBINV refuses operation 3 (R131). -/
theorem State.csrWrite_tlbinv_refused {s : State} {c : Nat} {v : DWord} (h : bits v 63 62 = 3) : s.csrWrite c 0x5D0 v = none := by
  simp [State.csrWrite, csrKnown, csrRo, State.writeTlbinv, h]

/-! ### Writes of hub registers -/

theorem merge_ones (old v : DWord) : merge old v (~~~ 0) = v := by
  unfold merge
  rw [BitVec.not_not, BitVec.ofNat_eq_ofNat, BitVec.and_zero, BitVec.zero_or, BitVec.not_zero, BitVec.and_allOnes]

theorem mbits_ones (old v : DWord) (hi lo : Nat) : mbits old v (~~~ 0) hi lo = bits v hi lo := by rw [mbits, merge_ones]

/-- A store of 8 aligned bytes to an assigned offset, above user mode, is a write of all bits of the register there (R28). -/
theorem State.hartWrite_mmio {s : State} {c o : Nat} {m : Mode} {v : DWord} (hm : m ≠ .user) (ho : o % 8 = 0) (ha : mmioAssigned o = true) :
    s.hartWrite (.service c m) (.mmio o 8) v =
      s.hartStored (s.writeReg (Agent.service c m).writer v (~~~ 0) (regAt o)) (.service c m) := by
  have hr : mmioRefused (.service c m) o 8 = false := by simp [mmioRefused, Agent.mode, hm, ho, ha]
  have hd : o / 8 * 8 = o := by omega
  simp only [State.hartWrite, hr, State.mmioWrite, writeMask, hd]
  rfl

theorem State.writeReg_memcap (s : State) (w : Writer) (v m : DWord) : s.writeReg w v m (regAt (0x1000000000 + 0x1000)) = s.writeMemcap v m := rfl

theorem State.writeReg_migword (s : State) (w : Writer) (v m : DWord) : s.writeReg w v m (regAt (0x1000000000 + 0x1030)) = s.writeMigword v m := rfl

theorem State.writeReg_ccboot (s : State) (w : Writer) (v m : DWord) : s.writeReg w v m (regAt (0x1000000000 + 0x5000)) = s.writeCcboot 0 v m := rfl

/-- MEMCAP is a field with the code priv: a user's store to it faults at the address stored to (R7, R28). -/
theorem State.hartWrite_memcap_user (s : State) (c : Nat) (v : DWord) : s.hartWrite (.service c .user) (.mmio (0x1000000000 + 0x1000) 8) v =
    s.hartExc (.service c .user) 7 (BitVec.ofNat 64 (mmioBase + (0x1000000000 + 0x1000))) := by
  have hr : mmioRefused (.service c .user) (0x1000000000 + 0x1000) 8 = true :=
    show mmioRefused (.service 0 .user) (0x1000000000 + 0x1000) 8 = true by decide
  rw [State.hartWrite, if_pos hr]

/-- MEMCAP takes a value from the firmware range up to the live stacks' bytes while no granule moves (R139). -/
theorem State.hub_writeMemcap_accepted {s : State} {v : DWord} (hodd : s.hub.odd = false) (hlo : 2 ^ 32 ≤ bits v 51 16 * 2 ^ 16)
    (hhi : bits v 51 16 * 2 ^ 16 ≤ 2 ^ 36 * (stacksOf s.hub.live).length) :
    (s.writeMemcap v (~~~ 0)).hub.memcap = bits v 51 16 * 2 ^ 16 ∧ (s.writeMemcap v (~~~ 0)).hub.refused = s.hub.refused := by
  have hok : s.capBad (bits v 51 16 * 2 ^ 16) = false := by
    simp only [State.capBad, hodd, stackBytes, stackCount, Nat.not_lt.2 hlo, Nat.not_lt.2 hhi]
    rfl
  simp only [State.writeMemcap, mbits_ones, hok]
  exact ⟨rfl, rfl⟩

/-- MEMCAP refuses less than the firmware range (R139). -/
theorem State.writeMemcap_refused {s : State} {v : DWord} (h : bits v 51 16 * 2 ^ 16 < 2 ^ 32) : s.writeMemcap v (~~~ 0) = s.migRefuse := by
  have hbad : s.capBad (bits v 51 16 * 2 ^ 16) = true := by rw [State.capBad, decide_eq_true h, Bool.or_true, Bool.true_or]
  simp only [State.writeMemcap, mbits_ones, hbad, if_pos]

theorem State.hub_writeMigword {s : State} {v : DWord} (h : v.toNat % 2 ^ 52 / 8 * 8 < 2 ^ 32) :
    (s.writeMigword v (~~~ 0)).hub.migword = v.toNat % 2 ^ 52 / 8 * 8 := by
  have hb : bits v 51 3 * 8 = v.toNat % 2 ^ 52 / 8 * 8 := by simp only [bits]; omega
  have hf : isFirmware (v.toNat % 2 ^ 52 / 8 * 8) = true := decide_eq_true h
  simp only [State.writeMigword, mbits_ones, hb, hf, if_pos]

/-- Hart `h` as a write of its CCBOOT leaves it (R384). -/
def Hart.booted (x : Hart) (h : Nat) (v : DWord) : Hart :=
  if v.getLsbD 63 && !x.running then
    { x with entry := bits v 51 2, running := true, mode := .machine, pc := BitVec.ofNat 64 (bits v 51 2 * 4), a0 := BitVec.ofNat 64 h,
             a1 := Config.deviceTree }
  else { x with entry := bits v 51 2 }

theorem State.writeCcboot_ones (s : State) (h : Nat) (v : DWord) : s.writeCcboot h v (~~~ 0) = s.setHart h ((s.hart h).booted h v) := rfl

theorem Hart.entry_booted (x : Hart) (h : Nat) (v : DWord) : (x.booted h v).entry = bits v 51 2 := by
  unfold Hart.booted
  split <;> rfl

/-! ### Reads of CSRs -/

theorem State.mem_hartGot (s : State) (a : Agent) (v : DWord) : (s.hartGot a v).mem = s.mem := by cases a <;> rfl

theorem State.groups_hartGot (s : State) (a : Agent) (v : DWord) : (s.hartGot a v).groups = s.groups := by cases a <;> rfl

/-- A read that the spec describes, by a hart that exists, is performed. -/
theorem exec_mchkRead_readable {h : HartName} {m : Mode} {n : Nat} {s : State} (he : (h.agent m).exists_ = true) (hr : csrReadable (h.agent m) n = true) :
    exec (.mchkRead h m n) s = .next (s.readCsr (h.agent m) n) := by
  simp [exec_mchkRead, execMchkRead, event, he, hr]

theorem csrReadable_custom {a : Agent} {n : Nat} (h : 0x5C0 ≤ n) (hn : n ≤ 0x5FF) : csrReadable a n = true := by simp [csrReadable, h, hn]

theorem State.stdCsr_custom (s : State) (c : Nat) (m : Mode) {n : Nat} (h : 0x5C0 ≤ n) (hn : n ≤ 0x5FF) : s.stdCsr (.service c m) n = none := by
  have hne : n ≠ csrTime ∧ n ≠ csrHartid ∧ n ≠ csrSie ∧ n ≠ csrStimecmp ∧ n ≠ csrSatp := by
    simp only [csrTime, csrHartid, csrSie, csrStimecmp, csrSatp]
    omega
  simp [State.stdCsr, hne]

theorem State.readCsr_std {s : State} {a : Agent} {n : Nat} {x : DWord} (h : s.stdCsr a n = some x) : s.readCsr a n = s.hartGot a x := by
  simp [State.readCsr, h]

theorem State.readCsr_refused {s : State} {c n : Nat} {m : Mode} (h : s.stdCsr (.service c m) n = none) (hr : m = .user ∨ csrShown n = false) :
    s.readCsr (.service c m) n = s.hartExc (.service c m) 2 0 := by
  have hr' : m = .user ∨ (!csrShown n) = true := hr.imp_right fun h => by rw [h]; rfl
  simp only [State.readCsr, h]
  exact if_pos hr'

/-- sip is read with free values at the bits that are not the device's. -/
theorem State.readCsr_sip (s : State) (c : Nat) {m : Mode} (hm : m ≠ .user) :
    s.readCsr (.service c m) 0x144 = s.bump.hartGot (.service c m) (s.sip c) := by
  have hstd : s.stdCsr (.service c m) 0x144 = none := by simp [State.stdCsr, csrTime, csrHartid, csrSie, csrStimecmp, csrSatp]
  simp [State.readCsr, hstd, hm, csrShown, csrSip]

/-- A custom CSR is read without effect; MCHK gives its oldest message away. -/
theorem State.readCsr_custom {s : State} {c n : Nat} {m : Mode} (hm : m ≠ .user) (h : 0x5C0 ≤ n) (hn : n ≤ 0x5FF) (hk : csrKnown n = true) :
    s.readCsr (.service c m) n = if n = 0x5EB then
      (s.hartGot (.service c m) (s.csrRead c n)).setSvc c { s.svcCore c with got := s.csrRead c n, exc := (0, 0), mchk := (s.svcCore c).mchk.drop 1 }
      else s.hartGot (.service c m) (s.csrRead c n) := by
  have hne : n ≠ csrSip := by simp only [csrSip]; omega
  simp only [State.readCsr, State.stdCsr_custom s c m h hn, hm, csrShown, hk, hne, State.svcCore_hartGot]
  rfl

/-- Above user mode a service core reads the CSRs that it may write (R342, R343). -/
theorem State.stdCsr_plain (s : State) (c : Nat) {m : Mode} (hm : m ≠ .user) :
    s.stdCsr (.service c m) csrStimecmp = some (s.svcCore c).stimecmp ∧ s.stdCsr (.service c m) csrSie = some (s.svcCore c).sie ∧
      s.stdCsr (.service c m) csrSatp = some 0 := by
  simp [State.stdCsr, csrTime, csrHartid, csrSie, csrStimecmp, csrSatp, Agent.mode, hm]

/-- A CSR with a standard value reads as it and leaves memory and groups alone. -/
theorem gives_std {s : State} {c n : Nat} {m : Mode} {x : DWord} (hc : c < 128) (hr : csrReadable (.service c m) n = true)
    (hx : s.stdCsr (.service c m) n = some x) :
    Gives (.mchkRead (.service c) m n) s fun t => (t.svcCore c).got = x ∧ t.mem = s.mem ∧ t.groups = s.groups := by
  refine ⟨s.hartGot (.service c m) x, ?_, ?_, State.mem_hartGot _ _ _, State.groups_hartGot _ _ _⟩
  · rw [exec_mchkRead_readable (h := .service c) (exists_service m hc) hr]
    exact congrArg _ (State.readCsr_std hx)
  · rw [State.svcCore_hartGot]

/-- A write of sie or stimecmp, above user mode, is performed (R343). -/
theorem gives_plainWrite {s : State} {c n : Nat} {m : Mode} {v : DWord} {x : SvcCore} (hc : c < 128) (hn : csrPlain (.service c m) n = true)
    (ht : s.plainWrite (.service c m) n v = some (s.setSvc c x)) :
    Gives (.registerWrite (.service c m) (.csr n) v) s fun t => t.svcCore c = { x with exc := (0, 0) } ∧ t.mem = s.mem ∧ t.groups = s.groups := by
  have hrange : ¬ (0x5C0 ≤ n ∧ n ≤ 0x5FF) := by
    simp only [csrPlain, csrSie, csrStimecmp, csrSatp, Bool.or_eq_true, beq_iff_eq] at hn
    omega
  have hrow : s.writeRow (.service c m) (.csr n) v = some .other := by simp [State.writeRow, hrange, hn]
  have hw : s.hartWrite (.service c m) (.csr n) v = (s.setSvc c x).hartOk (.service c m) := by simp [State.hartWrite, hn, ht]
  refine ⟨(s.setSvc c x).hartOk (.service c m), ?_, ?_, rfl, rfl⟩
  · rw [exec_registerWrite, execRegisterWrite, writeEvent_of_row (exists_service m hc) hrow, hw]
  · rw [State.svcCore_hartOk, State.svcCore_setSvc]

theorem State.plainWrite_service (s : State) (c : Nat) {m : Mode} (hm : m ≠ .user) (v : DWord) :
    s.plainWrite (.service c m) csrStimecmp v = some (s.setSvc c { s.svcCore c with stimecmp := v }) ∧
      s.plainWrite (.service c m) csrSie v = some (s.setSvc c { s.svcCore c with sie := v }) := by
  simp [State.plainWrite, csrPlain, csrSie, csrStimecmp, Agent.mode, hm]

/-- A property of what an event leaves follows from a stronger one. -/
theorem Gives.imp {i : Instr} {s : State} {P Q : State → Prop} (h : ∀ t, P t → Q t) : Gives i s P → Gives i s Q :=
  fun ⟨t, ht, hp⟩ => ⟨t, ht, h t hp⟩

/-! ### The parts of the statement -/

/-- A privileged store to MEMCAP: accepted, or refused with REFUSED set (R139, R143). -/
theorem State.hub_hartWrite_memcap {s : State} {c : Nat} {m : Mode} (hm : m ≠ .user) (v : DWord) :
    let h := (s.hartWrite (.service c m) (.mmio (0x1000000000 + 0x1000) 8) v).hub
    (s.hub.odd = false → 2 ^ 32 ≤ bits v 51 16 * 2 ^ 16 → bits v 51 16 * 2 ^ 16 ≤ 2 ^ 36 * (stacksOf s.hub.live).length →
      h.memcap = bits v 51 16 * 2 ^ 16 ∧ h.refused = s.hub.refused) ∧
    (bits v 51 16 * 2 ^ 16 < 2 ^ 32 → h.memcap = s.hub.memcap ∧ h.refused = true) := by
  obtain ⟨l, hl⟩ := State.hub_hartStored s (s.writeMemcap v (~~~ 0)) (.service c m)
  rw [State.hartWrite_mmio hm (by decide) (by decide), State.writeReg_memcap, hl]
  refine ⟨State.hub_writeMemcap_accepted, fun h => ?_⟩
  rw [State.writeMemcap_refused h]
  exact ⟨rfl, rfl⟩

/-- A privileged store to MIGWORD of an address in the firmware range (R143). -/
theorem State.migword_hartWrite {s : State} {c : Nat} {m : Mode} (hm : m ≠ .user) {v : DWord} (hv : v.toNat % 2 ^ 52 / 8 * 8 < 2 ^ 32) :
    (s.hartWrite (.service c m) (.mmio (0x1000000000 + 0x1030) 8) v).hub.migword = v.toNat % 2 ^ 52 / 8 * 8 := by
  obtain ⟨l, hl⟩ := State.hub_hartStored s (s.writeMigword v (~~~ 0)) (.service c m)
  rw [State.hartWrite_mmio hm (by decide) (by decide), State.writeReg_migword, hl]
  exact State.hub_writeMigword hv

/-- A privileged store to the first CCBOOT (R384): ENTRY is taken, and RUN starts the hart unless it runs. -/
theorem State.hart_hartWrite_ccboot {s : State} {c : Nat} {m : Mode} (hm : m ≠ .user) (v : DWord) :
    let t := s.hartWrite (.service c m) (.mmio (0x1000000000 + 0x5000) 8) v
    t.hub = s.hub ∧ (t.hart 0).entry = bits v 51 2 ∧
    ((s.hart 0).running = false → v.getLsbD 63 = true →
      (t.hart 0).running = true ∧ (t.hart 0).pc = BitVec.ofNat 64 (bits v 51 2 * 4) ∧ (t.hart 0).mode = .machine) := by
  have hcap : s.hub.memcap ≤ (s.setHart 0 ((s.hart 0).booted 0 v)).hub.memcap := Nat.le_refl s.hub.memcap
  rw [State.hartWrite_mmio hm (by decide) (by decide), State.writeReg_ccboot, State.writeCcboot_ones, State.hartStored_of_le _ hcap]
  dsimp only
  rw [State.hart_hartOk_service, State.hub_hartOk, State.hart_setHart]
  refine ⟨rfl, Hart.entry_booted _ _ _, fun hr hv => ?_⟩
  rw [Hart.booted, hr, hv]
  exact ⟨rfl, rfl, rfl⟩

/-- A read of MCHK or another custom CSR above user mode (R344). -/
theorem gives_customCsr (s : State) {c n : Nat} {m : Mode} (hc : c < 128) (h : 0x5C0 ≤ n) (hn : n ≤ 0x5FF) (hm : m ≠ .user) (hk : csrKnown n = true) :
    Gives (.mchkRead (.service c) m n) s fun t => (t.svcCore c).got = s.csrRead c n ∧ t.mem = s.mem ∧ t.groups = s.groups ∧
      (t.svcCore c).mchk = if n = 0x5EB then (s.svcCore c).mchk.drop 1 else (s.svcCore c).mchk := by
  refine ⟨_, exec_mchkRead_readable (h := .service c) (exists_service m hc) (csrReadable_custom h hn), ?_⟩
  rw [HartName.agent, State.readCsr_custom hm h hn hk]
  split
  · exact ⟨by rw [State.svcCore_setSvc], rfl, rfl, by rw [State.svcCore_setSvc]⟩
  · exact ⟨by rw [State.svcCore_hartGot], rfl, rfl, by rw [State.svcCore_hartGot]⟩

/-- A read of sip above user mode (R343). -/
theorem gives_sip (s : State) {c : Nat} {m : Mode} (hc : c < 128) (hm : m ≠ .user) :
    Gives (.mchkRead (.service c) m 0x144) s fun t => (t.svcCore c).got = s.sip c ∧ t.mem = s.mem ∧ t.groups = s.groups := by
  refine ⟨_, exec_mchkRead_readable (h := .service c) (exists_service m hc) rfl, ?_⟩
  rw [HartName.agent, State.readCsr_sip s c hm]
  exact ⟨by rw [State.svcCore_hartGot], rfl, rfl⟩

/-- A CSR read that is an illegal instruction (R344). -/
theorem exec_mchkRead_refused {s : State} {c n : Nat} {m : Mode} (hc : c < 128) (hr : csrReadable (.service c m) n = true)
    (hstd : s.stdCsr (.service c m) n = none) (hx : m = .user ∨ csrShown n = false) :
    exec (.mchkRead (.service c) m n) s = .next (s.hartExc (.service c m) 2 0) := by
  rw [exec_mchkRead_readable (h := .service c) (exists_service m hc) hr]
  exact congrArg _ (State.readCsr_refused hstd hx)

/-- Settles O60: a write's event is that of its row; the stores to the hub and the CSR accesses by the lemmas above. -/
theorem registerWritesAct : Obligations.RegisterWritesAct := by
  refine ⟨?rows, ?writes, ?custom, ?shown, ?plain, ?control⟩
  case rows =>
    intro s a r v ha at_ runs
    and_intros <;> exact writeEvent_of_row ha
  case writes =>
    intro s c m v
    refine ⟨?user, fun hm => ?privileged⟩
    case user =>
      rintro rfl
      exact ⟨State.hartWrite_csr_user s c 0x5C1 v (by decide), State.hartWrite_memcap_user s c v⟩
    case privileged =>
      obtain ⟨hraise, hrefuse⟩ := State.hub_hartWrite_memcap (s := s) (c := c) hm v
      refine ⟨?c4, ?c3, ?opnd, ?pc, hraise, hrefuse, State.migword_hartWrite hm, ?act, ?record, ?inv, State.hart_hartWrite_ccboot hm v⟩
      case c4 => exact State.hartWrite_csr_refused (by decide) rfl
      case c3 => exact State.hartWrite_csr_refused (by decide) rfl
      case opnd => exact congrArg SvcCore.monopnd (State.svcCore_hartWrite_csr (n := 0x5C1) hm (by decide) rfl)
      case pc => exact congrArg SvcCore.savepc (State.svcCore_hartWrite_csr (n := 0x5E7) hm (by decide) rfl)
      case act => exact fun h => State.hartWrite_csr_refused (by decide) (State.csrWrite_fltack_refused (.inl h))
      case record => exact fun _ h => State.hartWrite_csr_refused (by decide) (State.csrWrite_fltack_refused (.inr h))
      case inv => exact fun h => State.hartWrite_csr_refused (by decide) (State.csrWrite_tlbinv_refused h)
  case custom =>
    intro s c n m hc h hn
    refine ⟨fun hx => ?_, fun hm hk => gives_customCsr s hc h hn hm hk⟩
    have hshown : m = .user ∨ csrShown n = false := hx.imp_right fun hk => by
      simp only [csrShown, csrSip, hk, Bool.false_or, beq_eq_false_iff_ne]
      omega
    exact exec_mchkRead_refused hc (csrReadable_custom h hn) (s.stdCsr_custom c m h hn) hshown
  case shown =>
    intro s c m hc
    refine ⟨gives_sip s hc, fun hm => ?_, gives_std hc rfl rfl⟩
    have hstd : s.stdCsr (.service c m) 0xF14 = none := by simp [State.stdCsr, csrTime, csrHartid, Agent.mode, hm]
    exact exec_mchkRead_refused hc rfl hstd (.inr rfl)
  case plain =>
    intro s c m v hc
    refine ⟨gives_std hc rfl rfl, fun hm => ?_⟩
    obtain ⟨hcmp, hsie, hsatp⟩ := s.stdCsr_plain c hm
    obtain ⟨hwcmp, hwsie⟩ := s.plainWrite_service c hm v
    exact ⟨gives_std hc rfl hcmp, gives_std hc rfl hsie, gives_std hc rfl hsatp,
      (gives_plainWrite hc rfl hwcmp).imp fun _ h => h.imp_left (congrArg SvcCore.stimecmp),
      (gives_plainWrite hc rfl hwsie).imp fun _ h => h.imp_left (congrArg SvcCore.sie)⟩
  case control =>
    intro s h hh
    refine ⟨_, exec_mchkRead_readable (h := .control h) (decide_eq_true hh) rfl, ?_⟩
    rw [HartName.agent, State.readCsr_std rfl]
    exact ⟨congrArg Hart.got (State.hart_setHart _ _ _), rfl, rfl⟩

end Sys2Proof.Machine
end

section
/-! The checks of one address (R15, R19, R72, R121), one lemma per way in which they end. -/

namespace Sys2Proof.Machine

open Sys2Proof

/-! ### A device virtual address -/

section
variable {s : State} {x : XRes} {seen : Nat × DWord} {priv : Bool} {r : Right} {n align : Nat} {a : DWord}

theorem State.checkBy_misaligned (h : a.toNat % align ≠ 0) : s.checkBy x seen priv r n align a = .fault clsAlignment 0 a false 0 0 := if_pos h

/-- A translation that faulted gives its own class, level and entry. -/
theorem State.checkBy_fault {k : BitVec 8} {nc : Bool} {lv : Nat} {pte : DWord} (h : a.toNat % align = 0) :
    s.checkBy (.fault k nc lv pte) seen priv r n align a = .fault k 0 a nc lv pte := if_neg (not_not.2 h)

/-- A translated address is judged by its leaf, and then by its physical address. -/
theorem State.checkBy_ok {e : TlbEntry} (h : a.toNat % align = 0) : s.checkBy (.ok e) seen priv r n align a =
    if e.ty = 2 ∧ !priv then .fault clsPrivilege 0 a false seen.1 seen.2
    else if !e.permits r then .fault clsProtection 0 a false seen.1 seen.2
    else match s.refuse priv r e.ty (e.pa a.toNat) n with
      | some k => .fault k 0 a false seen.1 seen.2
      | none => .ok (e.pa a.toNat) (some e) := if_neg (not_not.2 h)

theorem State.checkBy_privilege {e : TlbEntry} (h : a.toNat % align = 0) (he : e.ty = 2) (hp : priv = false) :
    s.checkBy (.ok e) seen priv r n align a = .fault clsPrivilege 0 a false seen.1 seen.2 := by
  rw [State.checkBy_ok h, if_pos ⟨he, by rw [hp]; rfl⟩]

theorem State.checkBy_protection {e : TlbEntry} (h : a.toNat % align = 0) (he : ¬ (e.ty = 2 ∧ priv = false)) (hr : e.permits r = false) :
    s.checkBy (.ok e) seen priv r n align a = .fault clsProtection 0 a false seen.1 seen.2 := by
  rw [State.checkBy_ok h, if_neg (by simpa using he), if_pos (by rw [hr]; rfl)]

theorem State.checkBy_passes {e : TlbEntry} (h : a.toNat % align = 0) (he : ¬ (e.ty = 2 ∧ priv = false)) (hr : e.permits r = true)
    (hpa : s.refuse priv r e.ty (e.pa a.toNat) n = none) : s.checkBy (.ok e) seen priv r n align a = .ok (e.pa a.toNat) (some e) := by
  rw [State.checkBy_ok h, if_neg (by simpa using he), if_neg (by rw [hr]; decide), hpa]
end

theorem State.xlate_noncanonical {s : State} {req core asid va : Nat} (h : 2 ^ 55 ≤ va) : s.xlate req core asid va = .fault clsPage true 0 0 := if_pos h

/-- The micro-TLB translates first (R122). -/
theorem State.xlate_micro {s : State} {req core asid va : Nat} {e : TlbEntry} (h : va < 2 ^ 55) (hf : (s.core core).utlb.find? (·.hit asid va) = some e) :
    s.xlate req core asid va = .ok e := by
  rw [State.xlate, if_neg (Nat.not_le.2 h), hf]

/-! ### A scratchpad address -/

section
variable {s : State} {slot n align : Nat} {a : Nat}

theorem State.checkSpad_high (h : 2 ^ 32 ≤ a) : s.checkSpad slot n align a = .fault clsProtection 1 (BitVec.ofInt 64 a) false 0 0 :=
  if_pos (.inr (by exact_mod_cast h))

/-- A scratchpad address of 32 bits is checked for its alignment, and then against the team's size. -/
theorem State.checkSpad_low (h : a < 2 ^ 32) : s.checkSpad slot n align a =
    if a % align ≠ 0 then .fault clsAlignment 1 (BitVec.ofInt 64 a) false 0 0
    else if (s.team (s.group slot).team).spadSize < a + n then .fault clsProtection 1 (BitVec.ofInt 64 a) false 0 0
    else .ok a none :=
  if_neg (by omega)
end

/-- Settles O29: a check stops at the first of alignment, translation, the leaf's rights and the physical address that fails. -/
theorem addressChecks : Obligations.AddressChecks := by
  intro s slot priv asid n a r
  refine ⟨?misaligned, ?noncanonical, ?translated, ?high, ?spadMisaligned, ?beyond, ?inside⟩
  case misaligned => exact fun _ h => State.checkBy_misaligned h
  case noncanonical =>
    intro h hc
    rw [State.checkGlobal, State.xlate_noncanonical hc]
    exact State.checkBy_fault h
  case translated =>
    intro e h hc he
    rw [State.checkGlobal, State.xlate_micro hc he]
    exact ⟨fun ht hp => ⟨_, _, State.checkBy_privilege h ht hp⟩, fun ht hr => ⟨_, _, State.checkBy_protection h ht hr⟩,
      fun ht hr hpa => State.checkBy_passes h ht hr hpa⟩
  case high => exact fun h => ⟨_, State.checkSpad_high h⟩
  case spadMisaligned => exact fun h ha => ⟨_, (State.checkSpad_low h).trans (if_pos ha)⟩
  case beyond => exact fun h ha hs => ⟨_, (State.checkSpad_low h).trans ((if_neg (not_not.2 ha)).trans (if_pos hs))⟩
  case inside => exact fun h ha hs => by rw [State.checkSpad_low h, if_neg (not_not.2 ha), if_neg (Nat.not_lt.2 hs)]

end Sys2Proof.Machine
end

section
/-! What the checks before an instruction's effect answer (09 R212, R213, R217), for every instruction of Oropra at once. -/

namespace Sys2Proof.Machine

open Sys2Proof

/-- An outcome that an instruction reaches through the checks at issue. -/
inductive Issued (i : Instr) (s : State) : Out → Prop
  | of {own : Ctx → State → Option (BitVec 8)} {body : Ctx → State → Out} {o : Out} (h : o = issue i own body s) : Issued i s o

/-! ### The forms that instructions share -/

section
variable {i : Instr} {s : State} {o : Out}

theorem Issued.voteOp {f : Ctx → Word} (h : o = Machine.voteOp i f s) : Issued i s o := .of h
theorem Issued.shflOp {f : Int → Int → Int} (h : o = Machine.shflOp i f s) : Issued i s o := .of h
theorem Issued.electOp {f : LaneMask → Lane} (h : o = Machine.electOp i f s) : Issued i s o := .of h
theorem Issued.intOp {f : Int → Int → Int → IntTy → Int} (h : o = Machine.intOp i f s) : Issued i s o := .of h
theorem Issued.bitOp {f : Nat → Nat → Nat → Nat → Nat} (h : o = Machine.bitOp i f s) : Issued i s o := .of h
theorem Issued.farith {d : FFmt} {fixed : Bool} {f : RMode → FVal → FVal → FVal → Exact} (h : o = Machine.farith i d fixed f s) : Issued i s o := .of h
theorem Issued.minMaxOp {isMax : Bool} (h : o = Machine.minMaxOp i isMax s) : Issued i s o := .of h
theorem Issued.specialOp {k : SpecialFn} (h : o = Machine.specialOp i k s) : Issued i s o := .of h
theorem Issued.harith {f : RMode → FVal → FVal → FVal → Exact} (h : o = Machine.harith i f s) : Issued i s o := .of h
theorem Issued.groupLevel {own : Ctx → State → Option (BitVec 8)} {f : Ctx → State → State} (h : o = Machine.groupLevel i own f s) : Issued i s o := .of h
theorem Issued.tileMem {op : Nat} (h : o = Machine.tileMem i op s) : Issued i s o := .of h
theorem Issued.trapOp {cls : BitVec 8} (h : o = Machine.trapOp i cls s) : Issued i s o := .of h
theorem Issued.partOp {r : Right} {eff : Ctx → Group → Nat → (Nat → Nat) → State → State} (h : o = Machine.partOp i r eff s) : Issued i s o := .of h
end

/-- Every instruction of Oropra goes through the checks at issue; an event has no description. -/
theorem exec_issued {i : Instr} (h : i.spec.isSome = true) (s : State) : Issued i s (exec i s) := by
  cases i with
  | nop f => exact .of (exec_nop f s)
  | bra f => exact .of (exec_bra f s)
  | bru f => exact .of (exec_bru f s)
  | brx f => exact .of (exec_brx f s)
  | call f => exact .of (exec_call f s)
  | callx f => exact .of (exec_callx f s)
  | ret f => exact .of (exec_ret f s)
  | exit f => exact .of (exec_exit f s)
  | yield f => exact .of (exec_yield f s)
  | voteMask f => exact .voteOp (exec_voteMask f s)
  | voteSome f => exact .voteOp (exec_voteSome f s)
  | voteEvery f => exact .voteOp (exec_voteEvery f s)
  | voteSame f => exact .voteOp (exec_voteSame f s)
  | voteCount f => exact .voteOp (exec_voteCount f s)
  | shflLane f => exact .shflOp (exec_shflLane f s)
  | shflBack f => exact .shflOp (exec_shflBack f s)
  | shflFwd f => exact .shflOp (exec_shflFwd f s)
  | shflMix f => exact .shflOp (exec_shflMix f s)
  | shflRot f => exact .shflOp (exec_shflRot f s)
  | elect f => exact .electOp (exec_elect f s)
  | electHi f => exact .electOp (exec_electHi f s)
  | matchPeers f => exact .of (exec_matchPeers f s)
  | matchUniform f => exact .voteOp (exec_matchUniform f s)
  | cvset f => exact .of (exec_cvset f s)
  | sign f => exact .of (exec_sign f s)
  | cvwait f => exact .of (exec_cvwait f s)
  | iadd f => exact .intOp (exec_iadd f s)
  | isub f => exact .intOp (exec_isub f s)
  | iadd3 f => exact .intOp (exec_iadd3 f s)
  | imul f => exact .intOp (exec_imul f s)
  | imulh f => exact .intOp (exec_imulh f s)
  | imad f => exact .intOp (exec_imad f s)
  | imadWide f => exact .of (exec_imadWide f s)
  | lea f => exact .of (exec_lea f s)
  | imin f => exact .intOp (exec_imin f s)
  | imax f => exact .intOp (exec_imax f s)
  | iabsd f => exact .intOp (exec_iabsd f s)
  | and f => exact .bitOp (exec_and f s)
  | or f => exact .bitOp (exec_or f s)
  | xor f => exact .bitOp (exec_xor f s)
  | not f => exact .bitOp (exec_not f s)
  | shl f => exact .bitOp (exec_shl f s)
  | shr f => exact .bitOp (exec_shr f s)
  | sar f => exact .bitOp (exec_sar f s)
  | rot f => exact .bitOp (exec_rot f s)
  | popc f => exact .bitOp (exec_popc f s)
  | clz f => exact .bitOp (exec_clz f s)
  | bfe f => exact .of (exec_bfe f s)
  | bfi f => exact .bitOp (exec_bfi f s)
  | prmt f => exact .bitOp (exec_prmt f s)
  | isetp f => exact .of (exec_isetp f s)
  | sel f => exact .of (exec_sel f s)
  | mov f => exact .of (exec_mov f s)
  | movs f => exact .of (exec_movs f s)
  | bcast f => exact .of (exec_bcast f s)
  | srd f => exact .of (exec_srd f s)
  | swr f => exact .of (exec_swr f s)
  | fadd f => exact .farith (exec_fadd f s)
  | fmul f => exact .farith (exec_fmul f s)
  | ffma f => exact .farith (exec_ffma f s)
  | fmin f => exact .minMaxOp (exec_fmin f s)
  | fmax f => exact .minMaxOp (exec_fmax f s)
  | fsetp f => exact .of (exec_fsetp f s)
  | fclass f => exact .of (exec_fclass f s)
  | frcp f => exact .farith (exec_frcp f s)
  | frsq f => exact .specialOp (exec_frsq f s)
  | fsqrt f => exact .farith (exec_fsqrt f s)
  | fexp2 f => exact .specialOp (exec_fexp2 f s)
  | flog2 f => exact .specialOp (exec_flog2 f s)
  | fsin f => exact .specialOp (exec_fsin f s)
  | fcos f => exact .specialOp (exec_fcos f s)
  | dadd f => exact .farith (exec_dadd f s)
  | dmul f => exact .farith (exec_dmul f s)
  | dfma f => exact .farith (exec_dfma f s)
  | hadd2 f => exact .harith (exec_hadd2 f s)
  | hmul2 f => exact .harith (exec_hmul2 f s)
  | hfma2 f => exact .harith (exec_hfma2 f s)
  | fcvt f => exact .of (exec_fcvt f s)
  | icvt f => exact .of (exec_icvt f s)
  | qunpk f => exact .of (exec_qunpk f s)
  | f8pk f => exact .of (exec_f8pk f s)
  | pack f => exact .of (exec_pack f s)
  | ld f => exact .of (exec_ld f s)
  | st f => exact .of (exec_st f s)
  | lds f => exact .of (exec_lds f s)
  | sts f => exact .of (exec_sts f s)
  | ldc f => exact .of (exec_ldc f s)
  | prefetch f => exact .of (exec_prefetch f s)
  | cctl f => exact .of (exec_cctl f s)
  | atom f => exact .of (exec_atom f s)
  | atomCas f => exact .of (exec_atomCas f s)
  | atoms f => exact .of (exec_atoms f s)
  | red f => exact .of (exec_red f s)
  | atomf f => exact .of (exec_atomf f s)
  | acp f => exact .of (exec_acp f s)
  | acopy f => exact .of (exec_acopy f s)
  | twaitany f => exact .of (exec_twaitany f s)
  | twaitall f => exact .of (exec_twaitall f s)
  | tffs f => exact .of (exec_tffs f s)
  | fissue f => exact .of (exec_fissue f s)
  | fwait f => exact .groupLevel (exec_fwait f s)
  | fence f => exact .of (exec_fence f s)
  | bar f => exact .groupLevel (exec_bar f s)
  | barG f => exact .groupLevel (exec_barG f s)
  | barNamed f => exact .groupLevel (exec_barNamed f s)
  | barrive f => exact .groupLevel (exec_barrive f s)
  | barwait f => exact .groupLevel (exec_barwait f s)
  | arrive f => exact .of (exec_arrive f s)
  | wait f => exact .of (exec_wait f s)
  | nsleep f => exact .of (exec_nsleep f s)
  | mma f => exact .of (exec_mma f s)
  | mzero f => exact .of (exec_mzero f s)
  | mld f => exact .tileMem (exec_mld f s)
  | mst f => exact .tileMem (exec_mst f s)
  | mrd f => exact .of (exec_mrd f s)
  | mwr f => exact .of (exec_mwr f s)
  | mcvt f => exact .tileMem (exec_mcvt f s)
  | mofence f => exact .groupLevel (exec_mofence f s)
  | mwait f => exact .of (exec_mwait f s)
  | mdrain f => exact .of (exec_mdrain f s)
  | mfill f => exact .of (exec_mfill f s)
  | mresume f => exact .groupLevel (exec_mresume f s)
  | tspawn f => exact .of (exec_tspawn f s)
  | tarm f => exact .of (exec_tarm f s)
  | tdec f => exact .of (exec_tdec f s)
  | tdone f => exact .of (exec_tdone f s)
  | tlaunch f => exact .of (exec_tlaunch f s)
  | tget f => exact .of (exec_tget f s)
  | scall f => exact .of (exec_scall f s)
  | trap f => exact .trapOp (exec_trap f s)
  | bkpt f => exact .trapOp (exec_bkpt f s)
  | uiret f => exact .of (exec_uiret f s)
  | uimask f => exact .of (exec_uimask f s)
  | npbegin f => exact .of (exec_npbegin f s)
  | npend f => exact .groupLevel (exec_npend f s)
  | grow f => exact .of (exec_grow f s)
  | carve f => exact .of (exec_carve f s)
  | ckpt f => exact .groupLevel (exec_ckpt f s)
  | tstampr f => exact .of (exec_tstampr f s)
  | gsave f => exact .partOp (exec_gsave f s)
  | grest f => exact .partOp (exec_grest f s)
  | _ => cases h

/-- The record of an instruction that is refused as it issues. -/
def Ctx.trap (c : Ctx) (k : BitVec 8) (s : State) : Out :=
  .next (s.raise c.slot .retry { cls := k, lanes := if k = 0x06 then c.act else c.g.batch, pc := c.pc })

/-- AN INSTRUCTION OF A GROUP THAT CAN ISSUE passes the checks of R217 in their order. -/
theorem State.issue_checks {i : Instr} {s : State} {c : Ctx} (hc : s.ctxOf i = some c) (hg : c.g.canIssue = true) (ha : s.alone c.g = true)
    (own : Ctx → State → Option (BitVec 8)) (body : Ctx → State → Out) : issue i own body s =
      if !c.e.allocOk c.g c.p then c.trap clsEncoding s
      else if c.p.priv && !c.priv then c.trap clsPrivilege s
      else if !c.e.kindsOk c.p then c.trap clsEncoding s
      else match own c s with
        | some k => c.trap k s
        | none => if c.interlocked then .next s else s.guarded c i (body c) := by
  unfold State.ctxOf at hc
  split at hc
  case h_2 => cases hc
  case h_1 p e hp he =>
    cases hc
    unfold issue
    rw [hp, he]
    dsimp only
    rw [hg, show s.pairHold (mkCtx s s.cur p e).slot = false from alone_hold ha]
    rfl

theorem Ctx.priv_eq_false {c : Ctx} (h : c.g.asid ≠ 0) : c.priv = false := beq_eq_false_iff_ne.2 h

theorem Ctx.priv_ok {c : Ctx} (h : ¬ (c.p.priv = true ∧ c.g.asid ≠ 0)) : (c.p.priv && !c.priv) = false := by
  simpa [Ctx.priv] using h

theorem State.spec_of_ctxOf {i : Instr} {s : State} {c : Ctx} (h : s.ctxOf i = some c) : i.spec.isSome = true := by
  unfold State.ctxOf at h
  split at h
  · next p e hp he => rw [hp]; rfl
  · cases h

/-- Settles O50: the checks of R217 come in their order, and only after them the interlock. -/
theorem malformedPrivilegedAndInterlocked : Obligations.MalformedPrivilegedAndInterlocked := by
  refine ⟨fun i s c hc hg ha => ?traps, fun i s c hc hg ha hal hpr hk hl => ?waits⟩
  all_goals
    obtain @⟨own, body, _, he⟩ := exec_issued (State.spec_of_ctxOf hc) s
    rw [State.issue_checks hc hg ha] at he
  case traps =>
    refine ⟨fun hal => ?alloc, fun hal hp hu => ?privilege, fun hal hpr hk => ?kinds⟩
    case alloc => rw [he, hal]; rfl
    case privilege => rw [he, hal, hp, Ctx.priv_eq_false hu]; rfl
    case kinds => rw [he, hal, Ctx.priv_ok hpr, hk]; rfl
  case waits =>
    rw [hal, Ctx.priv_ok hpr, hk, hl] at he
    cases ho : own c s with
    | none => rw [ho] at he; exact .inl he
    | some k => rw [ho] at he; exact .inr ⟨k, he⟩

end Sys2Proof.Machine
end

section
/-! What comes from outside the package (R24, R25, R27, R357, R361, R374 to R395): an event that is due and whose words its agent reaches is performed, and what
the links, the interrupt files and the ports of PCI Express keep of it. -/

namespace Sys2Proof.Machine

open Sys2Proof

/-! ### Events that are due -/

section
variable {s t : State} {due : Bool} {point : Nat} {go : State → State}

theorem event_due (h : due = true) : event s due t = .next t := if_pos h

/-- Accesses none of which is refused with MOVED are made (R149). -/
theorem State.sendAll_reached {l : List (Nat × Nat)} (h : ∀ p ∈ l, s.fateFrom point p.1 ≠ .moved) : s.sendAll point l go = go s :=
  if_neg (by simpa using h)

theorem State.sendFrom_reached {pa : Nat} (h : s.fateFrom point pa ≠ .moved) : s.sendFrom point pa go = go s := by
  unfold State.sendFrom
  split
  · next hm => exact absurd hm h
  · rfl

theorem event_sendAll {l : List (Nat × Nat)} (hd : due = true) (h : ∀ p ∈ l, s.fateFrom point p.1 ≠ .moved) :
    event s due (s.sendAll point l go) = .next (go s) := by
  rw [event_due hd, State.sendAll_reached h]

theorem event_sendFrom {pa : Nat} (hd : due = true) (h : s.fateFrom point pa ≠ .moved) : event s due (s.sendFrom point pa go) = .next (go s) := by
  rw [event_due hd, State.sendFrom_reached h]
end

/-! ### Messages (R361, R385, R387, R394) -/

/-- A ZMSG function is performed at once for a shard that there is not, and otherwise where the mailbox is reached. -/
theorem zmsgEvent_made {h shard : Nat} {s : State} {go : State → State} (hr : (s.hart h).running = true)
    (hs : 127 < shard ∨ s.mailOpen hubPorts shard (s.mailTail shard) = true ∧ ∀ p ∈ mailWords shard (s.mailTail shard), s.fateFrom hubPorts p.1 ≠ .moved) :
    zmsgEvent h shard s go = .next (go s) := by
  unfold zmsgEvent
  by_cases hn : 127 < shard
  · rw [if_pos hn, event_due (by simp [hr, hn])]
  · obtain ⟨hopen, hreach⟩ := hs.resolve_left hn
    rw [if_neg hn, event_sendAll (by simp [hr, hopen]) hreach]

/-- A shard that there is not is an invalid parameter of a ZMSG function (R385). -/
theorem State.zmsg_noShard {s : State} {h shard : Nat} (m : HubMsg) (hn : 127 < shard) : s.zmsg h shard m = s.hartGot (.control h .machine) sbiInvalid :=
  if_pos hn

theorem State.hart_hartGot_control (s : State) (h : Nat) (m : Mode) (v : DWord) :
    (s.hartGot (.control h m) v).hart h = { s.hart h with got := v, exc := (0, 0) } :=
  State.hart_setHart _ _ _

/-- A peer's message that comes to a port that holds none claims a count; it is written if the slot is free, and held if it is full. -/
theorem execPeerMessageReceive_claims {s : State} {k n src pos : Nat} {w0 : DWord} {body : List DWord} (hk : k < 3) (hn : n < 128)
    (hheld : SMap.get s.io.heldPeer k [] = []) (hopen : s.mailOpen hubPorts n (s.mailTail n) = true)
    (hreach : ∀ p ∈ mailWords n (s.mailTail n), s.fateFrom hubPorts p.1 ≠ .moved) :
    execPeerMessageReceive k n src pos w0 body s =
      let x := (s.claimMail n).1
      let u := (s.claimMail n).2
      let m := peerMsg n src pos w0 body
      .next (if u.slotFull n x then { u with io := { u.io with heldPeer := SMap.set u.io.heldPeer k [{ m with claim := some x }] } } else u.fillMail m x) := by
  unfold execPeerMessageReceive
  rw [hheld]
  exact event_sendAll (by simp [hk, hn, hopen]) hreach

/-! ### Region timers (R395) -/

theorem execRegionTimerFire_due {s : State} {rcb idx : Nat} {t : Timer} (ht : s.timerDue rcb idx = some t)
    (hw : t.ctl.getLsbD 62 = true → s.fateFrom hubPorts t.word ≠ .moved) : execRegionTimerFire rcb idx s = .next (s.fireTimer t) := by
  unfold execRegionTimerFire
  rw [ht]
  dsimp only
  split
  · next h => rw [State.sendFrom_reached (hw h)]
  · rfl

/-- A timer without a word sets its bit of UIPEND. -/
theorem State.fireTimer_group {s : State} {t : Timer} (h : t.ctl.getLsbD 62 = false) : s.fireTimer t =
    State.uiTo { s with io := { s.io with timers := s.io.timers.erase t } } (bits t.ctl 51 32) (bits t.ctl 15 8) (BitVec.ofNat 32 (2 ^ t.idx)) :=
  if_neg (by rw [h]; decide)

/-! ### Domain and package reset (R374, R380, R398) -/

theorem State.groups_endReset (s : State) (d : Nat) : (s.endReset d).groups = s.groups := by
  unfold State.endReset
  dsimp only
  split <;> rfl

theorem State.busy_endReset (s : State) (d : Nat) : ((s.endReset d).dom d).busy = false := congrArg Dom.busy (SMap.get_set_same _ _ _ _)

/-- The boot ROM writes the boot SRAM, its own registers and the service cores. -/
theorem State.bootRom_keeps (s : State) : s.bootRom.groups = s.groups ∧ s.bootRom.accs = s.accs ∧ s.bootRom.hub = s.hub ∧
    s.bootRom.mgmt.nv = s.mgmt.nv ∧ s.bootRom.cycle = s.cycle ∧ s.bootRom.tstamp = s.tstamp := by
  unfold State.bootRom
  split
  · exact ⟨rfl, rfl, rfl, rfl, rfl, rfl⟩
  · split <;> exact ⟨rfl, rfl, rfl, rfl, rfl, rfl⟩

/-! ### Buckets and links (R373, R375 to R377) -/

/-- A bucket's event changes the buckets, the non-volatile counts and the queue of machine checks. -/
theorem State.bucketEvent_keeps (s : State) (off weight cluster : Nat) (unc : Bool) :
    let t := s.bucketEvent off weight cluster unc
    t.mem = s.mem ∧ t.groups = s.groups ∧ t.accs = s.accs ∧ t.io = s.io := by
  unfold State.bucketEvent
  dsimp only
  repeat' split
  all_goals exact ⟨rfl, rfl, rfl, rfl⟩

@[simp] theorem State.link_setLink (s : State) (k : Nat) (l : Link) : (s.setLink k l).link k = l := SMap.get_set_same _ _ _ _

theorem State.link_congr {s t : State} (h : t.io = s.io) (k : Nat) : t.link k = s.link k := by
  rw [State.link, State.link, h]

/-- A flit that fails its check counts in its lane's bucket, and as a replay. -/
theorem State.receiveFlit_bad (s : State) (k lane seq : Nat) (f : FlitLoad) :
    s.receiveFlit k lane seq .bad f = (s.bucketEvent (laneBucket k lane) 16 (linkCluster k) false).replayed k := by
  unfold State.receiveFlit
  exact if_pos (Or.inl rfl)

theorem State.link_replayed (s : State) (k : Nat) :
    (s.replayed k).link k = { s.link k with replays := sat16 ((s.link k).replays + 1), msReplays := (s.link k).msReplays + 1 } :=
  State.link_setLink _ _ _

theorem State.retrain_lower {s : State} {k : Nat} {rs : List Nat} (h : (s.link k).rate < 3) : s.retrain k rs =
    s.setLink k { s.link k with rate := (s.link k).rate + 1, retrains := min 255 ((s.link k).retrains + 1), training := true, msReplays := 0 } :=
  if_pos h

theorem State.retrain_lowest {s : State} {k : Nat} {rs : List Nat} (h : 3 ≤ (s.link k).rate) : s.retrain k rs = s.linkDown k rs := if_neg (Nat.not_lt.2 h)

/-! ### Physical addresses above the memory (R21, R386, R387) -/

theorem pRange_ne_hbm {pa : Nat} (h : 2 ^ 43 ≤ pa) : pRange pa ≠ .hbm := by
  unfold pRange
  rw [if_neg (Nat.not_lt.2 h)]
  repeat' split
  all_goals simp

theorem pRange_mmio {off : Nat} (h : off < 2 ^ 44) : pRange (mmioBase + off) = .mmio off := by
  unfold pRange mmioBase
  repeat rw [if_neg (by omega)]
  rw [if_pos (by omega), Nat.add_sub_cancel_left]

theorem regAt_doorbell {c : Nat} (h : c < 128) : regAt (0x1007000000 + 0x1000 * c) = .doorbell c := by
  have hd : (0x1007000000 + 0x1000 * c) / 2 ^ 32 = 16 := by omega
  have hr : (0x1007000000 + 0x1000 * c) % 2 ^ 32 = 0x7000000 + 0x1000 * c := by omega
  simp only [regAt, hd, hr]
  refine (if_neg (by omega)).trans <| (if_neg (by omega)).trans <| (if_neg (by omega)).trans <| (if_neg (by omega)).trans <|
    (if_pos (by omega)).trans <| (if_pos (by omega)).trans (congrArg Reg.doorbell ?_)
  omega

theorem regAt_imsic {page : Nat} (h : page < 0x3000) : regAt (0x1004000000 + 0x1000 * page) = .imsic page 0 := by
  have hd : (0x1004000000 + 0x1000 * page) / 2 ^ 32 = 16 := by omega
  have hr : (0x1004000000 + 0x1000 * page) % 2 ^ 32 = 0x4000000 + 0x1000 * page := by omega
  simp only [regAt, hd, hr]
  refine (if_neg (by omega)).trans <| (if_neg (by omega)).trans <| (if_neg (by omega)).trans <| (if_neg (by omega)).trans <|
    (if_pos (by omega)).trans <| (if_neg (by omega)).trans <| (if_pos (by omega)).trans (congrArg₂ Reg.imsic ?_ ?_) <;> omega

/-! ### Ranges of a device (R390) -/

theorem le_of_mem_lineParts {a n : Nat} {p : Nat × Nat} (h : p ∈ lineParts a n) : a ≤ p.1 := by
  unfold lineParts at h
  split at h
  · cases h
  · obtain ⟨k, -, rfl⟩ := List.mem_map.1 h
    exact Nat.le_max_left _ _

theorem lineParts_ne_nil {a n : Nat} (h : n ≠ 0) : lineParts a n ≠ [] := by
  rw [lineParts, if_neg h]
  simp

/-- Nothing holds a range that is no memory. -/
theorem State.rangeFree_above (s : State) {pa : Nat} (n : Nat) (wr : Bool) (h : 2 ^ 43 ≤ pa) : s.rangeFree pa n wr = true := by
  refine List.all_eq_true.2 fun p hp => ?_
  have hr : pRange p.1 ≠ .hbm := pRange_ne_hbm (h.trans (le_of_mem_lineParts hp))
  simp [State.unitFree, hr]

theorem State.dmaRefused_above (s : State) (r : Right) {pa n : Nat} (h : 2 ^ 43 ≤ pa) (hn : n ≠ 0) : s.dmaRefused r pa n = true := by
  obtain ⟨p, hp⟩ := List.exists_mem_of_ne_nil _ (lineParts_ne_nil (a := pa) hn)
  have hr : pRange p.1 ≠ .hbm := pRange_ne_hbm (h.trans (le_of_mem_lineParts hp))
  exact List.any_eq_true.2 ⟨p, hp, by simp [hr]⟩

/-! ### Inbound writes (R387, R390, R397) -/

section
variable {s : State} {f : PcieFunction} {pa off : Nat} {data : List Byte}

theorem State.dmaStore_memory (h : ∀ off, pRange pa ≠ .mmio off) : s.dmaStore f pa data =
    if s.dmaRefused .store pa data.length then s.logAer f.port aerAbort else s.sendAll hubPorts (lineParts pa data.length) fun s => s.dmaWrite pa data := by
  unfold State.dmaStore
  split
  · next h' =>
    split at h'
    · next off hp => exact absurd hp (h off)
    · cases h'
  · rfl

/-- Four bytes at a register of the MMIO space are an interrupt message, or are refused. -/
theorem State.dmaStore_message (hoff : off < 2 ^ 44) (hl : data.length = 4) (h8 : off % 8 = 0) :
    s.dmaStore f (mmioBase + off) data = (s.msi f off (msiData data)).getD (s.logAer f.port aerAbort) := by
  have hr : s.dmaRefused .store (mmioBase + off) data.length = true := s.dmaRefused_above _ (by unfold mmioBase; omega) (by omega)
  simp only [State.dmaStore, pRange_mmio hoff, hl, h8, and_self, if_true]
  rw [hl] at hr
  cases s.msi f off (msiData data) with
  | some t => rfl
  | none => exact if_pos hr

theorem State.msi_doorbell {c : Nat} {x : Word} (hc : c < 128) : s.msi f (0x1007000000 + 0x1000 * c) x = some (s.doorbell c x) := by
  rw [State.msi, regAt_doorbell hc]

theorem State.msi_imsic {page : Nat} {x : Word} (hp : page < 0x3000) : s.msi f (0x1004000000 + 0x1000 * page) x =
    if s.takesFrom (s.functionDomain f.port f.rid) (Config.imsicFile page) then some (s.pendId (Config.imsicFile page) x.toNat) else none := by
  rw [State.msi, regAt_imsic hp]
  simp

theorem execPcieInboundWrite_due (hk : f.port < 4) (hfree : s.rangeFree pa data.length true = true) (fault : Bool) :
    execPcieInboundWrite f pa data fault s = .next (if fault then s else s.dmaStore f pa data) :=
  event_due (by simp [hk, hfree])

/-- An interrupt message comes to its register. -/
theorem execPcieInboundWrite_message (hk : f.port < 4) (hoff : off < 2 ^ 44) (hl : data.length = 4) (h8 : off % 8 = 0) :
    execPcieInboundWrite f (mmioBase + off) data false s = .next ((s.msi f off (msiData data)).getD (s.logAer f.port aerAbort)) := by
  rw [execPcieInboundWrite_due hk (s.rangeFree_above _ _ (by unfold mmioBase; omega)), if_neg Bool.false_ne_true, State.dmaStore_message hoff hl h8]
end

/-! ### Interrupt files (R386) -/

theorem State.pendId_valid {s : State} {file n : Nat} (h0 : 0 < n) (hn : n < 256) : s.pendId file n =
    { s with io := { s.io with imsic := SMap.set s.io.imsic file (SMap.get s.io.imsic file 0 ||| BitVec.ofNat 256 (2 ^ n)) } } :=
  if_pos ⟨h0, hn⟩

theorem State.pendId_pending (s : State) {file n : Nat} (h0 : 0 < n) (hn : n < 256) : (SMap.get (s.pendId file n).io.imsic file 0).getLsbD n = true := by
  rw [State.pendId_valid h0 hn, SMap.get_set_same, BitVec.getLsbD_or, BitVec.getLsbD_ofNat]
  simp [hn]

/-! ### Completion words (R391, R392) -/

theorem State.mem_race (s : State) (uid : Option Nat) (pa n : Nat) : (s.race uid pa n).mem = s.mem := by
  unfold State.race
  split <;> rfl

theorem State.mem_putWord {s : State} {pa : Nat} (x : Nat) (h : pRange pa = .hbm) : (s.putWord pa x).mem =
    (if (s.refuse true .store 1 pa 8).isSome then s else (s.needLine pa).homeWrite (s.homeNow pa) pa (valueBytes x 8) false none).mem := by
  unfold State.putWord
  split
  · rfl
  · rw [State.unitWrite, if_pos (by rw [h]; rfl), State.mem_race]

theorem State.pRange_of_wordFree {s : State} {pa : Nat} (h : s.wordFree pa = true) : pRange pa = .hbm := by
  simp only [State.wordFree, Bool.and_eq_true, beq_iff_eq] at h
  exact h.1.2

section
variable {s : State} {port tuple hash pa cw : Nat} {data : List Byte}

/-- A frame for a queue set that a domain reset has disabled is dropped. -/
theorem execEthFrameReceive_dropped (hk : port < 4) (hfree : s.rangeFree pa data.length true = true) (hcw : s.wordFree cw = true)
    (hq : s.io.qoff.contains (16 * port + s.steer port tuple hash) = true) : execEthFrameReceive port tuple hash pa data cw s = .next s :=
  (event_due (by simp [hk, hfree, hcw])).trans (congrArg _ (if_pos hq))

/-- Any other frame is written, unless its home refuses it, and counted in the completion word. -/
theorem execEthFrameReceive_written (hk : port < 4) (hfree : s.rangeFree pa data.length true = true) (hcw : s.wordFree cw = true)
    (hq : s.io.qoff.contains (16 * port + s.steer port tuple hash) = false)
    (hreach : ∀ p ∈ (cw, 8) :: lineParts pa data.length, s.fateFrom hubPorts p.1 ≠ .moved) :
    let q := 16 * port + s.steer port tuple hash
    let x := SMap.get s.io.eth q 0 + 1
    let u := if s.engineRefused pa data.length then s else s.dmaWrite pa data
    execEthFrameReceive port tuple hash pa data cw s = .next { u.putWord cw x with io := { u.io with eth := SMap.set u.io.eth q x } } :=
  (event_due (by simp [hk, hfree, hcw])).trans (congrArg _ ((if_neg (Bool.eq_false_iff.1 hq)).trans (State.sendAll_reached hreach)))
end

/-- Settles O59: each event is due by its hypotheses; what it leaves is said by the lemmas above on the function that performs it. -/
theorem outsideEventsAct : Obligations.OutsideEventsAct := by
  intro s k n pa q op r reach
  refine ⟨?send, ?receive, ?doorbell, ?deliver, ?zmsg, ?zmsgNoShard, ?ack, ?peerMessage, ?timer, ?groupTimer, ?domainReset, ?measure, ?attest, ?packageReset,
    ?flit, ?badFlit, ?retrain, ?retrainLowest, ?retrainDone, ?trained, ?beat, ?beatReceived, ?beatTimeout, ?peerRequest, ?completion, ?overdue, ?inboundWrite,
    ?msi, ?imsic, ?pendId, ?inboundRead, ?nvme, ?eth, ?wired, ?fieldTest, ?window⟩
  case send =>
    intro ty sq body hk hn hroom ⟨hopen, hreach⟩
    exact (exec_mailboxSend k n ty sq body s).trans (event_sendAll (by simp [hk, hn, hroom, hopen]) hreach)
  case receive =>
    intro hk hfull ⟨hopen, hreach⟩
    exact ⟨_, (exec_mailboxReceive k s).trans (event_sendAll (by simp [hk, hfull, hopen]) hreach), congrArg SvcCore.got (State.svcCore_setSvc _ _ _)⟩
  case doorbell => exact fun x hk => (exec_msiDoorbell k x s).trans (event_due (decide_eq_true hk))
  case deliver =>
    intro m hm hroom ⟨hopen, hreach⟩
    rw [exec_doorbellDeliver, execDoorbellDeliver, hm]
    exact event_sendAll (by simp [hroom, hopen]) hreach
  case zmsg =>
    intro hr hs
    exact ⟨(exec_zmsgMsgSend k n pa s).trans (zmsgEvent_made hr hs), (exec_zmsgLaunch k n pa s).trans (zmsgEvent_made hr hs)⟩
  case zmsgNoShard =>
    intro hr hn
    refine ⟨_, (exec_zmsgMsgSend k n pa s).trans (zmsgEvent_made hr (.inl hn)), ?_⟩
    beta_reduce
    rw [State.zmsg_noShard _ hn, State.hart_hartGot_control]
    exact ⟨rfl, State.mem_hartGot _ _ _, State.groups_hartGot _ _ _⟩
  case ack => exact fun hb => ⟨_, (exec_pmsgAck k s).trans (event_due hb), SMap.get_set_same _ _ _ _, rfl, rfl⟩
  case peerMessage =>
    intro src pos w0 body hk hn hheld ⟨hopen, hreach⟩ x u
    have he := (exec_peerMessageReceive k n src pos w0 body s).trans (execPeerMessageReceive_claims hk hn hheld hopen hreach)
    exact ⟨fun hx => he.trans (congrArg _ (if_neg (Bool.eq_false_iff.1 hx))),
      fun hx => ⟨_, he.trans (congrArg _ (if_pos hx)), rfl, rfl, SMap.get_set_same _ _ _ _⟩⟩
  case timer => exact fun t ht hw => (exec_regionTimerFire k n s).trans (execRegionTimerFire_due ht hw)
  case groupTimer =>
    intro t ht hw
    rw [exec_regionTimerFire, execRegionTimerFire_due ht fun h => absurd h (Bool.eq_false_iff.1 hw), State.fireTimer_group hw]
  case domainReset =>
    exact fun hb => ⟨_, (exec_domainResetComplete k s).trans (event_due hb), s.busy_endReset k, s.groups_endReset k, .endReset⟩
  case measure => exact fun h hs => ⟨_, (exec_measure h s).trans (event_due (bne_iff_ne.2 hs)), rfl, rfl, rfl, rfl⟩
  case attest => exact fun h hs => ⟨_, (exec_attest h s).trans (event_due (bne_iff_ne.2 hs)), rfl, rfl, rfl⟩
  case packageReset =>
    obtain ⟨hgroups, haccs, hhub, hnv, hcycle, htstamp⟩ := State.bootRom_keeps
      { State.reset with freeCtr := s.freeCtr + 1, nextId := s.nextId, mgmt := { State.reset.mgmt with nv := s.mgmt.nv } }
    exact ⟨_, exec_packageReset s, hgroups, haccs, hhub, hnv, hcycle, htstamp⟩
  case flit =>
    intro lane seq c f hk hl hup ht hdue
    exact (exec_linkFlitReceive k lane seq c f s).trans (event_due (by simp [hk, hl, hup, ht, hdue]))
  case badFlit =>
    intro lane seq f hk hl hup ht hdue
    obtain ⟨hmem, hgroups, haccs, hio⟩ := s.bucketEvent_keeps (laneBucket k lane) 16 (linkCluster k) false
    refine ⟨_, (exec_linkFlitReceive k lane seq .bad f s).trans (event_due (by simp [hk, hl, hup, ht, hdue])), ?_⟩
    beta_reduce
    rw [State.receiveFlit_bad, State.link_replayed, State.link_congr hio]
    exact ⟨rfl, rfl, haccs, hgroups, hmem⟩
  case retrain =>
    intro rs hup ht hms hrate
    refine ⟨_, (exec_linkRetrain k rs s).trans (event_due (by simp [State.retrainDue, hup, ht, hms])), ?_⟩
    beta_reduce
    rw [State.retrain_lower hrate, State.link_setLink]
    exact ⟨rfl, rfl, hup, rfl, rfl⟩
  case retrainLowest =>
    intro rs hup ht hms hrate
    rw [exec_linkRetrain, execLinkRetrain, event_due (by simp [State.retrainDue, hup, ht, hms]), State.retrain_lowest hrate]
  case retrainDone =>
    exact fun rs ht => ⟨⟨_, (exec_linkRetrainDone k true rs s).trans (event_due ht), congrArg Link.training (State.link_setLink _ _ _), rfl, rfl⟩,
      (exec_linkRetrainDone k false rs s).trans (event_due ht)⟩
  case trained =>
    intro hk hup
    refine ⟨_, (exec_linkTrained k s).trans (event_due (by simp [hk, hup])), ?_⟩
    beta_reduce
    rw [State.link_setLink]
    exact ⟨rfl, rfl, rfl, rfl⟩
  case beat => exact fun hb => ⟨_, (exec_heartbeatSend s).trans (event_due hb), rfl, rfl, rfl, rfl⟩
  case beatReceived =>
    exact fun hk hn hup => ⟨_, (exec_heartbeatReceive k n s).trans (event_due (by simp [hk, hn, hup])), SMap.find_set_same _ _ _, rfl, rfl⟩
  case beatTimeout => exact fun hs => (exec_heartbeatTimeout k s).trans (event_due hs)
  case peerRequest => exact fun data aop ty hd => (exec_peerRequest k op pa n data aop ty s).trans (event_due hd)
  case completion =>
    intro port off data ho hd
    rw [exec_pcieCompletion, execPcieCompletion, ho]
    exact event_due (by simpa using hd)
  case overdue =>
    intro port off ho hd
    rw [exec_pcieCompletionTimeout, execPcieCompletionTimeout, ho]
    exact event_due hd
  case inboundWrite =>
    intro data rid hk hfree
    refine ⟨⟨s, ?fault, rfl⟩, fun hm hd hreach => ?written, fun hm hd => ?refused⟩
    all_goals rw [exec_pcieInboundWrite, execPcieInboundWrite_due hk hfree]
    case fault => rw [if_pos rfl]
    case written => rw [if_neg Bool.false_ne_true, State.dmaStore_memory hm, hd, if_neg Bool.false_ne_true, State.sendAll_reached hreach]
    case refused =>
      rw [if_neg Bool.false_ne_true, State.dmaStore_memory hm, if_pos hd]
      rfl
  case msi =>
    intro data rid c hk hc hl
    rw [exec_pcieInboundWrite, Nat.add_assoc, execPcieInboundWrite_message hk (by omega) hl (by omega), State.msi_doorbell hc]
    rfl
  case imsic =>
    intro data rid page hk hp hl
    rw [exec_pcieInboundWrite, Nat.add_assoc, execPcieInboundWrite_message hk (by omega) hl (by omega), State.msi_imsic hp]
    split <;> rfl
  case pendId =>
    intro file h0 hn
    refine ⟨s.pendId_pending h0 hn, ?_⟩
    rw [State.pendId_valid h0 hn]
    exact ⟨rfl, rfl⟩
  case inboundRead => exact fun fault hk hfree => (exec_pcieInboundRead k pa n fault s).trans (event_due (by simp [hk, hfree]))
  case nvme =>
    intro hk hw hreach
    exact ⟨_, (exec_nvmeCompletion k pa n s).trans (event_sendFrom (by simp [hk, hw]) hreach), SMap.get_set_same _ _ _ _,
      State.mem_putWord _ (State.pRange_of_wordFree hw)⟩
  case eth =>
    intro tuple hash data cw hk hfree hcw hreach qs x u
    exact ⟨fun hq => ⟨s, (exec_ethFrameReceive k tuple hash pa data cw s).trans (execEthFrameReceive_dropped hk hfree hcw hq), rfl⟩,
      fun hq => ⟨_, (exec_ethFrameReceive k tuple hash pa data cw s).trans (execEthFrameReceive_written hk hfree hcw hq hreach),
        SMap.get_set_same _ _ _ _, rfl⟩⟩
  case wired =>
    intro level file hk hf h0 hn hl
    refine ⟨_, (exec_aplicWiredSource k level file n s).trans (event_due (by simp [hk, hn, hf, hl])), ?_, State.pendId_pending _ h0 hn, ?_⟩
    all_goals rw [State.pendId_valid h0 hn]
    · exact SMap.get_set_same _ _ _ _
    · exact ⟨rfl, rfl⟩
  case fieldTest =>
    intro hk hn ht
    have hw : (n == 0 || n == 1 || n == 64) = true := by simpa [or_assoc] using hn
    refine ⟨_, (exec_inFieldTest k n s).trans (event_due (by simpa [hk, hw] using ht)), ?_⟩
    obtain ⟨hmem, hgroups, -, -⟩ := s.bucketEvent_keeps (clusterBucket k) n k true
    split
    · exact ⟨rfl, rfl, fun _ => rfl⟩
    · next h0 => exact ⟨hmem, hgroups, fun h => absurd h h0⟩
  case window => exact fun hd => (exec_contextWindowAccess k op r s).trans (event_due hd)

end Sys2Proof.Machine
end

section
/-! What homes do to the rest of the machine (R44 to R57, R95, R110): where nothing waits on a home, what follows a write or a poisoning changes lines, slices
and what service cores have been told alone; and no action of a home changes a group. -/

namespace Sys2Proof.Machine

open Sys2Proof

/-! ### Steps at homes on which nothing waits -/

/-- Two states that differ in lines, slices and what service cores have been told alone; a slice that nothing waited on is still so. -/
structure State.CalmStep (s t : State) : Prop where
  rest : t = { s with lines := t.lines, slices := t.slices, svc := t.svc }
  quiet : ∀ h, s.quiet h → t.quiet h

theorem State.CalmStep.refl (s : State) : s.CalmStep s := ⟨rfl, fun _ => id⟩

theorem State.CalmStep.trans {s t u : State} (h : s.CalmStep t) (h' : t.CalmStep u) : s.CalmStep u := by
  refine ⟨?_, fun k hk => h'.quiet k (h.quiet k hk)⟩
  rw [h'.rest, h.rest]

theorem State.ArmsOf.calm {s t : State} (h : s.ArmsOf t) : s.CalmStep t := by
  refine ⟨?_, h.quiet⟩
  rw [h.rest]

theorem State.CalmStep.mem {s t : State} (h : s.CalmStep t) : t.mem = s.mem := by rw [h.rest]
theorem State.CalmStep.groups {s t : State} (h : s.CalmStep t) : t.groups = s.groups := by rw [h.rest]

theorem State.calm_setLine (s : State) (pa : Nat) (l : Line) : s.CalmStep (s.setLine pa l) := ⟨rfl, fun _ => id⟩

theorem State.calm_machineCheck (s : State) (cl : Nat) (x : MchkWhat) : s.CalmStep (s.machineCheck cl x) := ⟨rfl, fun _ => id⟩

/-- A slice changed, but not in what waits on it. -/
theorem State.calm_setSlice {s : State} {home : Nat} {x : Slice} (hm : x.mon = (s.slice home).mon) (hp : x.sphead = (s.slice home).sphead) :
    s.CalmStep (s.setSlice home x) := by
  refine ⟨rfl, fun k hk => ?_⟩
  by_cases h : k = home
  · subst h
    simpa [State.quiet, State.setSlice, State.slice, hm, hp] using hk
  · simpa [State.quiet, State.setSlice, State.slice, SMap.get_set_ne _ _ _ _ _ h] using hk

/-- R110: poison of a line that nothing waits on wakes nobody and leaves no record. -/
theorem State.afterPoison_of_quiet {s : State} {home line : Nat} (h : s.quiet home) : s.afterPoison home line = s := by
  simp [State.afterPoison, h.1, State.bucketUsed_of_quiet h]

theorem State.calm_poisonLine {s : State} {home : Nat} (h : s.quiet home) (pa cause : Nat) : s.CalmStep (s.poisonLine home pa cause) := by
  unfold State.poisonLine
  dsimp only
  split
  · exact s.calm_setLine _ _
  · have told {t : State} (ht : s.CalmStep t) : s.CalmStep (t.afterPoison home (lineOf pa)) := by
      rw [State.afterPoison_of_quiet (ht.quiet home h)]
      exact ht
    refine told ((s.calm_setLine _ _).trans (.trans (State.calm_setSlice ?_ ?_) (State.calm_machineCheck _ _ _))) <;> rfl

theorem State.CalmStep.poisonLine {s t : State} {home : Nat} (ht : s.CalmStep t) (h : s.quiet home) (pa cause : Nat) :
    s.CalmStep (t.poisonLine home pa cause) :=
  ht.trans (State.calm_poisonLine (ht.quiet home h) pa cause)

theorem State.CalmStep.ite {s t u : State} {c : Prop} {i : Decidable c} (ht : s.CalmStep t) (hu : s.CalmStep u) : s.CalmStep (if c then t else u) := by
  split <;> assumption

theorem State.calm_homeRoom (s : State) (home pa : Nat) : s.CalmStep (s.homeRoom home pa) := by
  exact .ite (.refl s) (s.calm_setLine _ _)

theorem State.calm_thresh {s : State} {home : Nat} (h : s.quiet home) (pa : Nat) : s.CalmStep (s.thresh home pa) := by
  unfold State.thresh
  dsimp only
  split
  · exact s.calm_setLine _ _
  · exact .ite (s.calm_setLine _ _) (.ite ((s.calm_setLine _ _).poisonLine h _ _) (s.calm_setLine _ _))

/-- A line outside every window filled (R44, R46). -/
theorem State.calm_fillLine {s : State} {home pa : Nat} (h : s.quiet home) (hw : s.windowOf (lineOf pa) = none) (bad : Bool) :
    s.CalmStep (s.fillLine home pa bad) := by
  have hs : s.sideLines pa = s := by rw [State.sideLines, hw]
  have hset := (s.calm_homeRoom home pa).trans (State.calm_setLine _ pa { (s.homeRoom home pa).line pa with valid := true, dirty := false })
  have hthresh := hset.trans (State.calm_thresh (hset.quiet home h) pa)
  have hbad : s.CalmStep (if bad then State.poisonLine _ home pa 0 else _) := .ite (hthresh.poisonLine h pa 0) hthresh
  unfold State.fillLine
  rw [hs]
  exact .ite (hbad.poisonLine h pa _) hbad

/-- A write at a home on which nothing waits, by anyone (R45, R51, R57). -/
theorem State.calm_homeWrite {s : State} {home : Nat} (h : s.quiet home) (pa : Nat) (bs : SMap Byte) (full : Bool) (who : Option Agent) :
    State.CalmStep { s with mem := Memory.putAll s.mem pa bs } (s.homeWrite home pa bs full who) := by
  unfold State.homeWrite
  split
  · next hb =>
    rw [List.isEmpty_iff.1 hb]
    exact .refl s
  · have hw : State.quiet { s with mem := Memory.putAll s.mem pa bs } home := h
    have set (l : Line) := State.calm_setLine { s with mem := Memory.putAll s.mem pa bs } pa l
    have hline (l : Line) : State.CalmStep { s with mem := Memory.putAll s.mem pa bs }
        (if l.dec then (State.setLine _ pa l).thresh home pa else State.setLine _ pa l) :=
      .ite ((set l).trans (State.calm_thresh ((set l).quiet home hw) pa)) (set l)
    exact (hline _).trans (State.armsOf_afterWrite ((hline _).quiet home hw) _ _).calm

/-- A word with one home, on which nothing waits. -/
theorem State.quiet_homes {s : State} {pa : Nat} (hq : s.quiet (s.homeNow pa)) (hh : s.homesOf pa = [s.homeNow pa]) :
    ∀ k, k = s.homeNow pa ∨ k ∈ s.homesOf pa → s.quiet k := by
  intro k hk
  rw [hh, List.mem_singleton, or_self] at hk
  rw [hk]
  exact hq

/-- A store of a device at its home (R45, R57, R152). -/
theorem State.calm_homeStore {s : State} {pa : Nat} (h : ∀ k, k = s.homeNow pa ∨ k ∈ s.homesOf pa → s.quiet k) (x n : Nat) :
    State.CalmStep { s with mem := Memory.putAll s.mem pa (valueBytes x n) } (s.homeStore pa x n) := by
  have hw := State.calm_homeWrite (h _ (.inl rfl)) pa (valueBytes x n) false none
  exact hw.trans (State.armsOf_afterWrites (fun k hk => hw.quiet k (h k (.inr (List.mem_filter.1 hk).1))) pa n).calm

/-! ### Steps at any home -/

/-- No cache of a hart holds a copy of the line (R45). -/
def Line.uncopied (l : Line) : Prop := l.hub = false ∧ l.svcv = false ∧ l.svcm = false

/-- What homes, rings, arms and monitors change: memory, lines, slices, what service cores have been told, and the wakes on their way. A line of which there is
no copy gets none. -/
structure State.HomeStep (s t : State) : Prop where
  rest : t = { s with mem := t.mem, lines := t.lines, slices := t.slices, svc := t.svc, wakes := t.wakes }
  uncopied : ∀ pa, (s.line pa).uncopied → (t.line pa).uncopied

/-- Such a step in which no line leaves its slice or loses its poison. -/
structure State.HeldStep (s t : State) : Prop extends State.HomeStep s t where
  valid : ∀ pa, (s.line pa).valid = true → (t.line pa).valid = true
  psn : ∀ pa, (s.line pa).psn = true → (t.line pa).psn = true

theorem State.HomeStep.trans {s t u : State} (h : s.HomeStep t) (h' : t.HomeStep u) : s.HomeStep u := by
  refine ⟨?_, fun k hk => h'.uncopied k (h.uncopied k hk)⟩
  rw [h'.rest, h.rest]

theorem State.HomeStep.groups {s t : State} (h : s.HomeStep t) : t.groups = s.groups := by rw [h.rest]

/-- A step that leaves the lines alone. -/
theorem State.HeldStep.of_lines {s t : State} (h : t = { s with mem := t.mem, slices := t.slices, svc := t.svc, wakes := t.wakes }) : s.HeldStep t := by
  have hl : t.lines = s.lines := by rw [h]
  have hline : ∀ pa, t.line pa = s.line pa := fun pa => by rw [State.line, State.line, hl]
  refine ⟨⟨by rw [h], fun pa => ?_⟩, fun pa => ?_, fun pa => ?_⟩ <;> rw [hline] <;> exact id

theorem State.HeldStep.refl (s : State) : s.HeldStep s := .of_lines rfl

theorem State.HeldStep.trans {s t u : State} (h : s.HeldStep t) (h' : t.HeldStep u) : s.HeldStep u :=
  ⟨h.toHomeStep.trans h'.toHomeStep, fun pa hp => h'.valid pa (h.valid pa hp), fun pa hp => h'.psn pa (h.psn pa hp)⟩

theorem State.HeldStep.ite {s t u : State} {c : Prop} {i : Decidable c} (ht : s.HeldStep t) (hu : s.HeldStep u) : s.HeldStep (if c then t else u) := by
  split <;> assumption

theorem State.HeldStep.foldl {α : Type} {f : State → α → State} {l : List α} {s t : State} (hf : ∀ t x, s.HeldStep t → s.HeldStep (f t x))
    (ht : s.HeldStep t) : s.HeldStep (l.foldl f t) :=
  List.foldlRecOn (motive := s.HeldStep) l f ht fun t ht x _ => hf t x ht

theorem State.line_setLine (s : State) (pa q : Nat) (l : Line) : (s.setLine pa l).line q = if q / 128 = pa / 128 then l else s.line q := by
  split
  · next h => rw [State.line, h]; exact SMap.get_set_same _ _ _ _
  · next h => exact SMap.get_set_ne _ _ _ _ _ h

theorem State.line_congr (s : State) {pa q : Nat} (h : q / 128 = pa / 128) : s.line q = s.line pa := by rw [State.line, State.line, h]

theorem State.homeStep_setLine {s : State} {pa : Nat} {l : Line} (hu : (s.line pa).uncopied → l.uncopied) : s.HomeStep (s.setLine pa l) := by
  refine ⟨rfl, fun q => ?_⟩
  rw [State.line_setLine]
  split
  · next h => rw [s.line_congr h]; exact hu
  · exact id

theorem State.heldStep_setLine {s : State} {pa : Nat} {l : Line} (hu : (s.line pa).uncopied → l.uncopied) (hv : (s.line pa).valid = true → l.valid = true)
    (hp : (s.line pa).psn = true → l.psn = true) : s.HeldStep (s.setLine pa l) := by
  refine ⟨State.homeStep_setLine hu, fun q => ?_, fun q => ?_⟩ <;> rw [State.line_setLine] <;> split
  · next h => rw [s.line_congr h]; exact hv
  · exact id
  · next h => rw [s.line_congr h]; exact hp
  · exact id

section
variable {s t : State}

theorem State.HeldStep.setSlice (h : s.HeldStep t) {home : Nat} {x : Slice} : s.HeldStep (t.setSlice home x) := h.trans (.of_lines rfl)

theorem State.HeldStep.sendWake (h : s.HeldStep t) {e : MonEntry} {st : Nat} {v : DWord} {psn : Bool} : s.HeldStep (t.sendWake e st v psn) :=
  h.trans (.of_lines rfl)

theorem State.HeldStep.machineCheck (h : s.HeldStep t) {cl : Nat} {x : MchkWhat} : s.HeldStep (t.machineCheck cl x) := h.trans (.of_lines rfl)

theorem State.HeldStep.fireArm (h : s.HeldStep t) {home st : Nat} {e : SvcEntry} {v : DWord} : s.HeldStep (t.fireArm home e st v) :=
  h.trans (.of_lines rfl)

theorem State.HeldStep.poke (h : s.HeldStep t) {pa x n : Nat} : s.HeldStep (t.poke pa x n) := h.trans (.of_lines rfl)

theorem State.HeldStep.addWord (h : s.HeldStep t) {d : Int} {a : Nat} : s.HeldStep (t.addWord d a) :=
  (h.poke (pa := a)).trans (State.heldStep_setLine (fun _ => ⟨rfl, rfl, rfl⟩) id id)

theorem State.HeldStep.payRecs (h : s.HeldStep t) {home k : Nat} : s.HeldStep (t.payRecs home k) := by
  induction k generalizing t with
  | zero => exact h
  | succ k ih =>
    unfold State.payRecs
    dsimp only
    split
    · exact h
    · exact .ite h (ih h.setSlice.poke.poke.setSlice)

theorem State.HeldStep.writeRec (h : s.HeldStep t) {home d : Nat} {psn : Bool} : s.HeldStep (t.writeRec home d psn) := h.setSlice.payRecs

theorem State.HeldStep.dropMon (h : s.HeldStep t) {home : Nat} {e : MonEntry} : s.HeldStep (t.dropMon home e) :=
  .foldl (fun _ _ hu => hu.addWord) h.setSlice

/-- AFTER_WRITE (R95): entries are woken and leave, records are appended, arms fire, and the words of MONUSED are written in their turn. -/
theorem State.HeldStep.afterWriteFor {k home pa n : Nat} (h : s.HeldStep t) : s.HeldStep (State.afterWriteFor k home pa n t) := by
  induction k generalizing home pa n t with
  | zero => exact h
  | succ k ih =>
    exact .foldl (fun _ _ => .foldl fun _ _ => ih)
      (.foldl (fun _ _ hu => hu.fireArm) (.foldl (fun _ _ hu => .ite hu.writeRec hu) (.foldl (fun _ _ hu => hu.sendWake.dropMon) h)))

theorem State.HeldStep.charge (h : s.HeldStep t) {u : Usage} {rcb : Nat} {d : Int} : s.HeldStep (t.charge u rcb d) :=
  .foldl (fun _ _ => .foldl fun _ _ hu => hu.afterWriteFor) (.foldl (fun _ _ hu => hu.addWord) h)

/-- A line becomes poisoned (R110). -/
theorem State.HeldStep.afterPoison (h : s.HeldStep t) {home line : Nat} : s.HeldStep (t.afterPoison home line) :=
  .foldl (fun _ _ hu => hu.writeRec) (.foldl (fun _ _ hu => hu.sendWake.setSlice.charge) h)
end

/-- R53: what poisoning a line does after it has set the line's state. -/
theorem State.heldStep_poisonLine_set (s : State) (home pa cause : Nat) :
    (s.setLine pa { s.line pa with psn := true, pcause := cause }).HeldStep (s.poisonLine home pa cause) :=
  .ite (.refl _) (State.HeldStep.refl _).setSlice.machineCheck.afterPoison

theorem State.heldStep_poisonLine (s : State) (home pa cause : Nat) : s.HeldStep (s.poisonLine home pa cause) :=
  State.HeldStep.trans (t := s.setLine pa { s.line pa with psn := true, pcause := cause }) (State.heldStep_setLine id id fun _ => rfl)
    (s.heldStep_poisonLine_set home pa cause)

theorem State.psn_poisonLine (s : State) (home pa cause : Nat) : ((s.poisonLine home pa cause).line pa).psn = true :=
  (s.heldStep_poisonLine_set home pa cause).psn pa (by rw [State.line_setLine, if_pos rfl])

theorem State.heldStep_thresh (s : State) (home pa : Nat) : s.HeldStep (s.thresh home pa) := by
  have decoded (s : State) (q : Nat) (b : Bool) (w : Nat) (x : BitVec 128) : s.HeldStep (s.setLine q { s.line q with dec := b, win := w, side := x }) :=
    State.heldStep_setLine id id id
  unfold State.thresh
  dsimp only
  split
  · exact State.heldStep_setLine id id id
  · split
    · exact State.heldStep_setLine id id id
    · split
      · exact (decoded s _ _ _ _).trans (State.heldStep_poisonLine _ home _ 1)
      · exact decoded s _ _ _ _

theorem State.homeStep_homeRoom (s : State) (home pa : Nat) : s.HomeStep (s.homeRoom home pa) := by
  unfold State.homeRoom
  dsimp only
  split
  · exact (State.HeldStep.refl s).toHomeStep
  · exact State.homeStep_setLine fun _ => ⟨rfl, rfl, rfl⟩

theorem State.homeStep_install (s : State) (home pa : Nat) : s.HomeStep (s.install home pa) := by
  have hset := (s.homeStep_homeRoom home pa).trans
    (State.homeStep_setLine (pa := pa) (l := { (s.homeRoom home pa).line pa with valid := true, dirty := false, dec := false }) id)
  unfold State.install
  dsimp only
  split
  · exact hset.trans (State.heldStep_poisonLine _ home pa _).toHomeStep
  · exact hset

theorem State.homeStep_sideLines (s : State) (pa : Nat) : s.HomeStep (s.sideLines pa) := by
  have side (s : State) (q : Nat) : s.HomeStep (s.sideLine q) := by
    unfold State.sideLine
    split
    · exact (State.HeldStep.refl s).toHomeStep
    · exact s.homeStep_install _ q
  unfold State.sideLines
  split
  · exact (State.HeldStep.refl s).toHomeStep
  · exact (side s _).trans (side _ _)

/-- The state in which a fill of a line has made room for it and marked it held, before the thresher (R44). -/
def State.fillHeldLine (s : State) (home pa : Nat) : State :=
  let t := (s.sideLines pa).homeRoom home pa
  t.setLine pa { t.line pa with valid := true, dirty := false }

theorem State.homeStep_fillHeldLine (s : State) (home pa : Nat) : s.HomeStep (s.fillHeldLine home pa) :=
  ((s.homeStep_sideLines pa).trans (State.homeStep_homeRoom _ home pa)).trans (State.homeStep_setLine id)

/-- What follows in a fill (R46, R51, R154). -/
theorem State.heldStep_fillLine (s : State) (home pa : Nat) (bad : Bool) :
    (s.fillHeldLine home pa).HeldStep (s.fillLine home pa bad) ∧ (bad = true → ((s.fillLine home pa bad).line pa).psn = true) := by
  have dead (t : State) : t.HeldStep (if t.deadAt pa then t.poisonLine home pa (t.deadCause pa) else t) := by
    split
    · exact t.heldStep_poisonLine home pa _
    · exact .refl t
  have ht := (s.fillHeldLine home pa).heldStep_thresh home pa
  cases bad with
  | false => exact ⟨ht.trans (dead _), fun h => absurd h Bool.false_ne_true⟩
  | true => exact ⟨(ht.trans (State.heldStep_poisonLine _ home pa 0)).trans (dead _), fun _ => (dead _).psn pa (State.psn_poisonLine _ home pa 0)⟩

/-- A line of which there is no copy filled (R44, R45, R46). -/
theorem State.line_fillLine {s : State} {pa : Nat} (h : (s.line pa).uncopied) (home : Nat) (bad : Bool) :
    ((s.fillLine home pa bad).line pa).valid = true ∧ ((s.fillLine home pa bad).line pa).uncopied := by
  obtain ⟨hf, -⟩ := s.heldStep_fillLine home pa bad
  exact ⟨hf.valid pa (by rw [State.fillHeldLine, State.line_setLine, if_pos rfl]), hf.uncopied pa ((s.homeStep_fillHeldLine home pa).uncopied pa h)⟩

theorem State.groups_fillLine (s : State) (home pa : Nat) (bad : Bool) : (s.fillLine home pa bad).groups = s.groups :=
  ((s.heldStep_fillLine home pa bad).1.groups).trans (s.homeStep_fillHeldLine home pa).groups

end Sys2Proof.Machine
end

section
/-! Requests at their homes (R43, R44, R46, R57, R61, R73, R149): what reads, writes and atomics leave where the access has other requests outstanding, and
what a fill of a line leaves. -/

namespace Sys2Proof.Machine

open Sys2Proof

/-! ### Steps of cores -/

/-- Two states that differ in cores alone. -/
def State.CoreStep (s t : State) : Prop := t = { s with cores := t.cores }

theorem State.CoreStep.trans {s t u : State} (h : s.CoreStep t) (h' : t.CoreStep u) : s.CoreStep u := by
  unfold State.CoreStep at *
  rw [h', h]

theorem State.CoreStep.foldl {α : Type} {f : State → α → State} (hf : ∀ (t : State) x, t.CoreStep (f t x)) (l : List α) (s : State) :
    s.CoreStep (l.foldl f s) :=
  List.foldlRecOn (motive := s.CoreStep) l f rfl fun t ht x _ => ht.trans (hf t x)

theorem State.CoreStep.mem {s t : State} (h : s.CoreStep t) : t.mem = s.mem := by rw [h]
theorem State.CoreStep.groups {s t : State} (h : s.CoreStep t) : t.groups = s.groups := by rw [h]
theorem State.CoreStep.accs {s t : State} (h : s.CoreStep t) : t.accs = s.accs := by rw [h]

theorem State.coreStep_cleanOwn (s : State) (core : Nat) : s.CoreStep (s.cleanOwn core) :=
  State.CoreStep.trans (t := s.setCore core _) rfl (.foldl (fun t _ => (rfl : t.CoreStep (t.trimSet core _ _))) _ _)

theorem State.coreStep_fillL1 (s : State) (core : Nat) (p : Piece) : s.CoreStep (s.fillL1 core p) := by
  unfold State.fillL1
  dsimp only
  repeat' split
  all_goals rfl

/-! ### A request done while others of its access are outstanding -/

/-- A request of the access other than request `i` is not performed. -/
def Access.othersOpen (a : Access) (i : Nat) : Prop := ∃ j q, j ≠ i ∧ a.pieces[j]? = some q ∧ q.done = false

theorem Access.performed_of_othersOpen {a : Access} {i : Nat} (h : a.othersOpen i) (p : Piece) :
    Access.performed { a with pieces := a.pieces.set i p } = false := by
  obtain ⟨j, q, hj, hq, hd⟩ := h
  refine List.all_eq_false.2 ⟨q, List.mem_of_getElem? (i := j) ?_, by simp [hd]⟩
  rw [List.getElem?_set_ne (Ne.symm hj), hq]

/-- The end of the access is not yet due (R56). -/
theorem State.performed_of_othersOpen {s : State} {id i : Nat} {a : Access} {p : Piece} (h : a.othersOpen i)
    (hf : SMap.find s.accs id = some { a with pieces := a.pieces.set i p }) : s.performed id = s := by
  unfold State.performed
  rw [hf]
  simp [Access.performed_of_othersOpen h p]

theorem State.donePiece_of_othersOpen (s : State) {id i : Nat} {a : Access} (p : Piece) (h : a.othersOpen i) :
    s.donePiece id i a p = s.setPiece id i a { p with done := true } :=
  State.performed_of_othersOpen h (SMap.find_set_same _ _ _)

/-- The request as `setPiece` leaves it. -/
theorem State.find_setPiece (s : State) {id i : Nat} {a : Access} {p : Piece} (q : Piece) (hp : a.pieces[i]? = some p) :
    ∃ b, SMap.find (s.setPiece id i a q).accs id = some b ∧ b.ret = a.ret ∧ b.pieces[i]? = some q := by
  refine ⟨_, SMap.find_set_same _ _ _, rfl, ?_⟩
  obtain ⟨hi, -⟩ := List.getElem?_eq_some_iff.1 hp
  exact List.getElem?_set_self hi

/-! ### Reads, writes and atomics -/

theorem State.needLine_of_valid {s : State} {pa : Nat} (h : (s.line pa).valid = true) : s.needLine pa = s := by
  rw [State.needLine, if_pos (by simp [h])]

section
variable {s : State} {id i : Nat} {a : Access} {p : Piece}

/-- A read of a line without poison (R61). -/
theorem State.readPiece_memory (hr : pRange p.addr = .hbm) (hv : (s.line p.addr).valid = true) (hp : (s.line p.addr).psn = false) (hk : a.kind = .load)
    (ho : a.othersOpen i) : s.readPiece id i a p =
      (if a.cached then s.fillL1 (slotCore a.slot) p else s).setPiece id i (a.take p (s.seen a p.addr p.size (Memory.read s.mem p.addr p.size)))
        { p with done := true } := by
  have hbad : (s.linePsn p.addr && a.kind != .prefetch) = false := by rw [show s.linePsn p.addr = false from hp]; rfl
  have hkind : ¬ (a.kind == .prefetch) = true := by rw [hk]; decide
  unfold State.readPiece
  rw [hr]
  dsimp only
  rw [State.needLine_of_valid hv, hbad, if_neg Bool.false_ne_true, if_neg Bool.false_ne_true, if_neg hkind]
  exact State.donePiece_of_othersOpen _ _ ho

/-- A write to a line whose home is quiet (R45, R57). -/
theorem State.writePiece_memory (hr : pRange p.addr = .hbm) (hv : (s.line p.addr).valid = true) (hq : s.quiet (s.homeNow p.addr))
    (hc : s.containedOf a = none) (ho : a.othersOpen i) :
    ∃ u, State.CalmStep { s with mem := Memory.putAll s.mem p.addr (a.storeBytes p) } u ∧
      ((((u.l1Written a p).unstage p.addr).setPiece id i a { p with done := true }).CoreStep (s.writePiece id i a p)) := by
  refine ⟨_, State.calm_homeWrite hq p.addr (a.storeBytes p) (a.coversLine i p) none, ?_⟩
  unfold State.writePiece
  rw [hr, hc]
  simp only [Option.filter_none]
  rw [State.needLine_of_valid hv, State.donePiece_of_othersOpen _ _ ho]
  exact State.coreStep_cleanOwn _ _

theorem atomLanes_fst (op : Nat) (ty : BitVec 4) (n : Nat) (b c : Lane → Nat) (ls : List Lane) : ∀ x,
    (atomLanes op ty n b c ls x).1 = ls.foldl (fun x l => atomNew op ty x (b l % 2 ^ (8 * n)) (c l % 2 ^ (8 * n))) x := by
  induction ls with
  | nil => exact fun _ => rfl
  | cons l ls ih => exact fun x => ih _

/-- The word that an atomic other than hadd2 leaves (R59, R73). -/
theorem Access.atomPass_word (a : Access) (p : Piece) {op : Nat} (h9 : op ≠ 9) (ty : BitVec 4) (x : Nat) : ∃ r, a.atomPass op ty p x =
    ((lanesIn p.mask).foldl (fun x l => atomNew op ty x ((a.data[l]).toNat % 2 ^ (8 * p.size)) ((a.data2[l]).toNat % 2 ^ (8 * p.size))) x,
      { a with ret := r }, { p with done := true }) := by
  unfold Access.atomPass
  have hh : isHalves op = false := beq_false_of_ne h9
  simp only [hh, Bool.false_eq_true, if_false, atomLanes_fst, Nat.mod_mod]
  exact ⟨_, rfl⟩

/-- An atomic other than hadd2 that has begun (R59, R73). -/
theorem State.atomPiece_memory {op : Nat} {ty : BitVec 4} (hv : (s.line p.addr).valid = true) (hq : s.quiet (s.homeNow p.addr)) (h9 : op ≠ 9)
    (hb : a.untouched = false) (hbad : a.bad = false) (ho : a.othersOpen i) :
    let y := (lanesIn p.mask).foldl (fun x l => atomNew op ty x ((a.data[l]).toNat % 2 ^ (8 * p.size)) ((a.data2[l]).toNat % 2 ^ (8 * p.size)))
      (Memory.read s.mem p.addr p.size)
    ∃ u b, State.CalmStep { s with mem := Memory.putAll s.mem p.addr (valueBytes y p.size) } u ∧
      ((((u.setPiece id i b { p with done := true }).l1Written b p).unstage p.addr).CoreStep (s.atomPiece id i a p op ty)) := by
  intro y
  obtain ⟨r, hr⟩ := Access.atomPass_word a p h9 ty (Memory.read s.mem p.addr p.size)
  refine ⟨_, { a with ret := r }, State.calm_homeWrite hq p.addr (valueBytes y p.size) false none, ?_⟩
  unfold State.atomPiece
  simp only [hb, hbad, Bool.false_eq_true, if_false, State.needLine_of_valid hv, hr]
  rw [State.performed_of_othersOpen (a := { a with ret := r }) ho (SMap.find_set_same _ _ _)]
  exact State.coreStep_cleanOwn _ _

/-! ### A request comes to its home -/

/-- A request that its home performs (R102, R148): it is not turned away, and waits for no place in a ring. -/
theorem State.arrivePiece_memory (hr : pRange p.addr = .hbm) (ht : s.turned p.home p.cap p.addr p.size a.kind.writes = .no)
    (hq : s.quiet (s.homeNow p.addr)) : s.arrivePiece id i a p = s.doPiece id i a p := by
  have hring : s.ringHolds (s.homeNow p.addr) p.addr p.size = false := by simp [State.ringHolds, State.bucketUsed_of_quiet hq]
  have hhome : s.homePiece id i a p = s.doPiece id i a p := if_neg (by rw [hring, Bool.and_false]; exact Bool.false_ne_true)
  unfold State.arrivePiece
  rw [hr, ht, hhome]
  exact ite_self _

/-- A slice at which no other domain waits grants a request, and counts nothing (R399). -/
theorem State.granted_of_one (hw : ∀ d ∈ s.waitingAt p.home, d = s.clusterDomain (slotCluster a.slot)) : s.pieceGrant a p = true ∧ s.granted a p = s := by
  have hall : (s.waitingAt p.home).all (· == s.clusterDomain (slotCluster a.slot)) = true := by simpa using hw
  refine ⟨?_, ?_⟩
  · unfold State.pieceGrant State.grantable
    rcases Nat.eq_zero_or_pos (s.creditOf p.home (s.clusterDomain (slotCluster a.slot))) with h0 | h0
    · rw [Bool.or_eq_true, Bool.or_eq_true]
      exact .inr (.inr (List.all_eq_true.2 fun d hd => by rw [hw d hd, h0]; rfl))
    · simp [h0]
  · unfold State.granted State.grantFor
    simp only [hall, if_true]
    exact ite_self s

theorem exec_homeRead_piece (id i : Nat) (s : State) :
    exec (.homeRead (.piece id i)) s = pieceEvent (fun k => k == .load || k == .qunpk || k == .prefetch) id i s := rfl
theorem exec_homeWrite_piece (id i : Nat) (s : State) : exec (.homeWrite (.piece id i)) s = pieceEvent (fun k => k == .store) id i s := rfl
theorem exec_homeAtomic_piece (id i : Nat) (s : State) :
    exec (.homeAtomic (.piece id i)) s = pieceEvent (fun k => k.writes && k != .store) id i s := rfl

/-- An event of a group's request of the event's kind. -/
theorem pieceEvent_due {kind : AccKind → Bool} (ho : s.pieceOpen id i = some (a, p)) (hg : a.space = .global) (hk : kind a.kind = true)
    (hl : p.isLocal = true) (hgr : a.stale = true ∨ s.pieceGrant a p = true) :
    pieceEvent kind id i s = .next (if a.stale then s.translateAgain id a else (s.granted a p).arrivePiece id i a p) := by
  unfold pieceEvent
  rw [ho]
  exact event_due (by simp [hg, hk, hl, Bool.or_eq_true, hgr])

/-- The request is one of its access. -/
theorem State.piece_of_pieceOpen (h : s.pieceOpen id i = some (a, p)) : a.pieces[i]? = some p := by
  unfold State.pieceOpen at h
  split at h
  · cases h
  · split at h
    · cases h
    · next hp =>
      split at h
      · cases h
      · cases h
        exact hp

end

/-! ### Line fills and replays -/

theorem State.lines_bucketEvent (s : State) (off weight cluster : Nat) (unc : Bool) : (s.bucketEvent off weight cluster unc).lines = s.lines := by
  unfold State.bucketEvent
  dsimp only
  repeat' split
  all_goals rfl

/-- A fill differs from that of its line in a count of the slice and a bucket alone (R44, R46, R373). -/
theorem State.homeFill_keeps (s : State) (pa bank : Nat) (e : FlitCheck) :
    let u := (s.evictLine pa).fillLine (s.homeNow pa) pa (e == .bad)
    (s.homeFill pa bank e).lines = u.lines ∧ (s.homeFill pa bank e).mem = u.mem ∧ (s.homeFill pa bank e).groups = u.groups := by
  intro u
  cases e with
  | good => exact ⟨rfl, rfl, rfl⟩
  | corrected =>
    obtain ⟨hm, hg, -⟩ := State.bucketEvent_keeps (u.setSlice (s.homeNow pa) { u.slice (s.homeNow pa) with ecc := (u.slice (s.homeNow pa)).ecc + 1 })
      (bankBucket (s.homeNow pa) bank) 1 (dieCluster0 (s.homeNow pa / 32)) false
    exact ⟨State.lines_bucketEvent _ _ _ _ _, hm, hg⟩
  | bad =>
    obtain ⟨hm, hg, -⟩ := u.bucketEvent_keeps (bankBucket (s.homeNow pa) bank) 64 (dieCluster0 (s.homeNow pa / 32)) true
    exact ⟨u.lines_bucketEvent _ _ _ _, hm, hg⟩

theorem State.uncopied_evictLine (s : State) (pa : Nat) : ((s.evictLine pa).line pa).uncopied := by
  rw [State.evictLine, State.line_setLine, if_pos rfl]
  exact ⟨rfl, rfl, rfl⟩

theorem lineOf_div (pa : Nat) : pa / 128 = lineOf pa / 128 := by rw [lineOf, Nat.mul_div_cancel _ (by decide)]

/-- What a fill of a line leaves (R44, R45, R46). -/
theorem State.homeFill_line (s : State) (pa bank : Nat) (e : FlitCheck) :
    let t := s.homeFill (lineOf pa) bank e
    (t.line pa).valid = true ∧ (t.line pa).uncopied ∧ t.groups = s.groups ∧ (e = .bad → (t.line pa).psn = true) ∧
      (s.windowOf (lineOf pa) = none → s.quiet (s.homeNow (lineOf pa)) → t.mem = s.mem) := by
  intro t
  obtain ⟨hl, hm, hg⟩ := s.homeFill_keeps (lineOf pa) bank e
  have hline : t.line pa = ((s.evictLine (lineOf pa)).fillLine (s.homeNow (lineOf pa)) (lineOf pa) (e == .bad)).line (lineOf pa) := by
    rw [t.line_congr (lineOf_div pa), State.line, State.line, hl]
  obtain ⟨hv, hu⟩ := State.line_fillLine (s.uncopied_evictLine (lineOf pa)) (s.homeNow (lineOf pa)) (e == .bad)
  refine ⟨by rw [hline]; exact hv, by rw [hline]; exact hu, hg.trans (State.groups_fillLine _ _ _ _), fun he => ?_, fun hw hq => ?_⟩
  · rw [hline]
    exact (State.heldStep_fillLine _ _ _ _).2 (by rw [he]; rfl)
  · have hf : lineOf (lineOf pa) = lineOf pa := by rw [lineOf, ← lineOf_div, lineOf]
    exact hm.trans (State.calm_fillLine (s := s.evictLine (lineOf pa)) hq (by rw [hf]; exact hw) _).mem

/-- A request that was refused with MOVED is sent again (R149). -/
theorem execMovedReplay_due {s : State} {id i : Nat} {a : Access} {p : Piece} (hf : SMap.find s.accs id = some a) (hp : a.pieces[i]? = some p)
    (hm : p.moved = true) (hd : p.done = false) :
    let t := s.refreshDesc (slotCluster a.slot)
    execMovedReplay id i s = .next (t.setPiece id i a
      { p with moved := false, replay := true, home := t.routeTo (slotCluster a.slot) p.addr, phase := (t.routeAt (slotCluster a.slot)).phase,
               next := (t.routeAt (slotCluster a.slot)).next, cap := t.hub.memcap }) := by
  unfold execMovedReplay
  rw [hf]
  simp only [hp]
  exact event_due (by simp [hm, hd])

/-- Settles O51: a request that its home performs is done, and its access stays open; a line that is filled has no copies. -/
theorem homesPerformRequests : Obligations.HomesPerformRequests := by
  intro s id i a p r u
  refine ⟨?requests, ?effects, fun h => ?hartRead, fun h => ?hartWrite, fun h => ?hartAtomic, fun n go h => State.sendFrom_reached h, ?ring, ?stalled, ?fill,
    ?replay, ?response⟩
  case requests =>
    intro ho hg hl hgr
    refine ⟨fun hk => ?_, fun hk => ?_, fun op ty hk => ?_⟩
    · exact (exec_homeRead_piece id i s).trans (pieceEvent_due ho hg (by simpa [or_assoc] using hk) hl hgr)
    · exact (exec_homeWrite_piece id i s).trans (pieceEvent_due ho hg (by rw [hk]; rfl) hl hgr)
    · exact (exec_homeAtomic_piece id i s).trans (pieceEvent_due ho hg (by rw [hk]; rfl) hl hgr)
  case effects =>
    intro ho hg hr ht hv hp hdec hmon hsp hst hw hc hopen
    have hq : s.quiet (s.homeNow p.addr) := ⟨hmon, hsp⟩
    have hi := State.piece_of_pieceOpen ho
    obtain ⟨hgrant, hgranted⟩ := State.granted_of_one (a := a) hw
    have performs {kind : AccKind → Bool} (hk : kind a.kind = true) : pieceEvent kind id i s = .next (s.doPiece id i a p) := by
      rw [pieceEvent_due ho hg hk (by rw [Piece.isLocal, hr]) (.inr hgrant), hst, if_neg Bool.false_ne_true, hgranted, State.arrivePiece_memory hr ht hq]
    refine ⟨fun hk => ?_, fun hk => ?_, fun op ty hk h9 hb hbad => ?_⟩
    · refine ⟨_, (exec_homeRead_piece id i s).trans (performs (by rw [hk]; rfl)), ?_⟩
      rw [State.doPiece, hk]
      dsimp only
      rw [State.readPiece_memory hr hv hp hk hopen]
      have hcore : s.CoreStep (if a.cached then s.fillL1 (slotCore a.slot) p else s) := by
        split
        · exact s.coreStep_fillL1 _ p
        · rfl
      exact ⟨hcore.mem, hcore.groups, State.find_setPiece _ _ hi⟩
    · refine ⟨_, (exec_homeWrite_piece id i s).trans (performs (by rw [hk]; rfl)), ?_⟩
      rw [State.doPiece, hk]
      dsimp only
      obtain ⟨u, hu, ht⟩ := State.writePiece_memory (id := id) hr hv hq hc hopen
      obtain ⟨b, hb, -, hbi⟩ := State.find_setPiece ((u.l1Written a p).unstage p.addr) { p with done := true } hi
      exact ⟨ht.mem.trans hu.mem, ht.groups.trans hu.groups, b, by rw [ht.accs]; exact hb, hbi⟩
    · refine ⟨_, (exec_homeAtomic_piece id i s).trans (performs (by rw [hk]; rfl)), ?_⟩
      rw [State.doPiece, hk]
      dsimp only
      obtain ⟨u, b, hu, ht⟩ := State.atomPiece_memory (id := id) (ty := ty) hv hq h9 hb hbad hopen
      exact ⟨ht.mem.trans hu.mem, ht.groups.trans hu.groups⟩
  case hartRead => exact (exec_homeRead (.hart r) s).trans (event_due h)
  case hartWrite => exact (exec_homeWrite (.hart r) s).trans (event_due h)
  case hartAtomic => exact (exec_homeAtomic (.hart r) s).trans (event_due h)
  case ring => exact fun home h => if_pos (by simpa using h)
  case stalled =>
    intro home st hnone hnext
    rw [exec_ringStallRelease, execRingStallRelease, hnone, hnext]
    rfl
  case fill =>
    intro pa bank e hr hb hs hd
    obtain ⟨hv, ⟨hh, hsv, hsm⟩, hg, hbad, hmem⟩ := s.homeFill_line pa bank e
    exact ⟨_, (exec_homeLineFill pa bank e s).trans (event_due (by simp [hr, hb, hs, hd])), hv, hh, hsv, hsm, hg, hbad,
      fun hw hmon hsp => hmem hw ⟨hmon, hsp⟩⟩
  case replay =>
    intro hf hp hm hd
    obtain ⟨b, hb, -, hbi⟩ := State.find_setPiece (s.refreshDesc (slotCluster a.slot)) _ hp
    exact ⟨_, (exec_movedReplay id i s).trans (execMovedReplay_due hf hp hm hd), rfl, rfl, b, _, hb, hbi, rfl, rfl, rfl, rfl, rfl⟩
  case response =>
    intro h
    rw [exec_loadResponse, execLoadResponse, h]

end Sys2Proof.Machine
end

section
/-! Results that return (R32, R180, R208, R213, R214): where no later instruction of the run has written, a late write is the write of an instruction that
issues, so that the laws of those writes hold of it. -/

namespace Sys2Proof.Machine

open Sys2Proof

/-! ### Words written late -/

section
variable {g : Group} {n : Nat}

/-- With no later write in the history, a late write goes before all of it (R214). -/
theorem Group.lateWord_eq_putWord (h : ∀ z ∈ g.haz, z.seq ≤ n) (r : Nat) (m : LaneMask) (x : Lane → Word) :
    g.lateWord r m x n = g.putWord r m x n false := by
  unfold Group.lateWord Group.putWord
  cases hh : g.haz with
  | nil => rfl
  | cons z zs =>
    have hz : z.seq ≤ n := h z (by simp [hh])
    simp only [hazPrior, hazInsert, if_pos hz]

theorem Group.haz_putWords (h : ∀ z ∈ g.haz, z.seq ≤ n) (r : Nat) (m : LaneMask) (x : Lane → BitVec 128) (k : Nat) :
    ∀ z ∈ (g.putWords r m x n false k).haz, z.seq ≤ n := by
  induction k with
  | zero => exact h
  | succ k ih =>
    intro z hz
    rcases List.mem_cons.1 hz with rfl | hz
    · exact Nat.le_refl n
    · exact ih z hz

theorem Group.lateWords_eq_putWords (h : ∀ z ∈ g.haz, z.seq ≤ n) (r : Nat) (m : LaneMask) (x : Lane → BitVec 128) (k : Nat) :
    g.lateWords r m x n k = g.putWords r m x n false k := by
  induction k with
  | zero => rfl
  | succ k ih => rw [Group.lateWords, ih, Group.lateWord_eq_putWord (Group.haz_putWords h r m x k), Group.putWords]
end

/-! ### A destination written -/

section
variable (g : Group) {d k : Nat} (m : LaneMask) (x : Lane → BitVec 128) (n : Nat) (f : Bool) (hd : d + k ≤ 264 ∨ 1024 ≤ d)
include hd

theorem Group.raw_putWords_written {j : Nat} {l : Lane} (hj : j < k) (hw : writesAt d k m (d + j) l) :
    (g.putWords d m x n f k).raw (d + j) l = wordAt x j (if 1024 ≤ d then lowLane m else l) := by
  obtain ⟨-, -, hl⟩ := hw
  rw [Group.raw_putWords g d m x n f k hd j l hj]
  by_cases h : 1024 ≤ d
  · have hm : m ≠ 0 := hl.elim (fun hl e => by rw [e, laneIn_zero] at hl; cases hl) And.right
    rw [if_pos h, if_neg hm, if_pos h]
  · rw [if_neg h, if_pos (hl.resolve_right fun e => h e.1), if_neg h]

theorem Group.raw_putWords_kept {q : Nat} {l : Lane} (hq : realReg q) (hw : ¬ writesAt d k m q l) : (g.putWords d m x n f k).raw q l = g.raw q l := by
  by_cases hin : d ≤ q ∧ q < d + k
  · obtain ⟨hdq, hqk⟩ := hin
    obtain ⟨j, rfl⟩ : ∃ j, q = d + j := ⟨q - d, by omega⟩
    have hl : ¬ (laneIn m l = true ∨ (1024 ≤ d ∧ m ≠ 0)) := fun e => hw ⟨hdq, hqk, e⟩
    rw [Group.raw_putWords g d m x n f k hd j l (by omega)]
    by_cases h : 1024 ≤ d
    · rw [if_pos h, if_pos (Classical.byContradiction fun e => hl (.inr ⟨h, e⟩))]
    · rw [if_neg h, if_neg fun e => hl (.inl e)]
  · exact Group.raw_putWords_ne g d m x n f k hd q l hq (by omega)
end

/-- A result that returns, in its group (R192, R208, R214). -/
def Group.withReturn (d : Dest) (x : Lane → BitVec 128) (fl : Flags) (g : Group) : Group :=
  ((g.writeDest d x).orFlags (if d.seq < g.fstatSeq then 0 else fl)).noteFlags d.seq fl

/-- What a result that returns leaves in its group. -/
structure Returned (d : Dest) (x : Lane → BitVec 128) (fl : Flags) (g h : Group) : Prop where
  dest : ∀ r, d.opnd.firstReg = some r → ∀ k l, k < wordsOf d.width → writesAt r (wordsOf d.width) d.lanes (r + k) l →
    h.raw (r + k) l = wordAt x k (if 1024 ≤ r then lowLane d.lanes else l)
  kept : ∀ q l, realReg q → q ≠ regF → (∀ r, d.opnd.firstReg = some r → ¬ writesAt r (wordsOf d.width) d.lanes q l) → h.raw q l = g.raw q l
  flags : h.fstat = g.fstat ||| (if d.seq < g.fstatSeq then 0 else fl)
  pc : h.pc = g.pc
  apart : h.apart = g.apart

theorem Returned.exited {d : Dest} {x : Lane → BitVec 128} {fl : Flags} {g h : Group} (hr : Returned d x fl g h) : h.exited = g.exited :=
  (congrArg Group.exited hr.apart : h.apart.exited = g.apart.exited)

theorem Returned.st {d : Dest} {x : Lane → BitVec 128} {fl : Flags} {g h : Group} (hr : Returned d x fl g h) : h.st = g.st :=
  (congrArg Group.st hr.apart : h.apart.st = g.apart.st)

theorem Group.returned_withReturn {d : Dest} {g : Group} (x : Lane → BitVec 128) (fl : Flags) (hh : ∀ z ∈ g.haz, z.seq ≤ d.seq)
    (hd : ∀ r, d.opnd.firstReg = some r → r + wordsOf d.width ≤ 264 ∨ 1024 ≤ r) : Returned d x fl g (g.withReturn d x fl) := by
  obtain ⟨oraw, ofl, oapart, opc, -⟩ := Group.orFlags_spec (g.writeDest d x) (if d.seq < g.fstatSeq then 0 else fl)
  have hdest : ∀ r, d.opnd.firstReg = some r → g.writeDest d x = (g.putWords r d.lanes x d.seq false (wordsOf d.width)).note d x := fun r hr => by
    rw [Group.writeDest, hr, ← Group.lateWords_eq_putWords hh]
  have hnone : d.opnd.firstReg = none → g.writeDest d x = g.note d x := fun hr => by rw [Group.writeDest, hr]
  refine ⟨fun r hr k l hk hw => ?_, fun q l hq hF hn => ?_, ?_, ?_, ?_⟩
  · have hreal := hd r hr
    have hF : r + k ≠ regF := by unfold regF; omega
    exact (oraw _ l (by unfold realReg; omega) hF).trans (by rw [hdest r hr]; exact Group.raw_putWords_written g _ x _ _ hreal hk hw)
  · refine (oraw q l hq hF).trans ?_
    cases hr : d.opnd.firstReg with
    | none => rw [hnone hr]; rfl
    | some r => rw [hdest r hr]; exact Group.raw_putWords_kept g _ x _ _ (hd r hr) hq (hn r hr)
  · refine ofl.trans ?_
    cases hr : d.opnd.firstReg with
    | none => rw [hnone hr]; rfl
    | some r => rw [hdest r hr, ← Group.fstat_putWords g r d.lanes x d.seq false _ (hd r hr)]; rfl
  · refine opc.trans ?_
    cases hr : d.opnd.firstReg with
    | none => rw [hnone hr]; rfl
    | some r => rw [hdest r hr]; exact (Group.steps_putWords g r d.lanes x d.seq false _).1
  · refine oapart.trans ?_
    cases hr : d.opnd.firstReg with
    | none => rw [hnone hr]; rfl
    | some r => rw [hdest r hr]; exact Group.apart_putWords g r d.lanes x d.seq false _

/-! ### A result returns -/

section
variable (s : State) (slot id : Nat) (d : Dest) (x : Lane → BitVec 128) (fl : Flags)

/-- A result returns to the group in its slot: the group is written, which also notes the result in the last-result files that it keeps of interrupted runs,
and so is the last-result file of its partition. -/
theorem State.giveResult_own : ∃ all f, s.giveResult slot (s.group slot).uid id d (some x) fl =
      (s.updGroup slot f).setPart (slotPart slot) ((s.part (slotPart slot)).resolve id (some x) all (lowLane d.lanes)) ∧
    ((∀ j, d.opnd ≠ .s j) → all = false) ∧ ∃ m t, f (s.group slot) = { (s.group slot).withReturn d x fl with midRun := m, trapSave := t } := by
  unfold State.giveResult State.updUid
  dsimp only
  rw [if_pos rfl]
  refine ⟨_, _, rfl, fun hs => ?_, _, _, rfl⟩
  split
  · next j hj => exact absurd hj (hs j)
  · rfl

/-- The entry of the last-result file that waits for the result receives the lanes' values (R32, R213). -/
theorem LEntry.resolve_lanes {e : LEntry} (h : e.pend = some id) (low : Lane) :
    (e.resolve id (some x) false low).pend = none ∧ ∀ l, laneIn e.valid l = true → (e.resolve id (some x) false low).val[l] = (x l).setWidth 64 := by
  unfold LEntry.resolve
  rw [h, if_neg (by simp)]
  refine ⟨rfl, fun l hl => ?_⟩
  simp [hl]

end

/-! ### The value of a load (R180) -/

/-- An element narrower than a register, extended to 32 bits. -/
theorem ofNat_extend32 {n : Nat} (h0 : 0 < n) (hn : n < 32) (signed : Bool) (x : BitVec 128) :
    BitVec.ofNat 128 (extend32 n signed x.toNat) = (if signed then (x.setWidth n).signExtend 32 else (x.setWidth n).setWidth 32).setWidth 128 := by
  have hy : x.toNat % 2 ^ n < 2 ^ n := Nat.mod_lt _ (by positivity)
  have h32 : 2 ^ n ≤ 2 ^ 31 := Nat.pow_le_pow_right (by decide) (by omega)
  have hhalf : 2 ^ n = 2 ^ (n - 1) * 2 := by rw [← Nat.pow_succ]; congr 1; omega
  have hmsb : (x.setWidth n).msb = decide (x.toNat % 2 ^ n / 2 ^ (n - 1) = 1) := by
    rw [BitVec.msb_eq_decide, BitVec.toNat_setWidth, decide_eq_decide]
    constructor
    · exact fun h => Nat.div_eq_of_lt_le (by omega) (by omega)
    · exact fun h => by have := Nat.div_mul_le_self (x.toNat % 2 ^ n) (2 ^ (n - 1)); rw [h] at this; omega
  apply BitVec.eq_of_toNat_eq
  unfold extend32
  cases signed with
  | false =>
    simp only [Bool.false_and, Bool.false_eq_true, ↓reduceIte, BitVec.toNat_ofNat, Nat.reducePow, BitVec.toNat_setWidth]
    omega
  | true =>
    simp only [Bool.true_and, decide_eq_true_eq, Nat.reducePow, BitVec.toNat_ofNat, ↓reduceIte, BitVec.toNat_setWidth, BitVec.toNat_signExtend,
      hmsb]
    split <;> omega

theorem Access.value_load {a : Access} (hk : a.kind = .load) (ho : a.once = false) (l : Lane) :
    a.value l = if a.bits < 32 then BitVec.ofNat 128 (extend32 a.bits a.signed (a.ret[l]).toNat) else ((a.ret[l]).setWidth a.bits).setWidth 128 := by
  unfold Access.value
  split
  · next hq _ => rw [hk] at hq; cases hq
  · simp only [ho, Bool.false_eq_true, if_false]

/-- Settles O52: the group by the laws of writes, the last-result file by its own. -/
theorem returnedResultsAreWritten : Obligations.ReturnedResultsAreWritten := by
  refine ⟨?written, ?value⟩
  case written =>
    intro s slot id d x fl g t h n hh hd
    obtain ⟨all, f, ht, hall, m, tr, hf⟩ := s.giveResult_own slot id d x fl
    have hret := Group.returned_withReturn x fl hh hd
    have ht : t = _ := ht
    have hgroup : h = { g.withReturn d x fl with midRun := m, trapSave := tr } := by
      rw [show h = t.group slot from rfl, ht, State.group_setPart, State.group_updGroup, hf]
    have hraw : ∀ q l, h.raw q l = (g.withReturn d x fl).raw q l := fun q l => by rw [hgroup]; rfl
    refine ⟨fun r hr k l hk hw => (hraw _ l).trans (hret.dest r hr k l hk hw), fun q l hq hF hn => (hraw q l).trans (hret.kept q l hq hF hn), ?_, ?_, ?_, ?_,
      ?_, fun k hk => ?_, fun hp hs => ?_⟩
    · rw [hgroup]; exact hret.flags
    · rw [hgroup]; exact hret.pc
    · rw [hgroup]; exact hret.exited
    · rw [hgroup]; exact hret.st
    · rw [ht]; rfl
    · rw [ht, State.group_setPart, State.group_updGroup_ne _ _ _ _ hk]
    · rw [ht, hall hs, State.part_setPart]
      exact LEntry.resolve_lanes id x hp _
  case value =>
    intro a l hk ho
    rw [Access.value_load hk ho]
    exact ⟨fun h => if_neg (by omega), fun h => (if_pos (by omega)).trans (ofNat_extend32 (by omega) (by omega) _ _)⟩

end Sys2Proof.Machine
end

section
/-! Copies, counters and the matrix unit (R54, R81, R280, R295, R302, R309, R318, R323): what a piece of a copy between lines of memory and a decrement of an
armed counter leave. -/

namespace Sys2Proof.Machine

open Sys2Proof

theorem pRange_hbm {pa : Nat} (h : pa < 2 ^ 43) : pRange pa = .hbm := if_pos h

/-! ### The pieces of a copy -/

section
variable {s : State} {k : Copy} {pa : Nat} {data : BitVec 128} {st : Nat}

/-- A read of a piece from a line that holds no poison, of a team that holds no stores back (R81). -/
theorem State.copyRead_memory (hr : s.refuse k.priv .load 1 pa 16 = none) (hpa : pa < 2 ^ 43) (hc : (s.team k.team).commit = [])
    (hv : (s.line pa).valid = true) (hp : (s.line pa).psn = false) : s.copyRead k pa data st = (.ok (Memory.read s.mem pa 16), s) := by
  have hpsn : s.linePsn pa = false := hp
  unfold State.copyRead
  rw [hr, pRange_hbm hpa, State.needLine_of_valid hv]
  simp only [hpsn, Team.overlay, hc, List.foldl_nil]
  rfl

theorem State.groups_race (s : State) (uid : Option Nat) (pa n : Nat) : (s.race uid pa n).groups = s.groups := by
  unfold State.race
  split <;> rfl

/-- A write of a piece to a line whose home is quiet (R81). -/
theorem State.copyWrite_memory {x : Nat} (hr : s.refuse k.priv .store 1 pa 16 = none) (hpa : pa < 2 ^ 43) (hs : k.shares = false)
    (hv : (s.line pa).valid = true) (hq : s.quiet (s.homeNow pa)) :
    ∃ u, State.CalmStep { s with mem := Memory.putAll s.mem pa (valueBytes x 16) } u ∧
      s.copyWrite k pa (.ok x) st = (false, (u.race none pa 16).bump) := by
  refine ⟨_, State.calm_homeWrite hq pa (valueBytes x 16) false none, ?_⟩
  unfold State.copyWrite
  rw [hr, pRange_hbm hpa, State.needLine_of_valid hv]
  simp only [State.copyBytes, hs]
  rfl

theorem execCopyPiece_due {id i : Nat} {p : CopyPiece} (h : s.copyDue id i = some (k, p)) :
    execCopyPiece id i data st s = .next (s.copyPiece id i k p data st) := by
  unfold execCopyPiece
  rw [h]

/-- A piece that is to be read where its agent is not refused with MOVED (R149). -/
theorem State.copyPiece_reads {id i : Nat} {p : CopyPiece} (hrd : p.rd = none) (hm : s.fateFrom (slotCluster k.slot) p.src ≠ .moved) :
    s.copyPiece id i k p data st =
      (s.copyRead k p.src data st).2.setCopyPiece id i k { p with rd := some (s.copyRead k p.src data st).1, since := (s.copyRead k p.src data st).2.cycle }
        false := by
  unfold State.copyPiece
  simp only [hrd]
  exact State.sendFrom_reached hm

/-- The same of a piece that has been read whole. -/
theorem State.copyPiece_writes {id i x : Nat} {p : CopyPiece} (hrd : p.rd = some (.ok x)) (hm : s.fateFrom (slotCluster k.slot) p.dst ≠ .moved) :
    s.copyPiece id i k p data st =
      (s.copyWrite k p.dst (.ok x) st).2.setCopyPiece id i k { p with done := true } ((s.copyWrite k p.dst (.ok x) st).1 || false) := by
  unfold State.copyPiece
  simp only [hrd]
  exact State.sendFrom_reached hm
end

theorem execCopyComplete_over {s : State} {id : Nat} {k : Copy} (h : s.copyOver id = some k)
    (hm : ∀ i, k.tdc = some i → s.fateFrom (slotCluster k.slot) (s.counterAt (s.prog k.slot).rcb i.toNat) ≠ .moved) :
    execCopyComplete id s = .next (s.copyDone id k) := by
  unfold execCopyComplete
  rw [h]
  dsimp only
  split
  · next i hi => rw [State.sendFrom_reached (hm i hi)]
  · rfl

/-! ### Counters -/

section
variable {m : Memory} {pa v : Nat}

theorem Memory.read_low_putAll : (m.putAll pa (valueBytes v 8)).read pa 4 = v % 2 ^ 32 := by
  rw [← Memory.read_mod 4 8 _ _ (by decide), Memory.read_putAll_valueBytes]
  omega

theorem Memory.dword_putAll_same : (m.putAll pa (valueBytes v 8)).dword pa = BitVec.ofNat 64 v := by
  rw [Memory.dword, Memory.read_putAll_valueBytes]
  exact BitVec.eq_of_toNat_eq (by simp)

theorem Memory.dword_putAll_next : (m.putAll pa (valueBytes v 8)).dword (pa + 8) = m.dword (pa + 8) := by
  rw [Memory.dword, Memory.dword, Memory.read_congr 8 _ _ _ fun i _ => Memory.byte_putAll_valueBytes_outside m pa v 8 (pa + 8 + i) (.inr (by omega))]
end

/-- A counter entry's first word with a new COUNT (14 Table 4). -/
def withCount (w : DWord) (c : Int) : Nat := w.toNat / 2 ^ 32 * 2 ^ 32 + (BitVec.ofInt 32 c).toNat

theorem withCount_mod (w : DWord) (c : Int) : withCount w c % 2 ^ 32 = (BitVec.ofInt 32 c).toNat := by
  rw [withCount, Nat.mul_add_mod', Nat.mod_eq_of_lt (BitVec.isLt _)]

theorem withCount_armed (w : DWord) (c : Int) : (BitVec.ofNat 64 (withCount w c)).getLsbD 36 = w.getLsbD 36 := by
  have hc := (BitVec.ofInt 32 c).isLt
  rw [BitVec.getLsbD_ofNat, BitVec.getLsbD, Nat.testBit_eq_decide_div_mod_eq, Nat.testBit_eq_decide_div_mod_eq, withCount]
  simp only [decide_true, Bool.true_and, decide_eq_decide, show 36 < 64 from by decide]
  omega

/-- One decrement of a count above 1 is a store of the entry's first word: no task becomes ready, and no lane underflows (R318). -/
theorem State.decrement_above_one {s : State} {d : PendDec} (ho : d.once = true) (hb : s.counterBad (s.counterAt d.rcb d.idx) = none)
    (hv : (s.line (s.counterAt d.rcb d.idx)).valid = true) (hc : 1 < s.countAt (s.counterAt d.rcb d.idx))
    (ha : s.armedAt (s.counterAt d.rcb d.idx) = true) :
    s.decrement d = s.homeStore (s.counterAt d.rcb d.idx)
      (withCount (s.dword (s.counterAt d.rcb d.idx)) (s.countAt (s.counterAt d.rcb d.idx) - 1)) 8 := by
  have hdec (c : Int) (h1 : 1 < c) (l : Lane) : DecRes.dec true { count := c } l = { count := c - 1 } := by
    have h0 : ¬ c ≤ 0 := by omega
    have h2 : ¬ c - 1 = 0 := by omega
    simp [DecRes.dec, h0, h2]
  have hne : s.countAt (s.counterAt d.rcb d.idx) - 1 ≠ s.countAt (s.counterAt d.rcb d.idx) := by omega
  unfold State.decrement
  simp only [hb, ho, ha, if_true, List.foldl_cons, List.foldl_nil, hdec _ hc, State.needLine_of_valid hv, Bool.false_eq_true, if_false]
  exact if_neg hne

/-- An entry after a store of its first word with a count above 0, at a quiet home. -/
theorem State.homeStore_count {s : State} {pa : Nat} (hq : s.quiet (s.homeNow pa)) (hh : s.homesOf pa = [s.homeNow pa]) {c : Int} (h0 : 0 ≤ c)
    (h1 : c < 2 ^ 31) : let t := s.homeStore pa (withCount (s.dword pa) c) 8
    t.countAt pa = c ∧ t.armedAt pa = s.armedAt pa ∧ t.groups = s.groups ∧ t.dword (pa + 8) = s.dword (pa + 8) := by
  intro t
  have hcalm := State.calm_homeStore (State.quiet_homes hq hh) (withCount (s.dword pa) c) 8
  have hm : t.mem = Memory.putAll s.mem pa (valueBytes (withCount (s.dword pa) c) 8) := hcalm.mem
  refine ⟨?_, ?_, hcalm.groups, ?_⟩
  · rw [State.countAt, State.word, hm, Memory.read_low_putAll, withCount_mod, BitVec.ofNat_toNat, BitVec.setWidth_eq, BitVec.toInt_ofInt,
      Int.bmod_eq_of_le (by omega) (by omega)]
  · rw [State.armedAt, State.dword, hm, Memory.dword_putAll_same, withCount_armed, State.armedAt]
  · rw [State.dword, hm, Memory.dword_putAll_next, State.dword]

/-- Settles O56: pieces and decrements by what they leave at a quiet home, the other events as they are due. -/
theorem enginesAct : Obligations.EnginesAct := by
  intro s k n
  refine ⟨?piece, ?reads, ?writes, ?ends, ?arm, ?dec, ?count, ?start, ?row, ?tile⟩
  case piece => exact fun c p data st h => (exec_copyPiece k n data st s).trans (execCopyPiece_due h)
  case reads =>
    intro c p data st h hrd _ hpa hr hm hc hv hp
    refine ⟨_, (exec_copyPiece k n data st s).trans (execCopyPiece_due h), ?_⟩
    rw [State.copyPiece_reads hrd hm, State.copyRead_memory hr hpa hc hv hp]
    exact ⟨rfl, rfl, _, SMap.find_set_same _ _ _, rfl, Bool.or_false _⟩
  case writes =>
    intro c p x data st h hrd hs _ hpa hr hm hv _ hmon hsp
    refine ⟨_, (exec_copyPiece k n data st s).trans (execCopyPiece_due h), ?_⟩
    obtain ⟨u, hu, hw⟩ := State.copyWrite_memory (st := st) (x := x) hr hpa hs hv ⟨hmon, hsp⟩
    have hmem : ((u.race none p.dst 16).bump).mem = Memory.putAll s.mem p.dst (valueBytes x 16) := (u.mem_race _ _ _).trans hu.mem
    rw [State.copyPiece_writes hrd hm, hw]
    refine ⟨(u.groups_race _ _ _).trans hu.groups, ?_, fun a ha => ?_, _, SMap.find_set_same _ _ _, rfl, Bool.or_false _⟩
    · exact (congrArg (Memory.read · p.dst 16) hmem).trans (Memory.read_putAll_valueBytes _ _ _ _)
    · exact (congrArg (Memory.byte · a) hmem).trans (Memory.byte_putAll_valueBytes_outside _ _ _ _ _ ha)
  case ends => exact fun c h hm => (exec_copyComplete k s).trans (execCopyComplete_over h hm)
  case arm =>
    intro a h
    rw [exec_counterArm, execCounterArm, h]
  case dec =>
    intro d h
    rw [exec_counterDecrement, execCounterDecrement, h]
  case count =>
    intro d pa ho hb hh ha hc hv hmon hsp
    have hlt : s.countAt pa < 2 ^ 31 := BitVec.toInt_lt
    obtain ⟨hcount, harmed, hgroups, hnext⟩ := State.homeStore_count ⟨hmon, hsp⟩ hh (c := s.countAt pa - 1) (by omega) (by omega)
    rw [State.decrement_above_one ho hb hv hc ha]
    exact ⟨hcount, harmed.trans ha, hgroups, hnext⟩
  case start =>
    intro o h
    rw [exec_matrixOpStart, execMatrixOpStart, h]
  case row =>
    intro o m h
    rw [exec_mmaRow, execMmaRow, h]
  case tile =>
    intro o h
    rw [exec_tileOpComplete, execTileOpComplete, h]

end Sys2Proof.Machine
end

section
/-! The scratchpad, the walker, shadow adds, shootdowns and format windows (R39 to R41, R50, R79, R123, R127, R128, R132, R279): each event is performed as soon
as it is due, and what it leaves. -/

namespace Sys2Proof.Machine

open Sys2Proof

/-! ### The scratchpad (R40, R107, R279) -/

/-- A granted write: the bytes are in the scratchpad of the team; only that and the waits on its words change. -/
theorem State.spadWrite_keeps (s : State) (tm a : Nat) (bs : SMap Byte) : let t := s.spadWrite tm a bs
    t.mem = s.mem ∧ t.groups = s.groups ∧ (t.team tm).spad = Memory.putAll (s.team tm).spad a bs := by
  unfold State.spadWrite
  split
  · next hb =>
    rw [List.isEmpty_iff.1 hb]
    exact ⟨rfl, rfl, rfl⟩
  · refine List.foldlRecOn (motive := fun t : State =>
      t.mem = s.mem ∧ t.groups = s.groups ∧ (t.team tm).spad = Memory.putAll (s.team tm).spad a bs) _ _ ?_ fun t ht e _ => ht
    exact ⟨rfl, rfl, congrArg Team.spad (State.team_setTeam s tm _)⟩

/-- The write of a lane's old value, its first grant (R279). -/
theorem State.forwardSpad_writes {s : State} {id : Nat} {l : Lane} {a : Access} {c : Lanes Word} {d : Word} {w : Nat} (hf : a.fwd = some (c, d))
    (ha : SMap.find a.fwdAt l.val = some (false, w)) : let u := s.spadWrite (s.accTeam a) (c.get l).toNat (valueBytes (a.ret[l]).toNat (a.bits / 8))
    s.forwardSpad id l.val a = { u with accs := SMap.set u.accs id { a with fwdAt := SMap.set a.fwdAt l.val (true, u.cycle) } } := by
  unfold State.forwardSpad
  simp only [hf, ha, dif_pos l.isLt]
  rfl

theorem execAtomfForward_due {s : State} {id : Nat} {l : Lane} {a : Access} (h : s.forwardDue id l = some a) :
    execAtomfForward id l s = .next { s with accs := SMap.set s.accs id { a with fwdAt := SMap.set a.fwdAt l.val (false, s.cycle) } } := by
  unfold execAtomfForward
  rw [h]

/-! ### Format windows (R50) -/

/-- A map whose values are changed, where the change leaves the default alone. -/
theorem SMap.get_map_snd {α : Type} (f : α → α) {d : α} (hd : f d = d) (k : Nat) (m : SMap α) :
    SMap.get (m.map fun p => (p.1, f p.2)) k d = f (SMap.get m k d) := by
  induction m with
  | nil => exact hd.symm
  | cons p r ih =>
    show (if p.1 = k then f p.2 else SMap.get (r.map _) k d) = f (if p.1 = k then p.2 else SMap.get r k d)
    rw [ih]
    split <;> rfl

/-- A line that a window has decoded, dropped. -/
def Line.dropped (n : Nat) (l : Line) : Line := if l.dec && l.win == n then { l with valid := false, dirty := false, dec := false } else l

theorem Line.dropped_decoded {l : Line} {n : Nat} (hd : l.dec = true) (hw : l.win = n) :
    l.dropped n = { l with valid := false, dirty := false, dec := false } :=
  if_pos (by simp [hd, hw])

/-- The state in which every line that a window has decoded is dropped. -/
def State.dropDecoded (s : State) (n : Nat) : State := { s with lines := s.lines.map fun (l : Nat × Line) => (l.1, l.2.dropped n) }

theorem State.get_dropDecoded (s : State) (n j : Nat) : SMap.get (s.dropDecoded n).lines j {} = (SMap.get s.lines j {}).dropped n :=
  SMap.get_map_snd _ rfl j s.lines

theorem execFwinDropComplete_due {s : State} {n : Nat} (h : (s.fwin n).busy = true) :
    execFwinDropComplete n s = .next ((s.dropDecoded n).setFwin n { s.fwin n with busy := false }) := by
  have hl : (s.dropDecoded n).lines = s.lines.map fun (l : Nat × Line) =>
      if l.2.dec && l.2.win == n then (l.1, { l.2 with valid := false, dirty := false, dec := false }) else l :=
    List.map_congr_left fun l _ => by
      unfold Line.dropped
      split <;> rfl
  refine (event_due h).trans ?_
  rw [← hl]
  rfl

/-! ### Misses (R123) -/

/-- What walks do with the page that they are for is not touched by who waits for them or by their slots. -/
theorem Walk.for_join (w : Walk) (rs : List Nat) (asid page : Nat) : (rs.foldl (fun x r => x.join r) w).for_ asid page = w.for_ asid page := by
  refine List.foldlRecOn (motive := fun x : Walk => x.for_ asid page = w.for_ asid page) rs _ rfl fun x hx r _ => ?_
  rw [← hx]
  unfold Walk.join
  split <;> rfl

/-- Walks that take slots are walks of the same pages. -/
theorem Cluster.any_for_startWalks (c : Cluster) (asid page : Nat) : c.startWalks.walks.any (·.for_ asid page) = c.walks.any (·.for_ asid page) := by
  suffices h : ∀ (l : List Walk) (x : Nat × List Walk), (l.foldl (fun (p : Nat × List Walk) w =>
      if w.running then (p.1, p.2 ++ [w])
      else if p.1 < 64 then (p.1 + 1, p.2 ++ [{ w with running := true }]) else (p.1, p.2 ++ [w])) x).2.any (·.for_ asid page) =
      (x.2.any (·.for_ asid page) || l.any (·.for_ asid page)) from (h c.walks _).trans (Bool.false_or _)
  intro l
  induction l with
  | nil => exact fun x => (Bool.or_false _).symm
  | cons w l ih =>
    intro x
    rw [List.foldl_cons, ih, List.any_cons, ← Bool.or_assoc]
    congr 1
    split
    · simp
    · split <;> simp [Walk.for_]

/-- An admitted miss has an entry for its page. -/
theorem Cluster.admitNext_walk {c : Cluster} {w : Walk} {ws : List Walk} (h : c.missWait = w :: ws) : (c.admitNext.walk w.asid w.page).isSome = true := by
  have hself : w.for_ w.asid w.page = true := by simp [Walk.for_]
  suffices ha : c.admitNext.walks.any (·.for_ w.asid w.page) = true by
    rw [Cluster.walk, List.find?_isSome]
    exact List.any_eq_true.1 ha
  unfold Cluster.admitNext
  rw [h]
  dsimp only
  split
  · next hany =>
    obtain ⟨x, hx, hp⟩ := List.any_eq_true.1 hany
    refine List.any_eq_true.2 ⟨_, List.mem_map.2 ⟨x, hx, rfl⟩, ?_⟩
    rw [if_pos hp, Walk.for_join, hp]
  · rw [Cluster.any_for_startWalks]
    simp [Walk.for_]

theorem Cluster.missWait_admitNext (c : Cluster) : c.admitNext.missWait = c.missWait.tail := by
  unfold Cluster.admitNext
  split
  · next h => rw [h]; rfl
  · next h =>
    rw [h]
    dsimp only
    split <;> rfl

/-! ### First touches and shadow adds (R127, R128) -/

theorem execFirstTouchCasResult_made {s : State} {cl asid page : Nat} {w : Walk} {q : CasReq} (h : s.casDue cl asid page = some (w, q))
    (hm : s.fateBy q.route q.addr ≠ .moved) : execFirstTouchCasResult cl asid page s = .next (s.casResult cl w q) := by
  unfold execFirstTouchCasResult
  rw [h]
  exact if_neg hm

theorem execFirstTouchCasResult_moved {s : State} {cl asid page : Nat} {w : Walk} {q : CasReq} (h : s.casDue cl asid page = some (w, q))
    (hm : s.fateBy q.route q.addr = .moved) : execFirstTouchCasResult cl asid page s =
      .next ((s.movedAt cl).setCluster cl (((s.movedAt cl).cluster cl).setWalk { w with cas := some ((s.movedAt cl).casReq cl q.addr q.old q.frame) })) := by
  unfold execFirstTouchCasResult
  rw [h]
  exact if_pos hm

theorem execShadowAdd_due {s : State} {i : Nat} {x : Nat × Nat × Nat × Nat × Nat} (hx : s.shadows[i]? = some x)
    (hp : s.fateFrom x.1 (x.2.1 + 2 * x.2.2.2.1) = .perform) (hf : s.fillHeld (x.2.1 + 2 * x.2.2.2.1) = false)
    (hb : s.behindRing (x.2.1 + 2 * x.2.2.2.1) 2 = false) (hr : s.ringHolds (s.homeNow (x.2.1 + 2 * x.2.2.2.1)) (x.2.1 + 2 * x.2.2.2.1) 2 = false) :
    execShadowAdd i s = .next ({ s with shadows := s.shadows.eraseIdx i }.shadowAdd x) := by
  unfold execShadowAdd
  rw [hx]
  dsimp only
  exact event_sendFrom (by simp [State.passes, hp, HomeFate.passes, hf, hb, hr]) (by rw [hp]; decide)

/-- A shadow add that its home takes: the counter is raised, and stops at 0xFFFF. -/
theorem State.shadowAdd_counts {s : State} {cl base lim n k : Nat} (hbase : base ≠ 0) (hn : n < lim) (hcap : base + 2 * n < s.hub.memcap)
    (ha : base + 2 * n < 2 ^ 43) (hv : (s.line (base + 2 * n)).valid = true) (hp : (s.line (base + 2 * n)).psn = false)
    (hs : s.scaleHit (base + 2 * n) 2 = false) :
    s.shadowAdd (cl, base, lim, n, k) = s.homeStore (base + 2 * n) (sat16 (Memory.read s.mem (base + 2 * n) 2 + k)) 2 := by
  have hpsn : s.linePsn (base + 2 * n) = false := hp
  have hdrop : ¬ (base = 0 ∨ lim ≤ n ∨ s.hub.memcap ≤ base + 2 * n) := by omega
  unfold State.shadowAdd
  simp only [State.needLine_of_valid hv, pRange_hbm ha, hs, hpsn, hdrop]
  rfl

/-! ### Shootdowns (R132) -/

theorem getLsbD_setBit {b : BitVec 8} {t : Nat} (ht : t < 8) (v : Bool) : (setBit b t v).getLsbD t = v := by
  have hbit : (BitVec.ofNat 8 (2 ^ t)).getLsbD t = true := by rw [BitVec.getLsbD_ofNat, Nat.testBit_two_pow_self, decide_eq_true ht]; rfl
  cases v with
  | false => rw [setBit, if_neg Bool.false_ne_true, BitVec.getLsbD_and, BitVec.getLsbD_not, hbit]; simp
  | true => rw [setBit, if_pos rfl, BitVec.getLsbD_or, hbit, Bool.or_true]

theorem execShootdownComplete_due {s : State} {c n : Nat} {d : Shootdown} (h : s.shootDue c n = some d) :
    execShootdownComplete c n s = .next (s.shootDone d) := by
  unfold execShootdownComplete
  rw [h]

/-- Settles O53: each event is due by its hypotheses; what it leaves is said by the lemmas above on the function that performs it. -/
theorem scratchpadAndTranslationEvents : Obligations.ScratchpadAndTranslationEvents := by
  intro s k n
  refine ⟨?arbiter, ?parity, ?forward, ?forwarded, ?token, ?window, ?miss, ?walk, ?cas, ?shadow, ?shadowCounts, ?shootdown⟩
  case arbiter => exact fun corr errs h => (exec_scratchpadArbitration k corr errs s).trans (event_due h)
  case parity =>
    intro tm row g hbad hfree
    refine ⟨_, (exec_parityRowRecompute k tm row g s).trans (event_due (by simp [hbad, hfree])), ?_, ?_, rfl, rfl⟩ <;> rw [State.team_updTeam]
  case forward => exact fun l a h => (exec_atomfForward k l s).trans (execAtomfForward_due h)
  case forwarded =>
    intro tm l a c d w hf ha htm t
    obtain ⟨hmem, hgroups, hspad⟩ := s.spadWrite_keeps (s.accTeam a) (c.get l).toNat (valueBytes (a.ret[l]).toNat (a.bits / 8))
    have ht : t = _ := State.forwardSpad_writes hf ha
    rw [htm] at ht hmem hgroups hspad
    refine ⟨by rw [ht]; exact hmem, by rw [ht]; exact hgroups, ?_⟩
    rw [ht]
    exact (congrArg (Memory.read · _ _) hspad).trans (Memory.read_putAll_valueBytes _ _ _ _)
  case token => exact fun h => (exec_fenceTokenComplete k n s).trans (event_due h)
  case window =>
    intro hb
    refine ⟨_, (exec_fwinDropComplete n s).trans (execFwinDropComplete_due hb), congrArg Fwin.busy (SMap.get_set_same _ _ _ _), rfl, rfl, fun j hd hw => ?_⟩
    have hj := (s.get_dropDecoded n j).trans (Line.dropped_decoded hd hw)
    exact ⟨congrArg Line.valid hj, congrArg Line.dec hj⟩
  case miss =>
    intro hd
    refine ⟨_, (exec_missMergeAdmit k s).trans (event_due hd), ?_, rfl, rfl, fun w ws h => ?_⟩ <;> rw [State.cluster_setCluster]
    · exact Cluster.missWait_admitNext _
    · exact Cluster.admitNext_walk h
  case walk =>
    intro asid w h
    rw [exec_walkStep, execWalkStep, h]
  case cas =>
    exact fun asid w q h => ⟨fun hm => (exec_firstTouchCasResult k asid n s).trans (execFirstTouchCasResult_made h hm),
      fun hm => (exec_firstTouchCasResult k asid n s).trans (execFirstTouchCasResult_moved h hm)⟩
  case shadow => exact fun cl base lim pg add hx hp hf hb hr => (exec_shadowAdd k s).trans (execShadowAdd_due hx hp hf hb hr)
  case shadowCounts =>
    intro u cl base lim pg add hbase hn hcap ha hv hp hmon hsp hs hh
    rw [State.shadowAdd_counts (by omega) hn hcap ha hv hp hs, (State.calm_homeStore (State.quiet_homes ⟨hmon, hsp⟩ hh) _ _).mem,
      Memory.read_putAll_valueBytes, sat16]
    exact Nat.mod_eq_of_lt (by omega)
  case shootdown =>
    intro d h hn
    have hd : d.core = k ∧ d.token = n := by
      have := List.find?_some h
      simp only [Bool.and_eq_true, beq_iff_eq] at this
      exact this.1
    obtain ⟨hcore, htok⟩ := hd
    have hx : (s.shootDone d).svcCore k = { s.svcCore d.core with
        tlbBusy := setBit (s.svcCore d.core).tlbBusy n false, tlbDone := setBit (s.svcCore d.core).tlbDone n true } := by
      rw [← hcore, ← htok]
      exact SMap.get_set_same _ _ _ _
    refine ⟨_, (exec_shootdownComplete k n s).trans (execShootdownComplete_due h), rfl, ?_, ?_, rfl, rfl⟩ <;> rw [hx]
    · exact getLsbD_setBit hn false
    · exact getLsbD_setBit hn true

end Sys2Proof.Machine
end

section
/-! Faults of memory instructions (R72, R133, R134): where a lane fails and none waits for a walk, the record is that of the class which 05 Table 12 puts first
among those raised, and nothing is sent. -/

namespace Sys2Proof.Machine

open Sys2Proof

/-- Of the elements of a list that meet a condition, the one of least index is found. -/
theorem find?_eq_of_idxOf_le {α : Type} [BEq α] [LawfulBEq α] {f : α → Bool} {l : List α} {a : α} (ha : a ∈ l) (hf : f a = true)
    (hmin : ∀ b, f b = true → l.idxOf a ≤ l.idxOf b) : l.find? f = some a := by
  induction l with
  | nil => cases ha
  | cons b l ih =>
    by_cases hb : b = a
    · rw [hb, List.find?_cons_of_pos hf]
    · have hfb : ¬ f b = true := fun h => by
        have := hmin b h
        rw [List.idxOf_cons_self, List.idxOf_cons_ne _ hb] at this
        exact Nat.not_succ_le_zero _ this
      rw [List.find?_cons_of_neg hfb]
      refine ih (List.mem_of_ne_of_mem (Ne.symm hb) ha) fun d hd => ?_
      have hbd : b ≠ d := fun h => hfb (h ▸ hd)
      simpa only [List.idxOf_cons_ne _ hb, List.idxOf_cons_ne _ hbd, Nat.succ_le_succ_iff] using hmin d hd

section
variable {m ls : LaneMask} {chk : Lane → LaneChk} {k : BitVec 8} {sp lv kind : Nat} {a pte pc : DWord} {nc : Bool}

theorem lanePages_of_noWait (h : ∀ l p, laneIn m l = true → chk l ≠ .wait p) : lanePages m chk = [] := by
  unfold lanePages
  rw [List.filterMap_eq_nil_iff.2 fun l hl => ?_]
  · rfl
  · split
    · next p hp => exact absurd hp (h l p ((mem_lanesIn m l).1 hl))
    · rfl

/-- The lowest lane of a mask that holds one is in it. -/
theorem laneIn_lowLane (h : m ≠ 0) : laneIn m (lowLane m) = true := by
  rw [← mem_lanesIn, lowLane]
  cases hl : lanesIn m with
  | nil =>
    refine absurd (mask_ext fun l => ?_) h
    rw [laneIn_zero, ← Bool.not_eq_true, ← mem_lanesIn, hl]
    exact List.not_mem_nil
  | cons l ls => exact List.mem_cons_self

/-- A class is among those found when some lane of the mask raises it. -/
theorem contains_classes : ((lanesIn m).filterMap fun l => (chk l).cls).contains k = true ↔ ∃ l, laneIn m l = true ∧ (chk l).cls = some k := by
  simp only [List.contains_iff_mem, List.mem_filterMap, mem_lanesIn]

theorem laneFault_eq (kind : Nat) (pc : DWord) (m : LaneMask) (chk : Lane → LaneChk) : laneFault kind pc m chk =
    match classOrder.find? fun k => ((lanesIn m).filterMap fun l => (chk l).cls).contains k with
    | none => none
    | some k =>
      match chk (lowLane (maskOf fun l => laneIn m l && (chk l).cls == some k)) with
      | .fault _ sp a nc lv pte => some
          { cls := k, lanes := maskOf fun l => laneIn m l && (chk l).cls == some k, kind := kind, space := sp, addr := a, noncan := nc, level := lv,
            pte := pte, pc := pc }
      | _ => none := rfl

/-- THE RECORD OF LANES THAT FAIL: its class is the first of those raised, its lanes those that raise it, its address the lowest one's. -/
theorem laneFault_first (hne : ls ≠ 0) (hls : ∀ l, laneIn ls l = (laneIn m l && (chk l).cls == some k))
    (hmin : ∀ l j, laneIn m l = true → (chk l).cls = some j → classOrder.idxOf k ≤ classOrder.idxOf j) (hk : k ∈ classOrder)
    (hlow : chk (lowLane ls) = .fault k sp a nc lv pte) : laneFault kind pc m chk =
      some { cls := k, lanes := ls, kind := kind, space := sp, addr := a, noncan := nc, level := lv, pte := pte, pc := pc } := by
  have hraised : ∃ l, laneIn m l = true ∧ (chk l).cls = some k :=
    ⟨lowLane ls, by simpa [hls] using laneIn_lowLane hne⟩
  have hfirst : classOrder.find? (fun k => ((lanesIn m).filterMap fun l => (chk l).cls).contains k) = some k :=
    find?_eq_of_idxOf_le hk (contains_classes.2 hraised) fun j hj => by
      obtain ⟨l, hl, hc⟩ := contains_classes.1 hj
      exact hmin l j hl hc
  have hmask : (maskOf fun l => laneIn m l && (chk l).cls == some k) = ls := mask_ext fun l => by rw [laneIn_maskOf, hls]
  rw [laneFault_eq, hfirst]
  dsimp only
  rw [hmask, hlow]

end

/-- A memory instruction whose checks find a fault, and no walk to wait for, takes it before anything is sent. -/
theorem checked_faults {c : Ctx} {kind n : Nat} {m : LaneMask} {chk : Lane → LaneChk} {go : State → Out} {s : State} {f : FaultInfo}
    (hw : ∀ l p, laneIn m l = true → chk l ≠ .wait p) (hf : laneFault kind c.pc m chk = some f) :
    c.checked kind m chk n go s = .next ((s.dropX c.cluster c.req).raise c.slot .retry f) := by
  unfold Ctx.checked
  rw [lanePages_of_noWait hw]
  dsimp only
  rw [hf]

section
variable {c : Ctx} {s : State} {sp : Space} {chk : Lane → LaneChk} {ea : Lane → DWord} {f : FaultInfo} (hact : c.act ≠ 0)
  (hw : ∀ l p, laneIn c.act l = true → chk l ≠ .wait p)
include hact hw

theorem loadOp_faults (hf : laneFault 0 c.pc c.act chk = some f) (window : Bool) :
    loadOp c sp chk ea s window = .next ((s.dropX c.cluster c.req).raise c.slot .retry f) := by
  rw [loadOp, if_neg hact, checked_faults hw hf]

theorem storeOp_faults (hf : laneFault 1 c.pc c.act chk = some f) :
    storeOp c sp chk ea s = .next ((s.dropX c.cluster c.req).raise c.slot .retry f) := by
  rw [storeOp, if_neg hact, checked_faults hw hf]

theorem atomicOp_faults (hf : laneFault 2 c.pc c.act chk = some f) (ret : Bool) :
    atomicOp c sp ret chk ea s = .next ((s.dropX c.cluster c.req).raise c.slot .retry f) := by
  rw [atomicOp, if_neg hact, checked_faults hw hf]

end

/-- Settles O28: each of them makes its checks of all lanes before its effect, and the first fault is that of `laneFault_first`. -/
theorem failingLanesTrap : Obligations.FailingLanesTrap := by
  intro f s c k m sp a nc lv pte
  refine ⟨?ld, ?st, ?lds, ?sts, ?ldc, ?atom, ?atomCas, ?atoms⟩
  all_goals
    intro h hact hw hne hls hmin hk hlow
    have hf := fun kind => laneFault_first (kind := kind) (pc := c.pc) hne hls hmin hk hlow
  case ld => rw [exec_ld, execLd, issue_next h]; exact loadOp_faults hact hw (hf 0) false
  case st => rw [exec_st, execSt, issue_next h]; exact storeOp_faults hact hw (hf 1)
  case lds => rw [exec_lds, execLds, issue_next h]; exact loadOp_faults hact hw (hf 0) false
  case sts => rw [exec_sts, execSts, issue_next h]; exact storeOp_faults hact hw (hf 1)
  case ldc => rw [exec_ldc, execLdc, issue_next h]; exact loadOp_faults hact hw (hf 0) true
  case atom => rw [exec_atom, execAtom, issue_next h]; exact atomicOp_faults hact hw (hf 2) true
  case atomCas => rw [exec_atomCas, execAtomCas, issue_next h]; exact atomicOp_faults hact hw (hf 2) true
  case atoms => rw [exec_atoms, execAtoms, issue_next h]; exact atomicOp_faults hact hw (hf 2) true

end Sys2Proof.Machine
end

section
/-! Fences (R78, R79, R285): the lowest free token, what a token that is taken records, and the instructions that take tokens or wait for them. -/

namespace Sys2Proof.Machine

open Sys2Proof

/-! ### Tokens -/

section
variable {g : Group} {t : Nat}

/-- The free token of a group is the lowest that is not outstanding. -/
theorem Group.freeToken_lowest (ht : t < 16) (hf : ¬ (SMap.find g.ftok t).isSome = true) (hlow : ∀ j, j < t → (SMap.find g.ftok j).isSome = true) :
    g.freeToken = some t := by
  rw [Group.freeToken, List.find?_range_eq_some]
  exact ⟨by simpa [Group.tokenOut] using hf, List.mem_range.2 ht, fun j hj => by rw [Group.tokenOut, hlow j hj]; rfl⟩

theorem Group.freeToken_none (h : ∀ t, t < 16 → (SMap.find g.ftok t).isSome = true) : g.freeToken = none := by
  rw [Group.freeToken, List.find?_eq_none]
  intro t ht
  rw [Group.tokenOut, h t (List.mem_range.1 ht)]
  decide

/-- One token is done when it is not outstanding, all are when none below 16 is listed. -/
theorem Group.tokensDone_one (h : t < 16) : g.tokensDone t = !(SMap.find g.ftok t).isSome := if_pos h

theorem Group.tokensDone_all : g.tokensDone 16 = true ↔ ∀ p ∈ g.ftok, 16 ≤ p.1 := by
  simp [Group.tokensDone]

end

theorem State.ftok_takeToken (s : State) (slot t : Nat) (mask : Word) :
    ((s.takeToken slot t mask).group slot).ftok = SMap.set (s.group slot).ftok t (s.fenceItems slot (fenceClasses mask)) := by
  rw [State.takeToken, State.group_updGroup]

/-- A mask of bits within the classes names those classes. -/
theorem toNat_fenceClasses {m : Word} (h0 : 0 < m.toNat) (h : m.toNat < 2 ^ 5) : (fenceClasses m).toNat = m.toNat := by
  rw [fenceClasses, if_neg (by omega), BitVec.toNat_setWidth, Nat.mod_eq_of_lt h]

/-- A mask with a bit above the classes names all of them. -/
theorem fenceClasses_of_le {m : Word} (h : 2 ^ 5 ≤ m.toNat) : fenceClasses m = 31 := by
  rw [fenceClasses, if_pos (by omega)]
  rfl

/-! ### The instructions -/

section
variable {f : Enc} {s : State} {c : Ctx}

theorem execFissue_idle (h : Issues (.fissue f) noOwn s c) (hact : c.act = 0) : ComputesUniform c 0 s (exec (.fissue f) s) := by
  rw [exec_fissue, execFissue, issue_next h, if_pos hact]
  exact h.computes (fun p hp => by cases hp; rfl) _ _ _ _

theorem execFissue_takes {t : Nat} (h : Issues (.fissue f) noOwn s c) (hact : c.act ≠ 0) (ht : c.g.freeToken = some t) :
    ComputesUniform c (BitVec.ofNat 64 t) (s.takeToken c.slot t (c.ua.setWidth 32)) (exec (.fissue f) s) := by
  rw [exec_fissue, execFissue, issue_next h, if_neg hact, ht]
  exact h.computes (fun p hp => by cases hp; rfl) _ _ _ _

theorem execFissue_waits (h : Issues (.fissue f) noOwn s c) (hact : c.act ≠ 0) (ht : c.g.freeToken = none) : exec (.fissue f) s = .next s := by
  rw [exec_fissue, execFissue, issue_next h, if_neg hact, ht]

/-- fwait's effect: none where the tokens that it names are done, and else a wait for them. -/
theorem execFwait_acts (h : Issues (.fwait f) noOwn s c) : Acts c
    (if c.act = 0 then s
      else if c.g.tokensDone (min 16 (c.ua.toNat % 2 ^ 32)) then s else s.block c.slot (.fence (min 16 (c.ua.toNat % 2 ^ 32))))
    (exec (.fwait f) s) := by
  rw [exec_fwait, execFwait, groupLevel, issue_next h]
  exact acts_done _ _

theorem execFence_idle (h : Issues (.fence f) noOwn s c) (hact : c.act = 0) : Acts c s (exec (.fence f) s) := by
  rw [exec_fence, execFence, issue_next h, if_pos hact]
  exact acts_done _ _

theorem execFence_takes {t : Nat} (h : Issues (.fence f) noOwn s c) (hact : c.act ≠ 0) (ht : c.g.freeToken = some t) :
    Acts c ((s.takeToken c.slot t (c.ua.setWidth 32)).block c.slot (.fence t)) (exec (.fence f) s) := by
  rw [exec_fence, execFence, issue_next h, if_neg hact, ht]
  exact acts_done _ _

end

/-- Settles O33: the tokens by the lemmas on them, each instruction by its own; fwait's tokens above 15 stand for all. -/
theorem fencesAct : Obligations.FencesAct := by
  intro f s c
  dsimp only
  refine ⟨execFissue_idle, ?fissue, ?stays, ?goesOn, ?parks, ?parksForAll, execFence_idle, ?fence, ?token⟩
  case fissue => exact fun h hact t ⟨ht, hf, hlow⟩ => execFissue_takes h hact (Group.freeToken_lowest ht hf hlow)
  case stays => exact fun h hact hout => execFissue_waits h hact (Group.freeToken_none hout)
  case fence => exact fun h hact t ⟨ht, hf, hlow⟩ => execFence_takes h hact (Group.freeToken_lowest ht hf hlow)
  case goesOn =>
    intro h hdone
    have acts := execFwait_acts h
    rcases hdone with hact | ⟨hk, hf⟩ | ⟨hk, hall⟩
    · rwa [if_pos hact] at acts
    · rwa [Nat.min_eq_right hk.le, Group.tokensDone_one hk, Bool.eq_false_iff.2 hf, Bool.not_false, if_pos rfl, ite_self] at acts
    · rwa [Nat.min_eq_left hk, Group.tokensDone_all.2 hall, if_pos rfl, ite_self] at acts
  case parks =>
    intro h hact hk hout
    have acts := execFwait_acts h
    rwa [if_neg hact, Nat.min_eq_right hk.le, Group.tokensDone_one hk, hout, Bool.not_true, if_neg Bool.false_ne_true] at acts
  case parksForAll =>
    intro h hact hk ⟨p, hp, hp16⟩
    have acts := execFwait_acts h
    have hopen : ¬ c.g.tokensDone 16 = true := fun hd => absurd (Group.tokensDone_all.1 hd p hp) (Nat.not_le.2 hp16)
    rwa [if_neg hact, Nat.min_eq_left hk, if_neg hopen] at acts
  case token =>
    exact fun t mk => ⟨by rw [State.ftok_takeToken, SMap.find_set_same], rfl, rfl, fenceClasses_of_le, toNat_fenceClasses⟩

end Sys2Proof.Machine
end

section
/-! Merged requests (R59, R60, R72, R274): what the parts of the lanes are, that merging them by unit loses none and gives each unit one request, and what sending
an access leaves. -/

namespace Sys2Proof.Machine

open Sys2Proof

/-! ### The units of one lane -/

/-- A part of a lane with the address and the size of its unit. -/
structure UnitPart where
  addr : Nat
  size : Nat
  part : LanePart

/-- The parts of a lane's access of `n` bytes at an address. -/
def laneParts (l : Lane) (a n : Nat) : List UnitPart := (unitsOf a n).map fun u => ⟨u.1, u.2.1, l.val, u.2.2.1, u.2.2.2.1, u.2.2.2.2⟩

/-- The size of the units of an access of `n` bytes (R72). -/
def unitSize (n : Nat) : Nat := if n = 8 then 8 else 4

section
variable {l : Lane} {a n : Nat}

/-- A part of an aligned access lies inside its unit, where the lane's bytes have it. -/
theorem laneParts_spec (hn : n ∈ [1, 2, 4, 8, 16]) (ha : a % n = 0) {u : UnitPart} (hu : u ∈ laneParts l a n) :
    u.size = unitSize n ∧ u.addr % u.size = 0 ∧ u.part.lane = l.val ∧ u.part.off + u.part.n ≤ u.size ∧ u.addr + u.part.off = a + u.part.voff := by
  obtain ⟨x, hx, rfl⟩ := List.mem_map.1 hu
  simp only [List.mem_cons, List.not_mem_nil, or_false] at hn
  rcases hn with rfl | rfl | rfl | rfl | rfl
  case inr.inr.inr.inr =>
    obtain ⟨k, -, rfl⟩ := List.mem_map.1 hx
    exact ⟨rfl, by dsimp only; omega, rfl, le_rfl, rfl⟩
  all_goals
    cases List.mem_singleton.1 hx
    refine ⟨rfl, ?_, rfl, ?_, ?_⟩ <;> dsimp only <;> omega

/-- Every byte of an access is in one of its parts. -/
theorem laneParts_cover (hn : n ∈ [1, 2, 4, 8, 16]) {k : Nat} (hk : k < n) :
    ∃ u ∈ laneParts l a n, u.part.voff ≤ k ∧ k < u.part.voff + u.part.n := by
  simp only [List.mem_cons, List.not_mem_nil, or_false] at hn
  rcases hn with rfl | rfl | rfl | rfl | rfl
  case inr.inr.inr.inr =>
    have hword : k / 4 < 16 / 4 := by omega
    refine ⟨_, List.mem_map_of_mem (List.mem_map_of_mem (List.mem_range.2 hword)), ?_, ?_⟩ <;> dsimp only <;> omega
  all_goals exact ⟨_, List.mem_map_of_mem List.mem_cons_self, Nat.zero_le k, by simpa using hk⟩

end

/-! ### Merging -/

/-- The parts of the lanes of a mask, lanes ascending. -/
def partsOf (m : LaneMask) (n : Nat) (addr : Lane → Nat) : List UnitPart := (lanesIn m).flatMap fun l => laneParts l (addr l) n

theorem mem_partsOf {m : LaneMask} {n : Nat} {addr : Lane → Nat} {u : UnitPart} :
    u ∈ partsOf m n addr ↔ ∃ l, laneIn m l = true ∧ u ∈ laneParts l (addr l) n := by
  simp only [partsOf, List.mem_flatMap, mem_lanesIn]

/-- The requests of an instruction are its parts added one after another. -/
theorem piecesOf_eq_foldl (m : LaneMask) (n : Nat) (addr : Lane → Nat) :
    piecesOf m n addr = (partsOf m n addr).foldl (fun ps u => addPart ps u.addr u.size u.part) [] := by
  simp only [piecesOf, partsOf, laneParts, List.foldl_flatMap, List.foldl_map]

/-- THE REQUESTS OF PARTS: each part is in the request of its unit, each request has parts and no others, and no two are of one unit. -/
structure Merged (us : List UnitPart) (ps : List Piece) : Prop where
  covers : ∀ u ∈ us, ∃ p ∈ ps, p.addr = u.addr ∧ u.part ∈ p.parts
  parts : ∀ p ∈ ps, p.done = false ∧ p.parts ≠ [] ∧ ∀ q ∈ p.parts, ⟨p.addr, p.size, q⟩ ∈ us
  nodup : (ps.map Piece.addr).Nodup

/-- A request with one part more. -/
def Piece.withPart (p : Piece) (q : LanePart) : Piece := { p with parts := p.parts ++ [q] }

/-- A part is added to the request of its unit, where there is one; the others stay. -/
theorem addPart_of_mem {ps : List Piece} {a : Nat} (h : a ∈ ps.map Piece.addr) (size : Nat) (q : LanePart) :
    addPart ps a size q = ps.map fun p => if p.addr = a then p.withPart q else p := by
  obtain ⟨p, hp, ha⟩ := List.mem_map.1 h
  have hany : (ps.any fun p => p.addr == a) = true := List.any_eq_true.2 ⟨p, hp, beq_iff_eq.2 ha⟩
  rw [addPart, if_pos hany]
  simp only [beq_iff_eq, Piece.withPart]

/-- The first part of a unit makes a request. -/
theorem addPart_of_notMem {ps : List Piece} {a : Nat} (h : a ∉ ps.map Piece.addr) (size : Nat) (q : LanePart) :
    addPart ps a size q = ps ++ [{ addr := a, size := size, parts := [q] }] := by
  rw [addPart, if_neg fun hp => h ?_]
  obtain ⟨p, hp, he⟩ := List.any_eq_true.1 hp
  exact List.mem_map.2 ⟨p, hp, beq_iff_eq.1 he⟩

theorem Merged.addPart_mem {us : List UnitPart} {ps : List Piece} {u : UnitPart} (h : Merged us ps) (hsize : ∀ v ∈ us, v.size = u.size)
    (hu : u.addr ∈ ps.map Piece.addr) : Merged (us ++ [u]) (addPart ps u.addr u.size u.part) := by
  rw [addPart_of_mem hu]
  refine ⟨fun v hv => ?covers, fun p hp => ?parts, ?nodup⟩
  case covers =>
    rcases List.mem_append.1 hv with hv | hv
    · obtain ⟨p, hp, ha, hq⟩ := h.covers v hv
      refine ⟨_, List.mem_map_of_mem hp, ?_, ?_⟩ <;> split <;> simp [Piece.withPart, ha, hq]
    · cases List.mem_singleton.1 hv
      obtain ⟨p, hp, ha⟩ := List.mem_map.1 hu
      exact ⟨_, List.mem_map_of_mem hp, by rw [if_pos ha]; exact ha, by rw [if_pos ha]; simp [Piece.withPart]⟩
  case parts =>
    obtain ⟨r, hr, rfl⟩ := List.mem_map.1 hp
    obtain ⟨hd, hne, hq⟩ := h.parts r hr
    split
    · next ha =>
      refine ⟨hd, by simp [Piece.withPart], fun q hqm => ?_⟩
      rcases List.mem_append.1 hqm with hqm | hqm
      · exact List.mem_append_left _ (hq q hqm)
      · obtain ⟨x, hx⟩ := List.exists_mem_of_ne_nil _ hne
        have hs : r.size = u.size := hsize _ (hq x hx)
        cases List.mem_singleton.1 hqm
        simp [Piece.withPart, ha, hs]
    · exact ⟨hd, hne, fun q hqm => List.mem_append_left _ (hq q hqm)⟩
  case nodup =>
    have : ((ps.map fun p => if p.addr = u.addr then p.withPart u.part else p).map Piece.addr) = ps.map Piece.addr := by
      rw [List.map_map]
      refine List.map_congr_left fun p _ => ?_
      dsimp only [Function.comp_apply]
      split <;> rfl
    rw [this]
    exact h.nodup

theorem Merged.addPart_notMem {us : List UnitPart} {ps : List Piece} {u : UnitPart} (h : Merged us ps)
    (hu : u.addr ∉ ps.map Piece.addr) : Merged (us ++ [u]) (addPart ps u.addr u.size u.part) := by
  rw [addPart_of_notMem hu]
  refine ⟨fun v hv => ?covers, fun p hp => ?parts, ?nodup⟩
  case covers =>
    rcases List.mem_append.1 hv with hv | hv
    · obtain ⟨p, hp, hpv⟩ := h.covers v hv
      exact ⟨p, List.mem_append_left _ hp, hpv⟩
    · cases List.mem_singleton.1 hv
      exact ⟨_, List.mem_append_right _ List.mem_cons_self, rfl, List.mem_cons_self⟩
  case parts =>
    rcases List.mem_append.1 hp with hp | hp
    · obtain ⟨hd, hne, hq⟩ := h.parts p hp
      exact ⟨hd, hne, fun q hqm => List.mem_append_left _ (hq q hqm)⟩
    · cases List.mem_singleton.1 hp
      exact ⟨rfl, List.cons_ne_nil _ _, fun q hqm => by cases List.mem_singleton.1 hqm; simp⟩
  case nodup =>
    rw [List.map_append, List.map_singleton, List.nodup_append]
    exact ⟨h.nodup, List.nodup_singleton _, fun a ha b hb => by rintro rfl; cases List.mem_singleton.1 hb; exact hu ha⟩

/-- Parts of units of one size, added one after another, are merged. -/
theorem merged_foldl {size : Nat} {us : List UnitPart} (hs : ∀ u ∈ us, u.size = size) :
    Merged us (us.foldl (fun ps u => addPart ps u.addr u.size u.part) []) := by
  induction us using List.reverseRecOn with
  | nil => exact ⟨by simp, by simp, List.nodup_nil⟩
  | append_singleton us u ih =>
    have hus : ∀ v ∈ us, v.size = size := fun v hv => hs v (List.mem_append_left _ hv)
    have hu : u.size = size := hs u (by simp)
    rw [List.foldl_append, List.foldl_cons, List.foldl_nil]
    by_cases hm : u.addr ∈ (us.foldl (fun ps u => addPart ps u.addr u.size u.part) []).map Piece.addr
    · exact (ih hus).addPart_mem (fun v hv => (hus v hv).trans hu.symm) hm
    · exact (ih hus).addPart_notMem hm

/-- The requests of an aligned access are those of its parts. -/
theorem merged_piecesOf {m : LaneMask} {n : Nat} {addr : Lane → Nat} (hn : n ∈ [1, 2, 4, 8, 16]) (ha : ∀ l, laneIn m l = true → addr l % n = 0) :
    Merged (partsOf m n addr) (piecesOf m n addr) := by
  rw [piecesOf_eq_foldl]
  refine merged_foldl (size := unitSize n) fun u hu => ?_
  obtain ⟨l, hl, hu⟩ := mem_partsOf.1 hu
  exact (laneParts_spec hn (ha l hl) hu).1

/-! ### What is asked of an access stays -/

/-- The bytes and lanes of a request. -/
def Piece.shape (p : Piece) : Nat × Nat × List LanePart := (p.addr, p.size, p.parts)

/-- Two accesses ask for the same: they differ in what has come back of them. -/
structure Access.SameAsk (a b : Access) : Prop where
  kind : b.kind = a.kind
  dest : b.dest = a.dest
  data : b.data = a.data
  pieces : b.pieces.map Piece.shape = a.pieces.map Piece.shape

namespace Access.SameAsk
variable {a b : Access}

theorem refl (a : Access) : a.SameAsk a := ⟨rfl, rfl, rfl, rfl⟩

theorem trans {d : Access} (h : a.SameAsk b) (h' : b.SameAsk d) : a.SameAsk d :=
  ⟨h'.kind.trans h.kind, h'.dest.trans h.dest, h'.data.trans h.data, h'.pieces.trans h.pieces⟩

theorem foldl {α : Type} {f : Access → α → Access} (hf : ∀ (b : Access) x, b.SameAsk (f b x)) (l : List α) (a : Access) : a.SameAsk (l.foldl f a) := by
  induction l generalizing a with
  | nil => exact refl a
  | cons x l ih => exact (hf a x).trans (ih _)

theorem race (a : Access) (pa n : Nat) : a.SameAsk (a.race pa n) := by
  unfold Access.race
  split <;> exact ⟨rfl, rfl, rfl, rfl⟩

theorem meet (a : Access) (m : LaneMask) (k : BitVec 8) : a.SameAsk (a.meet m k) := by
  unfold Access.meet
  split <;> exact ⟨rfl, rfl, rfl, rfl⟩

theorem take (a : Access) (p : Piece) (x : Nat) : a.SameAsk (a.take p x) := ⟨rfl, rfl, rfl, rfl⟩

theorem judgedIfDone (a : Access) : a.SameAsk a.judgedIfDone := by
  unfold Access.judgedIfDone Access.judged
  split
  · split
    · exact meet _ _ _
    · exact refl a
  · exact refl a

theorem raceLoad (s : State) (a : Access) : a.SameAsk (s.raceLoad a) := by
  unfold State.raceLoad
  split
  · exact refl a
  · refine foldl (fun b x => ?_) _ _
    split
    · exact refl b
    · exact foldl (fun b p => race b _ _) _ _

theorem raceL1 (s : State) (a : Access) (p : Piece) : a.SameAsk (s.raceL1 a p) := by
  unfold State.raceL1
  dsimp only
  split
  · exact race _ _ _
  · exact refl a

/-- A request may be marked done. -/
theorem setDone {i : Nat} {p : Piece} (h : a.SameAsk b) (hp : a.pieces[i]? = some p) :
    a.SameAsk { b with pieces := b.pieces.set i { p with done := true } } :=
  ⟨h.kind, h.dest, h.data, by
    obtain ⟨hi, rfl⟩ := List.getElem?_eq_some_iff.1 hp
    have hi' : i < (a.pieces.map Piece.shape).length := by rwa [List.length_map]
    have hs : Piece.shape { a.pieces[i] with done := true } = (a.pieces.map Piece.shape)[i] := by rw [List.getElem_map]; rfl
    rw [List.map_set, h.pieces, hs, List.set_getElem_self]⟩

theorem l1Load (s : State) (id : Nat) (a : Access) : a.SameAsk (s.l1Load id a) := by
  unfold State.l1Load
  dsimp only
  split
  · exact refl a
  refine foldl (fun b i => ?_) _ _
  split
  · exact refl b
  · next p hp =>
    split
    · refine setDone ?_ hp
      split
      · exact ((raceL1 s b p).trans (take _ p _)).trans (meet _ _ _)
      · exact (raceL1 s b p).trans (take _ p _)
    · exact refl b

end Access.SameAsk

/-! ### What sending leaves of the other accesses -/

/-- The access at a key of a map whose values are changed. -/
theorem SMap.find_map_snd {α β : Type} (f : α → β) (m : SMap α) (k : Nat) : SMap.find (m.map fun x => (x.1, f x.2)) k = (SMap.find m k).map f := by
  induction m with
  | nil => rfl
  | cons x m ih =>
    simp only [List.map_cons, SMap.find, ih]
    split <;> rfl

/-- An access apart from the lanes whose result is undefined. -/
def Access.noUndef (a : Access) : Access := { a with undef := 0 }

theorem Access.noUndef_race (a : Access) (pa n : Nat) : (a.race pa n).noUndef = a.noUndef := by
  unfold Access.race
  split <;> rfl

theorem Access.race_of_not_const {a : Access} (h : a.const = false) (pa n : Nat) : a.race pa n = a := by
  rw [Access.race, h]
  rfl

/-- ACCESSES ARE RACED WITH: cores apart, a state differs from another in nothing but the undefined lanes of loads from the parameter window. -/
structure State.Raced (s t : State) : Prop where
  rest : t = { s with cores := t.cores, accs := t.accs }
  found : ∀ id, (SMap.find t.accs id).map Access.noUndef = (SMap.find s.accs id).map Access.noUndef
  plain : ∀ id b, SMap.find s.accs id = some b → b.const = false → SMap.find t.accs id = some b

theorem State.CoreStep.raced {s t : State} (h : s.CoreStep t) : s.Raced t :=
  ⟨by rw [h], fun _ => by rw [h.accs], fun _ _ hb _ => by rw [h.accs, hb]⟩

theorem State.Raced.trans {s t u : State} (h : s.Raced t) (h' : t.Raced u) : s.Raced u :=
  ⟨by rw [h'.rest, h.rest], fun id => (h'.found id).trans (h.found id), fun id b hb hc => h'.plain id b (h.plain id b hb hc) hc⟩

theorem State.Raced.foldl {α : Type} {f : State → α → State} (hf : ∀ (t : State) x, t.Raced (f t x)) (l : List α) (s : State) : s.Raced (l.foldl f s) := by
  induction l generalizing s with
  | nil => exact ⟨rfl, fun _ => rfl, fun _ _ hb _ => hb⟩
  | cons x l ih => exact (hf s x).trans (ih _)

/-- A store races with loads from the parameter window alone. -/
theorem State.raced_race (s : State) (uid : Option Nat) (pa n : Nat) : s.Raced (s.race uid pa n) := by
  unfold State.race
  split
  · refine ⟨rfl, fun id => ?_, fun id b hb hc => ?_⟩
    all_goals dsimp only; rw [SMap.find_map_snd fun x : Access => if some x.uid = uid then x else x.race pa n]
    · rw [Option.map_map]
      refine congrArg (fun g => (SMap.find s.accs id).map g) (funext fun x => ?_)
      dsimp only [Function.comp_apply]
      split
      · rfl
      · exact x.noUndef_race pa n
    · rw [hb, Option.map_some, Access.race_of_not_const hc, ite_self]
  · exact ⟨rfl, fun _ => rfl, fun _ _ hb _ => hb⟩

/-- An access that issues is shown to the L1 of its core and to nothing else. -/
theorem State.coreStep_l1Issue (s : State) (a : Access) : s.CoreStep (s.l1Issue a) := by
  unfold State.l1Issue
  dsimp only
  repeat' split
  all_goals rfl

/-- The state in which an access is listed: its number is taken, and L1 and the loads that it races with have seen it. -/
def State.shown (s : State) (a : Access) : State :=
  let u := s.fresh.2.l1Issue a
  if a.stores then a.pieces.foldl (fun u p => u.race (some a.uid) p.addr p.size) u else u

theorem State.raced_shown (s : State) (a : Access) : s.fresh.2.Raced (s.shown a) := by
  have issued := (s.fresh.2.coreStep_l1Issue a).raced
  unfold State.shown
  dsimp only
  split
  · exact issued.trans (.foldl (fun u p => u.raced_race _ _ _) _ _)
  · exact issued

/-- An access with its mark of whether L1 has a part in it at issue. -/
def Access.marked (a : Access) : Access := { a with held := !a.behind.isEmpty || (!a.after.isEmpty && !a.ord.getLsbD 1) }

/-- An access as it is listed: with the stores that it races with, and what L1 has of it. -/
def State.lookedUp (s : State) (id : Nat) (a : Access) : Access :=
  let b := s.raceLoad a
  if (b.kind == .load || b.kind == .qunpk) && !b.held then (s.l1Load id b).judgedIfDone else b

theorem Access.sameAsk_lookedUp (s : State) (id : Nat) (a : Access) : a.SameAsk (s.lookedUp id a) := by
  unfold State.lookedUp
  dsimp only
  split
  · exact ((SameAsk.raceLoad s a).trans (.l1Load _ _ _)).trans (.judgedIfDone _)
  · exact .raceLoad s a

/-- SENDING AN ACCESS lists it under the next number, in the state to which it was shown. -/
theorem State.sendAccess_eq (s : State) (a : Access) : s.sendAccess a = (s.nextId,
    { s.shown a.marked with accs := SMap.set (s.shown a.marked).accs s.nextId ((s.shown a.marked).lookedUp s.nextId a.marked) }) := rfl

/-- Settles O24: merging the lanes' parts by unit keeps each of them, and an access is listed as it was asked for. -/
theorem requestsCoverTheLanesAndAreSent : Obligations.RequestsCoverTheLanesAndAreSent := by
  refine ⟨fun m n addr hn ha => ?merged, fun s a => ?sent⟩
  case merged =>
    obtain ⟨covers, parts, nodup⟩ := merged_piecesOf hn ha
    refine ⟨fun l k hl hk => ?_, fun p hp => ?_, nodup⟩
    · obtain ⟨u, hu, hlo, hhi⟩ := laneParts_cover (l := l) (a := addr l) hn hk
      obtain ⟨-, -, hlane, -, hplace⟩ := laneParts_spec hn (ha l hl) hu
      obtain ⟨p, hp, haddr, hq⟩ := covers u (mem_partsOf.2 ⟨l, hl, hu⟩)
      exact ⟨p, hp, u.part, hq, hlane, hlo, hhi, by omega⟩
    · obtain ⟨hd, hne, hq⟩ := parts p hp
      have inLane : ∀ q ∈ p.parts, ∃ l, laneIn m l = true ∧ ⟨p.addr, p.size, q⟩ ∈ laneParts l (addr l) n := fun q hqm => mem_partsOf.1 (hq q hqm)
      obtain ⟨q, hqm⟩ := List.exists_mem_of_ne_nil _ hne
      obtain ⟨l, hl, hu⟩ := inLane q hqm
      refine ⟨(laneParts_spec hn (ha l hl) hu).2.1, hd, hne, fun q hqm => ?_⟩
      obtain ⟨l, hl, hu⟩ := inLane q hqm
      obtain ⟨-, -, hlane, hin, hplace⟩ := laneParts_spec hn (ha l hl) hu
      exact ⟨hin, l, hl, hlane, hplace⟩
  case sent =>
    obtain ⟨rest, found, plain⟩ := s.raced_shown a.marked
    rw [State.sendAccess_eq]
    generalize s.shown a.marked = t at rest found plain ⊢
    obtain ⟨kind, dest, data, pieces⟩ := a.marked.sameAsk_lookedUp t s.nextId
    refine ⟨rfl, ?nextId, ?mem, ?groups, ?teams, ?lines, fun id hid => ?found, fun id b hid hb hc => ?plain, _, SMap.find_set_same _ _ _,
      kind, dest, data, pieces⟩
    case found => exact (congrArg _ (SMap.find_set_ne _ _ _ _ hid)).trans (found id)
    case plain => exact (SMap.find_set_ne _ _ _ _ hid).trans (plain id b hb hc)
    all_goals dsimp only; rw [rest]; rfl
end Sys2Proof.Machine
end

section
/-! Parking (R111, R290 to R292): what translating a WAIT's address leaves alone, the request in which the WAIT leaves for its word's arbiter, and the
instructions wait and nsleep. -/

namespace Sys2Proof.Machine

open Sys2Proof

/-! ### Steps of caches and TLBs -/

/-- Two states that differ in cores, in clusters and in the shadow adds on their way alone. -/
def State.CacheStep (s t : State) : Prop := t = { s with cores := t.cores, clusters := t.clusters, shadows := t.shadows }

theorem State.CacheStep.refl (s : State) : s.CacheStep s := rfl

theorem State.CacheStep.trans {s t u : State} (h : s.CacheStep t) (h' : t.CacheStep u) : s.CacheStep u := by
  unfold State.CacheStep at *
  rw [h', h]

theorem State.CacheStep.mem {s t : State} (h : s.CacheStep t) : t.mem = s.mem := by rw [h]
theorem State.CacheStep.waits {s t : State} (h : s.CacheStep t) : t.waits = s.waits := by rw [h]
theorem State.CacheStep.tstamp {s t : State} (h : s.CacheStep t) : t.tstamp = s.tstamp := by rw [h]
theorem State.CacheStep.group {s t : State} (h : s.CacheStep t) (k : Nat) : t.group k = s.group k := by rw [h]; rfl

theorem State.cacheStep_dropX (s : State) (cl req : Nat) : s.CacheStep (s.dropX cl req) := by
  unfold State.dropX
  dsimp only
  split <;> rfl

theorem State.cacheStep_sendShadow (s : State) (cl : Nat) (e : TlbEntry) : s.CacheStep (s.sendShadow cl e) := by
  unfold State.sendShadow
  dsimp only
  repeat' split
  all_goals rfl

theorem State.cacheStep_foldMicro (s : State) (core : Nat) (e : TlbEntry) : s.CacheStep (s.foldMicro core e) := by
  unfold State.foldMicro
  dsimp only
  split
  · rfl
  · exact .trans (t := s.setCore core _) rfl (State.cacheStep_sendShadow _ _ _)

/-- A translation used: a full micro-TLB makes room for it first (R122, R126). -/
theorem State.cacheStep_useTlb (s : State) (core : Nat) (e : TlbEntry) : s.CacheStep (s.useTlb core e) := by
  have install (t : State) (k : Core) (h : s.CacheStep t) : s.CacheStep (t.setCore core k) := h.trans rfl
  unfold State.useTlb
  dsimp only
  split
  · rfl
  · refine install _ _ ?_
    repeat' split
    · exact s.cacheStep_foldMicro core _
    · exact .refl s
    · exact .refl s

theorem State.cacheStep_useTlbs (s : State) (core : Nat) (es : List TlbEntry) : s.CacheStep (s.useTlbs core es) :=
  List.foldlRecOn (motive := s.CacheStep) _ _ rfl fun t ht e _ => ht.trans (t.cacheStep_useTlb core e)

theorem Ctx.cacheStep_passed (c : Ctx) (chk : Lane → LaneChk) (s : State) : s.CacheStep (c.passed chk s) :=
  (s.cacheStep_dropX c.cluster c.req).trans (State.cacheStep_useTlbs _ _ _)

/-! ### The request of a WAIT -/

/-- The request of a WAIT on the word at `pa` that leaves in a state (R290, R291). -/
def Ctx.waitReq (c : Ctx) (pa : Nat) (s : State) : WaitReq :=
  let sp := c.e.func.getLsbD 4
  { pc := c.pc, sp := sp, addr := pa, ea := c.ua, w64 := c.e.func.getLsbD 3, cmp := c.e.func.setWidth 3, acq := c.e.ord.getLsbD 0
    opnd := if c.e.func.getLsbD 3 then c.ub else (c.ub.setWidth 32 : Word).setWidth 64, deadline := if c.uc = 0 then 0 else s.tstamp + c.uc
    d := c.dest, lanes := c.act
    after := s.orderAfter c.slot c.e.ord ++ s.touching c.slot (if sp then .spad else .global) pa (c.p.wd / 8), behind := s.behind c.slot sp
    rcb := c.g.rcb, slotpa := s.spillSlot c.g.rcb c.g.ctx, mark := !s.room useMon c.g.rcb, cycle := s.cycle, cap := s.hub.memcap
    route := s.routeAt c.cluster }

/-- L1 as a WAIT on a word of memory leaves it (R43). -/
def Ctx.waitL1 (c : Ctx) (pa : Nat) (s : State) : State :=
  if c.e.func.getLsbD 4 then s else (s.waitL1 c.core pa).waitL1 c.core (pa + c.p.wd / 8 - 4)

/-- The state in which the request of a WAIT is on its way to the word's arbiter (R291). -/
def Ctx.waitSent (c : Ctx) (pa : Nat) (s : State) : State :=
  let t := c.waitL1 pa s
  { t with waits := t.waits ++ [(c.slot, c.g.uid)] }.updGroup c.slot fun g => { g with wait := some (c.waitReq pa s) }

theorem Ctx.cacheStep_waitL1 (c : Ctx) (pa : Nat) (s : State) : s.CacheStep (c.waitL1 pa s) := by
  unfold Ctx.waitL1
  split <;> rfl

theorem Ctx.group_waitSent (c : Ctx) (pa : Nat) (s : State) :
    (c.waitSent pa s).group c.slot = { s.group c.slot with wait := some (c.waitReq pa s) } := by
  rw [← (c.cacheStep_waitL1 pa s).group, Ctx.waitSent, State.group_updGroup]
  rfl

/-- A request that leaves changes, outside caches, only the list of requests and its own group's. -/
theorem Ctx.waitSent_keeps (c : Ctx) (pa : Nat) (s : State) : let t := c.waitSent pa s
    t.mem = s.mem ∧ t.waits = s.waits ++ [(c.slot, c.g.uid)] ∧ ∀ k, k ≠ c.slot → t.group k = s.group k := by
  have h := c.cacheStep_waitL1 pa s
  refine ⟨h.mem, congrArg (· ++ _) h.waits, fun k hk => ?_⟩
  rw [← h.group, Ctx.waitSent, State.group_updGroup_ne _ _ _ _ hk]
  rfl

/-! ### The instructions -/

section
variable {f : Enc} {s : State} {c : Ctx}

theorem execWait_idle (h : Issues (.wait f) waitOwn s c) (hact : c.act = 0) : Acts c s (exec (.wait f) s) := by
  rw [exec_wait, execWait, issue_next h, if_pos hact]
  exact acts_done _ _

/-- A wait whose word passes its checks sends its request and parks its group (R291). -/
theorem execWait_parks (h : Issues (.wait f) waitOwn s c) (hact : c.act ≠ 0) (hw : c.g.wait = none) (hp : Passes c (c.waitChk s) 1 s) :
    Acts c ((c.waitSent (c.waitChk s c.low).pa (c.passed (c.waitChk s) s)).block c.slot .wait) (exec (.wait f) s) := by
  rw [exec_wait, execWait, issue_next h, if_neg hact, hw, if_neg (by decide)]
  dsimp only
  rw [checked_passes hp]
  exact acts_done _ _

theorem execNsleep_idle (h : Issues (.nsleep f) noOwn s c) (hact : c.act = 0) : Acts c s (exec (.nsleep f) s) := by
  rw [exec_nsleep, execNsleep, issue_next h, if_pos hact]
  exact acts_done _ _

theorem execNsleep_parks (h : Issues (.nsleep f) noOwn s c) (hact : c.act ≠ 0) (ht : c.ua.toNat % 2 ^ 32 ≠ 0) :
    Acts c (s.block c.slot (.nsleep (s.tstamp.toNat + c.ua.toNat % 2 ^ 32))) (exec (.nsleep f) s) := by
  rw [exec_nsleep, execNsleep, issue_next h, if_neg hact, if_neg ht]
  exact acts_done _ _

theorem execNsleep_yields (h : Issues (.nsleep f) noOwn s c) (hact : c.act ≠ 0) (ht : c.ua.toNat % 2 ^ 32 = 0) :
    ActsAndEnds c s (exec (.nsleep f) s) := by
  rw [exec_nsleep, execNsleep, issue_next h, if_neg hact, if_pos ht]
  exact acts_ending _ _

end

/-- A group that parks for a wait keeps its registers, and every other group is as it was (R162). -/
theorem State.block_parks (s : State) (slot : Nat) (b : Block) : let u := s.block slot b
    b ∈ (u.group slot).blocks ∧ u.mem = s.mem ∧ SameRegs (s.group slot) (u.group slot) ∧ ∀ k, k ≠ slot → u.group k = s.group k := by
  have own : (s.block slot b).group slot = { s.group slot with blocks := b :: (s.group slot).blocks } := State.group_updGroup _ _ _
  refine ⟨?_, rfl, ?_, fun k hk => State.group_updGroup_ne _ _ _ _ hk⟩ <;> rw [own]
  · exact List.mem_cons_self
  · exact fun r l _ => rfl

/-- Settles O34: the request is that of `Ctx.waitReq`, sent in the state that the checks of its address leave. -/
theorem waitsPark : Obligations.WaitsPark := by
  intro f s c
  refine ⟨execWait_idle, ?wait, execNsleep_idle, execNsleep_parks, execNsleep_yields, s.block_parks⟩
  intro h hact hw hp
  have looked := c.cacheStep_passed (c.waitChk s) s
  have own := c.group_waitSent (c.waitChk s c.low).pa (c.passed (c.waitChk s) s)
  obtain ⟨mem, waits, others⟩ := c.waitSent_keeps (c.waitChk s c.low).pa (c.passed (c.waitChk s) s)
  refine ⟨_, c.waitReq (c.waitChk s c.low).pa (c.passed (c.waitChk s) s), rfl, rfl, rfl, rfl, rfl, rfl, rfl, rfl, rfl, rfl, ?deadline,
    mem.trans looked.mem, waits.trans (congrArg (· ++ _) looked.waits), congrArg Group.wait own, fun k hk => (others k hk).trans (looked.group k), ?regs,
    execWait_parks h hact hw hp⟩
  case deadline => rw [← looked.tstamp]; rfl
  case regs =>
    rw [own, looked.group]
    exact fun r l _ => rfl

end Sys2Proof.Machine
end

section
/-! Waking (R93, R97, R98, R107 to R112, R115, R135): the check of a WAIT at its home goes by the cases of 04 Table 3 in their order, and each event of a
waiting group is performed as soon as it is due. -/

namespace Sys2Proof.Machine

open Sys2Proof

/-! ### The check at the home (R93) -/

section
variable {s : State} {home : Nat} {w : WaitReq} {e : MonEntry}

/-- What becomes of a WAIT whose word decides nothing yet: a place of the table, a spill slot, or the answer FULL (R93, R101). -/
def State.placeWait (s : State) (home : Nat) (w : WaitReq) (e : MonEntry) : State :=
  if (s.slice home).en ∧ !w.mark ∧ (s.slice home).mon.length < min 1024 (s.slice home).limit then s.addMon home e
  else if (s.slice home).spen ∧ !isFirmware w.addr ∧ w.slotpa ≠ 0 then (s.spill home e).getD (s.sendWake e 5 (s.valueAt w.addr w.w64) false)
  else s.sendWake e 5 (s.valueAt w.addr w.w64) false

theorem State.placeWait_table (hen : (s.slice home).en = true) (hm : w.mark = false) (hroom : (s.slice home).mon.length < min 1024 (s.slice home).limit) :
    s.placeWait home w e = s.addMon home e :=
  if_pos ⟨hen, by rw [hm]; rfl, hroom⟩

theorem State.placeWait_full (hen : (s.slice home).en = false) (hsp : (s.slice home).spen = false) :
    s.placeWait home w e = s.sendWake e 5 (s.valueAt w.addr w.w64) false :=
  (if_neg fun ⟨he, _⟩ => Bool.eq_false_iff.1 hen he).trans (if_neg fun ⟨he, _⟩ => Bool.eq_false_iff.1 hsp he)

theorem State.waitHome_capacity (h : w.cap ≤ w.addr) : s.waitHome home w e = s.sendWake e 4 0 false := if_pos h

/-- A word within MEMCAP and without poison: the condition, then the deadline, decide first. -/
theorem State.waitHome_here (hc : w.addr < w.cap) (hp : s.linePsn w.addr = false) : s.waitHome home w e =
    if satisfies w.cmp (s.valueAt w.addr w.w64) w.opnd w.w64 then s.sendWake e 0 (s.valueAt w.addr w.w64) false
    else if w.deadline ≠ 0 ∧ w.deadline.toNat ≤ s.tstamp.toNat then s.sendWake e 1 (s.valueAt w.addr w.w64) false
    else s.placeWait home w e := by
  unfold State.waitHome State.placeWait
  rw [if_neg (Nat.not_le.2 hc), hp, if_neg Bool.false_ne_true]
  cases s.spill home e <;> rfl

end

/-- The state in which the WAIT of a slot is no longer on its way. -/
def State.waitCame (s : State) (slot : Nat) : State := { s with waits := s.waits.filter fun x => x != (slot, (s.group slot).uid) }

/-- The table entry that the WAIT of a slot asks for. -/
def State.waitEntry (s : State) (slot : Nat) (w : WaitReq) : MonEntry := w.entry slot (s.group slot).ctx (s.rcbDom (s.group slot).rcb)

section
variable {s : State} {slot : Nat} {w : WaitReq}

/-- A WAIT above MEMCAP needs no line, and one whose line is held finds it. -/
theorem State.checkWait_eq (h : w.cap ≤ w.addr ∨ (s.line w.addr).valid = true) :
    s.checkWait slot w = (s.waitCame slot).waitHome (s.homeNow w.addr) w (s.waitEntry slot w) := by
  have hline : (if w.addr < w.cap then (s.waitCame slot).needLine w.addr else s.waitCame slot) = s.waitCame slot := by
    split
    · next hlt => exact State.needLine_of_valid (h.resolve_left (Nat.not_le.2 hlt))
    · rfl
  exact congrArg (fun t : State => t.waitHome (t.homeNow w.addr) w (w.entry slot (s.group slot).ctx (t.rcbDom (s.group slot).rcb))) hline

theorem State.checkWait_capacity (h : w.cap ≤ w.addr) : s.checkWait slot w = (s.waitCame slot).sendWake (s.waitEntry slot w) 4 0 false :=
  (State.checkWait_eq (.inl h)).trans (State.waitHome_capacity h)

section
variable (hc : w.addr < w.cap) (hv : (s.line w.addr).valid = true) (hp : (s.line w.addr).psn = false)
include hc hv hp

theorem State.checkWait_satisfied (h : satisfies w.cmp (s.valueAt w.addr w.w64) w.opnd w.w64 = true) :
    s.checkWait slot w = (s.waitCame slot).sendWake (s.waitEntry slot w) 0 (s.valueAt w.addr w.w64) false :=
  ((State.checkWait_eq (.inr hv)).trans (State.waitHome_here hc hp)).trans (if_pos h)

section
variable (hs : satisfies w.cmp (s.valueAt w.addr w.w64) w.opnd w.w64 = false)
include hs

theorem State.checkWait_late (h : w.deadline ≠ 0 ∧ w.deadline.toNat ≤ s.tstamp.toNat) :
    s.checkWait slot w = (s.waitCame slot).sendWake (s.waitEntry slot w) 1 (s.valueAt w.addr w.w64) false :=
  (((State.checkWait_eq (.inr hv)).trans (State.waitHome_here hc hp)).trans (if_neg (Bool.eq_false_iff.1 hs))).trans (if_pos h)

theorem State.checkWait_places (h : ¬ (w.deadline ≠ 0 ∧ w.deadline.toNat ≤ s.tstamp.toNat)) :
    s.checkWait slot w = (s.waitCame slot).placeWait (s.homeNow w.addr) w (s.waitEntry slot w) :=
  (((State.checkWait_eq (.inr hv)).trans (State.waitHome_here hc hp)).trans (if_neg (Bool.eq_false_iff.1 hs))).trans (if_neg h)

end
end

/-! ### The events of waiting groups -/

theorem execWaitCheck_stale (h : s.waitDue slot = some w) (hst : w.stale = true) : execWaitCheck slot s = .next (s.waitAgain slot w) := by
  unfold execWaitCheck
  rw [h]
  exact congrArg _ (if_pos hst)

theorem execWaitCheck_moved (h : s.waitDue slot = some w) (hst : w.stale = false) (hm : s.fateBy w.route w.addr = .moved) :
    execWaitCheck slot s = .next (s.waitMoved slot w) := by
  unfold execWaitCheck
  rw [h]
  exact congrArg _ ((if_neg (Bool.eq_false_iff.1 hst)).trans (if_pos hm))

theorem execWaitCheck_made (h : s.waitDue slot = some w) (hst : w.stale = false) (hm : s.fateBy w.route w.addr ≠ .moved) :
    execWaitCheck slot s = .next (s.checkWait slot w) := by
  unfold execWaitCheck
  rw [h]
  exact congrArg _ ((if_neg (Bool.eq_false_iff.1 hst)).trans (if_neg hm))

end

section
variable {s : State}

theorem execWakeArrival_due {i : Nat} {x : Wake} (h : s.wakes[i]? = some x) : execWakeArrival i s = .next (s.wakeArrives i x) := by
  unfold execWakeArrival
  rw [h]

theorem execMonitorTimeout_watch {i : Nat} {e : Watch} (h : s.lateWatch i = some e) (home : Nat) :
    execMonitorTimeout true home i s = .next (s.watchTimeout e) := by
  unfold execMonitorTimeout
  rw [if_pos rfl, h]

theorem execMonitorTimeout_entry {home i : Nat} {e : MonEntry} (h : s.lateEntry home i = some e) :
    execMonitorTimeout false home i s = .next ((s.sendWake e 1 (s.valueAt e.addr e.w64) false).freeMon home e) := by
  unfold execMonitorTimeout
  rw [if_neg Bool.false_ne_true, h]

theorem execNsleepExpiry_due {slot : Nat} {b : Block} (h : s.sleepOver slot = some b) : execNsleepExpiry slot s = .next (s.unblock slot b 4) := by
  unfold execNsleepExpiry
  rw [h]

theorem execServiceArmCheck_due {i : Nat} {q : ArmReq} (h : s.armDue i = some q) :
    execServiceArmCheck i s = .next (if s.fateBy q.route q.entry.addr = .moved then s.armMoved i q else s.checkArm i q) := by
  unfold execServiceArmCheck
  rw [h]

/-- The record that waits first is admitted as soon as the queue has a place (R135). -/
theorem execFaultQueueAdmit_due {cl : Nat} {f : PendFault} {fs : List PendFault} (hf : (s.cluster cl).fqFull = false) (hw : (s.cluster cl).fwait = f :: fs) :
    execFaultQueueAdmit cl s = .next (s.setCluster cl ({ s.cluster cl with fwait := fs }.putFault f)) := by
  have admits : (s.cluster cl).admits = some f := by rw [Cluster.admits, hf, hw]; rfl
  unfold execFaultQueueAdmit
  rw [admits, hw]
  rfl

end

/-! ### Tables -/

/-- An entry made in the table of a slice, and its unit of MONQ charged to its region (R93, R165). -/
theorem State.addMon_enters (s : State) (home : Nat) (e : MonEntry) : ∃ u : State, (u.slice home).mon = (s.slice home).mon ++ [e] ∧ u.wakes = s.wakes ∧
    u.groups = s.groups ∧ u.mem = s.mem ∧ s.addMon home e = u.charge useMon e.rcb 1 :=
  ⟨s.setSlice home { s.slice home with mon := (s.slice home).mon ++ [e], peak := max (s.slice home).peak ((s.slice home).mon.length + 1) },
    congrArg Slice.mon (SMap.get_set_same _ _ _ _), rfl, rfl, rfl, rfl⟩

/-- An entry that leaves the table of a slice, and its unit of MONQ returned (R93, R165). -/
theorem State.freeMon_leaves (s : State) (home : Nat) (e : MonEntry) : ∃ u : State, (u.slice home).mon = (s.slice home).mon.erase e ∧ u.groups = s.groups ∧
    u.mem = s.mem ∧ s.freeMon home e = u.charge useMon e.rcb (-1) ∧ u.wakes = s.wakes :=
  ⟨s.setSlice home { s.slice home with mon := (s.slice home).mon.erase e }, congrArg Slice.mon (SMap.get_set_same _ _ _ _), rfl, rfl, rfl, rfl⟩

/-- Settles O54: the check of a WAIT by the cases of its home, the other events as they are due. -/
theorem waitingGroupsWake : Obligations.WaitingGroupsWake := by
  intro s slot home i w g v wakes here late due
  have made : due → exec (.waitCheck slot) s = .next (s.checkWait slot w) := fun ⟨hd, hst, hm⟩ =>
    (exec_waitCheck slot s).trans (execWaitCheck_made hd hst hm)
  have woken (st : Nat) (x : DWord) (hd : due) (h : s.checkWait slot w = (s.waitCame slot).sendWake (s.waitEntry slot w) st x false) :
      Gives (.waitCheck slot) s (wakes st x) := ⟨_, (made hd).trans (congrArg _ h), rfl, rfl, rfl⟩
  refine ⟨made, ?stale, ?moved, ?capacity, ?satisfied, ?late, ?registers, ?wake, ?watchTimeout, ?entryTimeout, ?withdraw, ?sleep, ?gate, ?arm, ?fault⟩
  case stale => exact fun h hst => (exec_waitCheck slot s).trans (execWaitCheck_stale h hst)
  case moved => exact fun h hst hm => (exec_waitCheck slot s).trans (execWaitCheck_moved h hst hm)
  case capacity => exact fun hd hc => woken 4 0 hd (State.checkWait_capacity hc)
  case satisfied => exact fun hd ⟨hc, hv, hp⟩ hs => woken 0 v hd (State.checkWait_satisfied hc hv hp hs)
  case late => exact fun hd ⟨hc, hv, hp⟩ hs hl => woken 1 v hd (State.checkWait_late hc hv hp hs hl)
  case registers =>
    intro hd ⟨hc, hv, hp⟩ hs hl sl
    have places : s.checkWait slot w = (s.waitCame slot).placeWait (s.homeNow w.addr) w (s.waitEntry slot w) := State.checkWait_places hc hv hp hs hl
    refine ⟨fun hen hm hroom => ?table, fun hen hsp => woken 5 v hd (places.trans (State.placeWait_full hen hsp))⟩
    exact ⟨_, (made hd).trans (congrArg _ (places.trans (State.placeWait_table hen hm hroom))),
      (s.waitCame slot).addMon_enters _ (s.waitEntry slot w)⟩
  case wake => exact fun x h => (exec_wakeArrival i s).trans (execWakeArrival_due h)
  case watchTimeout =>
    exact fun e h => ⟨_, (exec_monitorTimeout true home i s).trans (execMonitorTimeout_watch h home), rfl, rfl, rfl, _, rfl, rfl, rfl, rfl⟩
  case entryTimeout =>
    exact fun e h => ⟨_, (exec_monitorTimeout false home i s).trans (execMonitorTimeout_entry h),
      (s.sendWake e 1 (s.valueAt e.addr e.w64) false).freeMon_leaves home e⟩
  case withdraw => exact fun h => (exec_waitWithdraw slot s).trans (event_due h)
  case sleep => exact fun b h => (exec_nsleepExpiry slot s).trans (execNsleepExpiry_due h)
  case gate => exact fun h => (exec_clockGate home s).trans (event_due h)
  case arm => exact fun q h => (exec_serviceArmCheck i s).trans (execServiceArmCheck_due h)
  case fault =>
    intro f fs hf hw
    refine ⟨_, (exec_faultQueueAdmit i s).trans (execFaultQueueAdmit_due hf hw), ?_⟩
    dsimp only
    rw [State.cluster_setCluster]
    exact ⟨rfl, rfl, rfl, rfl, rfl, _, SMap.find_set_same _ _ _, rfl, rfl, rfl⟩

end Sys2Proof.Machine
end

section
/-! Taking an exception (R133, R135, R162): what the record says, where it goes, and the group that is parked on its answer. -/

namespace Sys2Proof.Machine

open Sys2Proof

/-! ### The record (R133, R135) -/

section
variable {s : State} {slot : Nat} {m : FaultMode} {g : Group} {f : FaultInfo}

/-- What W0 of a record holds below LANES (05 Table 13). -/
def FaultInfo.lowHalf (f : FaultInfo) : Nat :=
  f.kind * 2 ^ 28 + f.space * 2 ^ 26 + (if f.noncan then 2 ^ 25 else 0) + f.level * 2 ^ 23 + f.cls.toNat

theorem faultWords_zero : (faultWords s slot g f).getD 0 0 = BitVec.ofNat 64 (f.lanes.toNat * 2 ^ 32 + f.lowHalf) := by
  simp [faultWords, FaultInfo.lowHalf, Nat.add_assoc]

/-- Every field of W0 above CLASS starts at bit 23 or higher. -/
theorem FaultInfo.lowHalf_mod (f : FaultInfo) : f.lowHalf % 2 ^ 8 = f.cls.toNat := by
  unfold FaultInfo.lowHalf
  have := f.cls.isLt
  split <;> omega

theorem FaultInfo.lowHalf_lt (hk : f.kind < 8) (hs : f.space < 4) (hl : f.level < 4) : f.lowHalf < 2 ^ 32 := by
  unfold FaultInfo.lowHalf
  have := f.cls.isLt
  split <;> omega

/-- CLASS of the record. -/
theorem faultWords_cls : ((faultWords s slot g f).getD 0 0).setWidth 8 = f.cls := by
  have := f.lowHalf_mod
  rw [faultWords_zero]
  apply BitVec.eq_of_toNat_eq
  rw [BitVec.toNat_setWidth, BitVec.toNat_ofNat]
  omega

/-- LANES of the record. -/
theorem faultWords_lanes (hk : f.kind < 8) (hs : f.space < 4) (hl : f.level < 4) :
    ((faultWords s slot g f).getD 0 0).extractLsb' 32 32 = f.lanes := by
  have := FaultInfo.lowHalf_lt hk hs hl
  have := f.lanes.isLt
  rw [faultWords_zero]
  apply BitVec.eq_of_toNat_eq
  rw [BitVec.extractLsb'_toNat, BitVec.toNat_ofNat, Nat.shiftRight_eq_div_pow]
  omega

/-! ### The queue (R135) -/

/-- The record of a fault of the group in a slot, as it goes to the queue. -/
def State.faultRecord (s : State) (slot : Nat) (m : FaultMode) (f : FaultInfo) : PendFault :=
  { slot := slot, uid := (s.group slot).uid, words := faultWords s slot (s.group slot) f, mode := m }

/-- A cluster that is given a record: it is written, or waits while the queue is full or others wait. -/
def Cluster.given (c : Cluster) (p : PendFault) : Cluster :=
  if c.fqFull || !c.fwait.isEmpty then { c with fwait := c.fwait ++ [p] } else c.putFault p

theorem Cluster.given_waits {c : Cluster} (h : c.fqFull = true ∨ c.fwait ≠ []) (p : PendFault) :
    c.given p = { c with fwait := c.fwait ++ [p] } := if_pos (by simpa using h)

theorem Cluster.given_writes {c : Cluster} (h : ¬ (c.fqFull = true ∨ c.fwait ≠ [])) (p : PendFault) : c.given p = c.putFault p :=
  if_neg (by simpa using h)

/-- A record that is no POISON record changes its cluster alone. -/
theorem State.postFault_given (h : f.cls ≠ clsPoison) : s.postFault slot m f =
    s.setCluster (slotCluster slot) ((s.cluster (slotCluster slot)).given (s.faultRecord slot m f)) := by
  rw [State.postFault, State.postFaultFor, if_neg h]
  rfl

/-! ### The group (R162) -/

theorem State.preTake_none {tm : Nat} (h : (s.team tm).pre = .none_) : s.preTake tm = s := by
  rw [State.preTake, h]

/-- TAKING AN EXCEPTION with no pre-emption requested: its cluster is given the record, and its group parks and keeps its run. -/
theorem State.raise_parks (hp : f.cls ≠ clsPoison) (hn : (s.team (s.group slot).team).pre = .none_) : s.raise slot m f =
    (s.setCluster (slotCluster slot) ((s.cluster (slotCluster slot)).given (s.faultRecord slot m f))).updGroup slot fun g =>
      { g with st := .blocked, blocks := .fault :: g.blocks, midRun := some (s.saveRun slot) } := by
  rw [State.raise, State.postFault_given hp]
  exact State.preTake_none hn

end

theorem State.cluster_setCluster_ne (s : State) {k j : Nat} (x : Cluster) (h : j ≠ k) : (s.setCluster k x).cluster j = s.cluster j :=
  SMap.get_set_ne _ _ _ _ _ h

/-- Settles O43: the state by `State.raise_parks`, its record by what W0 holds, and the queue by whether the record must wait. -/
theorem exceptionEntry : Obligations.ExceptionEntry := by
  intro s slot m f t g h c c' hpoison hpre hkind hspace hlevel
  have ht : t = _ := State.raise_parks hpoison hpre
  have hh : h = { g with st := .blocked, blocks := .fault :: g.blocks, midRun := some (s.saveRun slot) } :=
    (congrArg (State.group · slot) ht).trans (State.group_updGroup _ _ _)
  have hc' : c' = c.given (s.faultRecord slot m f) := (congrArg (State.cluster · (slotCluster slot)) ht).trans (State.cluster_setCluster _ _ _)
  rw [hh, hc', ht]
  refine ⟨rfl, rfl, rfl, rfl, fun _ _ _ => rfl, rfl, ⟨_, rfl, rfl, rfl, rfl, rfl, rfl⟩, rfl, fun k hk => ?others, fun k hk => ?clusters,
    s.faultRecord slot m f, rfl, rfl, rfl, faultWords_cls, faultWords_lanes hkind hspace hlevel, rfl, rfl, ?queue⟩
  case others => exact State.group_updGroup_ne _ _ _ _ hk
  case clusters => exact State.cluster_setCluster_ne _ _ hk
  case queue =>
    split
    · next hfull =>
      rw [Cluster.given_waits hfull]
      exact ⟨rfl, rfl⟩
    · next hroom =>
      rw [Cluster.given_writes hroom]
      exact ⟨rfl, rfl, rfl, _, SMap.find_set_same _ _ _, rfl, rfl, rfl, rfl⟩

end Sys2Proof.Machine
end

section
/-! Fetching (R121, R148, R201, R215, R217): one word comes from the instruction cache, which takes its line from memory where it does not hold it, and an
instruction from the words that word 0 asks for. -/

namespace Sys2Proof.Machine

open Sys2Proof

theorem State.CacheStep.groups {s t : State} (h : s.CacheStep t) : t.groups = s.groups := by rw [h]
theorem State.CacheStep.parts {s t : State} (h : s.CacheStep t) : t.parts = s.parts := by rw [h]

theorem SMap.get_of_find {α : Type} {m : SMap α} {k : Nat} {a : α} (d : α) (h : SMap.find m k = some a) : SMap.get m k d = a := by
  induction m with
  | nil => cases h
  | cons p r ih =>
    unfold SMap.find at h
    unfold SMap.get
    split at h
    · next hp => rw [if_pos hp]; exact Option.some.inj h
    · next hp => rw [if_neg hp]; exact ih h

/-! ### Translations used leave the instruction caches alone -/

/-- The instruction caches of two states hold the same lines. -/
def State.SameIcaches (s t : State) : Prop := ∀ k, (t.core k).icache = (s.core k).icache

theorem State.SameIcaches.refl (s : State) : s.SameIcaches s := fun _ => rfl

theorem State.SameIcaches.trans {s t u : State} (h : s.SameIcaches t) (h' : t.SameIcaches u) : s.SameIcaches u := fun k => (h' k).trans (h k)

theorem State.sameIcaches_of_cores {s t : State} (h : t.cores = s.cores) : s.SameIcaches t := fun k => by rw [State.core, h, State.core]

theorem State.core_setCore_ne (s : State) {k j : Nat} (x : Core) (h : j ≠ k) : (s.setCore k x).core j = s.core j := SMap.get_set_ne _ _ _ _ _ h

theorem State.sameIcaches_setCore {s : State} {core : Nat} {x : Core} (h : x.icache = (s.core core).icache) : s.SameIcaches (s.setCore core x) := by
  intro k
  by_cases hk : k = core
  · rw [hk, State.core_setCore, h]
  · rw [State.core_setCore_ne _ _ hk]

theorem State.sameIcaches_dropX (s : State) (cl req : Nat) : s.SameIcaches (s.dropX cl req) := by
  unfold State.dropX
  dsimp only
  split <;> exact State.sameIcaches_of_cores rfl

theorem State.sameIcaches_sendShadow (s : State) (cl : Nat) (e : TlbEntry) : s.SameIcaches (s.sendShadow cl e) := by
  unfold State.sendShadow
  dsimp only
  repeat' split
  all_goals exact State.sameIcaches_of_cores rfl

theorem State.sameIcaches_foldMicro (s : State) (core : Nat) (e : TlbEntry) : s.SameIcaches (s.foldMicro core e) := by
  have left : s.SameIcaches (s.setCore core { s.core core with utlb := (s.core core).utlb.filter fun f => !f.same e }) := State.sameIcaches_setCore rfl
  unfold State.foldMicro
  dsimp only
  split
  · exact left
  · exact left.trans (State.sameIcaches_sendShadow _ _ _)

/-- A translation used: a full micro-TLB makes room for it first (R122, R126). -/
theorem State.sameIcaches_useTlb (s : State) (core : Nat) (e : TlbEntry) : s.SameIcaches (s.useTlb core e) := by
  unfold State.useTlb
  dsimp only
  split
  · exact State.sameIcaches_setCore rfl
  · refine State.SameIcaches.trans ?_ (State.sameIcaches_setCore rfl)
    repeat' split
    · exact s.sameIcaches_foldMicro core _
    · exact .refl s
    · exact .refl s

theorem State.sameIcaches_useTlbs (s : State) (core : Nat) (es : List TlbEntry) : s.SameIcaches (s.useTlbs core es) :=
  List.foldlRecOn (motive := s.SameIcaches) _ _ (.refl s) fun t ht e _ => ht.trans (t.sameIcaches_useTlb core e)

/-! ### A line of the instruction cache -/

section
variable {s : State} {core pa : Nat} {l : List Word}

theorem State.icacheWord_held (h : SMap.find (s.core core).icache (pa / 128) = some l) : s.icacheWord core pa = l.getD (pa / 4 % 32) 0 := by
  rw [State.icacheWord, SMap.get_of_find _ h]

theorem State.fillIcache_held (h : SMap.find (s.core core).icache (pa / 128) = some l) : s.fillIcache core pa = s := by
  rw [State.fillIcache, if_pos (by rw [h]; rfl)]

/-- The words of the line of an address in memory. -/
def State.instrLine (s : State) (pa : Nat) : List Word := (List.range 32).map fun i => s.word (lineOf pa + 4 * i)

theorem State.getD_instrLine (s : State) (h : pa % 4 = 0) : (s.instrLine pa).getD (pa / 4 % 32) 0 = s.word pa := by
  have place : lineOf pa + 4 * (pa / 4 % 32) = pa := by rw [lineOf]; omega
  simp [State.instrLine, List.getD, Nat.mod_lt, place]

/-- A line of HBM that the cache does not hold is taken from memory. -/
theorem State.fillIcache_memory (h : SMap.find (s.core core).icache (pa / 128) = none) (hr : pRange pa = .hbm) :
    s.fillIcache core pa = s.setCore core { s.core core with icache := SMap.set (s.core core).icache (pa / 128) (s.instrLine pa) } := by
  rw [State.fillIcache, if_neg (by rw [h]; exact Bool.false_ne_true)]
  simp [hr, State.instrLine]

end

/-! ### One word fetched -/

/-- A read of a line without poison that its home slice holds and performs at once. -/
theorem State.lineRead_performed {s : State} {point pa n : Nat} (hr : pRange pa = .hbm) (hv : (s.line pa).valid = true) (hp : s.linePsn pa = false)
    (hf : s.fateFrom point pa = .perform) (hb : s.behindRing pa n = false) : s.lineRead point pa n = .ok s := by
  have hpass : s.passes point pa = true := by rw [State.passes, hf]; rfl
  have hfill : s.fillHeld pa = false := by simp [State.fillHeld, hv]
  rw [State.lineRead, if_neg (by rw [hr]; decide), if_neg (by rw [hf]; decide), if_neg (by rw [hpass, hfill, hb]; decide)]
  simp [State.needLine_of_valid hv, hp]

/-- The state in which the translation of a fetched word has been used. -/
def State.fetchUsed (s : State) (slot : Nat) (e : Option TlbEntry) : State :=
  (s.dropX (slotCluster slot) (fetchReq (s.group slot).uid)).useTlbs (slotCore slot) e.toList

theorem State.cacheStep_fetchUsed (s : State) (slot : Nat) (e : Option TlbEntry) : s.CacheStep (s.fetchUsed slot e) :=
  (s.cacheStep_dropX _ _).trans (State.cacheStep_useTlbs _ _ _)

theorem State.sameIcaches_fetchUsed (s : State) (slot : Nat) (e : Option TlbEntry) : s.SameIcaches (s.fetchUsed slot e) :=
  (s.sameIcaches_dropX _ _).trans (State.sameIcaches_useTlbs _ _ _)

section
variable {s : State} {slot k pa : Nat} {e : Option TlbEntry} {pc : DWord}

/-- A word whose address passes its checks, and whose line is in the cache or may be read, is that of the cache once it holds the line. -/
theorem fetchWords_one (hc : s.checkGlobal slot ((s.group slot).asid == 0) (s.group slot).asid .fetch 4 4 (pc + BitVec.ofNat 64 (4 * k)) = .ok pa e)
    (hl : (SMap.find (s.core (slotCore slot)).icache (pa / 128)).isSome = true ∨ s.lineRead (slotCluster slot) pa 4 = .ok s) :
    let t := (s.fetchUsed slot e).fillIcache (slotCore slot) pa
    fetchWords slot pc 1 k s = .ok [t.icacheWord (slotCore slot) pa] t := by
  have read : (if (SMap.find (s.core (slotCore slot)).icache (pa / 128)).isSome then LineRead.ok s else s.lineRead (slotCluster slot) pa 4) = .ok s := by
    split
    · rfl
    · next hn => exact hl.resolve_left hn
  simp only [fetchWords, hc, read]
  rfl

theorem fetchWords_cached {l : List Word}
    (hc : s.checkGlobal slot ((s.group slot).asid == 0) (s.group slot).asid .fetch 4 4 (pc + BitVec.ofNat 64 (4 * k)) = .ok pa e)
    (hl : SMap.find (s.core (slotCore slot)).icache (pa / 128) = some l) :
    fetchWords slot pc 1 k s = .ok [l.getD (pa / 4 % 32) 0] (s.fetchUsed slot e) := by
  have held : SMap.find ((s.fetchUsed slot e).core (slotCore slot)).icache (pa / 128) = some l := by rw [s.sameIcaches_fetchUsed, hl]
  rw [fetchWords_one hc (.inl (by rw [hl]; rfl)), State.fillIcache_held held, State.icacheWord_held held]

/-- A word that the cache does not hold, of a line that may be read, is that of memory. -/
theorem fetchWords_memory (ha : pa % 4 = 0)
    (hc : s.checkGlobal slot ((s.group slot).asid == 0) (s.group slot).asid .fetch 4 4 (pc + BitVec.ofNat 64 (4 * k)) = .ok pa e)
    (hn : SMap.find (s.core (slotCore slot)).icache (pa / 128) = none) (hr : pRange pa = .hbm) (hl : s.lineRead (slotCluster slot) pa 4 = .ok s) :
    ∃ t, fetchWords slot pc 1 k s = .ok [s.word pa] t ∧ s.CacheStep t := by
  have used := s.cacheStep_fetchUsed slot e
  have missing : SMap.find ((s.fetchUsed slot e).core (slotCore slot)).icache (pa / 128) = none := by rw [s.sameIcaches_fetchUsed, hn]
  have fills := State.fillIcache_memory missing hr
  refine ⟨(s.fetchUsed slot e).fillIcache (slotCore slot) pa, (fetchWords_one hc (.inr hl)).trans ?_, used.trans (by rw [fills]; rfl)⟩
  have holds : SMap.find (((s.fetchUsed slot e).fillIcache (slotCore slot) pa).core (slotCore slot)).icache (pa / 128) =
      some ((s.fetchUsed slot e).instrLine pa) := by
    rw [fills, State.core_setCore]
    exact SMap.find_set_same _ _ _
  rw [State.icacheWord_held holds, State.getD_instrLine _ ha, State.word, used.mem, State.word]

end

/-! ### An instruction fetched -/

/-- What a fetch answers where its words decode to an instruction, or are rejected (R201, R217). -/
def State.fetchedAs (s : State) (slot : Nat) (pc : DWord) : Except Reject (Instr × List Word) → FetchRes
  | .ok (i, _) => .instr i { s with cur := slot }
  | .error .illegalOpcode => .stop (s.raiseCode slot clsOpcode pc (s.group slot).batch)
  | .error _ => .stop (s.raiseCode slot clsEncoding pc (s.group slot).batch)

theorem State.fetch_decodes {s t u : State} {slot : Nat} {w : Word} {ws : List Word} (ht : (s.group slot).trapHere = false)
    (hh : s.pairHold slot = false) (h0 : fetchWords slot (s.group slot).batchPc 1 0 s = .ok [w] t)
    (h1 : fetchWords slot (s.group slot).batchPc ((wordForm w).words - 1) 1 t = .ok ws u) :
    s.fetch slot = u.fetchedAs slot (s.group slot).batchPc (decode (w :: ws)) := by
  unfold State.fetch
  simp only [ht, hh, h0, Bool.false_eq_true, if_false, List.getD_cons_zero, h1]
  rfl

/-- Settles O5: a word by whether the instruction cache holds its line, an instruction by what its words decode to. -/
theorem fetchReadsMemoryAtThePC : Obligations.FetchReadsMemoryAtThePC := by
  refine ⟨fun s slot k pa e pc ha hc => ⟨fun l hl => ?cached, fun hn hr hv hp hf hb => ?memory⟩, fun s t u slot w ws rest ht hh h0 h1 => ?decoded⟩
  case cached =>
    have step := s.cacheStep_fetchUsed slot e
    exact ⟨_, fetchWords_cached hc hl, step.mem, step.groups, step.parts⟩
  case memory =>
    obtain ⟨t, words, step⟩ := fetchWords_memory ha hc hn hr (State.lineRead_performed hr hv hp hf hb)
    exact ⟨t, words, step.mem, step.groups, step.parts⟩
  case decoded =>
    have fetched := State.fetch_decodes ht hh h0 h1
    exact ⟨fun i hd => by rw [fetched, hd]; rfl, fun hd => by rw [fetched, hd]; rfl, fun hd => by rw [fetched, hd]; rfl⟩

end Sys2Proof.Machine
end

section
/-! Pairs, fallowing and power (R138 to R147, R149, R150, R154, R365 to R368, R372, R373, R380, R400): an event of a pair or of a migration that is due applies
the model's own function, and what the steps of the hub and of the management block leave. -/

namespace Sys2Proof.Machine

open Sys2Proof

/-! ### The stores that lowered MEMCAP (R139) -/

/-- Two states that differ in what harts have been told alone. -/
def State.HartStep (s t : State) : Prop := t = { s with svc := t.svc, harts := t.harts }

theorem State.HartStep.trans {s t u : State} (h : s.HartStep t) (h' : t.HartStep u) : s.HartStep u := by
  unfold State.HartStep at *
  rw [h', h]

theorem State.hartStep_hartOk (s : State) (a : Agent) : s.HartStep (s.hartOk a) := by cases a <;> rfl

theorem State.hartStep_hartOks (l : List Agent) (s : State) : s.HartStep (l.foldl (fun s a => s.hartOk a) s) := by
  induction l generalizing s with
  | nil => rfl
  | cons a l ih => exact (s.hartStep_hartOk a).trans (ih _)

section
variable {s : State}

/-- With no access in flight only harts wait for the lowering. -/
theorem State.capStores_noAccess (h : s.accs = []) :
    let t := s.capStores
    t.hub = { s.hub with capHarts := [] } ∧ t.mem = s.mem ∧ t.groups = s.groups := by
  have told := State.hartStep_hartOks s.hub.capHarts s
  have none_left : (s.hub.capHarts.foldl (fun s a => s.hartOk a) s).accs = [] := by rw [told]; exact h
  unfold State.capStores State.updHub
  simp only [none_left, List.foldl_nil]
  rw [told]
  exact ⟨rfl, rfl, rfl⟩

theorem State.capWindows_none (h : s.windows = []) : s.capWindows = s := by rw [State.capWindows, h, List.foldl_nil]

/-- With no slice and no window there are only those stores to complete. -/
theorem execMemcapLowerSettle_calm (hl : s.hub.lowering = true) (hr : s.oldRouted = false) (hs : s.slices = []) (hw : s.windows = []) :
    execMemcapLowerSettle s = .next (s.updHub fun h => { h with lowering := false }).capStores := by
  unfold execMemcapLowerSettle
  simp only [event_due (show (s.hub.lowering && !s.oldRouted) = true by rw [hl, hr]; rfl), hs, List.map_nil, List.foldl_nil, State.capWindows_none hw]

/-! ### The state machine of a migration (R142, R143, R147) -/

theorem State.writeMigTarget_none (h : s.hub.migword = 0) : s.writeMigTarget = s := if_pos h

/-- CLOSE begins in COPY only, and not before the last granule. -/
theorem State.closeBegin_stays (h : s.hub.mstate = 2 → s.hub.mnext ≠ s.hub.mend) : s.closeBegin = s := if_neg fun hc => h hc.1 hc.2

theorem State.writeMigTarget_closeBegin_stays (h0 : s.hub.migword = 0) (h : s.hub.mstate = 2 → s.hub.mnext ≠ s.hub.mend) :
    s.writeMigTarget.closeBegin = s := by
  rw [State.writeMigTarget_none h0, State.closeBegin_stays h]

/-- Where MIGWORD names no word, ENTER ends in COPY with a granule to move, and CLOSE in STABLE. -/
theorem execMigrationEnterDone_noWord (h1 : s.hub.mstate = 1) (h0 : s.hub.migword = 0) (hn : s.hub.mnext ≠ s.hub.mend) :
    execMigrationEnterDone s = .next (s.refreshAll.updHub fun h => { h with mstate := 2 }) :=
  (event_due (beq_iff_eq.2 h1)).trans (congrArg _ (State.writeMigTarget_closeBegin_stays h0 fun _ => hn))

theorem execMigrationCloseDone_noWord (h3 : s.hub.mstate = 3) (h0 : s.hub.migword = 0) :
    execMigrationCloseDone s = .next (s.updHub Hub.closed).refreshAll :=
  (event_due (beq_iff_eq.2 h3)).trans (congrArg _ (State.writeMigTarget_closeBegin_stays h0 fun h2 => absurd h2 (Nat.zero_ne_add_one 1)))

/-- The beginning of CLOSE is a change of MPHASE and of the idle time. -/
theorem State.closeBegin_keeps (s : State) :
    s.closeBegin = s.updHub fun h => { h with mstate := s.closeBegin.hub.mstate, idleUntil := s.closeBegin.hub.idleUntil } := by
  unfold State.closeBegin
  split <;> rfl

theorem State.closeBegin_copying (h2 : s.hub.mstate = 2) (h0 : s.hub.idleUntil = 0) :
    s.closeBegin.hub.idleUntil = 0 ∧ s.closeBegin.hub.mstate = if s.hub.mnext = s.hub.mend then 3 else 2 := by
  by_cases hn : s.hub.mnext = s.hub.mend
  · rw [State.closeBegin, if_pos ⟨h2, hn⟩, if_pos hn]
    exact ⟨rfl, rfl⟩
  · rw [State.closeBegin_stays fun _ => hn, if_neg hn]
    exact ⟨h0, h2⟩

/-- The engine seals the next granule where its homes differ, and passes it over where they are the same. -/
theorem State.takeGranule_sealed (h : s.oldHome s.hub.mnext ≠ s.newHome s.hub.mnext) : s.takeGranule = s.updHub fun h =>
    { h with granule := some s.hub.mnext, drained := false, sealedAt := s.cycle, newPsn := [], shareNow := s.hub.share } :=
  if_neg h

theorem State.takeGranule_passed (h : s.oldHome s.hub.mnext = s.newHome s.hub.mnext) :
    s.takeGranule = (s.updHub fun h => { h with mnext := s.hub.mnext + 1 }).closeBegin :=
  if_pos h
end

/-! ### Throttling (R400) -/

theorem Mgmt.power_throttle (x : Mgmt) : x.throttle.power = x.power := by
  unfold Mgmt.throttle
  dsimp only
  repeat' split
  all_goals rfl

/-- Above the power limit the arithmetic clock goes one step down, whatever the temperatures. -/
theorem Mgmt.throttle_overPower {x : Mgmt} (h : x.cap < x.power) : x.throttle = { x with fcur := max 15 (x.fcur - 1), thr := true } :=
  if_pos (by simp [h])

/-! ### Checkpoints, mismatches and discards that are due (R367, R368, R372) -/

section
variable {s : State} {tm tr f : Nat}

theorem execTeamCheckpoint_due (hp : (s.team tm).pair = some tr) (hd : s.ckptDue tm = true) : execTeamCheckpoint tm s = .next (s.doCkpt tm tr) := by
  rw [execTeamCheckpoint, event_due hd, hp]

theorem execPairMismatch_due (hp : (s.team tm).pair = some tr) (hd : s.mismatchDue tm = true) : execPairMismatch tm s = .next
    (if (s.team tm).redeliver then s.pairAnswered tm tr ((s.team tm).mism.getD 0) else s.pairMismatch tm tr ((s.team tm).mism.getD 0)) := by
  unfold execPairMismatch
  rw [event_due hd, hp]

theorem execContainedDiscard_again (hd : s.discardDue tm = true) (ha : (s.team tm).again = true) (hf : s.relaunchAt tm = some f) :
    execContainedDiscard tm s = .next (s.relaunchTeam tm f) := by
  unfold execContainedDiscard
  simp only [event_due hd, if_pos ha, hf]

theorem execContainedDiscard_last (hd : s.discardDue tm = true) (ha : (s.team tm).again = false) :
    execContainedDiscard tm s = .next (s.endDomain (s.launch (s.team tm).launch).rcb) := by
  unfold execContainedDiscard
  simp only [event_due hd, if_neg (Bool.eq_false_iff.1 ha)]
end

/-- Settles O58: each event is due by its hypotheses, and what it leaves is that of the hub, of a team, or of the management block. Where the manual leaves a
point open the clauses are the model's choice: the empty memory and groups after shutdown (logs 1 and 17), redundant pairs and their checkpoints
(logs 68 and 69), and contained teams (log 71). -/
theorem pairsAndPackageEvents : Obligations.PairsAndPackageEvents := by
  intro s k n
  refine ⟨?compare, ?differ, ?forward, ?operands, ?checkpoint, ?mismatch, ?relaunch, ?discard, ?settled, ?settles, ?entered, ?enters, ?idle, ?closes, ?closed,
    ?granule, ?drained, ?handover, ?dead, ?leak, ?throttle, ?shutdown, ?trained⟩
  case compare =>
    intro id a tid b h
    rw [exec_pairScbCompare, execPairScbCompare, h]
  case differ =>
    intro h
    refine ⟨s.updTeam k fun t => { t with mism := some n }, ?_, by rw [State.team_updTeam], rfl, rfl⟩
    rw [exec_pairScbCompare, execPairScbCompare, h]
  case forward =>
    intro ls ts e hs he
    simp only [exec_pairSideEffect, execPairSideEffect, hs, he]
  case operands =>
    intro ls ts hs he hd
    simp only [exec_pairSideEffect, execPairSideEffect, hs, he]
    exact event_due hd
  case checkpoint => exact fun tr hp hd => (exec_teamCheckpoint k s).trans (execTeamCheckpoint_due hp hd)
  case mismatch => exact fun tr hp hd => (exec_pairMismatch k s).trans (execPairMismatch_due hp hd)
  case relaunch => exact fun f hd ha hf => (exec_containedDiscard k s).trans (execContainedDiscard_again hd ha hf)
  case discard => exact fun hd ha => (exec_containedDiscard k s).trans (execContainedDiscard_last hd ha)
  case settled =>
    intro hl hr hslices hwindows haccs
    exact ⟨_, (exec_memcapLowerSettle s).trans (execMemcapLowerSettle_calm hl hr hslices hwindows), State.capStores_noAccess haccs⟩
  case settles => exact fun hl hr => ⟨_, (exec_memcapLowerSettle s).trans (event_due (by rw [hl, hr]; rfl))⟩
  case entered =>
    exact fun h1 h0 hn => ⟨_, (exec_migrationEnterDone s).trans (execMigrationEnterDone_noWord h1 h0 hn), rfl, rfl, rfl, rfl, rfl, rfl⟩
  case enters => exact fun h1 => ⟨_, (exec_migrationEnterDone s).trans (event_due (beq_iff_eq.2 h1))⟩
  case idle =>
    intro h2 hi hc
    refine ⟨_, (exec_migrationIdleExpiry s).trans (event_due (by simp [h2, hi, hc])), ?_⟩
    obtain ⟨hidle, hstate⟩ := State.closeBegin_copying (s := s.updHub fun h => { h with idleUntil := 0 }) h2 rfl
    refine ⟨hidle, hstate, ?_⟩
    rw [State.closeBegin_keeps]
    exact ⟨rfl, rfl⟩
  case closes => exact fun h3 => ⟨_, (exec_migrationCloseDone s).trans (event_due (beq_iff_eq.2 h3))⟩
  case closed =>
    exact fun h3 h0 => ⟨_, (exec_migrationCloseDone s).trans (execMigrationCloseDone_noWord h3 h0), rfl, rfl, rfl, rfl, rfl, rfl, rfl, rfl⟩
  case granule =>
    intro h2 hg hi hlt
    have taken : exec .migrateGranule s = .next s.takeGranule := (exec_migrateGranule s).trans (event_due (by simp [State.granuleDue, h2, hg, hi, hlt]))
    refine ⟨fun hh => ⟨_, taken, ?_⟩, fun hh => ⟨_, taken, ?_⟩⟩
    · rw [State.takeGranule_sealed hh]
      exact ⟨rfl, rfl, rfl, rfl⟩
    · rw [State.takeGranule_passed hh, State.closeBegin_keeps]
      exact ⟨hg, rfl, rfl, rfl⟩
  case drained =>
    intro g failed h
    rw [exec_granuleDrained, execGranuleDrained, h]
  case handover =>
    intro g h
    rw [exec_granuleHandover, execGranuleHandover, h]
  case dead => exact fun hk hl hd => ⟨_, (exec_stackDead k s).trans (event_due (by rw [hl, hd, decide_eq_true hk]; rfl)), rfl, rfl, rfl, rfl⟩
  case leak =>
    intro h
    refine ⟨_, (exec_leakyBucketLeak s).trans (event_due (decide_eq_true h)), rfl, rfl, rfl, fun o b hb => ?_⟩
    exact (SMap.find_map_snd Bucket.leaked s.buckets o).trans (congrArg (Option.map Bucket.leaked) hb)
  case throttle =>
    intro power temps h
    refine ⟨_, (exec_throttleStep power temps s).trans (event_due (decide_eq_true h)), rfl, rfl, rfl, Mgmt.power_throttle _, fun hcap => ?_⟩
    dsimp only
    rw [Mgmt.throttle_overPower (show (Mgmt.sensed { s.mgmt with power := power } temps).cap < _ from hcap)]
    exact ⟨rfl, rfl⟩
  case shutdown => exact fun temp hk ht => ⟨_, (exec_thermalShutdown k temp s).trans (event_due (decide_eq_true ⟨hk, ht⟩)), rfl, rfl, rfl, rfl⟩
  case trained =>
    intro hk hs hl hp
    have due : (decide (k < 8) && s.boot.stage != 0 && !s.hub.live.getLsbD k && !s.hub.parked.getLsbD k) = true := by
      rw [hl, hp, decide_eq_true hk, bne_iff_ne.2 hs]
      rfl
    exact ⟨⟨_, (exec_hbmTrainingComplete k true s).trans (event_due due), rfl, rfl, rfl⟩,
      ⟨_, (exec_hbmTrainingComplete k false s).trans (event_due due), rfl, rfl, rfl⟩⟩

end Sys2Proof.Machine
end

section
/-! The mask of user interrupts, no-preempt sections, checkpoints and the time stamp as instructions (R175, R333, R338, R339). -/

namespace Sys2Proof.Machine

open Sys2Proof

/-- The mask that uimask leaves: with `.wr` the operand, with `.set` and `.clr` the old one with the operand's bits set or cleared (R333). -/
def Ctx.newUimask (c : Ctx) : Word :=
  match c.e.func.toNat % 4 with
  | 0 => c.ua.setWidth 32
  | 1 => c.g.uimask ||| c.ua.setWidth 32
  | _ => c.g.uimask &&& ~~~ c.ua.setWidth 32

section
variable {c : Ctx}

theorem Ctx.newUimask_write (h : c.e.func.toNat % 4 = 0) : c.newUimask = c.ua.setWidth 32 := by simp only [Ctx.newUimask, h]

theorem Ctx.newUimask_set (h : c.e.func.toNat % 4 = 1) : c.newUimask = c.g.uimask ||| c.ua.setWidth 32 := by simp only [Ctx.newUimask, h]

theorem Ctx.newUimask_clear (h : c.e.func.toNat % 4 = 2) : c.newUimask = c.g.uimask &&& ~~~ c.ua.setWidth 32 := by simp only [Ctx.newUimask, h]

end

section
variable {f : Enc} {s : State} {c : Ctx}

theorem execUimask_idle (h : Issues (.uimask f) noOwn s c) (hact : c.act = 0) :
    ComputesUniform c (c.g.uimask.setWidth 64) s (exec (.uimask f) s) := by
  rw [exec_uimask, execUimask, issue_next h]
  dsimp only
  rw [if_pos hact]
  exact h.computes (fun p hp => by cases hp; rfl) _ _ _ _

theorem execUimask_changes (h : Issues (.uimask f) noOwn s c) (hact : c.act ≠ 0) :
    ComputesUniform c (c.g.uimask.setWidth 64) (s.updGroup c.slot fun g => { g with uimask := c.newUimask }) (exec (.uimask f) s) := by
  rw [exec_uimask, execUimask, issue_next h, Ctx.newUimask, h.group]
  dsimp only
  rw [if_neg hact]
  exact h.computes (fun p hp => by cases hp; rfl) _ _ _ _

theorem execNpbegin_idle (h : Issues (.npbegin f) noOwn s c) (hact : c.act = 0) : Acts c s (exec (.npbegin f) s) := by
  rw [exec_npbegin, execNpbegin, issue_next h, if_pos hact]
  exact acts_done _ _

theorem execNpbegin_opens (h : Issues (.npbegin f) noOwn s c) (hact : c.act ≠ 0) (hd : c.g.npdepth < 15) : Acts c
    (s.updGroup c.slot fun g => { g with npdepth := g.npdepth + 1, npsince := if g.npdepth = 0 then s.cycle else g.npsince })
    (exec (.npbegin f) s) := by
  rw [exec_npbegin, execNpbegin, issue_next h, if_neg hact, if_pos hd]
  exact acts_done _ _

/-- A sixteenth section closes all that are open and is an overrun (R175). -/
theorem execNpbegin_overruns (h : Issues (.npbegin f) noOwn s c) (hact : c.act ≠ 0) (hd : 15 ≤ c.g.npdepth) : exec (.npbegin f) s =
    .next ((s.updGroup c.slot Group.npClose).raise c.slot (.skip c.len) { cls := clsNpOverrun, lanes := c.act, pc := c.pc }) := by
  rw [exec_npbegin, execNpbegin, issue_next h, if_neg hact, if_neg (Nat.not_lt.2 hd)]

/-- npend's effect: one section fewer, and an overrun that is due stays due (R175). -/
theorem execNpend_acts (h : Issues (.npend f) noOwn s c) : Acts c
    (if c.act = 0 then s else s.updGroup c.slot fun g => { g with npdepth := g.npdepth - 1, npover := g.npover || g.npLate s.cycle })
    (exec (.npend f) s) := by
  rw [exec_npend, execNpend, groupLevel, issue_next h]
  exact acts_done _ _

/-- ckpt's effect: in a paired launch the group parks until the pair has matched, and else nothing (R338). -/
theorem execCkpt_acts (h : Issues (.ckpt f) noOwn s c) : Acts c
    (if c.act = 0 then s
      else if (s.team c.g.team).paired then (s.block c.slot .ckpt).updTeam (s.leadTeam c.g) fun t => { t with wantCkpt := true } else s)
    (exec (.ckpt f) s) := by
  rw [exec_ckpt, execCkpt, groupLevel, issue_next h]
  exact acts_done _ _

theorem execTstampr_reads (h : Issues (.tstampr f) noOwn s c) (hr : c.act = 0 ∨ c.e.func.getLsbD 0 = false) :
    ComputesUniform c s.tstamp s (exec (.tstampr f) s) := by
  rw [exec_tstampr, execTstampr, issue_next h, if_pos (by simpa using hr)]
  exact h.computes (fun p hp => by cases hp; rfl) _ _ _ _

theorem execTstampr_parks (h : Issues (.tstampr f) noOwn s c) (hact : c.act ≠ 0) (hs : c.e.func.getLsbD 0 = true) :
    Acts c ((s.takeToken c.slot 16 0).block c.slot (.tstamp c.dest)) (exec (.tstampr f) s) := by
  rw [exec_tstampr, execTstampr, issue_next h, if_neg (by simpa [hs] using hact)]
  exact acts_done _ _

end

/-- Settles O46: uimask by the mask that each mode leaves, the other instructions by what they do with and without active lanes. -/
theorem masksSectionsAndTime : Obligations.MasksSectionsAndTime := by
  intro f s c
  dsimp only
  refine ⟨execUimask_idle, ?write, ?set, ?clear, execNpbegin_idle, execNpbegin_opens, execNpbegin_overruns, ?endIdle, ?ends, ?ckpt,
    execTstampr_reads, execTstampr_parks⟩
  case write => exact fun h hact hf => Ctx.newUimask_write hf ▸ execUimask_changes h hact
  case set => exact fun h hact hf => Ctx.newUimask_set hf ▸ execUimask_changes h hact
  case clear => exact fun h hact hf => Ctx.newUimask_clear hf ▸ execUimask_changes h hact
  case endIdle =>
    intro h hact
    have acts := execNpend_acts h
    rwa [if_pos hact] at acts
  case ends =>
    intro h hact
    have acts := execNpend_acts h
    rwa [if_neg hact] at acts
  case ckpt =>
    intro h hnone
    have acts := execCkpt_acts h
    rcases hnone with hact | hp
    · rwa [if_pos hact] at acts
    · rwa [hp, if_neg Bool.false_ne_true, ite_self] at acts

end Sys2Proof.Machine
end

section
/-! GROW and CARVE as instructions (R178, R179, R336, R337): what a granted GROW leaves, and the four ways in which grow ends. -/

namespace Sys2Proof.Machine

open Sys2Proof

/-! ### A granted group -/

/-- The ways that L1 loses are of its core alone (R36). -/
theorem State.coreStep_trimL1 (s : State) (core : Nat) : s.CoreStep (s.trimL1 core) := .foldl (fun t _ => (rfl : t.CoreStep (t.trimSet core _ _))) _ _

/-- A granted group has its new blocks, the scalar ones with the lowest numbers that no group of its team holds on its core (R179). -/
theorem State.group_growGroup (s : State) (slot v q : Nat) : (s.growGroup slot v q).group slot =
    { s.group slot with
      vblk := (s.group slot).vblk + v, sblk := (s.group slot).sblk + q
      sids := (s.group slot).sids ++ freeSids (s.heldSids (s.team (s.group slot).team) (slotCore slot)) q } := by
  rw [State.growGroup, State.group, (State.coreStep_trimL1 _ _).groups]
  exact State.group_setGroup _ _ _

/-- More blocks than a group may have are never granted (R179). -/
theorem State.growNever_of_beyond {s : State} {slot v q : Nat} (h : 8 < (s.group slot).vblk + v ∨ 4 < (s.group slot).sblk + q) :
    s.growNever slot v q = true :=
  decide_eq_true (or_assoc.1 (.inl h))

/-! ### The instructions -/

section
variable {f : Enc} {s : State} {c : Ctx}

theorem execGrow_idle (h : Issues (.grow f) noOwn s c) (hact : c.act = 0) : ComputesUniform c 0 s (exec (.grow f) s) := by
  rw [exec_grow, execGrow, issue_next h]
  dsimp only
  rw [if_pos hact]
  exact h.computes (fun p hp => by cases hp; rfl) _ _ _ _

section
variable (h : Issues (.grow f) noOwn s c) (hact : c.act ≠ 0)
include h hact

theorem execGrow_denied (hn : s.growNever c.slot (c.ua.toNat % 2 ^ 32) (c.ub.toNat % 2 ^ 32) = true) :
    ComputesUniform c 1 s (exec (.grow f) s) := by
  rw [exec_grow, execGrow, issue_next h]
  dsimp only
  rw [if_neg hact, if_pos hn]
  exact h.computes (fun p hp => by cases hp; rfl) _ _ _ _

section
variable (hn : s.growNever c.slot (c.ua.toNat % 2 ^ 32) (c.ub.toNat % 2 ^ 32) = false)
include hn

theorem execGrow_granted (hf : s.growFits c.slot (c.ua.toNat % 2 ^ 32) (c.ub.toNat % 2 ^ 32) = true) :
    ComputesUniform c 0 (s.growGroup c.slot (c.ua.toNat % 2 ^ 32) (c.ub.toNat % 2 ^ 32)) (exec (.grow f) s) := by
  rw [exec_grow, execGrow, issue_next h]
  dsimp only
  rw [if_neg hact, if_neg (Bool.eq_false_iff.1 hn), if_pos hf]
  exact h.computes (fun p hp => by cases hp; rfl) _ _ _ _

theorem execGrow_blocks (hf : s.growFits c.slot (c.ua.toNat % 2 ^ 32) (c.ub.toNat % 2 ^ 32) = false) :
    Acts c (s.block c.slot (.grow (c.ua.toNat % 2 ^ 32) (c.ub.toNat % 2 ^ 32) c.dest s.cycle)) (exec (.grow f) s) := by
  rw [exec_grow, execGrow, issue_next h]
  dsimp only
  rw [if_neg hact, if_neg (Bool.eq_false_iff.1 hn), if_neg (Bool.eq_false_iff.1 hf)]
  exact acts_done _ _

end
end

theorem execCarve_idle (h : Issues (.carve f) noOwn s c) (hact : c.act = 0) : ComputesUniform c 0 s (exec (.carve f) s) := by
  rw [exec_carve, execCarve, issue_next h, if_pos hact]
  exact h.computes (fun p hp => by cases hp; rfl) _ _ _ _

/-- The state in which a group's CARVE has arrived at the barrier of its team, with the scratchpad accesses that it waits for (R178). -/
def Ctx.carveArrived (c : Ctx) (s : State) : State :=
  s.updTeam c.g.team fun t =>
    { t with
      carve := t.carve ++ [(c.g.gidx, (c.ua.toNat % 2 ^ 32, c.ub.toNat % 2 ^ 32, c.uc.toNat % 2 ^ 32))]
      carveAfter := t.carveAfter ++ s.spadOpen c.slot }

theorem execCarve_parks (h : Issues (.carve f) noOwn s c) (hact : c.act ≠ 0) :
    Acts c ((c.carveArrived s).block c.slot (.carve c.dest)) (exec (.carve f) s) := by
  rw [exec_carve, execCarve, issue_next h, if_neg hact]
  exact acts_done _ _

end

/-- Settles O47: grow by its four cases and what a granted group has, carve by its arrival. -/
theorem growAndCarve : Obligations.GrowAndCarve := by
  intro f s c v q u
  have granted : u.group c.slot = _ := s.group_growGroup c.slot v q
  refine ⟨execGrow_idle, execGrow_denied, execGrow_granted, execGrow_blocks, congrArg Group.vblk granted, congrArg Group.sblk granted, ?regs,
    State.growNever_of_beyond, execCarve_idle, ?arrives⟩
  case regs =>
    rw [granted]
    exact fun r l _ => rfl
  case arrives =>
    exact fun h hact => ⟨c.carveArrived s, by rw [Ctx.carveArrived, State.team_updTeam], rfl, rfl, execCarve_parks h hact⟩

end Sys2Proof.Machine
end

section
/-! One step (R163, R201, R217): the action that comes next, made. -/

namespace Sys2Proof.Machine

open Sys2Proof

section
variable {s u t : State} {a : Action} {as : List Action} {slot : Nat}

theorem step_nextAction (hs : s.stopped = false) (h : s.nextAction exec = (a, u)) : step s = act a u := by
  rw [step, if_neg (Bool.eq_false_iff.1 hs), h]

/-- What the agenda names comes first. -/
theorem State.nextAction_agenda (run : Instr → State → Out) (h : s.agenda = a :: as) : s.nextAction run = (a, { s with agenda := as }) := by
  rw [State.nextAction, h]

theorem step_agenda (hs : s.stopped = false) (h : s.agenda = a :: as) : step s = act a { s with agenda := as } :=
  step_nextAction hs (State.nextAction_agenda exec h)

theorem issueSlot_instr {i : Instr} (hc : (s.group slot).canIssue = true) (hf : s.fetch slot = .instr i t) : issueSlot slot s = exec i t := by
  rw [issueSlot, if_pos hc, hf]

theorem issueSlot_stop (hc : (s.group slot).canIssue = true) (hf : s.fetch slot = .stop t) : issueSlot slot s = .next t := by
  rw [issueSlot, if_pos hc, hf]

theorem act_event {i : Instr} (h : i.spec = none) : act (.event i) s = exec i s := by
  rw [act, h]
  exact if_neg Bool.false_ne_true

end

/-- Settles O4: an issue by what its fetch answers, every other action as the agenda names it. The agenda itself, and the actions on it that the
manual leaves to the implementation, are the model's choice (log 4). -/
theorem stepRunsDecodedInstruction : Obligations.StepRunsDecodedInstruction := by
  intro s u slot hs
  refine ⟨?issues, ?event, ?issue, ?tick, ?evict, ?l1Evict, ?l1Parity, ?arrayError⟩
  case issues =>
    intro hn hc
    have issued : step s = issueSlot slot u := step_nextAction hs hn
    exact ⟨fun i t hf => issued.trans (issueSlot_instr hc hf), fun t hf => issued.trans (issueSlot_stop hc hf)⟩
  case event => exact fun i as h hi => (step_agenda hs h).trans (act_event hi)
  case issue => exact fun as h => State.nextAction_agenda exec h
  case tick => exact fun n ns as h => step_agenda hs h
  case evict => exact fun pa as h => step_agenda hs h
  case l1Evict => exact fun k pa as h => step_agenda hs h
  case l1Parity => exact fun k pa as h => step_agenda hs h
  case arrayError => exact fun tm as h => step_agenda hs h

end Sys2Proof.Machine
end

section
/-! Runs, teams, sections, GROW and time-outs (R161 to R163, R167, R170 to R179, R240): each event is performed as soon as it is due. -/

namespace Sys2Proof.Machine

open Sys2Proof

section
variable {s : State} {k n slot : Nat}

/-! ### Runs -/

theorem execIssueSelect_selects (h : s.selectable k = some slot) : execIssueSelect k s = .next (s.selectRun slot) := by
  rw [execIssueSelect, h]
  exact event_due rfl

theorem State.runEndDue_of (hs : (s.group k).st = .issuing) (he : (s.group k).ended = true) : s.runEndDue k = true := by simp [State.runEndDue, hs, he]

theorem State.runmaxDue_of (hs : (s.group k).st = .issuing) (he : (s.group k).ended = false) (hc : 1024 ≤ (s.group k).count) :
    s.runmaxDue k = true := by simp [State.runmaxDue, hs, he, hc]

theorem State.drainedDue_of (hs : (s.group k).st = .draining) (hg : (s.group k).gone = false) (hr : s.resultsOut k = false) :
    s.drainedDue k = true := by simp [State.drainedDue, hs, hg, hr]

/-! ### No-preempt sections (R175) -/

section
variable (hd : 0 < (s.group k).npdepth) (ho : (s.group k).npover = false) (hl : (s.group k).npLimit ≤ s.cycle - (s.group k).npsince)
include hd ho hl

theorem State.npDue_of (hs : (s.group k).st ≠ .empty) : s.npDue k = true := by simp [State.npDue, Group.npLate, hs, hd, ho, hl]

/-- The overrun of a group that runs or may run waits for its next marker. -/
theorem execNopreemptOverrun_noted (hs : (s.group k).st = .ready ∨ (s.group k).st = .issuing) :
    execNopreemptOverrun k s = .next (s.updGroup k fun g => { g with npover := true }) := by
  rcases hs with hs | hs <;> simp only [execNopreemptOverrun, event_due (State.npDue_of hd ho hl (by simp [hs])), hs]

/-- The overrun of a group that stands at a marker is raised at once. -/
theorem execNopreemptOverrun_raised (hs : (s.group k).st = .blocked ∨ (s.group k).st = .draining) :
    execNopreemptOverrun k s = .next ((s.overrun k).preTake (s.group k).team) := by
  rcases hs with hs | hs <;> simp only [execNopreemptOverrun, event_due (State.npDue_of hd ho hl (by simp [hs])), hs]

end

/-! ### Teams (R170 to R173) -/

theorem State.placeDue_next {w : Waiting} {f : Nat} (h : s.nextPlaced = some (w, f)) : s.placeDue w = some f := by
  rw [State.placeDue, h]
  exact if_pos rfl

theorem execTeamPlace_launch {f : Nat} (h : s.nextPlaced = some (.launch n, f)) : execTeamPlace false n s = .next (s.placeNext n f) := by
  rw [execTeamPlace, if_neg Bool.false_ne_true, State.placeDue_next h]
  rfl

theorem execTeamPlace_saved {f : Nat} (h : s.nextPlaced = some (.saved n, f)) : execTeamPlace true n s = .next (s.placeSaved n f) := by
  rw [execTeamPlace, if_pos rfl, State.placeDue_next h]
  rfl

theorem State.reserveDue_of {la : Launch} (h : SMap.find s.launches n = some la) (hr : la.reserved = false) (hn : la.next < la.total)
    (hl : 3000000 < s.cycle - la.since) : s.reserveDue n = true := by simp [State.reserveDue, h, hr, hn, hl]

theorem SMap.find_upd_of_find {α : Type} {m : SMap α} {i : Nat} {a : α} (d : α) (f : α → α) (h : SMap.find m i = some a) :
    SMap.find (SMap.upd m i d f) i = some (f a) := by
  rw [SMap.upd, SMap.find_set_same, SMap.get_of_find d h]

/-- A team retires unless the home of its launch's completion word is to be asked again (R149, R172). -/
theorem execTeamRetire_due (hd : s.retireDue n = true)
    (hm : ∀ pa e, s.isLast n = true → s.cwChk ((s.team n).core / 8) (s.team n).launch = .ok pa e → s.fateFrom ((s.team n).core / 8) pa ≠ .moved) :
    execTeamRetire n s = .next (s.retire n) := by
  rw [execTeamRetire, event_due hd]
  by_cases hl : s.isLast n = true
  · rw [if_pos hl]
    split
    · next pa e hw => rw [State.sendFrom_reached (hm pa e hl hw)]
    · rfl
  · rw [if_neg hl]

/-! ### GROW (R179) -/

theorem execGrowGrant_next {ok : Bool} (h : s.growNext k = some (slot, ok)) : execGrowGrant k s = .next (s.endGrow slot ok) := by
  rw [execGrowGrant, h]

end

/-- Settles O55: each event is due by its hypotheses. The order in which waiting GROWs are taken is the model's choice (log 72). -/
theorem groupsAndTeamsGoOn : Obligations.GroupsAndTeamsGoOn := by
  intro s k n
  refine ⟨?select, ?ends, ?runmax, ?drained, ?noted, ?raised, ?routine, ?placed, ?restored, ?reserves, ?retires, ?server, ?grants, ?late, ?register⟩
  case select => exact fun slot h => (exec_issueSelect k s).trans (execIssueSelect_selects h)
  case ends => exact fun hs he => (exec_runEnd k s).trans (event_due (State.runEndDue_of hs he))
  case runmax =>
    exact fun hs he hc => ⟨_, (exec_runmaxMarker k s).trans (event_due (State.runmaxDue_of hs he hc)), State.group_updGroup _ _ _, rfl,
      fun j hj => State.group_updGroup_ne _ _ _ _ hj⟩
  case drained => exact fun hs hg hr => (exec_resultsDrained k s).trans (event_due (State.drainedDue_of hs hg hr))
  case noted =>
    exact fun hs hd ho hl => ⟨_, (exec_nopreemptOverrun k s).trans (execNopreemptOverrun_noted hd ho hl hs), State.group_updGroup _ _ _, rfl,
      fun j hj => State.group_updGroup_ne _ _ _ _ hj⟩
  case raised => exact fun hs hd ho hl => (exec_nopreemptOverrun k s).trans (execNopreemptOverrun_raised hd ho hl hs)
  case routine => exact fun h => (exec_saveRoutineStart k s).trans (event_due h)
  case placed => exact fun f h => (exec_teamPlace false n s).trans (execTeamPlace_launch h)
  case restored => exact fun f h => (exec_teamPlace true n s).trans (execTeamPlace_saved h)
  case reserves =>
    exact fun la h hr hn hl => ⟨_, (exec_launchReserve n s).trans (event_due (State.reserveDue_of h hr hn hl)),
      SMap.find_upd_of_find {} (fun x => { x with reserved := true }) h, rfl, rfl⟩
  case retires => exact fun hd hm => (exec_teamRetire n s).trans (execTeamRetire_due hd hm)
  case server => exact fun h => ⟨_, (exec_taskServerRequest k n s).trans (event_due h), congrArg SvcCore.tsreq (State.svcCore_setSvc _ _ _), rfl, rfl⟩
  case grants => exact fun slot ok h => (exec_growGrant k s).trans (execGrowGrant_next h)
  case late => exact fun h => (exec_growTimeout k s).trans (event_due h)
  case register => exact fun h => (exec_cvTimeout k n s).trans (event_due h)

end Sys2Proof.Machine
end

section
/-! Encoding and decoding (R201 to R206, R216, R217): each word is its fields side by side, so it is an encoding exactly where its fields read back, and a list
of words decodes to a well-formed instruction exactly where it begins with the encoding of it. -/

namespace Sys2Proof

/-! ### Operand codes (09 Tables 3 and 5) -/

theorem Opnd.base_of_ofBase {k : BitVec 7} {o : Opnd} (h : Opnd.ofBase k = some o) : o.base = some k := by
  simp only [Opnd.ofBase] at h
  repeat' split at h
  case isTrue => cases h; exact (if_pos (by bv_omega)).trans (congrArg some (by bv_omega))
  case isFalse => cases h; exact (if_pos (by bv_omega)).trans (congrArg some (by bv_omega))
  all_goals cases h
  all_goals exact congrArg some (by bv_omega)

theorem Opnd.ofBase_of_base {k : BitVec 7} {o : Opnd} (h : o.base = some k) : Opnd.ofBase k = some o := by
  cases o with
  | v n =>
    obtain ⟨hn, hk⟩ := Option.ite_none_right_eq_some.1 h
    cases hk
    have hk : (BitVec.ofNat 7 n.toNat).toNat = n.toNat := by bv_omega
    simp only [Opnd.ofBase, hk, if_pos hn]
    rw [BitVec.ofNat_toNat, BitVec.setWidth_eq]
  | q n =>
    cases h
    have hk : (BitVec.ofNat 7 (0x60 + n.toNat)).toNat = 0x60 + n.toNat := by bv_omega
    simp only [Opnd.ofBase, hk]
    rw [if_neg (by omega), if_pos (by omega), Nat.add_sub_cancel_left, BitVec.ofNat_toNat, BitVec.setWidth_eq]
  | s n =>
    obtain ⟨hn, hk⟩ := Option.ite_none_right_eq_some.1 h
    cases hk
    have hk : (BitVec.ofNat 7 (0x70 + n.toNat)).toNat = 0x70 + n.toNat := by bv_omega
    simp only [Opnd.ofBase, hk]
    iterate 9 rw [if_neg (by omega)]
    rw [Nat.add_sub_cancel_left, BitVec.ofNat_toNat, BitVec.setWidth_eq]
  | imm m => cases h
  | _ => cases h; rfl

theorem Opnd.full_of_ofFull {k : BitVec 12} {o : Opnd} (h : Opnd.ofFull k = some o) : o ≠ .imm 0 ∧ o.full = k := by
  obtain hp | hp | hp | hp : k.toNat / 1024 = 0 ∨ k.toNat / 1024 = 1 ∨ k.toNat / 1024 = 2 ∨ k.toNat / 1024 = 3 := by omega
  all_goals
    simp only [Opnd.ofFull, hp] at h
    repeat' split at h
  case inr.inr.inr.isFalse hi =>
    cases h
    exact ⟨fun h0 => hi (by injection h0; bv_omega), by simp only [Opnd.full]; bv_omega⟩
  all_goals cases h
  all_goals exact ⟨Opnd.noConfusion, by simp only [Opnd.full]; bv_omega⟩

theorem Opnd.ofFull_of_full {o : Opnd} (ho : o ≠ .imm 0) : Opnd.ofFull o.full = some o := by
  cases o with
  | v n =>
    have hk : (BitVec.ofNat 12 n.toNat).toNat = n.toNat := by bv_omega
    simp only [Opnd.full, Opnd.ofFull, hk, show n.toNat / 1024 = 0 by omega, show n.toNat % 1024 = n.toNat by omega, if_pos n.isLt]
    rw [BitVec.ofNat_toNat, BitVec.setWidth_eq]
  | q n =>
    have hk : (BitVec.ofNat 12 (0x808 + n.toNat)).toNat = 2056 + n.toNat := by bv_omega
    simp only [Opnd.full, Opnd.ofFull, hk, show (2056 + n.toNat) / 1024 = 2 by omega, show (2056 + n.toNat) % 1024 = 8 + n.toNat by omega]
    iterate 4 rw [if_neg (by omega)]
    rw [if_pos (by omega), Nat.add_sub_cancel_left, BitVec.ofNat_toNat, BitVec.setWidth_eq]
  | s n =>
    have hk : (BitVec.ofNat 12 (1024 + n.toNat)).toNat = 1024 + n.toNat := by bv_omega
    simp only [Opnd.full, Opnd.ofFull, hk, show (1024 + n.toNat) / 1024 = 1 by omega, show (1024 + n.toNat) % 1024 = n.toNat by omega]
    rw [BitVec.ofNat_toNat, BitVec.setWidth_eq]
  | imm m =>
    have hk : (BitVec.ofNat 12 (0xC00 + m.toNat)).toNat = 3072 + m.toNat := by bv_omega
    have h0 : m.toNat ≠ 0 := fun h => ho (congrArg _ (BitVec.eq_of_toNat_eq h))
    simp only [Opnd.full, Opnd.ofFull, hk, show (3072 + m.toNat) / 1024 = 3 by omega, show (3072 + m.toNat) % 1024 = m.toNat by omega, if_neg h0]
    rw [BitVec.ofNat_toNat, BitVec.setWidth_eq]
  | _ => rfl

theorem Opnd.ofBase_eq_some_iff {k : BitVec 7} {o : Opnd} : Opnd.ofBase k = some o ↔ o.base = some k := ⟨Opnd.base_of_ofBase, Opnd.ofBase_of_base⟩

theorem Opnd.ofFull_eq_some_iff {k : BitVec 12} {o : Opnd} : Opnd.ofFull k = some o ↔ o ≠ .imm 0 ∧ o.full = k :=
  ⟨Opnd.full_of_ofFull, fun ⟨h0, hk⟩ => hk ▸ Opnd.ofFull_of_full h0⟩

/-! ### Fields of words (09 Tables 1, 2 and 4) -/

theorem Form.ofLen_eq_iff {n : BitVec 2} {f : Form} : Form.ofLen n = f ↔ f.len = n := by
  cases f <;> revert n <;> decide

section
variable {v : Nat} {w : BitVec v}

theorem extractLsb'_extractLsb' {a n b m : Nat} (h : a + n ≤ m) : (w.extractLsb' b m).extractLsb' a n = w.extractLsb' (b + a) n := by
  ext i hi
  simp only [BitVec.getElem_extractLsb', BitVec.getLsbD_extractLsb']
  rw [decide_eq_true (by omega), Bool.true_and, Nat.add_assoc]

theorem append_eq_extractLsb'_iff {n m s : Nat} {x : BitVec n} {y : BitVec m} :
    x ++ y = w.extractLsb' s (n + m) ↔ y = w.extractLsb' s m ∧ x = w.extractLsb' (s + m) n := by
  constructor
  · intro h
    have hx := BitVec.extractLsb'_append_eq_left (a := x) (b := y)
    have hy := BitVec.extractLsb'_append_eq_right (a := x) (b := y)
    rw [h, extractLsb'_extractLsb' (by omega)] at hx hy
    exact ⟨hy.symm, hx.symm⟩
  · rintro ⟨rfl, rfl⟩
    exact BitVec.extractLsb'_append_extractLsb'_eq_extractLsb' rfl

theorem append_eq_iff {n m : Nat} {w : BitVec (n + m)} {x : BitVec n} {y : BitVec m} :
    x ++ y = w ↔ y = w.extractLsb' 0 m ∧ x = w.extractLsb' m n := by
  have h := append_eq_extractLsb'_iff (w := w) (s := 0) (x := x) (y := y)
  rwa [BitVec.extractLsb'_eq_self, Nat.zero_add] at h

theorem bit_eq_extractLsb'_iff {k : Nat} {b : Bool} : bit b = w.extractLsb' k 1 ↔ b = w.getLsbD k := by
  have hw : w.extractLsb' k 1 = bit (w.getLsbD k) := by
    ext i hi
    obtain rfl : i = 0 := by omega
    simp [bit]
  rw [hw]
  cases b <;> cases w.getLsbD k <;> decide
end

theorem encodeWord0_eq_iff {op : BitVec 8} {e : Enc} {w : Word} : encodeWord0 op e = w ↔
    e.form = wordForm w ∧ e.sw = w.getLsbD 2 ∧ op = wordOp w ∧ opndLow e.form e.d = w.extractLsb' 11 7 ∧ opndLow e.form e.a = w.extractLsb' 18 7 ∧
    opndLow e.form e.b = w.extractLsb' 25 7 := by
  have hlen : e.form.len = w.extractLsb' 0 2 ↔ e.form = wordForm w := by rw [eq_comm (b := wordForm w), wordForm, Form.ofLen_eq_iff]
  refine append_eq_iff.trans ?_
  simp only [append_eq_extractLsb'_iff, bit_eq_extractLsb'_iff, hlen, wordOp]

theorem encodeWord1_eq_iff {e : Enc} {w : Word} : encodeWord1 e = w ↔
    e.d.full.extractLsb' 7 5 = w.extractLsb' 0 5 ∧ e.a.full.extractLsb' 7 5 = w.extractLsb' 5 5 ∧ e.b.full.extractLsb' 7 5 = w.extractLsb' 10 5 ∧
    e.c.full = w.extractLsb' 15 12 ∧ e.negA = w.getLsbD 27 ∧ e.absA = w.getLsbD 28 ∧ e.negB = w.getLsbD 29 ∧ e.absB = w.getLsbD 30 ∧
    e.negC = w.getLsbD 31 := by
  refine append_eq_iff.trans ?_
  simp only [append_eq_extractLsb'_iff, bit_eq_extractLsb'_iff]

theorem encodeWord2_eq_iff {e : Enc} {w : Word} : encodeWord2 e = w ↔
    e.absC = w.getLsbD 0 ∧ e.clamp = w.extractLsb' 1 2 ∧ e.dscale = w.extractLsb' 3 4 ∧ e.pred = w.extractLsb' 7 3 ∧ e.pinv = w.getLsbD 10 ∧
    e.pen = w.getLsbD 11 ∧ e.ty = w.extractLsb' 12 4 ∧ e.func = w.extractLsb' 16 8 ∧ e.rnd = w.extractLsb' 24 2 ∧ e.rnden = w.getLsbD 26 ∧
    e.ord = w.extractLsb' 27 2 ∧ 0 = w.extractLsb' 29 3 := by
  refine append_eq_iff.trans ?_
  simp only [append_eq_extractLsb'_iff, bit_eq_extractLsb'_iff]

/-- An operand position reads as the operand whose code it holds (R203, R206). -/
theorem decodeOpnd_eq_some_iff {f : Form} {hi : BitVec 5} {lo : BitVec 7} {o : Opnd} : decodeOpnd f hi lo = some o ↔
    o.inForm f = true ∧ opndLow f o = lo ∧ (f.isExt = true → o.full.extractLsb' 7 5 = hi) := by
  unfold decodeOpnd Opnd.inForm opndLow
  split
  · next h =>
    rw [Opnd.ofFull_eq_some_iff, eq_comm, append_eq_iff, bne_iff_ne]
    tauto
  · next h =>
    rw [Opnd.ofBase_eq_some_iff]
    cases o.base <;> simp [h]

/-! ### The fields of an instruction (R203 to R206) -/

/-- A base form leaves only its operands and its literal free (R203). -/
theorem Enc.canonical_base {e : Enc} (hx : e.form.isExt = false) (h : e.canonical = true) : e.c = .zero ∧ e.negA = false ∧ e.absA = false ∧
    e.negB = false ∧ e.absB = false ∧ e.negC = false ∧ e.absC = false ∧ e.ord = 0 ∧ e.rnden = false ∧ e.rnd = 0 ∧ e.func = 0 ∧ e.ty = 0 ∧
    e.pen = false ∧ e.pinv = false ∧ e.pred = 0 ∧ e.dscale = 0 ∧ e.clamp = 0 := by
  simp only [Enc.canonical, hx, Bool.false_or, Bool.and_eq_true, Bool.not_eq_true', beq_iff_eq, and_assoc] at h
  tauto

theorem Enc.canonical_common {e : Enc} (h : e.canonical = true) : (e.form.hasLit = false → e.lit = 0) ∧
    e.d.inForm e.form = true ∧ e.a.inForm e.form = true ∧ e.b.inForm e.form = true ∧ (e.form.isExt = true → e.c.inForm e.form = true) := by
  simp only [Enc.canonical, Bool.and_eq_true, Bool.or_eq_true, beq_iff_eq] at h
  obtain ⟨⟨⟨⟨⟨-, hl⟩, hd⟩, ha⟩, hb⟩, hc⟩ := h
  exact ⟨fun hf => hl.resolve_left (by simp [hf]), hd, ha, hb, fun hx => hc.resolve_right (by simp [hx])⟩

/-- The fields that words give are those that the words encode. -/
theorem encode_of_decodeEnc {w0 w1 w2 : Word} {lit : DWord} {e : Enc} (h : decodeEnc w0 w1 w2 lit = some e)
    (hz : (wordForm w0).isExt = true → w2.extractLsb' 29 3 = 0) :
    encodeWord0 (wordOp w0) e = w0 ∧ (e.form.isExt = true → encodeWord1 e = w1 ∧ encodeWord2 e = w2) ∧ (e.form.hasLit = true → e.lit = lit) := by
  unfold decodeEnc at h
  dsimp only at h
  split at h
  case h_2 => cases h
  case h_1 d a b c hd ha hb hc =>
    cases h
    obtain ⟨-, hdl, hdh⟩ := decodeOpnd_eq_some_iff.1 hd
    obtain ⟨-, hal, hah⟩ := decodeOpnd_eq_some_iff.1 ha
    obtain ⟨-, hbl, hbh⟩ := decodeOpnd_eq_some_iff.1 hb
    refine ⟨encodeWord0_eq_iff.2 ⟨rfl, rfl, rfl, hdl, hal, hbl⟩, fun hx => ?ext, fun hl => if_pos hl⟩
    change (wordForm w0).isExt = true at hx
    rw [if_pos hx, Opnd.ofFull_eq_some_iff] at hc
    simp only [encodeWord1_eq_iff, encodeWord2_eq_iff, decodeFunc, hx, Bool.true_and, if_true, hc.2, hbh, hah, hdh, hz, and_self]

/-- Canonical fields are those that their words give. -/
theorem decodeEnc_of_encode {w0 w1 w2 : Word} {lit : DWord} {e : Enc} {op : BitVec 8} (h : e.canonical = true) (h0 : encodeWord0 op e = w0)
    (hw : e.form.isExt = true → encodeWord1 e = w1 ∧ encodeWord2 e = w2) (hl : e.form.hasLit = true → e.lit = lit) :
    decodeEnc w0 w1 w2 lit = some e := by
  obtain ⟨hlit, hd, ha, hb, hc⟩ := Enc.canonical_common h
  obtain ⟨hf, hsw, -, hdl, hal, hbl⟩ := encodeWord0_eq_iff.1 h0
  simp only [encodeWord1_eq_iff, encodeWord2_eq_iff, forall_and] at hw
  obtain ⟨⟨hdh, hah, hbh, hcf, hmods⟩, hfields⟩ := hw
  have hlit : (if e.form.hasLit then lit else 0) = e.lit := by
    split
    · next hx => exact (hl hx).symm
    · next hx => exact (hlit (eq_false_of_ne_true hx)).symm
  simp only [decodeEnc, decodeFunc, ← hf, decodeOpnd_eq_some_iff.2 ⟨hd, hdl, hdh⟩, decodeOpnd_eq_some_iff.2 ⟨ha, hal, hah⟩,
    decodeOpnd_eq_some_iff.2 ⟨hb, hbl, hbh⟩, hlit, ← hsw]
  cases hx : e.form.isExt
  · have := Enc.canonical_base hx h
    cases e
    simp_all
  · have hc := Opnd.ofFull_eq_some_iff.2 ⟨by simpa [Opnd.inForm, hx] using hc hx, hcf hx⟩
    cases e
    simp_all

/-! ### The instruction that OP and FUNC name (R216) -/

theorem Instr.spec_of_ofOp {op : Nat} {e : Enc} {i : Instr} (h : Instr.ofOp op e = some i) :
    i.enc = some e ∧ ∃ p, i.spec = some p ∧ p.op.toNat = op := by
  unfold Instr.ofOp at h
  repeat' split at h
  all_goals cases h
  all_goals exact ⟨rfl, _, rfl, rfl⟩

/-- AN INSTRUCTION THAT ITS WORDS NAME: it has a description and fields, and where FUNC is assigned, OP and FUNC give it back (R216). -/
inductive Instr.Named (i : Instr) : Prop
  | of {p : OpSpec} {e : Enc} (spec : i.spec = some p) (enc : i.enc = some e)
      (named : p.func = true → Instr.ofOp p.op.toNat e = some i ∧ opAssigned p.op e.func = true) : Named i

theorem Instr.named {i : Instr} (h : i.enc.isSome = true) : i.Named := by
  cases i with
  | nop f => exact .of rfl rfl (Laws.Encoding.nop f)
  | bra f => exact .of rfl rfl (Laws.Encoding.bra f)
  | bru f => exact .of rfl rfl (Laws.Encoding.bru f)
  | brx f => exact .of rfl rfl (Laws.Encoding.brx f)
  | call f => exact .of rfl rfl (Laws.Encoding.call f)
  | callx f => exact .of rfl rfl (Laws.Encoding.callx f)
  | ret f => exact .of rfl rfl (Laws.Encoding.ret f)
  | exit f => exact .of rfl rfl (Laws.Encoding.exit f)
  | yield f => exact .of rfl rfl (Laws.Encoding.yield f)
  | voteMask f => exact .of rfl rfl (Laws.Encoding.voteMask f)
  | voteSome f => exact .of rfl rfl (Laws.Encoding.voteSome f)
  | voteEvery f => exact .of rfl rfl (Laws.Encoding.voteEvery f)
  | voteSame f => exact .of rfl rfl (Laws.Encoding.voteSame f)
  | voteCount f => exact .of rfl rfl (Laws.Encoding.voteCount f)
  | shflLane f => exact .of rfl rfl (Laws.Encoding.shflLane f)
  | shflBack f => exact .of rfl rfl (Laws.Encoding.shflBack f)
  | shflFwd f => exact .of rfl rfl (Laws.Encoding.shflFwd f)
  | shflMix f => exact .of rfl rfl (Laws.Encoding.shflMix f)
  | shflRot f => exact .of rfl rfl (Laws.Encoding.shflRot f)
  | elect f => exact .of rfl rfl (Laws.Encoding.elect f)
  | electHi f => exact .of rfl rfl (Laws.Encoding.electHi f)
  | matchPeers f => exact .of rfl rfl (Laws.Encoding.matchPeers f)
  | matchUniform f => exact .of rfl rfl (Laws.Encoding.matchUniform f)
  | cvset f => exact .of rfl rfl (Laws.Encoding.cvset f)
  | sign f => exact .of rfl rfl (Laws.Encoding.sign f)
  | cvwait f => exact .of rfl rfl (Laws.Encoding.cvwait f)
  | iadd f => exact .of rfl rfl (Laws.Encoding.iadd f)
  | isub f => exact .of rfl rfl (Laws.Encoding.isub f)
  | iadd3 f => exact .of rfl rfl (Laws.Encoding.iadd3 f)
  | imul f => exact .of rfl rfl (Laws.Encoding.imul f)
  | imulh f => exact .of rfl rfl (Laws.Encoding.imulh f)
  | imad f => exact .of rfl rfl (Laws.Encoding.imad f)
  | imadWide f => exact .of rfl rfl (Laws.Encoding.imadWide f)
  | lea f => exact .of rfl rfl (Laws.Encoding.lea f)
  | imin f => exact .of rfl rfl (Laws.Encoding.imin f)
  | imax f => exact .of rfl rfl (Laws.Encoding.imax f)
  | iabsd f => exact .of rfl rfl (Laws.Encoding.iabsd f)
  | and f => exact .of rfl rfl (Laws.Encoding.and f)
  | or f => exact .of rfl rfl (Laws.Encoding.or f)
  | xor f => exact .of rfl rfl (Laws.Encoding.xor f)
  | not f => exact .of rfl rfl (Laws.Encoding.not f)
  | shl f => exact .of rfl rfl (Laws.Encoding.shl f)
  | shr f => exact .of rfl rfl (Laws.Encoding.shr f)
  | sar f => exact .of rfl rfl (Laws.Encoding.sar f)
  | rot f => exact .of rfl rfl (Laws.Encoding.rot f)
  | popc f => exact .of rfl rfl (Laws.Encoding.popc f)
  | clz f => exact .of rfl rfl (Laws.Encoding.clz f)
  | bfe f => exact .of rfl rfl (Laws.Encoding.bfe f)
  | bfi f => exact .of rfl rfl (Laws.Encoding.bfi f)
  | prmt f => exact .of rfl rfl (Laws.Encoding.prmt f)
  | isetp f => exact .of rfl rfl (Laws.Encoding.isetp f)
  | sel f => exact .of rfl rfl (Laws.Encoding.sel f)
  | mov f => exact .of rfl rfl (Laws.Encoding.mov f)
  | movs f => exact .of rfl rfl (Laws.Encoding.movs f)
  | bcast f => exact .of rfl rfl (Laws.Encoding.bcast f)
  | srd f => exact .of rfl rfl (Laws.Encoding.srd f)
  | swr f => exact .of rfl rfl (Laws.Encoding.swr f)
  | fadd f => exact .of rfl rfl (Laws.Encoding.fadd f)
  | fmul f => exact .of rfl rfl (Laws.Encoding.fmul f)
  | ffma f => exact .of rfl rfl (Laws.Encoding.ffma f)
  | fmin f => exact .of rfl rfl (Laws.Encoding.fmin f)
  | fmax f => exact .of rfl rfl (Laws.Encoding.fmax f)
  | fsetp f => exact .of rfl rfl (Laws.Encoding.fsetp f)
  | fclass f => exact .of rfl rfl (Laws.Encoding.fclass f)
  | frcp f => exact .of rfl rfl (Laws.Encoding.frcp f)
  | frsq f => exact .of rfl rfl (Laws.Encoding.frsq f)
  | fsqrt f => exact .of rfl rfl (Laws.Encoding.fsqrt f)
  | fexp2 f => exact .of rfl rfl (Laws.Encoding.fexp2 f)
  | flog2 f => exact .of rfl rfl (Laws.Encoding.flog2 f)
  | fsin f => exact .of rfl rfl (Laws.Encoding.fsin f)
  | fcos f => exact .of rfl rfl (Laws.Encoding.fcos f)
  | dadd f => exact .of rfl rfl (Laws.Encoding.dadd f)
  | dmul f => exact .of rfl rfl (Laws.Encoding.dmul f)
  | dfma f => exact .of rfl rfl (Laws.Encoding.dfma f)
  | hadd2 f => exact .of rfl rfl (Laws.Encoding.hadd2 f)
  | hmul2 f => exact .of rfl rfl (Laws.Encoding.hmul2 f)
  | hfma2 f => exact .of rfl rfl (Laws.Encoding.hfma2 f)
  | fcvt f => exact .of rfl rfl (Laws.Encoding.fcvt f)
  | icvt f => exact .of rfl rfl (Laws.Encoding.icvt f)
  | qunpk f => exact .of rfl rfl (Laws.Encoding.qunpk f)
  | f8pk f => exact .of rfl rfl (Laws.Encoding.f8pk f)
  | pack f => exact .of rfl rfl (Laws.Encoding.pack f)
  | ld f => exact .of rfl rfl (Laws.Encoding.ld f)
  | st f => exact .of rfl rfl (Laws.Encoding.st f)
  | lds f => exact .of rfl rfl (Laws.Encoding.lds f)
  | sts f => exact .of rfl rfl (Laws.Encoding.sts f)
  | ldc f => exact .of rfl rfl (Laws.Encoding.ldc f)
  | prefetch f => exact .of rfl rfl (Laws.Encoding.prefetch f)
  | cctl f => exact .of rfl rfl (Laws.Encoding.cctl f)
  | atom f => exact .of rfl rfl (Laws.Encoding.atom f)
  | atomCas f => exact .of rfl rfl (Laws.Encoding.atomCas f)
  | atoms f => exact .of rfl rfl (Laws.Encoding.atoms f)
  | red f => exact .of rfl rfl (Laws.Encoding.red f)
  | atomf f => exact .of rfl rfl (Laws.Encoding.atomf f)
  | acp f => exact .of rfl rfl (Laws.Encoding.acp f)
  | acopy f => exact .of rfl rfl (Laws.Encoding.acopy f)
  | twaitany f => exact .of rfl rfl (Laws.Encoding.twaitany f)
  | twaitall f => exact .of rfl rfl (Laws.Encoding.twaitall f)
  | tffs f => exact .of rfl rfl (Laws.Encoding.tffs f)
  | fissue f => exact .of rfl rfl (Laws.Encoding.fissue f)
  | fwait f => exact .of rfl rfl (Laws.Encoding.fwait f)
  | fence f => exact .of rfl rfl (Laws.Encoding.fence f)
  | bar f => exact .of rfl rfl (Laws.Encoding.bar f)
  | barG f => exact .of rfl rfl (Laws.Encoding.barG f)
  | barNamed f => exact .of rfl rfl (Laws.Encoding.barNamed f)
  | barrive f => exact .of rfl rfl (Laws.Encoding.barrive f)
  | barwait f => exact .of rfl rfl (Laws.Encoding.barwait f)
  | arrive f => exact .of rfl rfl (Laws.Encoding.arrive f)
  | wait f => exact .of rfl rfl (Laws.Encoding.wait f)
  | nsleep f => exact .of rfl rfl (Laws.Encoding.nsleep f)
  | mma f => exact .of rfl rfl (Laws.Encoding.mma f)
  | mzero f => exact .of rfl rfl (Laws.Encoding.mzero f)
  | mld f => exact .of rfl rfl (Laws.Encoding.mld f)
  | mst f => exact .of rfl rfl (Laws.Encoding.mst f)
  | mrd f => exact .of rfl rfl (Laws.Encoding.mrd f)
  | mwr f => exact .of rfl rfl (Laws.Encoding.mwr f)
  | mcvt f => exact .of rfl rfl (Laws.Encoding.mcvt f)
  | mofence f => exact .of rfl rfl (Laws.Encoding.mofence f)
  | mwait f => exact .of rfl rfl (Laws.Encoding.mwait f)
  | mdrain f => exact .of rfl rfl (Laws.Encoding.mdrain f)
  | mfill f => exact .of rfl rfl (Laws.Encoding.mfill f)
  | mresume f => exact .of rfl rfl (Laws.Encoding.mresume f)
  | tspawn f => exact .of rfl rfl (Laws.Encoding.tspawn f)
  | tarm f => exact .of rfl rfl (Laws.Encoding.tarm f)
  | tdec f => exact .of rfl rfl (Laws.Encoding.tdec f)
  | tdone f => exact .of rfl rfl (Laws.Encoding.tdone f)
  | tlaunch f => exact .of rfl rfl (Laws.Encoding.tlaunch f)
  | tget f => exact .of rfl rfl (Laws.Encoding.tget f)
  | scall f => exact .of rfl rfl (Laws.Encoding.scall f)
  | trap f => exact .of rfl rfl (Laws.Encoding.trap f)
  | bkpt f => exact .of rfl rfl (Laws.Encoding.bkpt f)
  | uiret f => exact .of rfl rfl (Laws.Encoding.uiret f)
  | uimask f => exact .of rfl rfl (Laws.Encoding.uimask f)
  | npbegin f => exact .of rfl rfl (Laws.Encoding.npbegin f)
  | npend f => exact .of rfl rfl (Laws.Encoding.npend f)
  | grow f => exact .of rfl rfl (Laws.Encoding.grow f)
  | carve f => exact .of rfl rfl (Laws.Encoding.carve f)
  | ckpt f => exact .of rfl rfl (Laws.Encoding.ckpt f)
  | tstampr f => exact .of rfl rfl (Laws.Encoding.tstampr f)
  | gsave f => exact .of rfl rfl (Laws.Encoding.gsave f)
  | grest f => exact .of rfl rfl (Laws.Encoding.grest f)
  | _ => cases h

/-! ### The words after word 0 (09 Table 1) -/

/-- Words 1 and 2 and the literal, where the form has them. -/
def Form.tail (f : Form) (w1 w2 : Word) (lit : DWord) : List Word :=
  (if f.isExt then [w1, w2] else []) ++ (if f.hasLit then [lit.extractLsb' 0 32, lit.extractLsb' 32 32] else [])

theorem encode_eq {i : Instr} {p : OpSpec} {e : Enc} (hp : i.spec = some p) (he : i.enc = some e) :
    encode i = encodeWord0 p.op e :: e.form.tail (encodeWord1 e) (encodeWord2 e) e.lit := by
  rw [encode, hp, he]
  rfl

section
variable {f : Form} {w1 w2 : Word} {lit : DWord} {ws : List Word}

theorem Form.length_tail : (f.tail w1 w2 lit).length + 1 = f.words := by cases f <;> rfl

theorem Form.drop_tail : (f.tail w1 w2 lit ++ ws).drop (f.words - 1) = ws := by
  rw [← length_tail (w1 := w1) (w2 := w2) (lit := lit), Nat.add_sub_cancel, List.drop_left]

theorem lit_halves : lit.extractLsb' 32 32 ++ lit.extractLsb' 0 32 = lit := BitVec.extractLsb'_append_extractLsb' (w := 32) (len := 32)

theorem Form.tail_congr {x1 x2 : Word} {y : DWord} (hw : f.isExt = true → w1 = x1 ∧ w2 = x2) (hl : f.hasLit = true → lit = y) :
    f.tail w1 w2 lit = f.tail x1 x2 y := by
  cases hx : f.isExt <;> cases hy : f.hasLit <;> simp_all [tail]

theorem Form.tailWords_tail : ∃ x1 x2 y, tailWords f (f.tail w1 w2 lit ++ ws) = (x1, x2, y) ∧
    (f.isExt = true → w1 = x1 ∧ w2 = x2) ∧ (f.hasLit = true → lit = y) := by
  cases f with
  | base => exact ⟨0, 0, 0, rfl, nofun, nofun⟩
  | baseLit => exact ⟨0, 0, _, rfl, nofun, fun _ => lit_halves.symm⟩
  | ext => exact ⟨w1, w2, 0, rfl, fun _ => ⟨rfl, rfl⟩, nofun⟩
  | extLit => exact ⟨w1, w2, _, rfl, fun _ => ⟨rfl, rfl⟩, fun _ => lit_halves.symm⟩

theorem Form.tail_tailWords (h : f.words ≤ ws.length + 1) (ht : tailWords f ws = (w1, w2, lit)) : f.tail w1 w2 lit ++ ws.drop (f.words - 1) = ws := by
  have lo (x y : Word) : (y ++ x).extractLsb' 0 32 = x := BitVec.extractLsb'_append_eq_right
  have hi (x y : Word) : (y ++ x).extractLsb' 32 32 = y := BitVec.extractLsb'_append_eq_left
  cases f with
  | base => rfl
  | baseLit =>
    match ws, h, ht with
    | x :: y :: ws, _, ht => cases ht; simp [tail, isExt, hasLit, words, lo, hi]
    | [], h, _ | [_], h, _ => simp [words] at h
  | ext =>
    match ws, h, ht with
    | x1 :: x2 :: ws, _, ht => cases ht; rfl
    | [], h, _ | [_], h, _ => simp [words] at h
  | extLit =>
    match ws, h, ht with
    | x1 :: x2 :: x :: y :: ws, _, ht => cases ht; simp [tail, isExt, hasLit, words, lo, hi]
    | [], h, _ | [_], h, _ | [_, _], h, _ | [_, _, _], h, _ => simp [words] at h
end

/-! ### Decoding and encoding -/

theorem error_ite_eq_ok_iff {α : Type} {c : Prop} [Decidable c] {r : Reject} {x : Except Reject α} {y : α} :
    (if c then .error r else x) = .ok y ↔ ¬ c ∧ x = .ok y := by
  by_cases h : c <;> simp [h]

/-- Words that decode, condition by condition of R217. -/
theorem decode_cons_eq_ok_iff {w0 w1 w2 : Word} {lit : DWord} {ws rest : List Word} {i : Instr} (ht : tailWords (wordForm w0) ws = (w1, w2, lit)) :
    decode (w0 :: ws) = .ok (i, rest) ↔ (wordForm w0).words ≤ ws.length + 1 ∧ opAssigned (wordOp w0) (decodeFunc (wordForm w0) w2) = true ∧
      ((wordForm w0).isExt = true → w2.extractLsb' 29 3 = 0) ∧
      ∃ e, decodeEnc w0 w1 w2 lit = some e ∧ Instr.ofOp (wordOp w0).toNat e = some i ∧ i.wf = true ∧ ws.drop ((wordForm w0).words - 1) = rest := by
  simp only [decode, ht, List.length_cons, error_ite_eq_ok_iff, Nat.not_lt, Bool.not_eq_true', Bool.not_eq_false, Bool.and_eq_true, bne_iff_ne, not_and, not_not]
  refine and_congr_right' (and_congr_right' (and_congr_right' ?_))
  cases decodeEnc w0 w1 w2 lit with
  | none => simp
  | some e =>
    simp only [Option.some.injEq, exists_eq_left']
    cases Instr.ofOp (wordOp w0).toNat e with
    | none => simp
    | some j =>
      rw [Option.some.injEq]
      by_cases hwf : j.wf = true
      · simp only [hwf, if_true, Except.ok.injEq, Prod.mk.injEq]
        exact and_congr_right fun hi => ⟨fun h => ⟨hi ▸ hwf, h⟩, And.right⟩
      · simp only [hwf, Bool.false_eq_true, if_false, reduceCtorEq, false_iff, not_and]
        exact fun hi hwf' => absurd (hi ▸ hwf') hwf

theorem func_of_decodeEnc {w0 w1 w2 : Word} {lit : DWord} {e : Enc} (h : decodeEnc w0 w1 w2 lit = some e) : decodeFunc (wordForm w0) w2 = e.func := by
  unfold decodeEnc at h
  dsimp only at h
  split at h
  · cases h; rfl
  · cases h

theorem encodeWord2_reserved (e : Enc) : (encodeWord2 e).extractLsb' 29 3 = 0 := by
  obtain ⟨-, -, -, -, -, -, -, -, -, -, -, h⟩ := encodeWord2_eq_iff.1 (rfl : encodeWord2 e = _)
  exact h.symm

/-- A word list decodes to a well-formed instruction exactly where it begins with its encoding. -/
theorem decode_eq_ok_iff {ws rest : List Word} {i : Instr} :
    decode ws = .ok (i, rest) ↔ i.wf = true ∧ i.enc.isSome = true ∧ encode i ++ rest = ws := by
  constructor
  · intro h
    obtain _ | ⟨w0, ws⟩ := ws
    · cases h
    obtain ⟨w1, w2, lit, ht⟩ : ∃ w1 w2 lit, tailWords (wordForm w0) ws = (w1, w2, lit) := ⟨_, _, _, rfl⟩
    obtain ⟨hlen, -, hz, e, hdec, hof, hwf, rfl⟩ := (decode_cons_eq_ok_iff ht).1 h
    obtain ⟨he, p, hp, hop⟩ := Instr.spec_of_ofOp hof
    obtain ⟨h0, hw, hl⟩ := encode_of_decodeEnc hdec hz
    have hf : e.form = wordForm w0 := (encodeWord0_eq_iff.1 h0).1
    refine ⟨hwf, by rw [he]; rfl, ?_⟩
    rw [encode_eq hp he, BitVec.eq_of_toNat_eq hop, h0, Form.tail_congr hw hl, hf, List.cons_append, Form.tail_tailWords hlen ht]
  · rintro ⟨hwf, hsome, rfl⟩
    obtain @⟨p, e, hp, he, named⟩ := Instr.named hsome
    obtain ⟨hfunc, hcan⟩ : p.func = true ∧ e.canonical = true := by
      rw [Instr.wf, hp, he] at hwf
      simp only [Bool.and_eq_true] at hwf
      exact hwf.1
    obtain ⟨hof, hass⟩ := named hfunc
    obtain ⟨w0, h0⟩ : ∃ w0, encodeWord0 p.op e = w0 := ⟨_, rfl⟩
    obtain ⟨hf, -, hop, -⟩ := encodeWord0_eq_iff.1 h0
    obtain ⟨w1, w2, lit, ht, hw, hl⟩ :=
      Form.tailWords_tail (f := wordForm w0) (w1 := encodeWord1 e) (w2 := encodeWord2 e) (lit := e.lit) (ws := rest)
    have hdec : decodeEnc w0 w1 w2 lit = some e := decodeEnc_of_encode hcan h0 (hf ▸ hw) (hf ▸ hl)
    rw [encode_eq hp he, h0, hf, List.cons_append, decode_cons_eq_ok_iff ht, func_of_decodeEnc hdec, ← hop]
    refine ⟨?len, hass, fun hx => ?reserved, e, hdec, hof, hwf, Form.drop_tail⟩
    case len =>
      rw [List.length_append, Nat.add_right_comm, Form.length_tail]
      exact Nat.le_add_right _ _
    case reserved => rw [← (hw hx).2, encodeWord2_reserved]

/-- Settles O1: an instruction's words begin with its encoding, and such words decode to it by `decode_eq_ok_iff`. -/
theorem decodeEncodeAgree : Obligations.DecodeEncodeAgree := fun _ _ hwf henc => decode_eq_ok_iff.2 ⟨hwf, henc, rfl⟩

/-- Settles O2: words that decode begin with the encoding, by `decode_eq_ok_iff`. -/
theorem encodeDecodeAgree : Obligations.EncodeDecodeAgree := fun _ _ _ => decode_eq_ok_iff.1

/-- Settles O3: the decoder computes the fields of each word list, and refuses the last two. -/
theorem specWordsDecode : Obligations.SpecWordsDecode := by
  refine ⟨?atom, ?st, ?stBase, ?mma, ?isetp, ?isetpSw, ?unassigned, ?reserved⟩
  case atom => exact ⟨_, rfl, rfl, rfl, rfl, rfl, rfl⟩
  case st => exact ⟨_, rfl, rfl, rfl, rfl, rfl, rfl⟩
  case stBase => exact ⟨_, rfl, rfl, rfl, rfl⟩
  case mma => exact ⟨_, rfl, rfl, rfl, rfl, rfl, rfl⟩
  case isetp => exact ⟨_, rfl, rfl, rfl, rfl, rfl⟩
  case isetpSw => exact ⟨_, rfl, rfl⟩
  case unassigned => rfl
  case reserved => rfl

end Sys2Proof
end

section
/-! Operands that are not registers (R207, 09 Table 6): an operand supplies the number of its type, and that number fits the operand's width, because rounding
never leaves the format it rounds to. -/

namespace Sys2Proof

/-! ### Rounding -/

section
variable {f : FFmt} {r : RMode} {nsat neg : Bool} {m : Nat} {e : Int}

/-- The significand that rounding keeps, in units of the quantum (R185). -/
def FFmt.kept (f : FFmt) (r : RMode) (neg : Bool) (m : Nat) (e : Int) : Nat := (roundAt r neg m e (f.quantum m e)).1

theorem FFmt.round_bits (hm : m ≠ 0) : (f.round r nsat neg m e).bits =
    (if f.kept r neg m e = 0 then (if neg then f.signBit else 0)
    else if f.tooBig (f.kept r neg m e) (f.quantum m e) then (f.overflow r neg nsat).bits
    else f.pack neg (f.kept r neg m e) (f.quantum m e)) := by
  simp only [FFmt.round, if_neg hm, apply_ite FRes.bits]
  rfl

theorem FFmt.kept_of_lt (h : e < f.quantum m e) :
    f.kept r neg m e = m / 2 ^ (f.quantum m e - e).toNat ∨ f.kept r neg m e = m / 2 ^ (f.quantum m e - e).toNat + 1 := by
  simp only [FFmt.kept, roundAt, if_neg (Int.not_le.2 h)]
  split
  · exact .inr rfl
  · exact .inl rfl

theorem FFmt.overflow_lt : (f.overflow .rne neg false).bits < 2 ^ f.width := by
  cases f <;> cases neg <;> decide

theorem FFmt.sign_add_lt {x : Nat} (h : x < f.signBit) : (if neg then f.signBit else 0) + x < 2 ^ f.width := by
  have : 2 ^ f.width = f.signBit + f.signBit := by cases f <;> rfl
  split <;> omega

theorem FFmt.top_of_not_tooBig {k : Nat} {q : Int} (h : f.tooBig k q = false) : topExp k q + f.bias < 2 ^ f.expBits := by
  have ht : ¬ topExp k q > (if f = .f8 then (8 : Int) else f.bias) := fun ht => by simp [FFmt.tooBig, ht] at h
  cases f <;> simp [FFmt.expBits, FFmt.width, FFmt.frac, FFmt.bias] at ht ⊢ <;> omega

/-- The significand of a number, its leading bit at the place of the format's. -/
theorem significand_lt (k p : Nat) : k * 2 ^ p / 2 ^ k.log2 - 2 ^ p < 2 ^ p := by
  have : k * 2 ^ p / 2 ^ k.log2 < 2 * 2 ^ p := by
    rw [Nat.div_lt_iff_lt_mul (Nat.two_pow_pos _)]
    calc k * 2 ^ p < 2 ^ (k.log2 + 1) * 2 ^ p := Nat.mul_lt_mul_of_pos_right Nat.lt_log2_self (Nat.two_pow_pos _)
      _ = 2 * 2 ^ p * 2 ^ k.log2 := by ring
  have := Nat.two_pow_pos p
  omega

theorem FFmt.pack_lt {k : Nat} {q : Int} (h : topExp k q + f.bias < 2 ^ f.expBits) : f.pack neg k q < 2 ^ f.width := by
  have hs : f.signBit = 2 ^ f.expBits * 2 ^ f.frac := by cases f <;> rfl
  refine FFmt.sign_add_lt ?_
  rw [hs]
  split
  · next hk => exact hk.trans_le (Nat.le_mul_of_pos_left _ (Nat.two_pow_pos _))
  · have hT : (topExp k q + f.bias).toNat + 1 ≤ 2 ^ f.expBits := (Int.toNat_lt' (Nat.two_pow_pos _)).2 (mod_cast h)
    calc _ < (topExp k q + f.bias).toNat * 2 ^ f.frac + 2 ^ f.frac := Nat.add_lt_add_left (significand_lt k f.frac) _
      _ = ((topExp k q + f.bias).toNat + 1) * 2 ^ f.frac := by ring
      _ ≤ 2 ^ f.expBits * 2 ^ f.frac := Nat.mul_le_mul_right _ hT

theorem FFmt.round_lt : (f.round .rne false neg m e).bits < 2 ^ f.width := by
  have hz : (if neg then f.signBit else 0) < 2 ^ f.width := FFmt.sign_add_lt (x := 0) (Nat.two_pow_pos _)
  by_cases hm : m = 0
  · rw [FFmt.round, if_pos hm]; exact hz
  · rw [FFmt.round_bits hm]
    split
    · exact hz
    split
    · exact FFmt.overflow_lt
    · next hb => exact FFmt.pack_lt (FFmt.top_of_not_tooBig (eq_false_of_ne_true hb))

theorem FFmt.ofImm_eq_round (z : Int) : f.ofImm z = (f.round .rne false (decide (z < 0)) z.natAbs 0).bits := rfl

theorem FFmt.ofImm_lt (z : Int) : f.ofImm z < 2 ^ f.width := FFmt.round_lt

theorem FFmt.quantum_f8 (hL : 3 ≤ m.log2) : FFmt.f8.quantum m 0 = (m.log2 - 3 : Nat) := by
  simp only [FFmt.quantum, topExp, FFmt.emin, FFmt.bias, FFmt.frac]
  omega

theorem FFmt.kept_f8 (hL : 3 < m.log2) :
    FFmt.f8.kept r neg m 0 = m / 2 ^ (m.log2 - 3) ∨ FFmt.f8.kept r neg m 0 = m / 2 ^ (m.log2 - 3) + 1 := by
  have hq := FFmt.quantum_f8 (m := m) hL.le
  have hk := FFmt.kept_of_lt (f := .f8) (r := r) (neg := neg) (m := m) (e := 0) (by omega)
  rwa [hq, sub_zero, Int.toNat_natCast] at hk

/-- A magnitude of 512 or more is above the largest of .f8, however it is rounded: the leading bit stays where it is or moves up. -/
theorem FFmt.f8_tooBig (h : 512 ≤ m) :
    FFmt.f8.kept r neg m 0 ≠ 0 ∧ FFmt.f8.tooBig (FFmt.f8.kept r neg m 0) (FFmt.f8.quantum m 0) = true := by
  have hm : m ≠ 0 := by omega
  have hL : 9 ≤ m.log2 := (Nat.le_log2 hm).2 h
  have hdiv : 8 ≤ m / 2 ^ (m.log2 - 3) := by
    rw [Nat.le_div_iff_mul_le (Nat.two_pow_pos _)]
    calc 8 * 2 ^ (m.log2 - 3) = 2 ^ (3 + (m.log2 - 3)) := by rw [pow_add]; rfl
      _ = 2 ^ m.log2 := by rw [Nat.add_sub_cancel' (by omega)]
      _ ≤ m := Nat.log2_self_le hm
  have hkept : 8 ≤ FFmt.f8.kept r neg m 0 := by
    have := FFmt.kept_f8 (r := r) (neg := neg) (m := m) (by omega)
    omega
  have htop : 3 ≤ (FFmt.f8.kept r neg m 0).log2 := (Nat.le_log2 (by omega)).2 hkept
  refine ⟨by omega, if_pos ?_⟩
  rw [FFmt.quantum_f8 (by omega), topExp, if_pos rfl]
  omega

/-- A magnitude above 448 saturates in .f8 (R183, R186). -/
theorem FFmt.round_f8_saturates (h : 448 < m) : (FFmt.f8.round .rne false neg m 0).bits = (if neg then 0x80 else 0) + 0x7E := by
  rw [FFmt.round_bits (by omega)]
  obtain hm | hm := Nat.lt_or_ge m 512
  · have hL : m.log2 = 8 := (Nat.log2_eq_iff (by omega)).2 ⟨by omega, hm⟩
    have hq : FFmt.f8.quantum m 0 = 5 := by rw [FFmt.quantum_f8 (by omega), hL]; rfl
    have hkept := FFmt.kept_f8 (r := .rne) (neg := neg) (m := m) (by omega)
    rw [hL] at hkept
    rw [hq]
    obtain hk | hk | hk : FFmt.f8.kept .rne neg m 0 = 14 ∨ FFmt.f8.kept .rne neg m 0 = 15 ∨ FFmt.f8.kept .rne neg m 0 = 16 := by omega
    all_goals rw [hk]; cases neg <;> rfl
  · obtain ⟨h0, hb⟩ := FFmt.f8_tooBig (r := .rne) (neg := neg) hm
    rw [if_neg h0, if_pos hb]
    cases neg <;> rfl
end

/-! ### Operands that are not registers (R207) -/

section
variable {n : Nat}

theorem OpTy.number_int_lt (z : Int) : OpTy.int.number n z < 2 ^ n := by
  have hp : (0 : Int) < 2 ^ n := by positivity
  simp only [OpTy.number]
  have := Int.emod_lt_of_pos z hp
  exact (Int.toNat_lt' (Nat.two_pow_pos _)).2 (mod_cast this)

theorem OpTy.number_float_lt (f : FFmt) (z : Int) : (OpTy.float f).number n z < 2 ^ f.width := FFmt.ofImm_lt z

theorem OpTy.number_pair_lt {f : FFmt} (hf : f.width = 16) (z : Int) : (OpTy.pair f).number n z < 2 ^ 32 := by
  have := FFmt.ofImm_lt (f := f) z
  rw [hf] at this
  simp only [OpTy.number]
  omega

theorem toNat_low {x : Nat} (hn : n ≤ 64) (hx : x < 2 ^ n) : (BitVec.ofNat 64 ((BitVec.ofNat 64 x).toNat % 2 ^ n)).toNat = x := by
  have : 2 ^ n ≤ 2 ^ 64 := Nat.pow_le_pow_right (by decide) hn
  rw [BitVec.toNat_ofNat, BitVec.toNat_ofNat, Nat.mod_eq_of_lt (hx.trans_le this), Nat.mod_eq_of_lt hx, Nat.mod_eq_of_lt (hx.trans_le this)]

variable {c : RCtx} {t : OpTy} {l : Lane} (hn : n ≤ 64)
include hn

theorem Opnd.val_lane (h : t.number n l.val < 2 ^ n) : (Opnd.lane.val c t n l).toNat = t.number n l.val := toNat_low hn h

theorem Opnd.val_one (h : t.number n 1 < 2 ^ n) : (Opnd.one.val c t n l).toNat = t.number n 1 := toNat_low hn h

theorem Opnd.val_imm {m : BitVec 10} (h : t.number n m.toInt < 2 ^ n) : ((Opnd.imm m).val c t n l).toNat = t.number n m.toInt := toNat_low hn h

theorem Opnd.val_lit : (Opnd.lit.val c t n l).toNat = c.lit.toNat % 2 ^ n :=
  Nat.mod_eq_of_lt ((Nat.mod_lt _ (Nat.two_pow_pos _)).trans_le (Nat.pow_le_pow_right (by decide) hn))

end

theorem Opnd.val_zero {c : RCtx} {t : OpTy} {n : Nat} {l : Lane} : (Opnd.zero.val c t n l).toNat = 0 := by
  simp [Opnd.val]

/-! ### The numbers of 09 Table 6 -/

section
variable {n : Nat}

theorem OpTy.number_int_of_lt {k : Nat} (h : k < 2 ^ n) : OpTy.int.number n k = k := by
  simp only [OpTy.number]
  exact_mod_cast Nat.mod_eq_of_lt h

theorem OpTy.number_int_cast (z : Int) : (OpTy.int.number n z : Int) = z % 2 ^ n := Int.toNat_of_nonneg (Int.emod_nonneg _ (by positivity))

theorem FFmt.ofImm_f8_above {z : Int} (h : 448 < z) : FFmt.f8.ofImm z = 0x7E := by
  rw [FFmt.ofImm_eq_round, FFmt.round_f8_saturates (by omega), if_neg (by simp; omega)]

theorem FFmt.ofImm_f8_below {z : Int} (h : z < -448) : FFmt.f8.ofImm z = 0xFE := by
  rw [FFmt.ofImm_eq_round, FFmt.round_f8_saturates (by omega), if_pos (by simp; omega)]

theorem FFmt.width_of_half {f : FFmt} (hf : f ∈ [FFmt.f16, FFmt.bf16]) : f.width = 16 := by
  obtain rfl | rfl : f = .f16 ∨ f = .bf16 := by simpa using hf
  · rfl
  · rfl
end

/-- Settles O9: an operand supplies the number of its type, which fits the width; the numbers by the lemmas above. -/
theorem operandValues : Obligations.OperandValues := by
  intro c l m n hn v rne
  have hn : n = 8 ∨ n = 16 ∨ n = 32 ∨ n = 64 := by simpa using hn
  have h64 : n ≤ 64 := by omega
  have h8 : 2 ^ 8 ≤ 2 ^ n := Nat.pow_le_pow_right (by decide) (by omega)
  have float {f : FFmt} (hf : f.width = n) (z : Int) : (OpTy.float f).number n z < 2 ^ n := hf ▸ OpTy.number_float_lt f z
  have pair {f : FFmt} (hf : f.width = 16) (h32 : n = 32) (z : Int) : (OpTy.pair f).number n z < 2 ^ n := h32 ▸ OpTy.number_pair_lt hf z
  refine ⟨fun t => Opnd.val_zero, fun t => Opnd.val_lit h64, ?one, ?lane, ?imm, ?w8, ?w16, ?w32, ?w64, fun g => ⟨rfl, rfl, rfl⟩⟩
  case one => exact (Opnd.val_one h64 (OpTy.number_int_lt 1)).trans (OpTy.number_int_of_lt (k := 1) (by omega))
  case lane => exact (Opnd.val_lane h64 (OpTy.number_int_lt _)).trans (OpTy.number_int_of_lt (by omega))
  case imm => exact (congrArg Nat.cast (Opnd.val_imm h64 (OpTy.number_int_lt _))).trans (OpTy.number_int_cast _)
  case w8 =>
    rintro rfl
    have imm := Opnd.val_imm (c := c) (l := l) h64 (float (f := .f8) rfl m.toInt)
    exact ⟨Opnd.val_one h64 (float rfl 1), Opnd.val_lane h64 (float rfl _), imm, fun h => imm.trans (FFmt.ofImm_f8_above h),
      fun h => imm.trans (FFmt.ofImm_f8_below h)⟩
  case w16 =>
    rintro rfl
    refine ⟨Opnd.val_one h64 (float rfl 1), Opnd.val_one h64 (float rfl 1), fun f hf => ?_⟩
    have hf := FFmt.width_of_half hf
    exact ⟨Opnd.val_lane h64 (float hf _), Opnd.val_imm h64 (float hf _)⟩
  case w32 =>
    rintro rfl
    refine ⟨Opnd.val_one h64 (float rfl 1), Opnd.val_lane h64 (float rfl _), Opnd.val_imm h64 (float rfl _), Opnd.val_one h64 (pair rfl rfl 1),
      Opnd.val_one h64 (pair rfl rfl 1), fun f hf => ?_⟩
    have hf := FFmt.width_of_half hf
    exact ⟨Opnd.val_lane h64 (pair hf rfl _), Opnd.val_imm h64 (pair hf rfl _)⟩
  case w64 =>
    rintro rfl
    exact ⟨Opnd.val_one h64 (float rfl 1), Opnd.val_lane h64 (float rfl _), Opnd.val_imm h64 (float rfl _)⟩

end Sys2Proof
end

section
/-! Integer arithmetic (R242, R243): an instruction whose effect is an exact integer in each lane leaves it limited or reduced, with SAT where limiting changed
it. -/

namespace Sys2Proof.Machine

open Sys2Proof

/-! ### Results -/

section
variable {i : Instr} {own : Ctx → State → Option (BitVec 8)} {s : State} {c : Ctx}

/-- An instruction that names a destination, and whose effect is a result, computes it. -/
theorem Issues.computesResult (h : Issues i own s c) (hd : i.spec.map (fun p => p.d.used) = some true := by rfl) {u : State} {fixed : Bool}
    {x : Lane → BitVec 128} {fl : Lane → Flags} : Computes c x fl u (.next (result c fixed x fl u)) :=
  h.computes (fun p hp => by simpa [hp] using hd) u fixed x fl

/-- What finishing an exact result gives: it limited or not, reduced, and SAT where limiting changed it (R181). -/
theorem IntTy.finish_eq (t : IntTy) (sat : Bool) (x : Int) :
    t.finish sat x = ((limited t sat x % 2 ^ t.bits).toNat, if limited t sat x = x then 0 else 0x20) := by
  cases sat
  · simp [IntTy.finish, limited]
  · rfl

theorem Issues.computesInt (h : Issues i own s c) (hd : i.spec.map (fun p => p.d.used) = some true := by rfl) {t : IntTy} {x : Lane → Int} :
    ComputesInt c t x s (.next (intResult c t x s)) := by
  unfold ComputesInt intResult
  simp only [IntTy.finish_eq]
  exact h.computesResult hd

/-- The arithmetic instructions of 10 Table 8: the exact result is a function of the sources as integers (R243). -/
theorem Issues.computesIntOp (h : Issues i noOwn s c) (f : Int → Int → Int → IntTy → Int) (hd : i.spec.map (fun p => p.d.used) = some true := by rfl) :
    ComputesInt c c.ity (fun l => f (c.ia c.ity l) (c.ib c.ity l) (c.ic c.ity l) c.ity) s (intOp i f s) := by
  rw [intOp, issue_next h]
  exact h.computesInt hd

end

/-! ### The instructions -/

section
variable {f : Enc} {s : State} {c : Ctx}

/-- The high half of a product, rounded down. -/
theorem execImulh_computes (h : Issues (.imulh f) noOwn s c) :
    ComputesInt c c.ity (fun l => (c.ia c.ity l * c.ib c.ity l).fdiv (2 ^ c.ity.bits)) s (exec (.imulh f) s) := by
  have hfloor (x : Int) : x.fdiv (2 ^ c.ity.bits) = x / 2 ^ c.ity.bits := Int.fdiv_eq_ediv_of_nonneg x (by positivity)
  simp only [hfloor]
  exact h.computesIntOp fun a b _ t => a * b / 2 ^ t.bits

/-- The magnitude of a difference is the greater of it and its opposite. -/
theorem execIabsd_computes (h : Issues (.iabsd f) noOwn s c) :
    ComputesInt c c.ity (fun l => max (c.ia c.ity l - c.ib c.ity l) (c.ib c.ity l - c.ia c.ity l)) s (exec (.iabsd f) s) := by
  have habs (a b : Int) : max (a - b) (b - a) = ((a - b).natAbs : Int) := by omega
  simp only [habs]
  exact h.computesIntOp fun a b _ _ => ((a - b).natAbs : Int)

theorem execImadWide_computes (h : Issues (.imadWide f) noOwn s c) : ComputesInt c ⟨64, c.ity.signed⟩
    (fun l => c.ia c.ity l * c.ib c.ity l + c.ic ⟨64, c.ity.signed⟩ l) s (exec (.imadWide f) s) := by
  rw [exec_imadWide, execImadWide, issue_next h]
  exact h.computesInt

theorem execLea_computes (h : Issues (.lea f) noOwn s c) (hf : c.e.func.toNat < c.ity.bits) :
    ComputesInt c c.ity (fun l => c.ib c.ity l + c.ia c.ity l * 2 ^ c.e.func.toNat) s (exec (.lea f) s) := by
  have hown : encIf (decide (c.ity.bits ≤ c.e.func.toNat)) = none := by simp [encIf, hf]
  rw [exec_lea, execLea, issue_next (h.andOwn hown)]
  exact h.computesInt

/-- A shift by the type's width or more is an encoding fault (R242). -/
theorem execLea_traps (h : Issues (.lea f) noOwn s c) (hf : c.ity.bits ≤ c.e.func.toNat) :
    exec (.lea f) s = .next (s.raise c.slot .retry { cls := 0x05, lanes := (s.group c.slot).batch, pc := c.pc }) := by
  have hown : encIf (decide (c.ity.bits ≤ c.e.func.toNat)) = some clsEncoding := by simp [encIf, hf]
  rw [exec_lea, execLea]
  exact issue_own h hown _

end

/-- Settles O10: all but imadWide and lea are forms of `intOp`, which writes a function of the sources as integers. -/
theorem integerArithmeticComputes : Obligations.IntegerArithmeticComputes := by
  refine ⟨fun f s c => ⟨?iadd, ?isub, ?iadd3, ?imul, execImulh_computes, ?imad, execImadWide_computes, ?imin, ?imax, execIabsd_computes⟩,
    fun f s c => ⟨execLea_computes, execLea_traps⟩⟩
  case iadd => exact fun h => h.computesIntOp fun a b _ _ => a + b
  case isub => exact fun h => h.computesIntOp fun a b _ _ => a - b
  case iadd3 => exact fun h => h.computesIntOp fun a b c _ => a + b + c
  case imul => exact fun h => h.computesIntOp fun a b _ _ => a * b
  case imad => exact fun h => h.computesIntOp fun a b c _ => a * b + c
  case imin => exact fun h => h.computesIntOp fun a b _ _ => min a b
  case imax => exact fun h => h.computesIntOp fun a b _ _ => max a b

end Sys2Proof.Machine
end

section
/-! Bit and field operations (R244, R245): a number of at most n bits is the number of its bits, so each operation is settled by its size and by its bits. -/

namespace Sys2Proof.Machine

open Sys2Proof

/-! ### Numbers by their bits -/

theorem bitsVal_range_lt (n : Nat) (x : Nat → Bool) : bitsVal ((List.range n).map x) < 2 ^ n := by
  induction n generalizing x with
  | zero => exact Nat.one_pos
  | succ n ih =>
    have hlt := ih (x ∘ Nat.succ)
    rw [List.range_succ_eq_map, List.map_cons, List.map_map, bitsVal, Nat.pow_succ]
    split <;> omega

theorem testBit_bitsVal_range (n i : Nat) (x : Nat → Bool) : (bitsVal ((List.range n).map x)).testBit i = (decide (i < n) && x i) := by
  induction n generalizing x i with
  | zero => simp [bitsVal]
  | succ n ih =>
    rw [List.range_succ_eq_map, List.map_cons, List.map_map, bitsVal]
    cases i with
    | zero => cases x 0 <;> simp [Nat.testBit_zero]
    | succ i =>
      have half : ((if x 0 then 1 else 0) + 2 * bitsVal ((List.range n).map (x ∘ Nat.succ))) / 2 = bitsVal ((List.range n).map (x ∘ Nat.succ)) := by
        split <;> omega
      rw [Nat.testBit_add_one, half, ih]
      simp

/-- A number below 2^n whose bits are those named. -/
structure HasBits (n y : Nat) (x : Nat → Bool) : Prop where
  lt : y < 2 ^ n
  bit : ∀ i, i < n → y.testBit i = x i

section
variable {n y a b k : Nat} {x : Nat → Bool}

theorem HasBits.eq_bitsVal (h : HasBits n y x) : y = bitsVal ((List.range n).map x) := by
  refine Nat.eq_of_testBit_eq fun i => ?_
  rw [testBit_bitsVal_range]
  by_cases hi : i < n
  · simp [hi, h.bit i hi]
  · simp [hi, Nat.testBit_lt_two_pow (h.lt.trans_le (Nat.pow_le_pow_right (by decide) (Nat.not_lt.1 hi)))]

theorem HasBits.bitsVal (n : Nat) (x : Nat → Bool) : HasBits n (bitsVal ((List.range n).map x)) x :=
  ⟨bitsVal_range_lt n x, fun i hi => by simp [testBit_bitsVal_range, hi]⟩

theorem HasBits.mod (h : ∀ i, i < n → y.testBit i = x i) : HasBits n (y % 2 ^ n) x :=
  ⟨Nat.mod_lt _ (by positivity), fun i hi => by simp [Nat.testBit_mod_two_pow, hi, h i hi]⟩

/-! ### Logic, shifts and rotation (R244) -/

theorem hasBits_not (ha : a < 2 ^ n) : HasBits n (2 ^ n - 1 - a) fun i => !a.testBit i := by
  refine ⟨by omega, fun i hi => ?_⟩
  rw [Nat.sub_sub, Nat.add_comm 1 a, Nat.testBit_two_pow_sub_succ ha]
  simp [hi]

theorem hasBits_shl : HasBits n (if n ≤ k then 0 else a * 2 ^ k % 2 ^ n) fun i => decide (k ≤ i) && a.testBit (i - k) := by
  by_cases hk : n ≤ k
  · rw [if_pos hk]
    refine ⟨by positivity, fun i hi => ?_⟩
    simp [Nat.not_le.2 (hi.trans_le hk)]
  · rw [if_neg hk]
    exact .mod fun i _ => Nat.testBit_mul_two_pow a i k

theorem hasBits_shr (ha : a < 2 ^ n) : HasBits n (if n ≤ k then 0 else a / 2 ^ k) fun i => decide (i + k < n) && a.testBit (i + k) := by
  by_cases hk : n ≤ k
  · rw [if_pos hk]
    refine ⟨by positivity, fun i hi => ?_⟩
    simp [show ¬ i + k < n by omega]
  · rw [if_neg hk]
    refine ⟨(Nat.div_le_self _ _).trans_lt ha, fun i hi => ?_⟩
    rw [Nat.testBit_div_two_pow]
    by_cases hi' : i + k < n
    · simp [hi']
    · simp [hi', Nat.testBit_lt_two_pow (ha.trans_le (Nat.pow_le_pow_right (by decide) (Nat.not_lt.1 hi')))]

theorem hasBits_signFill (n a : Nat) : HasBits n (signFill n a) fun _ => a.testBit (n - 1) := by
  have hsign : a.testBit (n - 1) = decide (a / 2 ^ (n - 1) % 2 = 1) := Nat.testBit_eq_decide_div_mod_eq
  unfold signFill
  rw [hsign]
  split
  · next h => exact ⟨Nat.sub_lt (by positivity) Nat.one_pos, fun i hi => by simp [Nat.testBit_two_pow_sub_one, hi, h]⟩
  · next h => exact ⟨by positivity, fun i hi => by simp [h]⟩

/-- An arithmetic shift puts the sign above the bits that it keeps. -/
theorem hasBits_sar (ha : a < 2 ^ n) : HasBits n (sarBits n a k) fun i => a.testBit (min (i + k) (n - 1)) := by
  have hsign := hasBits_signFill n a
  unfold sarBits
  split
  · next hk =>
    refine ⟨hsign.lt, fun i hi => ?_⟩
    rw [hsign.bit i hi, Nat.min_eq_right (by omega)]
  · next hk =>
    refine .mod fun i hi => ?_
    have hlow : a / 2 ^ k < 2 ^ (n - k) := by
      rw [Nat.div_lt_iff_lt_mul (by positivity), ← Nat.pow_add, Nat.sub_add_cancel (by omega)]
      exact ha
    rw [Nat.add_comm, Nat.mul_comm, Nat.testBit_two_pow_mul_add _ hlow]
    split
    · next hi' => rw [Nat.testBit_div_two_pow, Nat.min_eq_left (by omega)]
    · next hi' => rw [hsign.bit _ (by omega), Nat.min_eq_right (by omega)]

/-- A rotation puts the bits that it shifts out below those that it shifts up. -/
theorem hasBits_rot (hn : 0 < n) (ha : a < 2 ^ n) : HasBits n (rotBits n a k) fun i => a.testBit ((i + (n - k % n)) % n) := by
  have hj : k % n < n := Nat.mod_lt _ hn
  unfold rotBits
  generalize k % n = j at *
  refine .mod fun i hi => ?_
  have hhigh : a / 2 ^ (n - j) < 2 ^ j := by
    rw [Nat.div_lt_iff_lt_mul (by positivity), ← Nat.pow_add, Nat.add_sub_cancel' hj.le]
    exact ha
  rw [Nat.mul_comm, Nat.testBit_two_pow_mul_add _ hhigh]
  split
  · next h => rw [Nat.testBit_div_two_pow, Nat.mod_eq_of_lt (by omega)]
  · next h => rw [show i + (n - j) = i - j + n by omega, Nat.add_mod_right, Nat.mod_eq_of_lt (by omega)]

/-! ### Counts (R244) -/

theorem foldl_count_eq (p : Nat → Bool) (l : List Nat) (k : Nat) : l.foldl (fun k i => if p i then k + 1 else k) k = k + (l.filter p).length := by
  induction l generalizing k with
  | nil => rfl
  | cons i l ih =>
    rw [List.foldl_cons, ih, List.filter_cons]
    split
    · rw [List.length_cons]; omega
    · rfl

theorem popBits_eq (n a : Nat) : popBits n a = ((List.range n).filter a.testBit).length := by
  rw [popBits, foldl_count_eq, Nat.zero_add]

/-- The places before the first that fails. -/
theorem length_takeWhile_range {p : Nat → Bool} {m : Nat} (hm : m ≤ n) (hbefore : ∀ i, i < m → p i = true) (hat : m < n → p m = false) :
    ((List.range n).takeWhile p).length = m := by
  obtain ⟨d, rfl⟩ := Nat.exists_eq_add_of_le hm
  rw [List.range_add, List.takeWhile_append_of_pos (by simpa using hbefore), List.length_append, List.length_range]
  cases d with
  | zero => rfl
  | succ d => simp [List.range_succ_eq_map, hat (by omega)]

theorem clzBits_eq (ha : a < 2 ^ n) : clzBits n a = ((List.range n).takeWhile fun i => !a.testBit (n - 1 - i)).length := by
  unfold clzBits
  split
  · next h0 => exact (length_takeWhile_range le_rfl (by simp [h0]) (by omega)).symm
  · next h0 =>
    have hlog : a.log2 < n := (Nat.log2_lt h0).2 ha
    refine (length_takeWhile_range (by omega) (fun i hi => ?_) fun _ => ?_).symm
    · rw [Nat.testBit_lt_two_pow ((Nat.log2_lt h0).1 (by omega))]
      rfl
    · rw [show n - 1 - (n - 1 - a.log2) = a.log2 by omega, Nat.testBit_log2 h0]
      rfl

/-! ### Fields and bytes (R245) -/

/-- A field of `m` bits with ones above it. -/
theorem HasBits.onesAbove {m : Nat} (h : HasBits m y x) (hm : m ≤ n) : HasBits n (y + (2 ^ n - 2 ^ m)) fun i => if i < m then x i else true := by
  have hsplit : y + (2 ^ n - 2 ^ m) = 2 ^ m * (2 ^ (n - m) - 1) + y := by
    rw [Nat.mul_sub, ← Nat.pow_add, Nat.add_sub_cancel' hm, Nat.mul_one, Nat.add_comm]
  have hle : 2 ^ m ≤ 2 ^ n := Nat.pow_le_pow_right (by decide) hm
  refine ⟨by have := h.lt; omega, fun i hi => ?_⟩
  rw [hsplit, Nat.testBit_two_pow_mul_add _ h.lt]
  split
  · next hi' => exact h.bit i hi'
  · next hi' => simp [Nat.testBit_two_pow_sub_one, show i - m < n - m by omega]

/-- A field of `m` bits with zeros above it. -/
theorem HasBits.zerosAbove {m : Nat} (h : HasBits m y x) (hm : m ≤ n) : HasBits n y fun i => if i < m then x i else false := by
  refine ⟨h.lt.trans_le (Nat.pow_le_pow_right (by decide) hm), fun i hi => ?_⟩
  split
  · next hi' => exact h.bit i hi'
  · next hi' => exact Nat.testBit_lt_two_pow (h.lt.trans_le (Nat.pow_le_pow_right (by decide) (Nat.not_lt.1 hi')))

/-- Bit `i` of the field that bfe takes from `pos` on: beyond the type's width it is the sign. -/
def fieldBit (t : IntTy) (a pos i : Nat) : Bool := if pos + i < t.bits then a.testBit (pos + i) else t.signed && a.testBit (t.bits - 1)

/-- A field extended by its own highest bit where the type is signed. -/
theorem hasBits_bfe (t : IntTy) (a b c : Nat) : let len := min (c % 128) t.bits
    HasBits t.bits (bfeBits t a b c) fun i =>
      if i < len then fieldBit t a (b % 128) i else t.signed && decide (0 < len) && fieldBit t a (b % 128) (len - 1) := by
  intro len
  have hle : len ≤ t.bits := Nat.min_le_right _ _
  have hfield := HasBits.bitsVal len (fieldBit t a (b % 128))
  have hval : bfeBits t a b c =
      if len = 0 then 0
      else if t.signed && (bitsVal ((List.range len).map (fieldBit t a (b % 128)))).testBit (len - 1) then
        bitsVal ((List.range len).map (fieldBit t a (b % 128))) + (2 ^ t.bits - 2 ^ len)
      else bitsVal ((List.range len).map (fieldBit t a (b % 128))) := rfl
  rw [hval]
  generalize bitsVal ((List.range len).map (fieldBit t a (b % 128))) = y at *
  by_cases h0 : len = 0
  · rw [if_pos h0]
    exact ⟨by positivity, fun i _ => by simp [h0]⟩
  · have hpos : 0 < len := Nat.pos_of_ne_zero h0
    rw [if_neg h0, hfield.bit (len - 1) (by omega), decide_eq_true hpos, Bool.and_true]
    cases t.signed && fieldBit t a (b % 128) (len - 1)
    · exact hfield.zerosAbove hle
    · exact hfield.onesAbove hle

/-- Bytes side by side, the first lowest. -/
theorem hasBits_bytes (x : Nat → Nat) (hx : ∀ k, x k < 2 ^ 8) (m : Nat) :
    HasBits (8 * m) ((List.range m).foldl (fun r k => r + x k * 2 ^ (8 * k)) 0) fun i => (x (i / 8)).testBit (i % 8) := by
  induction m with
  | zero => exact ⟨Nat.one_pos, fun i hi => absurd hi (Nat.not_lt_zero i)⟩
  | succ m ih =>
    rw [List.range_succ, List.foldl_append, List.foldl_cons, List.foldl_nil]
    generalize (List.range m).foldl (fun r k => r + x k * 2 ^ (8 * k)) 0 = r at *
    rw [Nat.add_comm r, Nat.mul_comm (x m)]
    refine ⟨?_, fun i hi => ?_⟩
    · have hlow := ih.lt
      have hbyte : 2 ^ (8 * m) * (x m + 1) ≤ 2 ^ (8 * m) * 2 ^ 8 := Nat.mul_le_mul_left _ (hx m)
      rw [Nat.mul_add, Nat.mul_one, ← Nat.pow_add] at hbyte
      rw [Nat.mul_succ]
      omega
    · rw [Nat.testBit_two_pow_mul_add _ ih.lt]
      split
      · next h => exact ih.bit i h
      · next h => rw [show i / 8 = m by omega, show i % 8 = i - 8 * m by omega]

/-- Byte `k` of the eight bytes of a prmt, bit by bit. -/
theorem hasBits_prmtByte (a b k : Nat) : HasBits 8 (prmtByte a b k) fun i => if k < 4 then a.testBit (8 * k + i) else b.testBit (8 * (k - 4) + i) := by
  unfold prmtByte
  split
  all_goals exact HasBits.mod fun i _ => by rw [Nat.testBit_div_two_pow, Nat.add_comm]

/-- What a selector of prmt gives: a byte, zeros, ones, or a byte's highest bit eight times. -/
def prmtPick (a b k : Nat) : Nat :=
  if k ≤ 7 then prmtByte a b k else if k = 8 then 0 else if k = 9 then 255 else if prmtByte a b (k - 8) / 128 = 1 then 255 else 0

theorem hasBits_prmtPick (a b k : Nat) : let byte (k i : Nat) : Bool := if k < 4 then a.testBit (8 * k + i) else b.testBit (8 * (k - 4) + i)
    HasBits 8 (prmtPick a b k) fun i => if k ≤ 7 then byte k i else if k = 8 then false else if k = 9 then true else byte (k - 8) 7 := by
  intro byte
  have hones : HasBits 8 255 fun _ => true := ⟨by decide, by decide⟩
  have hzeros : HasBits 8 0 fun _ => false := ⟨by decide, by decide⟩
  unfold prmtPick
  split
  · exact hasBits_prmtByte a b k
  split
  · exact hzeros
  split
  · exact hones
  have htop := (hasBits_prmtByte a b (k - 8)).bit 7 (by decide)
  have hlt := (hasBits_prmtByte a b (k - 8)).lt
  have hhigh : (prmtByte a b (k - 8)).testBit 7 = decide (prmtByte a b (k - 8) / 128 = 1) := by
    rw [Nat.testBit_eq_decide_div_mod_eq, Nat.mod_eq_of_lt (by omega)]
  change HasBits 8 _ fun _ => byte (k - 8) 7
  rw [← show _ = byte (k - 8) 7 from htop, hhigh]
  split
  · next h => simpa [h] using hones
  · next h => simpa [h] using hzeros

theorem hasBits_prmt (a b c : Nat) : let byte (k i : Nat) : Bool := if k < 4 then a.testBit (8 * k + i) else b.testBit (8 * (k - 4) + i)
    HasBits 32 (prmtBits a b c) fun i =>
      let k := c / 2 ^ (4 * (i / 8)) % 16
      if k ≤ 7 then byte k (i % 8) else if k = 8 then false else if k = 9 then true else byte (k - 8) 7 := by
  intro byte
  have hbytes := hasBits_bytes (fun j => prmtPick a b (c / 2 ^ (4 * j) % 16)) (fun j => (hasBits_prmtPick a b _).lt) 4
  exact ⟨hbytes.lt, fun i hi => (hbytes.bit i hi).trans ((hasBits_prmtPick a b _).bit (i % 8) (Nat.mod_lt _ (by decide)))⟩

end

/-! ### Operands -/

theorem Opnd.val_lt (o : Opnd) (r : RCtx) (t : OpTy) (n : Nat) (l : Lane) : (o.val r t n l).toNat < 2 ^ n := by
  unfold Opnd.val
  rw [BitVec.toNat_ofNat]
  exact (Nat.mod_le _ _).trans_lt (Nat.mod_lt _ (by positivity))

theorem Ctx.bits_pos (c : Ctx) : 0 < c.bits := by
  unfold Ctx.bits Enc.tyWidth codeWidth
  split <;> decide

section
variable {i : Instr} {own : Ctx → State → Option (BitVec 8)} {s : State} {c : Ctx} {t : OpTy} {l : Lane}

/-- A source that is as wide as the instruction's type is below 2^n. -/
theorem Issues.a_lt (h : Issues i own s c) (hw : i.spec.map OpSpec.wa = i.enc.map Enc.tyWidth := by rfl) : (c.a t l).toNat < 2 ^ c.bits := by
  obtain ⟨p, e, hp, he, rfl⟩ := h.ctx_eq
  rw [hp, he] at hw
  exact (Opnd.val_lt _ _ _ _ _).trans_eq (congrArg (2 ^ ·) (Option.some.inj hw))

theorem Issues.b_lt (h : Issues i own s c) (hw : i.spec.map OpSpec.wb = i.enc.map Enc.tyWidth := by rfl) : (c.b t l).toNat < 2 ^ c.bits := by
  obtain ⟨p, e, hp, he, rfl⟩ := h.ctx_eq
  rw [hp, he] at hw
  exact (Opnd.val_lt _ _ _ _ _).trans_eq (congrArg (2 ^ ·) (Option.some.inj hw))

/-! ### The instructions -/

/-- A result that is named bit by bit. -/
theorem Issues.computesBits (h : Issues i own s c) {n : Nat} {y : Lane → Nat} {x : Lane → Nat → Bool} (hy : ∀ l, HasBits n (y l) (x l)) {fixed : Bool}
    (hd : i.spec.map (fun p => p.d.used) = some true := by rfl) :
    ComputesBits c n x s (.next (result c fixed (fun l => BitVec.ofNat 128 (y l)) noFlags s)) := by
  unfold ComputesBits
  simp only [← (hy _).eq_bitsVal]
  exact h.computesResult hd

/-- The bit instructions of 10 Table 9: the result is a function of the sources' bits (R244). -/
theorem Issues.computesBitOp (h : Issues i noOwn s c) (f : Nat → Nat → Nat → Nat → Nat) {x : Lane → Nat → Bool}
    (hf : ∀ l, HasBits c.bits (f c.bits (c.a .int l).toNat (c.b .int l).toNat (c.c .int l).toNat) (x l))
    (hd : i.spec.map (fun p => p.d.used) = some true := by rfl) : ComputesBits c c.bits x s (bitOp i f s) := by
  rw [bitOp, issue_next h]
  exact h.computesBits hf hd

/-- A count of bits. -/
theorem Issues.computesCount (h : Issues i noOwn s c) (f : Nat → Nat → Nat → Nat → Nat) {k : Lane → Nat}
    (hf : ∀ l, f c.bits (c.a .int l).toNat (c.b .int l).toNat (c.c .int l).toNat = k l)
    (hd : i.spec.map (fun p => p.d.used) = some true := by rfl) :
    Computes c (fun l => BitVec.ofNat 128 (k l)) noFlags s (bitOp i f s) := by
  rw [bitOp, issue_next h]
  simp only [hf]
  exact h.computesResult hd

end

/-- Settles O11: each operation by the bits of the number that it gives, the counts by the places that they count. -/
theorem bitOperationsCompute : Obligations.BitOperationsCompute := by
  intro f s c
  dsimp only
  refine ⟨?and, ?or, ?xor, ?not, ?shl, ?shr, ?sar, ?rot, ?popc, ?clz⟩
  case and => exact fun h => h.computesBitOp (fun _ a b _ => a &&& b) fun l => ⟨Nat.and_lt_two_pow _ h.b_lt, fun i _ => Nat.testBit_and ..⟩
  case or => exact fun h => h.computesBitOp (fun _ a b _ => a ||| b) fun l => ⟨Nat.or_lt_two_pow h.a_lt h.b_lt, fun i _ => Nat.testBit_or ..⟩
  case xor => exact fun h => h.computesBitOp (fun _ a b _ => a ^^^ b) fun l => ⟨Nat.xor_lt_two_pow h.a_lt h.b_lt, fun i _ => Nat.testBit_xor ..⟩
  case not => exact fun h => h.computesBitOp (fun n a _ _ => 2 ^ n - 1 - a) fun l => hasBits_not h.a_lt
  case shl => exact fun h => h.computesBitOp (fun n a b _ => if n ≤ b then 0 else a * 2 ^ b % 2 ^ n) fun l => hasBits_shl
  case shr => exact fun h => h.computesBitOp (fun n a b _ => if n ≤ b then 0 else a / 2 ^ b) fun l => hasBits_shr h.a_lt
  case sar => exact fun h => h.computesBitOp (fun n a b _ => sarBits n a b) fun l => hasBits_sar h.a_lt
  case rot => exact fun h => h.computesBitOp (fun n a b _ => rotBits n a b) fun l => hasBits_rot c.bits_pos h.a_lt
  case popc => exact fun h => h.computesCount (fun n a _ _ => popBits n a) fun l => popBits_eq _ _
  case clz => exact fun h => h.computesCount (fun n a _ _ => clzBits n a) fun l => clzBits_eq h.a_lt

/-- Settles O12: each field operation by the bits of the number that it gives. -/
theorem fieldOperationsCompute : Obligations.FieldOperationsCompute := by
  intro f s c
  dsimp only
  refine ⟨?bfe, ?bfi, ?prmt⟩
  case bfe =>
    intro h
    rw [exec_bfe, execBfe, issue_next h]
    exact h.computesBits fun l => hasBits_bfe _ _ _ _
  case bfi => exact fun h => h.computesBitOp (fun n a b c => bfiBits n a b c) fun l => .bitsVal _ _
  case prmt =>
    intro h
    rw [exec_prmt, execPrmt, bitOp, issue_next h]
    exact h.computesBits fun l => hasBits_prmt _ _ _

end Sys2Proof.Machine
end

section
/-! Comparisons, selection, moves and lane instructions (R232, R246 to R248, R256): masks of lanes by their lanes, and predicates by the active lanes. -/

namespace Sys2Proof.Machine

open Sys2Proof

/-! ### Comparisons (R246, R256) -/

section
variable {f : Enc} {s : State} {c : Ctx}

theorem execIsetp_computes (h : Issues (.isetp f) noOwn s c) :
    ComputesPred c c.dpred (fun l => intCmp c.e.func.toNat (c.ia c.ity l) (c.ib c.ity l)) noFlags s (exec (.isetp f) s) := by
  rw [exec_isetp, execIsetp, issue_next h]
  exact computes_pred _ _ _ _

theorem execFsetp_computes (h : Issues (.fsetp f) noOwn s c) (hf : ¬ (6 ≤ c.e.func.toNat % 8 ∧ c.e.func.getLsbD 3 = true)) :
    let t := c.fmt .f32
    ComputesPred c c.dpred (fun l => fRel (c.e.func.toNat % 8) (c.e.func.getLsbD 3) (t.value (c.fa t l)) (t.value (c.fb t l)))
      (fun l => (t.value (c.fa t l)).sig ||| (t.value (c.fb t l)).sig) s (exec (.fsetp f) s) := by
  have hown : encIf (decide (6 ≤ c.e.func.toNat % 8) && c.e.func.getLsbD 3) = none := by
    rw [encIf, if_neg (by simpa using hf)]
  rw [exec_fsetp, execFsetp, issue_next (h.andOwn hown)]
  exact computes_pred _ _ _ _

/-- The relations num and nan take no U (R256). -/
theorem execFsetp_traps (h : Issues (.fsetp f) noOwn s c) (hk : 6 ≤ c.e.func.toNat % 8) (hu : c.e.func.getLsbD 3 = true) :
    exec (.fsetp f) s = .next (s.raise c.slot .retry { cls := 0x05, lanes := (s.group c.slot).batch, pc := c.pc }) := by
  have hown : encIf (decide (6 ≤ c.e.func.toNat % 8) && c.e.func.getLsbD 3) = some clsEncoding := by
    rw [encIf, if_pos (by simpa using ⟨hk, hu⟩)]
  rw [exec_fsetp, execFsetp]
  exact issue_own h hown _

/-! ### Selection and moves (R247, R248) -/

theorem execSel_computes (h : Issues (.sel f) noOwn s c) : Computes c (fun l =>
    (if c.g.predBit s.freeCtr (c.e.func.toNat % 8) l = c.e.func.getLsbD 3 then c.b (tyOf .int c.e.ty) l
     else c.a (tyOf .int c.e.ty) l).setWidth 128) noFlags s (exec (.sel f) s) := by
  have hsel (p q : Bool) (x y : DWord) : (if p = q then y else x) = if p != q then x else y := by cases p <;> cases q <;> rfl
  rw [exec_sel, execSel, issue_next h]
  simp only [← hsel]
  exact h.computesResult

theorem execMov_computes (h : Issues (.mov f) noOwn s c) : Computes c (fun l => (c.a .int l).setWidth 128) noFlags s (exec (.mov f) s) := by
  rw [exec_mov, execMov, issue_next h]
  exact h.computesResult

theorem execMovs_computes (h : Issues (.movs f) noOwn s c) : ComputesUniform c (c.a .int c.low) s (exec (.movs f) s) := by
  rw [exec_movs, execMovs, issue_next h]
  exact h.computesResult

theorem execBcast_computes (h : Issues (.bcast f) noOwn s c) (j : Lane) (hj : j.val = c.ub.toNat % 32) :
    ComputesUniform c (c.a .int j) s (exec (.bcast f) s) := by
  have hlane : j = laneMod c.ub.toNat := Fin.ext hj
  rw [exec_bcast, execBcast, issue_next h, hlane]
  exact h.computesResult

end

/-- Settles O13: isetp and fsetp end in a predicate, unless fsetp's own condition fails. -/
theorem comparisonsWriteAPredicate : Obligations.ComparisonsWriteAPredicate :=
  fun _ _ _ => ⟨execIsetp_computes, execFsetp_computes, execFsetp_traps⟩

/-- Settles O14: each ends in a result. -/
theorem movesAndSelect : Obligations.MovesAndSelect :=
  fun _ _ _ => ⟨execSel_computes, execMov_computes, execMovs_computes, execBcast_computes⟩

/-! ### Masks of lanes -/

section
variable {m : LaneMask} {p : Lane → Bool} {l : Lane}

theorem maskOf_eq_zero_iff : maskOf p = 0 ↔ ∀ l, p l = false := by
  refine ⟨fun h l => ?_, fun h => mask_ext fun l => ?_⟩
  · rw [← laneIn_maskOf p l, h, laneIn_zero]
  · rw [laneIn_maskOf, h, laneIn_zero]

/-- The lanes of a mask that satisfy a condition are all of them. -/
theorem maskOf_and_eq_iff : (maskOf fun l => laneIn m l && p l) = m ↔ ∀ l, laneIn m l = true → p l = true := by
  refine ⟨fun h l hl => ?_, fun h => mask_ext fun l => ?_⟩
  · have hboth : (laneIn m l && p l) = true := by rw [← laneIn_maskOf (fun l => laneIn m l && p l), h, hl]
    exact (Bool.and_eq_true_iff.1 hboth).2
  · rw [laneIn_maskOf]
    cases hl : laneIn m l
    · rfl
    · rw [h l hl]; rfl

/-- The lanes of a mask ascend. -/
theorem lanesIn_sorted (m : LaneMask) : (lanesIn m).Pairwise (· < ·) := (List.pairwise_lt_finRange 32).filter _

theorem lowLane_le (hl : laneIn m l = true) : lowLane m ≤ l := by
  have hmem := (mem_lanesIn m l).2 hl
  have hsorted := lanesIn_sorted m
  unfold lowLane
  generalize lanesIn m = ls at *
  cases hmem with
  | head => exact le_rfl
  | tail _ ht => exact ((List.pairwise_cons.1 hsorted).1 l ht).le

theorem le_highLane (hl : laneIn m l = true) : l ≤ highLane m := by
  have hmem := (mem_lanesIn m l).2 hl
  have hsorted := lanesIn_sorted m
  unfold highLane
  generalize lanesIn m = ls at *
  obtain ⟨front, last, rfl⟩ : ∃ front last, ls = front ++ [last] := ⟨_, _, (List.dropLast_append_getLast (List.ne_nil_of_mem hmem)).symm⟩
  rw [List.getLastD_concat]
  rcases List.mem_append.1 hmem with hfront | hlast
  · exact ((List.pairwise_append.1 hsorted).2.2 l hfront last (by simp)).le
  · exact (List.mem_singleton.1 hlast).le

theorem laneIn_highLane (h : m ≠ 0) : laneIn m (highLane m) = true := by
  have hne := List.ne_nil_of_mem ((mem_lanesIn m _).2 (laneIn_lowLane h))
  rw [← mem_lanesIn, highLane, List.getLastD_eq_getLast?, List.getLast?_eq_some_getLast hne]
  exact List.getLast_mem hne

theorem ne_zero_of_laneIn (hl : laneIn m l = true) : m ≠ 0 := by
  rintro rfl
  rw [laneIn_zero] at hl
  cases hl

/-- A lane of a mask is its lowest exactly when none is lower. -/
theorem eq_lowLane_iff (hl : laneIn m l = true) : l = lowLane m ↔ ∀ k, laneIn m k = true → l.val ≤ k.val :=
  ⟨fun h _ hk => h ▸ lowLane_le hk, fun h => le_antisymm (h _ (laneIn_lowLane (ne_zero_of_laneIn hl))) (lowLane_le hl)⟩

/-- A lane of a mask is its highest exactly when none is higher. -/
theorem eq_highLane_iff (hl : laneIn m l = true) : l = highLane m ↔ ∀ k, laneIn m k = true → k.val ≤ l.val :=
  ⟨fun h _ hk => h ▸ le_highLane hk, fun h => le_antisymm (le_highLane hl) (h _ (laneIn_highLane (ne_zero_of_laneIn hl)))⟩

end

section
variable {c : Ctx}

theorem Ctx.laneIn_trueLanes (l : Lane) : laneIn c.trueLanes l = (laneIn c.act l && c.a .int l != 0) := laneIn_maskOf _ l

theorem Ctx.trueLanes_eq_zero_iff : c.trueLanes = 0 ↔ ¬ ∃ l, laneIn c.act l = true ∧ c.a .int l ≠ 0 := by
  rw [Ctx.trueLanes, maskOf_eq_zero_iff]
  simp

theorem Ctx.trueLanes_eq_act_iff : c.trueLanes = c.act ↔ ∀ l, laneIn c.act l = true → c.a .int l ≠ 0 := by
  rw [Ctx.trueLanes, maskOf_and_eq_iff]
  simp

theorem Ctx.lanesIn_trueLanes : lanesIn c.trueLanes = (List.finRange 32).filter fun l => laneIn c.act l && c.a .int l != 0 :=
  List.filter_congr fun l _ => Ctx.laneIn_trueLanes l

/-- Every active lane has the value of the lowest exactly when any two have the same. -/
theorem Ctx.sameA_iff : c.sameA = true ↔ ∀ j k, laneIn c.act j = true → laneIn c.act k = true → c.a .int j = c.a .int k := by
  have hall : c.sameA = true ↔ ∀ l, laneIn c.act l = true → c.a .int l = c.a .int c.low := by simp [Ctx.sameA, mem_lanesIn]
  rw [hall]
  exact ⟨fun h j k hj hk => (h j hj).trans (h k hk).symm, fun h l hl => h l _ hl (laneIn_lowLane (ne_zero_of_laneIn hl))⟩

end

/-! ### Lane instructions (R232) -/

/-- Only what a predicate is in the active lanes counts. -/
theorem ComputesPred.congr {c : Ctx} {n : Nat} {x y : Lane → Bool} {fl : Lane → Flags} {s : State} {o : Out} (h : ComputesPred c n x fl s o)
    (hxy : ∀ l, laneIn c.act l = true → x l = y l) : ComputesPred c n y fl s o := by
  obtain ⟨t, ht, ⟨hpred, hkept, hflags⟩, hsteps, halone⟩ := h
  refine ⟨t, ht, ⟨fun l k hk => (hpred l k hk).trans ?_, hkept, hflags⟩, hsteps, halone⟩
  split
  · next hw => exact hxy l hw.2.2
  · rfl

theorem orLanes_noFlags (m : LaneMask) : orLanes m noFlags = 0 :=
  List.foldlRecOn (motive := fun x : Flags => x = 0) _ _ rfl fun _ hx _ _ => hx ▸ BitVec.or_zero

section
variable {i : Instr} {s : State} {c : Ctx}

theorem Issues.computesVote (h : Issues i noOwn s c) (f : Ctx → Word) {x : DWord} (hx : (f c).setWidth 64 = x)
    (hd : i.spec.map (fun p => p.d.used) = some true := by rfl) : ComputesUniform c x s (voteOp i f s) := by
  rw [voteOp, issue_next h, ← hx]
  exact h.computesResult hd

/-- Each lane's value is A of the lane of the group that a number names, and C where the number is none's (R232). -/
def Ctx.TakesFrom (c : Ctx) (j : Lane → Int) (x : Lane → BitVec 128) : Prop :=
  ∀ l, (0 ≤ j l ∧ j l ≤ 31 → ∀ k : Lane, (k.val : Int) = j l → x l = (c.a .int k).setWidth 128) ∧
    (j l < 0 ∨ 31 < j l → x l = (c.c .int l).setWidth 128)

theorem Issues.computesShfl (h : Issues i noOwn s c) (f : Int → Int → Int) (hd : i.spec.map (fun p => p.d.used) = some true := by rfl) :
    ∃ x, c.TakesFrom (fun l => f l.val (c.b .int l).toNat) x ∧ Computes c x noFlags s (shflOp i f s) := by
  rw [shflOp, issue_next h]
  refine ⟨_, fun l => ?_, h.computesResult hd⟩
  dsimp only
  generalize f l.val (c.b .int l).toNat = j
  refine ⟨fun hin k hk => ?_, fun hout => ?_⟩
  · have hlane : laneMod j.toNat = k := Fin.ext (by
      have := k.isLt
      simp only [laneMod]
      omega)
    rw [if_pos hin, hlane]
  · rw [if_neg (by omega)]

/-- Elections: the predicate of the lane chosen among the active ones. -/
theorem Issues.computesElect (h : Issues i noOwn s c) (f : LaneMask → Lane) :
    ComputesPred c c.dpred (fun l => l == f c.act) noFlags s (electOp i f s) := by
  have hp := computes_pred (c := c) (s := s) c.dpred false (fun l => l == f c.act) noFlags
  simp only [orLanes_noFlags, Group.orFlags, if_pos] at hp
  rw [electOp, issue_next h]
  exact hp

end

section
variable {f : Enc} {s : State} {c : Ctx}

theorem execElect_computes (h : Issues (.elect f) noOwn s c) :
    ComputesPred c c.dpred (fun l => decide (∀ k, laneIn c.act k = true → l.val ≤ k.val)) noFlags s (exec (.elect f) s) :=
  (h.computesElect lowLane).congr fun l hl => Bool.eq_iff_iff.2 (by simpa using eq_lowLane_iff hl)

theorem execElectHi_computes (h : Issues (.electHi f) noOwn s c) :
    ComputesPred c c.dpred (fun l => decide (∀ k, laneIn c.act k = true → k.val ≤ l.val)) noFlags s (exec (.electHi f) s) :=
  (h.computesElect highLane).congr fun l hl => Bool.eq_iff_iff.2 (by simpa using eq_highLane_iff hl)

theorem execMatchPeers_computes (h : Issues (.matchPeers f) noOwn s c) : ∃ m : Lane → LaneMask,
    (∀ l k, laneIn (m l) k = (laneIn c.act k && c.a .int k == c.a .int l)) ∧
    Computes c (fun l => (m l).setWidth 128) noFlags s (exec (.matchPeers f) s) := by
  rw [exec_matchPeers, execMatchPeers, issue_next h]
  exact ⟨_, fun l k => laneIn_maskOf _ k, h.computesResult⟩

/-- The active lanes whose A is not zero, counted. -/
theorem Ctx.count_trueLanes (c : Ctx) : (BitVec.ofNat 32 (lanesIn c.trueLanes).length).setWidth 64 =
    BitVec.ofNat 64 ((List.finRange 32).filter fun l => laneIn c.act l && c.a .int l != 0).length := by
  have hle : ((List.finRange 32).filter fun l => laneIn c.act l && c.a .int l != 0).length ≤ 32 := by
    simpa using List.length_filter_le (fun l => laneIn c.act l && c.a .int l != 0) (List.finRange 32)
  rw [Ctx.lanesIn_trueLanes, BitVec.setWidth_ofNat_of_le_of_lt (by decide) (by omega)]

end

/-- Settles O15: votes and matches are masks of the active lanes, elections their lowest and highest lane, shuffles lanes by number. -/
theorem laneInstructionsCompute : Obligations.LaneInstructionsCompute := by
  intro f s c
  dsimp only
  refine ⟨?mask, ?some_, ?every, ?same, ?count, ?lane, ?back, ?fwd, ?mix, ?rot, execElect_computes, execElectHi_computes, execMatchPeers_computes,
    ?uniform_⟩
  case mask => exact fun h => ⟨c.trueLanes, Ctx.laneIn_trueLanes, h.computesVote _ rfl⟩
  case some_ =>
    refine fun h => h.computesVote (fun c => if c.trueLanes = 0 then 0 else 1) ?_
    simp only [Ctx.trueLanes_eq_zero_iff, ite_not]
    split <;> rfl
  case every =>
    refine fun h => h.computesVote (fun c => if c.trueLanes = c.act then 1 else 0) ?_
    simp only [Ctx.trueLanes_eq_act_iff]
    split <;> rfl
  case same =>
    refine fun h => h.computesVote (fun c => if c.sameA then 1 else 0) ?_
    simp only [Ctx.sameA_iff]
    split <;> rfl
  case count => exact fun h => h.computesVote (fun c => BitVec.ofNat 32 (lanesIn c.trueLanes).length) c.count_trueLanes
  case lane => exact fun h => h.computesShfl fun _ b => b % 32
  case back => exact fun h => h.computesShfl fun l b => l - b
  case fwd => exact fun h => h.computesShfl fun l b => l + b
  case mix => exact fun h => h.computesShfl fun l b => ((l.toNat ^^^ (b.toNat % 32) : Nat) : Int)
  case rot => exact fun h => h.computesShfl fun l b => (l + b) % 32
  case uniform_ =>
    refine fun h => h.computesVote (fun c => if c.sameA then c.act else 0) ?_
    simp only [Ctx.sameA_iff]
    split <;> rfl

end Sys2Proof.Machine
end

section
/-! Control flow (R227 to R231): a branch sends each active lane to its target or traps before anything changes, yield ends the run, exit marks lanes. -/

namespace Sys2Proof.Machine

open Sys2Proof

/-! ### Branches (R227, R229) -/

section
variable {c : Ctx} {s : State}

/-- An instruction whose effect on its own group was the write of a result, issued with its own program counters. -/
theorem computesTo_retire {k : Group → Group} {x : Lane → BitVec 128} {fl : Lane → Flags} (e : LEntry) (pcs : Lanes DWord)
    (hw : Wrote c x (orLanes c.act fl) (s.group c.slot) (k (s.group c.slot))) (ha : (k (s.group c.slot)).apart = (s.group c.slot).apart)
    (hpc : (k (s.group c.slot)).pc = (s.group c.slot).pc) (hseq : (k (s.group c.slot)).seq = (s.group c.slot).seq)
    (hcount : (k (s.group c.slot)).count = (s.group c.slot).count) :
    ComputesTo c x fl (fun l => pcs[l]) s (.next (retire c e pcs (s.updGroup c.slot k))) := by
  have hraw := retire_raw c e pcs (s.updGroup c.slot k)
  have hsteps := retire_steps c e pcs (s.updGroup c.slot k)
  have hapart := retire_apart c e pcs (s.updGroup c.slot k)
  have hfstat := retire_fstat c e pcs (s.updGroup c.slot k)
  rw [State.group_updGroup] at hsteps hapart hfstat
  simp only [State.group_updGroup] at hraw
  refine ⟨_, rfl, ⟨fun d hd j l hj hl => ?dest, fun r l hr hf hd => ?kept, ?flags⟩, ⟨fun l => ?pc, ?seq, ?count⟩,
    ⟨rfl, fun j hj => ?others, ?own, fun p hp => ?parts, retire_rest_updGroup c e pcs s c.slot k⟩⟩
  case dest => exact (hraw _ _).trans (hw.dest d hd j l hj hl)
  case kept => exact (hraw _ _).trans (hw.kept r l hr hf hd)
  case flags => exact hfstat.trans hw.flags
  case pc => rw [hsteps.pc l, hpc]
  case seq => rw [hsteps.seq, hseq]
  case count => rw [hsteps.count, hcount]
  case others => rw [retire_group_ne _ _ _ _ _ hj, State.group_updGroup_ne _ _ _ _ hj]
  case own => rw [hapart, ha]
  case parts => rw [retire_part_ne _ _ _ _ _ hp, State.part_updGroup]

theorem misaligned_eq (x : DWord) : misaligned x = decide (x.toNat % 4 ≠ 0) := by simp [misaligned, bne, beq_eq_decide]

variable {t : Lane → DWord} {o : Out}

/-- A branch with a misaligned target traps. -/
theorem branch_traps {link : Bool} (ho : o = .next (branch c link t s)) {m : LaneMask}
    (hm : ∀ l, laneIn m l = (laneIn c.act l && decide ((t l).toNat % 4 ≠ 0))) (h0 : m ≠ 0) :
    o = .next (s.raise c.slot .retry { cls := 0x03, lanes := m, kind := 4, space := 0, addr := t (lowLane m), pc := c.pc }) := by
  have hbad : (maskOf fun l => laneIn c.act l && misaligned (t l)) = m := mask_ext fun l => by rw [laneIn_maskOf, hm, misaligned_eq]
  unfold branch at ho
  rw [hbad, if_pos h0] at ho
  exact ho

/-- A branch without misaligned targets. -/
theorem branch_aligned (link : Bool) (hgood : ∀ l, laneIn c.act l = true → (t l).toNat % 4 = 0) : branch c link t s =
    let pcs : Lanes DWord := Vector.ofFn fun l => if laneIn c.act l then t l else c.next
    if link then
      retire c (c.entry (uniform c.next)) pcs (s.updGroup c.slot fun g => g.write c.e.d c.p.wd c.act (uniform c.next) g.seq false)
    else retire c LEntry.undef pcs s := by
  have hbad : (maskOf fun l => laneIn c.act l && misaligned (t l)) = 0 := by
    rw [maskOf_eq_zero_iff]
    intro l
    cases hl : laneIn c.act l
    · rfl
    · rw [misaligned_eq, hgood l hl]; rfl
  unfold branch
  rw [hbad]
  rfl

theorem branch_goes (ho : o = .next (branch c false t s)) (hgood : ∀ l, laneIn c.act l = true → (t l).toNat % 4 = 0) :
    Goes c (fun l => if laneIn c.act l then t l else c.next) s o := by
  have hgoes := goes_retire (c := c) (s := s) LEntry.undef (Vector.ofFn fun l => if laneIn c.act l then t l else c.next)
  simp only [Fin.getElem_fin, Vector.getElem_ofFn, Fin.eta] at hgoes
  rw [ho, branch_aligned _ hgood]
  exact hgoes

/-- A call writes the next instruction's address to D (R227). -/
theorem branch_links (ho : o = .next (branch c true t s)) (hd : ∀ d, c.e.d.firstReg = some d → d + wordsOf c.p.wd ≤ 264 ∨ 1024 ≤ d)
    (hgood : ∀ l, laneIn c.act l = true → (t l).toNat % 4 = 0) :
    ComputesTo c (uniform c.next) noFlags (fun l => if laneIn c.act l then t l else c.next) s o := by
  obtain ⟨hw, ha, hpc, hseq, hcount, -⟩ := Group.write_spec c (s.group c.slot) (uniform c.next) (s.group c.slot).seq false hd
  rw [← orLanes_noFlags c.act] at hw
  have hto := computesTo_retire (k := fun g => g.write c.e.d c.p.wd c.act (uniform c.next) g.seq false) (c.entry (uniform c.next))
    (Vector.ofFn fun l => if laneIn c.act l then t l else c.next) hw ha hpc hseq hcount
  simp only [Fin.getElem_fin, Vector.getElem_ofFn, Fin.eta] at hto
  rw [ho, branch_aligned _ hgood]
  exact hto

/-- The entry of a branch table is after the branch, at the smaller of the index and the bound (R228). -/
def Ctx.tableTarget (c : Ctx) (l : Lane) : DWord :=
  c.next + BitVec.ofNat 64 ([4, 8, 12, 16, 20, 24, 32, 40].getD (c.e.func.toNat % 8) 4 *
    (if (c.a .int l).toNat < c.ub.toNat then (c.a .int l).toNat else c.ub.toNat))

theorem Ctx.tableTarget_eq (c : Ctx) (l : Lane) :
    c.pc + BitVec.ofNat 64 (c.len + brxSize (c.e.func.toNat % 8) * min (c.a .int l).toNat c.ub.toNat) = c.tableTarget l := by
  have hmin (a b : Nat) : min a b = if a < b then a else b := by split <;> omega
  rw [hmin, BitVec.ofNat_add, ← BitVec.add_assoc]
  rfl

/-- bru's condition, of all active lanes or of some (R226). -/
theorem Ctx.bruTaken_iff (c : Ctx) : let cond (l : Lane) : Bool := c.g.predBit c.rc.ctr (c.e.func.toNat % 8) l != c.e.func.getLsbD 3
    c.bruTaken = true ↔
      (if c.e.func.getLsbD 4 then ∀ l, laneIn c.act l = true → cond l = true else ∃ l, laneIn c.act l = true ∧ cond l = true) := by
  intro cond
  unfold Ctx.bruTaken
  split <;> simp [mem_lanesIn, cond]

end

/-! ### The branch instructions -/

section
variable {f : Enc} {s : State} {c : Ctx}

theorem execBra_branches (h : Issues (.bra f) noOwn s c) : exec (.bra f) s = .next (branch c false (fun _ => c.relTarget) s) := by
  rw [exec_bra, execBra, issue_next h]

theorem execBru_branches (h : Issues (.bru f) noOwn s c) :
    exec (.bru f) s = .next (branch c false (fun _ => if c.bruTaken then c.relTarget else c.next) s) := by
  rw [exec_bru, execBru, issue_next h]
  rfl

theorem execBru_taken (h : Issues (.bru f) noOwn s c) (ht : c.bruTaken = true) :
    exec (.bru f) s = .next (branch c false (fun _ => c.relTarget) s) := by
  simpa only [ht, if_true] using execBru_branches h

theorem execBrx_branches (h : Issues (.brx f) noOwn s c) : exec (.brx f) s = .next (branch c false c.tableTarget s) := by
  rw [exec_brx, execBrx, issue_next h]
  simp only [Ctx.tableTarget_eq]

theorem execRet_branches (h : Issues (.ret f) noOwn s c) : exec (.ret f) s = .next (branch c false (c.a .int) s) := by
  rw [exec_ret, execRet, issue_next h]

theorem execCall_branches (h : Issues (.call f) linkOk s c) : exec (.call f) s = .next (branch c true (fun _ => c.relTarget) s) := by
  rw [exec_call, execCall, issue_next h]

theorem execCallx_branches (h : Issues (.callx f) linkOk s c) : exec (.callx f) s = .next (branch c true (c.a .int) s) := by
  rw [exec_callx, execCallx, issue_next h]

/-- The link's registers lie inside one register file. -/
theorem Issues.link_fits {i : Instr} {own : Ctx → State → Option (BitVec 8)} (h : Issues i own s c)
    (hd : i.spec.map (fun p => p.d.used) = some true := by rfl) : ∀ d, c.e.d.firstReg = some d → d + wordsOf c.p.wd ≤ 264 ∨ 1024 ≤ d := by
  obtain ⟨p, e, hp, he, hc⟩ := h.ctx_eq
  refine h.dest_fits ?_
  rw [hp] at hd
  rw [hc]
  exact Option.some.inj hd

end

/-- Settles O20: each instruction is a branch to its targets, and these are aligned. -/
theorem branchesGoToTheirTargets : Obligations.BranchesGoToTheirTargets := by
  intro f s c
  dsimp only
  refine ⟨fun h => branch_goes (execBra_branches h), fun h => ?bru, fun h => branch_goes (execBrx_branches h),
    fun h => branch_goes (execRet_branches h), fun h => branch_links (execCall_branches h) h.link_fits,
    fun h => branch_links (execCallx_branches h) h.link_fits⟩
  case bru =>
    simp only [← Ctx.bruTaken_iff]
    exact branch_goes (execBru_branches h)

/-- Settles O21: each instruction is a branch, and one with a misaligned target traps. -/
theorem misalignedTargetsTrap : Obligations.MisalignedTargetsTrap :=
  fun _ _ _ => ⟨fun h _ => branch_traps (execBra_branches h), fun h htaken _ => branch_traps (execBru_taken h htaken),
    fun h _ => branch_traps (execBrx_branches h), fun h _ => branch_traps (execCall_branches h), fun h _ => branch_traps (execRet_branches h),
    fun h _ => branch_traps (execCallx_branches h)⟩

/-! ### nop, yield and exit (R230, R231) -/

section
variable {f : Enc} {s : State} {c : Ctx}

theorem Ctx.ending_of_sw (h : c.e.sw = true) : c.ending = c := by
  unfold Ctx.ending
  rw [← h]

theorem execNop_acts (h : Issues (.nop f) noOwn s c) : Acts c s (exec (.nop f) s) := by
  rw [exec_nop, execNop, issue_next h]
  exact acts_done _ _

theorem execNop_ends (h : Issues (.nop f) noOwn s c) (hsw : c.e.sw = true) : ActsAndEnds c s (exec (.nop f) s) := by
  have hends := acts_ending c s
  rw [Ctx.ending_of_sw hsw] at hends
  rw [exec_nop, execNop, issue_next h]
  exact hends

theorem execYield_ends (h : Issues (.yield f) noOwn s c) : ActsAndEnds c s (exec (.yield f) s) := by
  rw [exec_yield, execYield, issue_next h]
  exact acts_ending _ _

/-- The state after the active lanes of an instruction have exited and left the trap handler (R230, R332). -/
def Ctx.lanesExited (c : Ctx) (s : State) : State :=
  s.updGroup c.slot fun g => { g with exited := g.exited ||| c.act }.leaveTrap c.act

/-- The state after exited lanes have left their convergence sets, behind the time-outs that are over due (R239, R240). -/
def Ctx.setsLeft (c : Ctx) (s : State) : State :=
  if c.act = 0 ∨ c.g.routine = true then s else ((List.range 16).foldl (fun s n => s.cvCatch c.g.team n) s).cvExit c.slot c.act

theorem execExit_acts (h : Issues (.exit f) noOwn s c) : let v := c.setsLeft (c.lanesExited s)
    Acts c (if (v.group c.slot).gone && !c.g.routine then v.pollTeam c.g.team else v) (exec (.exit f) s) := by
  rw [exec_exit, execExit, issue_next h]
  exact acts_done _ _

end

section
variable {s : State} {tm : Nat} (hcv : (s.team tm).cv = [])
include hcv

/-- A register that a team does not have is free. -/
theorem State.cvReg_of_noCv (n : Nat) : (s.team tm).cvReg n = {} := by rw [Team.cvReg, hcv, SMap.get]

theorem State.cvCatch_of_noCv (n : Nat) : s.cvCatch tm n = s := by
  have hlate : s.cvLate tm n = false := by simp [State.cvLate, State.cvReg_of_noCv hcv]
  rw [State.cvCatch, hlate, if_neg Bool.false_ne_true]

theorem State.cvCatches_of_noCv (ns : List Nat) : ns.foldl (fun s n => s.cvCatch tm n) s = s :=
  List.foldlRecOn (motive := fun t => t = s) _ _ rfl fun t ht n _ => by rw [ht, State.cvCatch_of_noCv hcv]

theorem State.cvExit_of_noCv {slot : Nat} (hg : (s.group slot).team = tm) (m : LaneMask) : s.cvExit slot m = s := by
  subst hg
  exact List.foldlRecOn (motive := fun t => t = s) _ _ rfl fun t ht n _ => by
    rw [ht, State.cvReg_of_noCv hcv]
    rfl

end

/-- Without a handler running, a lane that exits only leaves TRAPLANES. -/
theorem Group.leaveTrap_of_not_inh {g : Group} (h : g.inh = false) (m : LaneMask) :
    g.leaveTrap m = { g with traplanes := g.traplanes &&& ~~~ m } := by
  unfold Group.leaveTrap
  rw [h]
  rfl

section
variable {f : Enc} {s : State} {c : Ctx}

theorem Ctx.group_lanesExited (hg : c.g = s.group c.slot) (hinh : c.g.inh = false) : (c.lanesExited s).group c.slot =
    { c.g with exited := c.g.exited ||| c.act, traplanes := c.g.traplanes &&& ~~~ c.act } := by
  rw [Ctx.lanesExited, State.group_updGroup, ← hg]
  exact Group.leaveTrap_of_not_inh (g := { c.g with exited := c.g.exited ||| c.act }) hinh c.act

theorem Ctx.setsLeft_of_noCv {u : State} (hcv : (u.team c.g.team).cv = []) (ht : (u.group c.slot).team = c.g.team) : c.setsLeft u = u := by
  rw [Ctx.setsLeft, State.cvCatches_of_noCv hcv, State.cvExit_of_noCv hcv ht, ite_self]

/-- Lanes that exit where others remain, with neither convergence sets nor a handler, change no register and no byte of memory. -/
theorem execExit_keeps (h : Issues (.exit f) noOwn s c) (hcv : (s.team c.g.team).cv = []) (hinh : c.g.inh = false)
    (hleft : c.g.exited ||| c.act ≠ ~~~ 0) :
    ∃ t, exec (.exit f) s = .next t ∧ (t.group c.slot).exited = c.g.exited ||| c.act ∧ SameRegs c.g (t.group c.slot) ∧ t.mem = s.mem := by
  have hgroup := Ctx.group_lanesExited h.group hinh
  have hgone : ((c.lanesExited s).group c.slot).gone = false := by
    rw [hgroup, Group.gone]
    exact beq_eq_false_iff_ne.2 hleft
  have hsets : c.setsLeft (c.lanesExited s) = c.lanesExited s := Ctx.setsLeft_of_noCv hcv (by rw [hgroup])
  obtain ⟨t, ht, hregs, -, halone⟩ := execExit_acts h
  rw [hsets, hgone, Bool.false_and, if_neg Bool.false_ne_true] at hregs halone
  rw [hgroup] at hregs
  refine ⟨t, ht, ?_, hregs, halone.mem⟩
  have hown := congrArg Group.exited halone.own
  rw [hgroup] at hown
  exact hown

end

/-- Settles O19: nop and yield issue with no effect, and exit with that of the lanes that exit. -/
theorem nopYieldAndExit : Obligations.NopYieldAndExit :=
  ⟨fun _ _ _ => ⟨execNop_acts, execNop_ends, execYield_ends⟩, fun _ _ _ => ⟨execExit_acts, execExit_keeps⟩⟩

end Sys2Proof.Machine
end

section
/-! The convergence instructions (R234 to R239, R413): the register that cvset leaves, what a sign adds to a register's signatures, and each instruction where no
generation's time is over. -/

namespace Sys2Proof.Machine

open Sys2Proof

/-! ### Signs (R236, R237) -/

section
variable {x : Sign} {l : List Sign}

theorem insertSign_perm (l : List Sign) (x : Sign) : (insertSign l x).Perm (l ++ [x]) := by
  unfold insertSign
  generalize (fun y : Sign => y.cycle != x.cycle || decide (y.gidx ≤ x.gidx)) = f
  have hperm : (l.takeWhile f ++ x :: l.dropWhile f).Perm (x :: (l.takeWhile f ++ l.dropWhile f)) := List.perm_middle
  rw [List.takeWhile_append_dropWhile] at hperm
  exact hperm.trans (List.perm_append_singleton x l).symm

/-- The lanes of a group do not depend on the order of the signs. -/
theorem signLanes_perm {l' : List Sign} (h : l.Perm l') (gidx : Nat) : signLanes l gidx = signLanes l' gidx := by
  refine h.foldl_eq' (fun y _ z _ m => ?_) 0
  split <;> split <;> simp only [BitVec.or_assoc, BitVec.or_comm y.lanes z.lanes]

theorem signLanes_insertSign (gidx : Nat) :
    signLanes (insertSign l x) gidx = if x.gidx = gidx then signLanes l gidx ||| x.lanes else signLanes l gidx := by
  rw [signLanes_perm (insertSign_perm l x), signLanes, List.foldl_append]
  rfl

variable {r : CvReg}

/-- A sign of lanes that have not signed the generation joins its signatures. -/
theorem CvReg.sign_new (h : x.lanes &&& r.signedOf x.gidx = 0) (h0 : x.lanes ≠ 0) : r.sign x = { r with signs := insertSign r.signs x } := by
  have hall : x.lanes &&& ~~~ 0 = x.lanes := BitVec.and_allOnes
  unfold CvReg.sign
  rw [h]
  dsimp only
  rw [hall, if_neg h0, if_pos rfl]

theorem CvReg.signedOf_sign (h : x.lanes &&& r.signedOf x.gidx = 0) (h0 : x.lanes ≠ 0) :
    (r.sign x).signedOf x.gidx = r.signedOf x.gidx ||| x.lanes := by
  rw [CvReg.sign_new h h0, CvReg.signedOf, signLanes_insertSign, if_pos rfl]
  rfl

theorem CvReg.signedOf_sign_ne (h : x.lanes &&& r.signedOf x.gidx = 0) (h0 : x.lanes ≠ 0) {k : Nat} (hk : k ≠ x.gidx) :
    (r.sign x).signedOf k = r.signedOf k := by
  rw [CvReg.sign_new h h0, CvReg.signedOf, signLanes_insertSign, if_neg hk.symm]
  rfl

theorem CvReg.signedCount_sign (h : x.lanes &&& r.signedOf x.gidx = 0) (h0 : x.lanes ≠ 0) :
    (r.sign x).signedCount = r.signedCount + countLanes x.lanes := by
  rw [CvReg.sign_new h h0, CvReg.signedCount, ((insertSign_perm r.signs x).map _).sum_eq, List.map_append, List.sum_append]
  rfl

end

section
variable {s : State} {tm n : Nat} {r : CvReg}

theorem State.cvReg_setCv (s : State) (tm n : Nat) (r : CvReg) : ((s.setCv tm n r).team tm).cvReg n = r := by
  rw [State.setCv, State.team_updTeam]
  exact SMap.get_set_same _ _ _ _

/-- The completion test leaves a register that has fewer signatures than members, or more. -/
theorem State.cvTest_incomplete (h : ((s.team tm).cvReg n).signedCount ≠ ((s.team tm).cvReg n).members) (k : Nat) : State.cvTest tm n k s = s := by
  cases k with
  | zero => rfl
  | succ k =>
    rw [State.cvTest]
    exact if_neg (by simp [h])

/-- A SIGN THAT COMPLETES NOTHING: the register holds the sign. -/
theorem State.cvSign_new {slot : Nat} {m : LaneMask} {pc next : DWord} (hr : r = (s.team (s.group slot).team).cvReg n) (h0 : m ≠ 0)
    (hnew : m &&& r.signedOf (s.group slot).gidx = 0) (hcount : r.signedCount + countLanes m ≠ r.members) :
    s.cvSign slot n m none pc next [] = s.setCv (s.group slot).team n
      (r.sign { gidx := (s.group slot).gidx, lanes := m, ops := none, pc := pc, next := next, after := [], cycle := s.cycle }) := by
  subst hr
  unfold State.cvSign
  dsimp only
  rw [hnew, if_pos (by simp), State.cvTest_incomplete]
  rw [State.cvReg_setCv, CvReg.signedCount_sign hnew h0, CvReg.sign_new hnew h0]
  exact hcount

/-- What such a sign adds (R236, R237). -/
theorem State.cvSign_adds {slot : Nat} {m : LaneMask} {pc next : DWord} (hr : r = (s.team (s.group slot).team).cvReg n) (h0 : m ≠ 0)
    (hnew : m &&& r.signedOf (s.group slot).gidx = 0) (hcount : r.signedCount + countLanes m ≠ r.members) :
    let t := ((s.cvSign slot n m none pc next []).team (s.group slot).team).cvReg n
    t.signedOf (s.group slot).gidx = r.signedOf (s.group slot).gidx ||| m ∧
    (∀ k, k ≠ (s.group slot).gidx → t.signedOf k = r.signedOf k) ∧
    t.signedCount = r.signedCount + countLanes m ∧ t.gen = r.gen := by
  dsimp only
  rw [State.cvSign_new hr h0 hnew hcount, State.cvReg_setCv]
  exact ⟨CvReg.signedOf_sign hnew h0, fun k hk => CvReg.signedOf_sign_ne hnew h0 hk, CvReg.signedCount_sign hnew h0, rfl⟩

/-! ### The register that cvset leaves (R235) -/

theorem State.cvCatch_inTime (h : s.cvLate tm n = false) : s.cvCatch tm n = s := if_neg (Bool.eq_false_iff.1 h)

section
variable {first count : Nat}

theorem State.cvset_outside (h : count = 0 ∨ (s.team tm).ngroups < first + count) :
    s.cvset tm n first count = ((s.team tm).cvReg n, 3) := if_pos h

variable (h0 : count ≠ 0) (hle : first + count ≤ (s.team tm).ngroups)
include h0 hle

theorem State.cvset_busy
    (hb : (((s.team tm).cvReg n).st = .open ∧ ((s.team tm).cvReg n).signedCount ≠ 0) ∨ s.cvBusy tm n = true) :
    s.cvset tm n first count = ((s.team tm).cvReg n, 1) := by
  rw [State.cvset, if_neg (by omega), if_pos hb]

/-- The register that is set, FREE and EMPTY with no live lane in its groups. -/
theorem State.cvset_sets
    (hb : ¬ ((((s.team tm).cvReg n).st = .open ∧ ((s.team tm).cvReg n).signedCount ≠ 0) ∨ s.cvBusy tm n = true)) :
    s.cvset tm n first count =
      let r : CvReg := { (s.team tm).cvReg n with
        members := s.liveLanes tm first count, first := first, groups := count, signs := [], leaving := [], held := [], setAt := some s.cycle }
      if s.liveLanes tm first count = 0 then ({ r with st := .free }, 2) else ({ r with st := .open }, 0) := by
  rw [State.cvset, if_neg (by omega), if_neg hb]

end
end

/-! ### The instructions -/

section
variable {f : Enc} {s : State} {c : Ctx}

theorem execCvset_idle (h : Issues (.cvset f) noOwn s c) (hact : c.act = 0) : ComputesUniform c 0 s (exec (.cvset f) s) := by
  rw [exec_cvset, execCvset, issue_next h, if_pos hact]
  exact h.computesResult

/-- cvset's effect: the register, and the status as the result. -/
theorem execCvset_sets {x : CvReg} {k : Nat} (h : Issues (.cvset f) noOwn s c) (hact : c.act ≠ 0)
    (hin : s.cvLate c.g.team (c.e.func.toNat % 16) = false)
    (hx : s.cvset c.g.team (c.e.func.toNat % 16) c.ua.toNat c.ub.toNat = (x, k)) :
    ComputesUniform c (BitVec.ofNat 64 k) (s.setCv c.g.team (c.e.func.toNat % 16) x) (exec (.cvset f) s) := by
  rw [exec_cvset, execCvset, issue_next h, if_neg hact]
  dsimp only
  rw [State.cvCatch_inTime hin, hx]
  exact h.computesResult

theorem execSign_idle (h : Issues (.sign f) signOk s c) (hact : c.act = 0) : Acts c s (exec (.sign f) s) := by
  rw [exec_sign, execSign, issue_next h]
  dsimp only
  rw [if_pos hact]
  exact acts_done _ _

theorem execCvwait_idle (h : Issues (.cvwait f) noOwn s c) (hact : c.act = 0) : ComputesUniform c 0 s (exec (.cvwait f) s) := by
  rw [exec_cvwait, execCvwait, issue_next h]
  dsimp only
  rw [if_pos hact]
  exact h.computesResult

/-- The state in which cvwait has parked its group, with the place that a record would name (R238, R413). -/
def Ctx.cvParked (c : Ctx) (s : State) : State :=
  let n := c.e.func.toNat % 16
  (s.block c.slot (.cvwait n (waitGen ((s.team c.g.team).cvReg n) c.g) c.dest)).updGroup c.slot
    fun g => { g with cvAt := SMap.set g.cvAt n (c.pc, c.next) }

/-! Active lanes come to a register whose time is not over and that was not set in this cycle. -/

section
variable {n : Nat} {r : CvReg} (hn : n = c.e.func.toNat % 16) (hreg : r = (s.team c.g.team).cvReg n) (hact : c.act ≠ 0)
  (hin : s.cvLate c.g.team n = false) (hset : r.justSet s.cycle = false)
include hn hreg hact hin hset

theorem execSign_signs (h : Issues (.sign f) signOk s c) (hst : r.st ≠ .faulted) :
    Acts c (s.cvSign c.slot n c.act none c.pc c.next []) (exec (.sign f) s) := by
  subst hreg hn
  rw [exec_sign, execSign, issue_next h]
  dsimp only
  rw [if_neg hact, hset, if_neg Bool.false_ne_true, State.cvCatch_inTime hin, if_neg hst]
  exact acts_done _ _

theorem execSign_faults (h : Issues (.sign f) signOk s c) (hst : r.st = .faulted) : Acts c (faultedSync c n r.kind s) (exec (.sign f) s) := by
  subst hreg hn
  rw [exec_sign, execSign, issue_next h]
  dsimp only
  rw [if_neg hact, hset, if_neg Bool.false_ne_true, State.cvCatch_inTime hin, if_pos hst]
  exact acts_done _ _

variable (h : Issues (.cvwait f) noOwn s c)
include h

theorem execCvwait_answers (hst : r.st = .free ∨ r.wokenAt c.g s.cycle = true) :
    ComputesUniform c (r.gen.setWidth 64) s (exec (.cvwait f) s) := by
  subst hreg hn
  rw [exec_cvwait, execCvwait, issue_next h]
  dsimp only
  rw [if_neg hact, hset, if_neg Bool.false_ne_true, State.cvCatch_inTime hin, if_pos hst]
  exact h.computesResult

variable (hwoken : r.wokenAt c.g s.cycle = false)
include hwoken

theorem execCvwait_faults (hst : r.st = .faulted) : Acts c (faultedSync c n r.kind s) (exec (.cvwait f) s) := by
  subst hreg hn
  rw [exec_cvwait, execCvwait, issue_next h]
  dsimp only
  rw [if_neg hact, hset, if_neg Bool.false_ne_true, State.cvCatch_inTime hin, if_neg (by simp [hst, hwoken]), if_pos hst]
  exact acts_done _ _

theorem execCvwait_parks (hst : r.st = .open) : Acts c (c.cvParked s) (exec (.cvwait f) s) := by
  subst hreg hn
  rw [exec_cvwait, execCvwait, issue_next h]
  dsimp only
  rw [if_neg hact, hset, if_neg Bool.false_ne_true, State.cvCatch_inTime hin, if_neg (by simp [hst, hwoken]), if_neg (by simp [hst])]
  exact acts_retire _ _ _

end

/-- Parked in cvwait, a group has its registers and waits for its generation; memory is as it was. -/
theorem Acts.cvParked {o : Out} (hg : c.g = s.group c.slot) (h : Acts c (c.cvParked s) o) : let n := c.e.func.toNat % 16
    ∃ t, o = .next t ∧ Block.cvwait n (waitGen ((s.team c.g.team).cvReg n) c.g) c.dest ∈ (t.group c.slot).blocks ∧
      SameRegs c.g (t.group c.slot) ∧ t.mem = s.mem := by
  have hgroup : (c.cvParked s).group c.slot = { c.g with
      blocks := .cvwait (c.e.func.toNat % 16) (waitGen ((s.team c.g.team).cvReg (c.e.func.toNat % 16)) c.g) c.dest :: c.g.blocks
      cvAt := SMap.set c.g.cvAt (c.e.func.toNat % 16) (c.pc, c.next) } := by
    rw [Ctx.cvParked, State.group_updGroup, State.block, State.group_updGroup, ← hg]
  obtain ⟨t, ht, hregs, -, halone⟩ := h
  have hblocks := congrArg Group.blocks halone.own
  rw [hgroup] at hregs hblocks
  refine ⟨t, ht, ?_, hregs, halone.mem⟩
  change (t.group c.slot).blocks = _ at hblocks
  rw [hblocks]
  exact List.mem_cons_self

end

/-- Settles O22: cvset by the register that it leaves, sign and cvwait by the state of theirs, and what a sign adds by `CvReg.sign_new`. -/
theorem convergenceInstructionsAct : Obligations.ConvergenceInstructionsAct := by
  refine ⟨fun f s c => ?instructions, fun s slot n m pc next _ _ h0 hnew hcount => State.cvSign_adds rfl h0 hnew hcount⟩
  dsimp only
  refine ⟨execCvset_idle, ?outside, ?busy, ?empty, ?set, execSign_idle, ?sign, ?signFaulted, execCvwait_idle, ?answer, ?waitFaulted, ?park⟩
  case outside => exact fun h hact hin hout => execCvset_sets h hact hin (State.cvset_outside hout)
  case busy => exact fun h hact hin h0 hle hb => execCvset_sets h hact hin (State.cvset_busy h0 hle hb)
  case empty => exact fun h hact hin h0 hle hb hm => execCvset_sets h hact hin ((State.cvset_sets h0 hle hb).trans (if_pos hm))
  case set => exact fun h hact hin h0 hle hb hm => execCvset_sets h hact hin ((State.cvset_sets h0 hle hb).trans (if_neg hm))
  case sign => exact fun h hact ⟨hin, hset⟩ hst => execSign_signs rfl rfl hact hin hset h hst
  case signFaulted => exact fun h hact ⟨hin, hset⟩ hst => execSign_faults rfl rfl hact hin hset h hst
  case answer => exact fun h hact ⟨hin, hset⟩ hst => execCvwait_answers rfl rfl hact hin hset h hst
  case waitFaulted => exact fun h hact ⟨hin, hset⟩ hst hwoken => execCvwait_faults rfl rfl hact hin hset h hwoken hst
  case park => exact fun h hact ⟨hin, hset⟩ hst hwoken => (execCvwait_parks rfl rfl hact hin hset h hwoken hst).cvParked h.group

end Sys2Proof.Machine
end

section
/-! Special registers (R249, R250): what srd gives, what swr leaves of its group, and the class of an access that traps. -/

namespace Sys2Proof.Machine

open Sys2Proof

/-! ### What an swr leaves of its group (R249) -/

section
variable (g : Group) (m : LaneMask) (x : Lane → DWord)

/-- An swr of PREDW writes the predicate words, marked as an swr's. -/
theorem Group.swr_predw_eq : ∃ hs, g.swr 0x13 m x = { g.putWord regP m (fun l => (x l).setWidth 32 &&& 0x7F) g.seq false with haz := hs } :=
  ⟨_, rfl⟩

/-- It changes the predicates alone. -/
theorem Group.swr_predw : let h := g.swr 0x13 m x
    h.apart = g.apart ∧ h.fstat = g.fstat ∧ (∀ r l, realReg r → r ≠ regP → h.raw r l = g.raw r l) ∧
    (∀ l : Lane, h.pw[l] = if laneIn m l then ((x l).setWidth 8 &&& 0x7F : Byte) else g.pw[l]) := by
  obtain ⟨hs, e⟩ := Group.swr_predw_eq g m x
  have hbyte (l : Lane) : ((x l).setWidth 32 &&& 0x7F : Word).setWidth 8 = ((x l).setWidth 8 &&& 0x7F : Byte) := by
    rw [BitVec.setWidth_and, BitVec.setWidth_setWidth_of_le _ (by decide)]
    rfl
  have ha := Group.apart_putWord g regP m (fun l => (x l).setWidth 32 &&& 0x7F) g.seq false (~~~ 0)
  have hfstat := Group.fstat_putWord g regP m (fun l => (x l).setWidth 32 &&& 0x7F) g.seq false (~~~ 0) (by decide)
  have hraw (r : Nat) (l : Lane) (hr : realReg r) (hp : r ≠ regP) :=
    Group.raw_putWord_ne g regP r m (fun l => (x l).setWidth 32 &&& 0x7F) g.seq false (~~~ 0) l (by unfold realReg regP; omega) hr hp
  have hpw (l : Lane) := Group.pw_putWord g m (fun l => (x l).setWidth 32 &&& 0x7F) g.seq false (~~~ 0) l
  simp only [hbyte] at hpw
  dsimp only
  rw [e]
  generalize g.putWord regP m (fun l => (x l).setWidth 32 &&& 0x7F) g.seq false = h at *
  exact ⟨ha, hfstat, hraw, hpw⟩

/-- Every special register that an swr can name, after an swr. -/
theorem Group.swr_writes (n : Nat) : let h := g.swr n m x
    let u := x (lowLane m)
    h.fstat = (if n = 0x18 then u.setWidth 6 else g.fstat) ∧ h.fmode = (if n = 0x19 then u.setWidth 2 else g.fmode) ∧
    h.savearea = (if n = 0x32 then u else g.savearea) ∧ h.grpstate = (if n = 0x33 then u.setWidth 32 else g.grpstate) ∧
    h.trapvec = (if n = 0x6C then u else g.trapvec) ∧ h.uivec = (if n = 0x6D then u else g.uivec) ∧
    (∀ l : Lane, h.trapret[l] = if n = 0x6E ∧ laneIn m l = true then x l else g.trapret[l]) ∧
    h.uimask = (if n = 0x72 then u.setWidth 32 else g.uimask) ∧ h.uipend = (if n = 0x73 then g.uipend &&& ~~~ (u.setWidth 32) else g.uipend) := by
  by_cases hn : n = 0x13
  · subst hn
    obtain ⟨ha, hfstat, -⟩ := Group.swr_predw g m x
    generalize g.swr 0x13 m x = h at *
    have kept {α : Type} (f : Group → α) (hf : ∀ k, f k.apart = f k) : f h = f g := by rw [← hf h, ha, hf]
    exact ⟨hfstat, kept Group.fmode fun _ => rfl, kept Group.savearea fun _ => rfl, kept Group.grpstate fun _ => rfl,
      kept Group.trapvec fun _ => rfl, kept Group.uivec fun _ => rfl, fun l => (kept (·.trapret[l]) fun _ => rfl).trans (if_neg (by simp)).symm,
      kept Group.uimask fun _ => rfl, kept Group.uipend fun _ => rfl⟩
  · unfold Group.swr
    split
    all_goals simp_all

/-- The general registers are as they were. -/
theorem Group.raw_swr (n r : Nat) (l : Lane) (hr : realReg r) (hp : r ≠ regP) (hf : r ≠ regF) : (g.swr n m x).raw r l = g.raw r l := by
  by_cases hn : n = 0x13
  · subst hn
    exact (Group.swr_predw g m x).2.2.1 r l hr hp
  · unfold Group.swr
    split
    case h_1 => exact absurd rfl hn
    case h_2 => simp only [Group.raw, if_neg (show ¬ r = 265 from hf)]
    all_goals simp only [Group.raw]

end

/-! ### The instructions -/

section
variable {f : Enc} {s : State} {c : Ctx}

theorem execSrd_computes (h : Issues (.srd f) (fun c _ => srFate c false) s c) :
    Computes c (fun l => BitVec.ofNat 128 (c.srd s l)) noFlags s (exec (.srd f) s) := by
  rw [exec_srd, execSrd, issue_next h]
  exact h.computesResult

theorem execSwr_idle (h : Issues (.swr f) (fun c _ => srFate c true) s c) (hact : c.act = 0) : Acts c s (exec (.swr f) s) := by
  rw [exec_swr, execSwr, issue_next h, if_pos hact]
  exact acts_done _ _

theorem execSwr_writes (h : Issues (.swr f) (fun c _ => srFate c true) s c) (hact : c.act ≠ 0) :
    Acts c (s.updGroup c.slot fun g => g.swr c.e.func.toNat c.act (c.a .int)) (exec (.swr f) s) := by
  rw [exec_swr, execSwr, issue_next h, if_neg hact]
  exact acts_done _ _

/-- An srd whose access has a fate traps (R249). -/
theorem execSrd_traps {k : BitVec 8} (h : Issues (.srd f) noOwn s c) (hk : srFate c false = some k) : exec (.srd f) s = .next
    (s.raise c.slot .retry { cls := k, lanes := if k = 0x06 then c.act else (s.group c.slot).batch, pc := c.pc }) := by
  rw [exec_srd, execSrd]
  exact issue_own h hk _

theorem execSwr_traps {k : BitVec 8} (h : Issues (.swr f) noOwn s c) (hk : srFate c true = some k) : exec (.swr f) s = .next
    (s.raise c.slot .retry { cls := k, lanes := if k = 0x06 then c.act else (s.group c.slot).batch, pc := c.pc }) := by
  rw [exec_swr, execSwr]
  exact issue_own h hk _

end

/-- Settles O39: srd by the register that FUNC names, swr by what it leaves of its group. -/
theorem specialRegistersReadAndWrite : Obligations.SpecialRegistersReadAndWrite := by
  intro f s c
  dsimp only
  rw [State.group_updGroup]
  obtain ⟨hfstat, hfmode, hsave, hstate, htrapvec, huivec, htrapret, huimask, huipend⟩ :=
    Group.swr_writes (s.group c.slot) c.act (c.a .int) c.e.func.toNat
  refine ⟨execSrd_computes, ?cluster, ?asid, ?active, ?exited, ?fmode, ?tstamp, ?memcap, ?trapvec, ?trapret,
    fun h => ⟨execSwr_idle h, execSwr_writes h⟩, ?predw, hfstat, hfmode, hsave, hstate, htrapvec, huivec, htrapret, huimask, huipend,
    Group.raw_swr _ _ _ _⟩
  case predw =>
    intro hn
    rw [hn]
    exact (Group.swr_predw _ _ _).2.2.2
  all_goals
    intro hn l
    unfold Ctx.srd
    rw [hn]
    rfl

/-! ### Fates (R249, 10 Table 13) -/

section
variable {c : Ctx}

/-- An access whose TYPE is neither 0 nor that of the register's width. -/
theorem srFate_badType {write : Bool} (h0 : c.e.ty ≠ 0) (hw : c.e.ty ≠ if specialWidth c.e.func = 64 then 8 else 7) :
    srFate c write = some clsEncoding := if_pos ⟨h0, hw⟩

variable (hty : c.e.ty = 0)
include hty

/-- An srd of a register with a value per lane into a scalar register. -/
theorem srFate_perLane {r : BitVec 10} (hl : specialPerLane c.e.func = true) (hd : c.e.d = .s r) : srFate c false = some clsEncoding := by
  simp [srFate, hty, hl, hd]

/-- An swr of a register that is only read, by a uniform operand. -/
theorem srFate_readOnly (hro : srAccess c.e.func.toNat c.priv = .ro) (ha : c.e.a.perLane = false) : srFate c true = some clsEncoding := by
  simp [srFate, hty, hro, ha]

/-- An srd of a uniform register that the view does not have, and of one that it has. -/
theorem srFate_read (hl : specialPerLane c.e.func = false) :
    srFate c false = if srAccess c.e.func.toNat c.priv = .none_ then some clsPrivilege else none := by
  simp [srFate, hty, hl]

end

/-- Settles O40: a fate is the instruction's own condition of order 12, and the fates by the access of their register. -/
theorem specialRegisterFates : Obligations.SpecialRegisterFates := by
  intro f s c k
  dsimp only
  refine ⟨execSrd_traps, execSwr_traps, ?readOnly, ?denied, ?allowed, ?perLane, ?badType⟩
  case readOnly => exact fun hf hty ha => srFate_readOnly hty (by rw [hf]; rfl) ha
  case denied =>
    intro hf hty hp
    rw [srFate_read hty (by rw [hf]; rfl), hf, hp]
    rfl
  case allowed =>
    intro hf hty hp
    rw [srFate_read hty (by rw [hf]; rfl), hf, hp]
    rfl
  case perLane => exact fun r hf hty hd => srFate_perLane hty (by rw [hf]; rfl) hd
  case badType => exact fun hf hty => srFate_badType (by rw [hty]; decide) (by rw [hty, hf]; decide)

end Sys2Proof.Machine
end

section
/-! Floating point and conversions (R253 to R264): an instruction whose effect is a float in each lane writes its bits and raises its flags, so that each is settled
by the function of the sources that it is given. -/

namespace Sys2Proof.Machine

open Sys2Proof

/-! ### Results -/

section
variable {i : Instr} {own : Ctx → State → Option (BitVec 8)} {s : State} {c : Ctx}

theorem Issues.computesFloat (h : Issues i own s c) {fixed : Bool} {x : Lane → FRes} (hd : i.spec.map (fun p => p.d.used) = some true := by rfl) :
    ComputesFloat c x s (.next (floatResult c fixed x s)) :=
  h.computesResult hd

/-- The exact result of the sources, rounded once (R253, R258). -/
theorem Issues.computesFarith (h : Issues i noOwn s c) (d : FFmt) (fixed : Bool) (f : RMode → FVal → FVal → FVal → Exact)
    (hd : i.spec.map (fun p => p.d.used) = some true := by rfl) :
    let t := c.fmt d
    let o := c.e.fopts c.g.fmode false
    ComputesFloat c (fun l => t.result o (f o.mode (t.value (c.fa t l)) (t.value (c.fb t l)) (t.value (c.fc t l)))) s (farith i d fixed f s) := by
  rw [farith, issue_next h]
  exact h.computesFloat hd

/-- The same on each element of a packed pair (R254). -/
theorem Issues.computesHarith (h : Issues i noOwn s c) (f : RMode → FVal → FVal → FVal → Exact)
    (hd : i.spec.map (fun p => p.d.used) = some true := by rfl) :
    let t := c.pairFmt
    let o := c.e.fopts c.g.fmode false
    let a (l : Lane) (k : Nat) := t.value (t.mod c.e.negA c.e.absA (element (c.a (.pair t) l).toNat k))
    let b (l : Lane) (k : Nat) := t.value (t.mod c.e.negB c.e.absB (element (c.b (.pair t) l).toNat k))
    let d (l : Lane) (k : Nat) := t.value (t.mod c.e.negC c.e.absC (element (c.c (.pair t) l).toNat k))
    let el (l : Lane) (k : Nat) : FRes := t.result o (f o.mode (a l k) (b l k) (d l k))
    ComputesFloat c (fun l => pairRes (el l 0) (el l 1)) s (harith i f s) := by
  rw [harith, issue_next h]
  exact h.computesFloat hd

/-- A result with CLAMP after it, which raises SAT where it changes it (R189). -/
def clampedRes (t : FFmt) (clamp : BitVec 2) (r : FRes) : FRes := ⟨(t.clamp clamp r.bits).bits, r.flags ||| (t.clamp clamp r.bits).flags⟩

theorem Issues.computesMinMax (h : Issues i noOwn s c) (isMax : Bool) (hd : i.spec.map (fun p => p.d.used) = some true := by rfl) :
    let t := c.fmt .f32
    ComputesFloat c (fun l => clampedRes t c.e.clamp (t.minMax isMax (c.fa t l) (c.fb t l))) s (minMaxOp i isMax s) := by
  rw [minMaxOp, issue_next h]
  exact h.computesFloat hd

theorem Issues.computesSpecial (h : Issues i noOwn s c) (k : SpecialFn) (hd : i.spec.map (fun p => p.d.used) = some true := by rfl) :
    ComputesFloat c (fun l => clampedRes .f32 c.e.clamp (k.eval (c.fa .f32 l))) s (specialOp i k s) := by
  rw [specialOp, issue_next h]
  exact h.computesFloat hd

end

/-- Settles O16: every one is a form of `farith`, or of `harith` for packed pairs, which round a function of the sources' values once. -/
theorem floatArithmeticComputes : Obligations.FloatArithmeticComputes := by
  intro f s c
  dsimp only
  refine ⟨?fadd, ?fmul, ?ffma, ?dadd, ?dmul, ?dfma, ?frcp, ?fsqrt, ?hadd2, ?hmul2, ?hfma2⟩
  case fadd => exact fun h => h.computesFarith .f32 true fun r a b _ => a.add r b
  case fmul => exact fun h => h.computesFarith .f32 true fun _ a b _ => a.mul b
  case ffma => exact fun h => h.computesFarith .f32 true FVal.fma
  case dadd => exact fun h => h.computesFarith .f64 false fun r a b _ => a.add r b
  case dmul => exact fun h => h.computesFarith .f64 false fun _ a b _ => a.mul b
  case dfma => exact fun h => h.computesFarith .f64 false FVal.fma
  case frcp => exact fun h => h.computesFarith .f32 false fun _ a _ _ => a.recip
  case fsqrt => exact fun h => h.computesFarith .f32 false fun _ a _ _ => a.sqrt
  case hadd2 => exact fun h => h.computesHarith fun r a b _ => a.add r b
  case hmul2 => exact fun h => h.computesHarith fun _ a b _ => a.mul b
  case hfma2 => exact fun h => h.computesHarith FVal.fma

/-! ### Selection and special functions (R255, R257 to R259) -/

section
variable {f : Enc} {s : State} {c : Ctx}

theorem execFclass_computes (h : Issues (.fclass f) noOwn s c) :
    Computes c (fun l => BitVec.ofNat 128 ((c.fmt .f32).classMask (c.fa (c.fmt .f32) l))) noFlags s (exec (.fclass f) s) := by
  rw [exec_fclass, execFclass, issue_next h]
  exact h.computesResult

end

/-- Settles O17: the two selections and the five functions each end in a clamped result; the class mask is neither rounded nor clamped. -/
theorem floatSelectionAndSpecialFunctions : Obligations.FloatSelectionAndSpecialFunctions := by
  intro f s c
  dsimp only
  refine ⟨?fmin, ?fmax, execFclass_computes, ?frsq, ?fexp2, ?flog2, ?fsin, ?fcos⟩
  case fmin => exact fun h => h.computesMinMax false
  case fmax => exact fun h => h.computesMinMax true
  case frsq => exact fun h => h.computesSpecial .rsq
  case fexp2 => exact fun h => h.computesSpecial .exp2
  case flog2 => exact fun h => h.computesSpecial .log2
  case fsin => exact fun h => h.computesSpecial .sin
  case fcos => exact fun h => h.computesSpecial .cos

/-! ### Conversions and packing (R260 to R264) -/

/-- An .f32 value converted to a format, as the source of a packing instruction is (R263, R264). -/
def convF32 (t : FFmt) (o : FOpts) (x : Nat) : FRes := t.result o ⟨FFmt.f32.value x, (FFmt.f32.value x).sig⟩

section
variable {f : Enc} {s : State} {c : Ctx}

/-- An fcvt of a combination that R260 and R262 allow. -/
theorem execFcvt_computes (h : Issues (.fcvt f) noOwn s c) (hok : fcvtBad c.e = false) :
    ComputesFloat c (fun l => fcvtVal c.e c.g.fmode (c.cvtSrc l)) s (exec (.fcvt f) s) := by
  have hown : encIf (fcvtBad c.e) = none := by rw [hok]; rfl
  rw [exec_fcvt, execFcvt, issue_next (h.andOwn hown)]
  exact h.computesFloat

/-- An icvt from an integer type, with a SEL that picks a field of the register. -/
theorem execIcvt_computes (h : Issues (.icvt f) noOwn s c) (hlo : 1 ≤ c.e.func.toNat % 16) (hhi : c.e.func.toNat % 16 ≤ 8)
    (hsel : selOk (codeWidth (c.e.func &&& 15)) (c.e.func.toNat / 16 % 4) = true) :
    let src := IntTy.ofCode (c.e.func.toNat % 16)
    ComputesInt c c.ity (fun l => src.value (selField src.bits (c.e.func.toNat / 16 % 4) (c.cvtSrc l))) s (exec (.icvt f) s) := by
  have htype : ¬ (c.e.func.toNat % 16 = 0 ∨ 8 < c.e.func.toNat % 16) := by omega
  have hown : encIf (decide (c.e.func.toNat % 16 = 0 ∨ 8 < c.e.func.toNat % 16) ||
      !selOk (codeWidth (c.e.func &&& 15)) (c.e.func.toNat / 16 % 4)) = none := by
    rw [decide_eq_false htype, hsel]
    rfl
  rw [exec_icvt, execIcvt, issue_next (h.andOwn hown)]
  exact h.computesInt

/-- An f8pk puts its two elements, the first lower, into one half of C. -/
theorem execF8pk_computes (h : Issues (.f8pk f) noOwn s c) :
    let el := convF32 .f8 (c.e.fopts c.g.fmode (c.e.func.getLsbD 1))
    let two (l : Lane) : Nat := (el (c.fa .f32 l)).bits + 2 ^ 8 * (el (c.fb .f32 l)).bits
    ComputesFloat c (fun l =>
      ⟨if c.e.func.getLsbD 0 then (c.c .int l).toNat % 2 ^ 16 + 2 ^ 16 * two l else (c.c .int l).toNat / 2 ^ 16 * 2 ^ 16 + two l,
       (el (c.fa .f32 l)).flags ||| (el (c.fb .f32 l)).flags⟩) s (exec (.f8pk f) s) := by
  have hhigh (k x y : Nat) : k % 2 ^ 16 + 2 ^ 16 * (x + 2 ^ 8 * y) = k % 2 ^ 16 + x * 2 ^ 16 + y * 2 ^ 24 := by ring
  have hlow (k x y : Nat) : k / 2 ^ 16 * 2 ^ 16 + (x + 2 ^ 8 * y) = k / 2 ^ 16 * 2 ^ 16 + x + y * 2 ^ 8 := by ring
  dsimp only
  simp only [hhigh, hlow]
  rw [exec_f8pk, execF8pk, issue_next h]
  exact h.computesFloat

/-- A pack of .b16 takes the low halves of its sources as they are; any other converts two .f32 values (R264). -/
theorem execPack_eq (h : Issues (.pack f) noOwn s c) : exec (.pack f) s = .next (floatResult c true (fun l =>
    if c.e.ty = 6 then ⟨(c.a .int l).toNat % 2 ^ 16 + 2 ^ 16 * ((c.b .int l).toNat % 2 ^ 16), 0⟩
    else
      let el := convF32 c.pairFmt (c.e.fopts c.g.fmode false)
      pairRes (el (c.fa .f32 l)) (el (c.fb .f32 l))) s) := by
  rw [exec_pack, execPack, issue_next h]
  simp only [Nat.mul_comm (2 ^ 16)]
  rfl

theorem execPack_computesHalves (h : Issues (.pack f) noOwn s c) (hty : c.e.ty = 6) :
    Computes c (fun l => BitVec.ofNat 128 ((c.a .int l).toNat % 2 ^ 16 + 2 ^ 16 * ((c.b .int l).toNat % 2 ^ 16))) noFlags s (exec (.pack f) s) := by
  rw [execPack_eq h]
  simp only [if_pos hty]
  exact h.computesFloat

theorem execPack_computesPair (h : Issues (.pack f) noOwn s c) (hty : c.e.ty ≠ 6) :
    let el := convF32 c.pairFmt (c.e.fopts c.g.fmode false)
    ComputesFloat c (fun l => pairRes (el (c.fa .f32 l)) (el (c.fb .f32 l))) s (exec (.pack f) s) := by
  rw [execPack_eq h]
  simp only [if_neg hty]
  exact h.computesFloat

end

/-- Settles O18: each ends in a result where its own condition holds. -/
theorem conversionsCompute : Obligations.ConversionsCompute :=
  fun _ _ _ => ⟨execFcvt_computes, execIcvt_computes, execF8pk_computes, execPack_computesHalves, execPack_computesPair⟩

end Sys2Proof.Machine
end

section
/-! Loads (R265, R266, R272 to R274): where the lanes pass, the access that leaves, with the requests of the lanes, and l0 waiting for its result. -/

namespace Sys2Proof.Machine

open Sys2Proof

/-- Lanes of any mask that pass let a memory instruction go on with its translations used. -/
theorem checked_good {c : Ctx} {kind n : Nat} {m : LaneMask} {chk : Lane → LaneChk} {go : State → Out} {s : State}
    (hgood : ∀ l, laneIn m l = true → (chk l).good = true) (hroom : s.requests c.core + n ≤ 4096) :
    c.checked kind m chk n go s = go ((s.dropX c.cluster c.req).useTlbs c.core (laneEntries m chk)) := by
  unfold Ctx.checked
  rw [good_pages hgood, good_fault hgood]
  exact if_neg (Nat.not_lt.2 hroom)

/-- The requests of an access, in global memory or in a scratchpad, are those that it is given. -/
theorem Ctx.shape_access (c : Ctx) (s : State) (sp : Space) (k : AccKind) (ps : List Piece) (ea : Lane → DWord) :
    (c.access s sp k ps ea).pieces.map Piece.shape = ps.map Piece.shape := by
  unfold Ctx.access
  dsimp only
  split
  · exact routed_map s c.cluster ps
  · rfl

theorem Ctx.ea_access (c : Ctx) (s : State) (sp : Space) (k : AccKind) (ps : List Piece) (ea : Lane → DWord) (l : Lane) :
    (c.access s sp k ps ea).ea[l] = ea l :=
  Vector.getElem_ofFn (h := l.isLt)

/-! ### ld, lds and ldc (R272 to R274) -/

/-- The access of a load that leaves in a state; `window` marks one from the parameter window. -/
def Ctx.loadAccess (c : Ctx) (sp : Space) (chk : Lane → LaneChk) (ea : Lane → DWord) (window : Bool) (s : State) : Access :=
  { c.access s sp .load (piecesOf c.eff c.bytes fun l => (chk l).pa) ea with
    cached := ((lanesIn c.eff).all fun l => (chk l).inHbm) && !c.e.ord.getLsbD 0, bits := 8 * c.bytes, signed := c.signedTy
    dest := some c.dest, const := window }

theorem Ctx.loadAccess_ea (c : Ctx) (sp : Space) (chk : Lane → LaneChk) (ea : Lane → DWord) (window : Bool) (s : State) (l : Lane) :
    (c.loadAccess sp chk ea window s).ea[l] = ea l :=
  c.ea_access s sp .load (piecesOf c.eff c.bytes fun l => (chk l).pa) ea l

theorem Ctx.loadAccess_shape (c : Ctx) (sp : Space) (chk : Lane → LaneChk) (ea : Lane → DWord) (window : Bool) (s : State) :
    (c.loadAccess sp chk ea window s).pieces.map Piece.shape = (piecesOf c.eff c.bytes fun l => (chk l).pa).map Piece.shape :=
  c.shape_access s sp .load (piecesOf c.eff c.bytes fun l => (chk l).pa) ea

/-- WHAT A LOAD DOES: with no active lane nothing is sent; lanes that pass leave one access with their requests, for which l0 waits. -/
def Loads (c : Ctx) (s : State) (sp : Space) (chk : Lane → LaneChk) (ea : Lane → DWord) (o : Out) : Prop :=
  (c.act = 0 → Acts c s o) ∧
  (c.act ≠ 0 → Passes c chk (piecesOf c.eff c.bytes fun l => (chk l).pa).length s →
    ∃ a : Access, a.kind = .load ∧ a.space = sp ∧ a.slot = c.slot ∧ a.uid = c.g.uid ∧ a.pc = c.pc ∧ a.lanes = c.act ∧ a.ord = c.e.ord ∧
      a.bits = 8 * c.bytes ∧ a.signed = c.signedTy ∧ a.dest = some c.dest ∧ (∀ l : Lane, a.ea[l] = ea l) ∧
      a.pieces.map Piece.shape = (piecesOf c.eff c.bytes fun l => (chk l).pa).map Piece.shape ∧
      ActsPending c ((c.passed chk s).sendAccess a).1 ((c.passed chk s).sendAccess a).2 o)

theorem loadOp_loads (c : Ctx) (s : State) (sp : Space) (chk : Lane → LaneChk) (ea : Lane → DWord) (window : Bool) :
    Loads c s sp chk ea (loadOp c sp chk ea s window) := by
  refine ⟨fun hact => ?idle, fun hact hpass => ⟨c.loadAccess sp chk ea window (c.passed chk s), rfl, rfl, rfl, rfl, rfl, rfl, rfl, rfl, rfl, rfl,
    c.loadAccess_ea sp chk ea window _, c.loadAccess_shape .., ?sends⟩⟩
  case idle =>
    rw [loadOp, if_pos hact]
    exact acts_retire _ _ _
  case sends =>
    rw [loadOp, if_neg hact, checked_passes hpass]
    exact acts_pending _ _ _

section
variable {f : Enc} {s : State} {c : Ctx}

theorem execLd_loads (h : Issues (.ld f) noOwn s c) : Loads c s .global (c.globalChk s .load) (c.gaddr c.xs) (exec (.ld f) s) := by
  rw [exec_ld, execLd, issue_next h]
  exact loadOp_loads ..

theorem execLds_loads (h : Issues (.lds f) noOwn s c) : Loads c s .spad (c.spadChk s) c.sea (exec (.lds f) s) := by
  rw [exec_lds, execLds, issue_next h]
  exact loadOp_loads ..

theorem execLdc_loads (h : Issues (.ldc f) noOwn s c) :
    Loads c s .global (c.windowChk s) (fun l => (s.window c.slot).1 + BitVec.ofInt 64 (c.saddr c.xs l)) (exec (.ldc f) s) := by
  rw [exec_ldc, execLdc, issue_next h]
  exact loadOp_loads ..

end

/-! ### qunpk (R265, R266) -/

theorem LaneChk.good_iff {x : LaneChk} : x.good = true ↔ ∃ pa e, x = .ok pa e := by
  cases x <;> simp [LaneChk.good]

/-- Of two checks that find nothing the first stands for both. -/
theorem joinChk_ok (p q : Nat) (d e : Option TlbEntry) : joinChk [.ok p d, .ok q e] = .ok p d := rfl

/-- The checks of block and side record in the lanes: those of even number hold the block's. -/
def qunpkLanes (ca cb : LaneChk) (l : Lane) : LaneChk := if l.val % 2 = 0 then ca else cb

/-- The state in which the access of a qunpk leaves: the translations of both addresses are used. -/
def Ctx.qunpkPassed (c : Ctx) (s : State) : State :=
  (s.dropX c.cluster c.req).useTlbs c.core (laneEntries (~~~ 0) (qunpkLanes (c.qunpkChk s).1 (c.qunpkChk s).2))

/-- The access of a qunpk that leaves in a state for the addresses of two checks. -/
def Ctx.qunpkAccess (c : Ctx) (ca cb : LaneChk) (s : State) : Access :=
  { c.access s (if c.e.func.getLsbD 0 then .spad else .global) .qunpk (qunpkPieces ca.pa cb.pa) c.qunpkEa with
    cached := ca.inHbm && cb.inHbm && !c.e.ord.getLsbD 0, dest := some c.dest, enc := some c.e, mode := c.g.fmode }

/-- The 18 requests: 16 words from the block on, two from the side record on. -/
theorem qunpkPieces_map (a b : Nat) :
    (qunpkPieces a b).map (fun p => (p.addr, p.size)) = ((List.range 16).map fun k => (a + 4 * k, 4)) ++ [(b, 4), (b + 4, 4)] := rfl

theorem Ctx.qunpkAccess_map (c : Ctx) (ca cb : LaneChk) (s : State) : ((c.qunpkAccess ca cb s).pieces.map fun p => (p.addr, p.size)) =
    ((List.range 16).map fun k => (ca.pa + 4 * k, 4)) ++ [(cb.pa, 4), (cb.pa + 4, 4)] := by
  have hshape := congrArg (List.map fun x : Nat × Nat × List LanePart => (x.1, x.2.1))
    (c.shape_access s (if c.e.func.getLsbD 0 then .spad else .global) .qunpk (qunpkPieces ca.pa cb.pa) c.qunpkEa)
  simp only [List.map_map] at hshape
  exact hshape.trans (qunpkPieces_map _ _)

section
variable {f : Enc} {s : State} {c : Ctx}

theorem execQunpk_idle (h : Issues (.qunpk f) noOwn s c) (hact : c.act = 0) : Acts c s (exec (.qunpk f) s) := by
  rw [exec_qunpk, execQunpk, issue_next h, if_pos hact]
  exact acts_done _ _

/-- A qunpk whose two checks find nothing asks for both addresses at once. -/
theorem execQunpk_eq (h : Issues (.qunpk f) noOwn s c) (hact : c.act ≠ 0) (hblock : (c.qunpkChk s).1.good = true)
    (hside : (c.qunpkChk s).2.good = true) :
    exec (.qunpk f) s = c.checked 0 (~~~ 0) (qunpkLanes (c.qunpkChk s).1 (c.qunpkChk s).2) 18 (fun u =>
      let sent := u.sendAccess (c.qunpkAccess (c.qunpkChk s).1 (c.qunpkChk s).2 u)
      .next (retire c (c.pending sent.1) c.nextPcs sent.2)) s := by
  obtain ⟨p, d, hca⟩ := LaneChk.good_iff.1 hblock
  obtain ⟨q, e, hcb⟩ := LaneChk.good_iff.1 hside
  have hjoin : joinChk [(c.qunpkChk s).1, (c.qunpkChk s).2] = .ok p d := by rw [hca, hcb, joinChk_ok]
  rw [exec_qunpk, execQunpk, issue_next h, if_neg hact]
  dsimp only
  rw [hjoin]
  rfl

theorem execQunpk_sends (h : Issues (.qunpk f) noOwn s c) (hact : c.act ≠ 0) (hroom : s.requests c.core + 18 ≤ 4096)
    (hblock : (c.qunpkChk s).1.good = true) (hside : (c.qunpkChk s).2.good = true) :
    let u := c.qunpkPassed s
    let a := c.qunpkAccess (c.qunpkChk s).1 (c.qunpkChk s).2 u
    ActsPending c (u.sendAccess a).1 (u.sendAccess a).2 (exec (.qunpk f) s) := by
  have hlanes (l : Lane) : (qunpkLanes (c.qunpkChk s).1 (c.qunpkChk s).2 l).good = true := by
    unfold qunpkLanes
    split
    · exact hblock
    · exact hside
  rw [execQunpk_eq h hact hblock hside, checked_good (fun l _ => hlanes l) hroom]
  exact acts_pending _ _ _

end

/-- Settles O25: the three loads are forms of `loadOp`; a qunpk makes its two checks as one and sends the 18 words. -/
theorem loadsSendTheirRequests : Obligations.LoadsSendTheirRequests := by
  refine ⟨fun f s c => ⟨execLd_loads, execLds_loads, execLdc_loads⟩, fun f s c h => ⟨execQunpk_idle h, fun hact hroom hblock hside => ?_⟩⟩
  have hstep : s.CacheStep (c.qunpkPassed s) := (s.cacheStep_dropX _ _).trans (State.cacheStep_useTlbs _ _ _)
  exact ⟨_, c.qunpkPassed s, rfl, rfl, rfl, rfl, rfl, c.qunpkAccess_map _ _ _, hstep.mem, by rw [hstep],
    execQunpk_sends h hact hroom hblock hside⟩

end Sys2Proof.Machine
end

section
/-! Stores and atomics (R272, R273, R277 to R279, R289): where the lanes pass, the access that leaves with its data and the requests of the lanes. -/

namespace Sys2Proof.Machine

open Sys2Proof

set_option Elab.async false

/-! ### st and sts (R272, R273) -/

/-- What a pair adds to a store is where its bytes are kept, never what is stored (R363). -/
theorem State.pairStore_eq (s : State) (tm : Nat) (a : Access) :
    ∃ trail scb, s.pairStore tm a = { a with trail := trail, scb := scb } := by
  unfold State.pairStore
  dsimp only
  repeat' split
  all_goals exact ⟨_, _, rfl⟩

/-- The access of a store that leaves in a state. -/
def Ctx.storeAccess (c : Ctx) (sp : Space) (chk : Lane → LaneChk) (ea : Lane → DWord) (s : State) : Access :=
  { c.access s sp .store (piecesOf c.eff c.bytes fun l => (chk l).pa) ea with bits := 8 * c.bytes, data := Vector.ofFn c.storeData }

section
variable (c : Ctx) (sp : Space) (chk : Lane → LaneChk) (ea : Lane → DWord) (s : State)

theorem Ctx.storeAccess_ea (l : Lane) : (c.storeAccess sp chk ea s).ea[l] = ea l :=
  c.ea_access s sp .store (piecesOf c.eff c.bytes fun l => (chk l).pa) ea l

theorem Ctx.storeAccess_data (l : Lane) : (c.storeAccess sp chk ea s).data[l] = c.storeData l :=
  Vector.getElem_ofFn (f := c.storeData) (h := l.isLt)

theorem Ctx.storeAccess_shape :
    (c.storeAccess sp chk ea s).pieces.map Piece.shape = (piecesOf c.eff c.bytes fun l => (chk l).pa).map Piece.shape :=
  c.shape_access s sp .store (piecesOf c.eff c.bytes fun l => (chk l).pa) ea

/-- A store of the active lanes sends its access, to which a pair may have added what it keeps. -/
theorem storeOp_sends (hact : c.act ≠ 0) (hpass : Passes c chk (piecesOf c.eff c.bytes fun l => (chk l).pa).length s) :
    ∃ trail scb, storeOp c sp chk ea s =
      .next (done c ((c.passed chk s).sendAccess { c.storeAccess sp chk ea (c.passed chk s) with trail := trail, scb := scb }).2) := by
  rw [storeOp, if_neg hact, checked_passes hpass]
  dsimp only
  split
  · exact ⟨_, _, rfl⟩
  · obtain ⟨trail, scb, e⟩ := (c.passed chk s).pairStore_eq c.g.team (c.storeAccess sp chk ea (c.passed chk s))
    exact ⟨trail, scb, by rw [← e]; rfl⟩

end

/-- WHAT A STORE DOES: with no active lane nothing is sent; lanes that pass leave one access with their requests and the data of D. -/
def Stores (c : Ctx) (s : State) (sp : Space) (chk : Lane → LaneChk) (ea : Lane → DWord) (o : Out) : Prop :=
  (c.act = 0 → Acts c s o) ∧
  (c.act ≠ 0 → Passes c chk (piecesOf c.eff c.bytes fun l => (chk l).pa).length s →
    ∃ a : Access, a.kind = .store ∧ a.space = sp ∧ a.slot = c.slot ∧ a.uid = c.g.uid ∧ a.pc = c.pc ∧ a.lanes = c.act ∧ a.ord = c.e.ord ∧
      a.dest = none ∧ (∀ l : Lane, a.ea[l] = ea l) ∧ (∀ l : Lane, a.data[l] = c.storeData l) ∧
      a.pieces.map Piece.shape = (piecesOf c.eff c.bytes fun l => (chk l).pa).map Piece.shape ∧
      Acts c ((c.passed chk s).sendAccess a).2 o)

theorem storeOp_stores (c : Ctx) (s : State) (sp : Space) (chk : Lane → LaneChk) (ea : Lane → DWord) :
    Stores c s sp chk ea (storeOp c sp chk ea s) := by
  refine ⟨fun hact => ?idle, fun hact hpass => ?sends⟩
  case idle =>
    rw [storeOp, if_pos hact]
    exact acts_done _ _
  case sends =>
    obtain ⟨trail, scb, e⟩ := storeOp_sends c sp chk ea s hact hpass
    rw [e]
    set u := c.passed chk s
    exact ⟨{ c.storeAccess sp chk ea u with trail := trail, scb := scb }, rfl, rfl, rfl, rfl, rfl, rfl, rfl, rfl, c.storeAccess_ea sp chk ea u,
      c.storeAccess_data sp chk ea u, c.storeAccess_shape sp chk ea u, acts_done _ _⟩

/-- Settles O26: st and sts are the two forms of `storeOp`. -/
theorem storesSendTheirRequests : Obligations.StoresSendTheirRequests := by
  refine fun f s c => ⟨fun h => ?global, fun h => ?spad⟩
  case global =>
    rw [exec_st, execSt, issue_next h]
    exact storeOp_stores c s .global (c.globalChk s .store) (c.gaddr c.xs)
  case spad =>
    rw [exec_sts, execSts, issue_next h]
    exact storeOp_stores c s .spad (c.spadChk s) c.sea

/-! ### Atomics (R277, R278) -/

/-- WHAT AN ATOMIC LEAVES where its lanes pass: one access with the operation, the operands and the requests of its lanes. -/
def AtomicSent (c : Ctx) (sp : Space) (ret : Bool) (chk : Lane → LaneChk) (a : Access) : Prop :=
  a.kind = .atomic (c.e.func.toNat % 16) c.e.ty ∧ a.space = sp ∧ a.slot = c.slot ∧ a.uid = c.g.uid ∧ a.pc = c.pc ∧ a.lanes = c.act ∧
  a.ord = c.e.ord ∧ a.bits = c.e.tyWidth ∧ a.dest = (if ret then some c.dest else none) ∧ (∀ l : Lane, a.ea[l] = c.a .int l) ∧
  (∀ l : Lane, a.data[l] = (c.b (tyOf .int c.e.ty) l).setWidth 128 ∧ a.data2[l] = c.c .int l) ∧
  a.pieces.map Piece.shape = (piecesOf c.eff c.atomBytes fun l => (chk l).pa).map Piece.shape

theorem Ctx.atomAccess_sent (c : Ctx) (s : State) (sp : Space) (ret : Bool) (chk : Lane → LaneChk) :
    AtomicSent c sp ret chk (c.atomAccess s sp (piecesOf c.eff c.atomBytes fun l => (chk l).pa) (c.a .int) ret) :=
  ⟨rfl, rfl, rfl, rfl, rfl, rfl, rfl, rfl, rfl, c.ea_access s sp (.atomic (c.e.func.toNat % 16) c.e.ty) (piecesOf c.eff c.atomBytes fun l => (chk l).pa) _,
    fun l => ⟨Vector.getElem_ofFn (h := l.isLt), Vector.getElem_ofFn (h := l.isLt)⟩,
    c.shape_access s sp (.atomic (c.e.func.toNat % 16) c.e.ty) _ (c.a .int)⟩

section
variable {c : Ctx} {s : State} {sp : Space} {chk : Lane → LaneChk}

theorem atomicOp_idle {ret : Bool} (hact : c.act = 0) : Acts c s (atomicOp c sp ret chk (c.a .int) s) := by
  rw [atomicOp, if_pos hact]
  exact acts_done _ _

section
variable (hact : c.act ≠ 0) (hpass : Passes c chk (piecesOf c.eff c.atomBytes fun l => (chk l).pa).length s)
include hact hpass

/-- An atomic that returns a result leaves its access, and l0 waits for it. -/
theorem atomicOp_returns : ∃ a, AtomicSent c sp true chk a ∧
    ActsPending c ((c.passed chk s).sendAccess a).1 ((c.passed chk s).sendAccess a).2 (atomicOp c sp true chk (c.a .int) s) := by
  refine ⟨_, c.atomAccess_sent (c.passed chk s) sp true chk, ?_⟩
  rw [atomicOp, if_neg hact, checked_passes hpass]
  exact acts_pending _ _ _

theorem atomicOp_reduces : ∃ a, AtomicSent c sp false chk a ∧
    Acts c ((c.passed chk s).sendAccess a).2 (atomicOp c sp false chk (c.a .int) s) := by
  refine ⟨_, c.atomAccess_sent (c.passed chk s) sp false chk, ?_⟩
  rw [atomicOp, if_neg hact, checked_passes hpass]
  exact acts_done _ _

end
end

/-! ### arrive and atomf (R279, R289) -/

/-- The access of an arrive that leaves in a state: one add of the lowest active lane. -/
def Ctx.arriveAccess (c : Ctx) (chk : Lane → LaneChk) (s : State) : Access :=
  let low := maskOf fun l => l == c.low
  let n : DWord := if c.e.func.getLsbD 1 then BitVec.ofNat 64 (countLanes c.act) else c.ub
  { c.access s (if c.e.func.getLsbD 0 then .spad else .global) (.atomic 0 7) (piecesOf low 4 fun l => (chk l).pa) (fun _ => c.ua) with
    lanes := low, bits := 32, data := lanesOf (n.setWidth 128) }

theorem countLanes_le (m : LaneMask) : countLanes m ≤ 32 := by
  unfold countLanes lanesIn
  exact (List.length_filter_le _ _).trans (by simp)

theorem Ctx.arriveAccess_data (c : Ctx) (chk : Lane → LaneChk) (s : State) (l : Lane) :
    (c.arriveAccess chk s).data[l] = if c.e.func.getLsbD 1 then BitVec.ofNat 128 (countLanes c.act) else c.ub.setWidth 128 := by
  have fits := countLanes_le c.act
  have e : (c.arriveAccess chk s).data[l] =
      (if c.e.func.getLsbD 1 then BitVec.ofNat 64 (countLanes c.act) else c.ub : DWord).setWidth 128 := by
    simp [Ctx.arriveAccess, lanesOf]
  rw [e]
  split
  · apply BitVec.eq_of_toNat_eq
    rw [BitVec.toNat_setWidth, BitVec.toNat_ofNat, BitVec.toNat_ofNat]
    omega
  · rfl

/-- The access of an atomf that leaves in a state: an atomic that says where its results are forwarded to. -/
def Ctx.atomfAccess (c : Ctx) (chk : Lane → LaneChk) (s : State) : Access :=
  { c.atomAccess s .global (piecesOf c.eff c.atomBytes fun l => (chk l).pa) (c.a .int) false with
    fwd := some (Vector.ofFn fun l => (c.c .int l).setWidth 32, (c.d .int c.low).setWidth 32), lanes := c.eff }

section
variable {f : Enc} {s : State} {c : Ctx}

theorem execArrive_idle (h : Issues (.arrive f) noOwn s c) (hact : c.act = 0) : Acts c s (exec (.arrive f) s) := by
  rw [exec_arrive, execArrive, issue_next h, if_pos hact]
  exact acts_done _ _

theorem execArrive_sends (h : Issues (.arrive f) noOwn s c) (hact : c.act ≠ 0) (hpass : Passes c (c.arriveChk s) 1 s) :
    Acts c ((c.passed (c.arriveChk s) s).sendAccess (c.arriveAccess (c.arriveChk s) (c.passed (c.arriveChk s) s))).2 (exec (.arrive f) s) := by
  rw [exec_arrive, execArrive, issue_next h, if_neg hact]
  dsimp only
  rw [checked_passes hpass]
  exact acts_done _ _

theorem execAtomf_idle (h : Issues (.atomf f) noOwn s c) (hact : c.act = 0) : Acts c s (exec (.atomf f) s) := by
  rw [exec_atomf, execAtomf, issue_next h, if_pos hact]
  exact acts_done _ _

theorem execAtomf_sends (h : Issues (.atomf f) noOwn s c) (hact : c.act ≠ 0)
    (hpass : Passes c (c.atomfChk s) (piecesOf c.eff c.atomBytes fun l => (c.atomfChk s l).pa).length s) :
    Acts c ((c.passed (c.atomfChk s) s).sendAccess (c.atomfAccess (c.atomfChk s) (c.passed (c.atomfChk s) s))).2 (exec (.atomf f) s) := by
  rw [exec_atomf, execAtomf, issue_next h, if_neg hact]
  dsimp only
  rw [checked_passes hpass]
  exact acts_done _ _

end

/-- Settles O27: atom, atom.cas, atoms and the two forms of red are forms of `atomicOp`; arrive and atomf send their own accesses. -/
theorem atomicsSendTheirRequests : Obligations.AtomicsSendTheirRequests := by
  refine ⟨fun f s c => ?atomics, fun f s c h => ⟨execAtomf_idle h, fun hact hpass => ?atomf⟩⟩
  case atomf => exact ⟨_, rfl, rfl, rfl, rfl, rfl, rfl, execAtomf_sends h hact hpass⟩
  refine ⟨fun h => ?atom, fun h => ?cas, fun h => ?atoms, fun hf h => ?redGlobal, fun hf h => ?redSpad, fun h =>
    ⟨execArrive_idle h, fun hact hpass => ⟨_, rfl, rfl, rfl, rfl, rfl, rfl, c.arriveAccess_data _ _, execArrive_sends h hact hpass⟩⟩⟩
  case atom =>
    rw [exec_atom, execAtom, issue_next h]
    exact ⟨atomicOp_idle, atomicOp_returns⟩
  case cas =>
    rw [exec_atomCas, execAtomCas, issue_next h]
    exact ⟨atomicOp_idle, atomicOp_returns⟩
  case atoms =>
    rw [exec_atoms, execAtoms, issue_next h]
    exact ⟨atomicOp_idle, atomicOp_returns⟩
  case redGlobal =>
    rw [exec_red, execRed, issue_next h, if_neg (by rw [hf]; decide)]
    exact ⟨atomicOp_idle, atomicOp_reduces⟩
  case redSpad =>
    rw [exec_red, execRed, issue_next h, if_pos hf]
    exact ⟨atomicOp_idle, atomicOp_reduces⟩

end Sys2Proof.Machine
end

section
/-! Arrivals at the team barrier and at named barriers (R286 to R288), and the group that stays parked at the team's. -/

namespace Sys2Proof.Machine

open Sys2Proof

set_option Elab.async false

/-- What an instruction does whose effect is on the level of its group: with no active lane nothing. -/
theorem groupLevel_acts {i : Instr} {own : Ctx → State → Option (BitVec 8)} {s : State} {c : Ctx} (h : Issues i own s c)
    (f : Ctx → State → State) : (c.act = 0 → Acts c s (groupLevel i own f s)) ∧ (c.act ≠ 0 → Acts c (f c s) (groupLevel i own f s)) := by
  have acts : Acts c (if c.act = 0 then s else f c s) (groupLevel i own f s) := by
    rw [groupLevel, issue_next h]
    exact acts_done _ _
  exact ⟨fun hact => by rwa [if_pos hact] at acts, fun hact => by rwa [if_neg hact] at acts⟩

/-! ### The team barrier (R287) -/

theorem State.exited_group_block (s : State) (slot k : Nat) (b : Block) : ((s.block slot b).group k).exited = (s.group k).exited := by
  by_cases hk : k = slot
  · rw [hk, State.block, State.group_updGroup]
  · rw [State.block, State.group_updGroup_ne _ _ _ _ hk]

theorem State.exited_prog_block (s : State) (slot k : Nat) (b : Block) : ((s.block slot b).prog k).exited = (s.prog k).exited := by
  unfold State.prog
  rw [show (s.block slot b).stash = s.stash from rfl]
  split
  · rfl
  · exact s.exited_group_block slot k b

/-- A group that parks has the lanes that it had, whether it is in its slot or saved. -/
theorem State.exited_member_block (s : State) (slot : Nat) (b : Block) (tm gidx : Nat) :
    ((s.block slot b).member tm gidx).exited = (s.member tm gidx).exited := by
  unfold State.member
  rw [show (s.block slot b).team tm = s.team tm from rfl]
  dsimp only
  split
  · split
    · rfl
    · exact s.exited_prog_block slot _ b
  · exact s.exited_prog_block slot _ b

theorem State.liveGroups_block (s : State) (slot : Nat) (b : Block) (tm : Nat) : (s.block slot b).liveGroups tm = s.liveGroups tm := by
  simp only [State.liveGroups, Group.gone, State.exited_member_block]
  rfl

/-- The groups of a team that are not gone depend on where its groups are alone. -/
theorem State.liveGroups_updTeam (s : State) (tm : Nat) (f : Team → Team) (hslots : (f (s.team tm)).slots = (s.team tm).slots)
    (hsaved : (f (s.team tm)).saved = (s.team tm).saved) (hto : (f (s.team tm)).savingTo = (s.team tm).savingTo) :
    (s.updTeam tm f).liveGroups tm = s.liveGroups tm := by
  have same (gidx : Nat) : (s.updTeam tm f).member tm gidx = s.member tm gidx := by
    simp only [State.member, State.team_updTeam, Team.slotOf, hslots, hsaved, hto]
    rfl
  simp only [State.liveGroups, State.team_updTeam, hslots, same]

/-- The barrier of a team holds while one of its groups has not arrived. -/
theorem State.barTest_holds {s : State} {tm : Nat} (h : ¬ ∀ i ∈ s.liveGroups tm, i ∈ (s.team tm).barArr) : s.barTest tm = s := by
  have hall : (s.liveGroups tm).all (fun g => (s.team tm).barArr.contains g) = false := by
    simpa only [List.all_eq_false, List.contains_iff_mem, not_forall, exists_prop] using h
  rw [State.barTest, hall, Bool.and_false, Bool.false_and]
  rfl

/-- The state in which a group's arrival at the barrier of its team is counted, and the accesses that it orders. -/
def State.arrived (s : State) (slot : Nat) (global : Bool) : State :=
  s.updTeam (s.group slot).team fun t =>
    { t with
      barArr := t.barArr ++ [(s.group slot).gidx], barG := t.barG || global
      barAfter := t.barAfter ++ if global then s.allOpen slot else s.spadOpen slot }

theorem State.barArr_arrived (s : State) (slot : Nat) (global : Bool) : ((s.arrived slot global).team (s.group slot).team).barArr =
    (s.team (s.group slot).team).barArr ++ [(s.group slot).gidx] := by
  rw [State.arrived, State.team_updTeam]

/-- A group that is not the last of its team to arrive parks and stays parked. -/
theorem State.arriveTeam_parks {s : State} {slot : Nat} {global : Bool}
    (h : ¬ ∀ i ∈ s.liveGroups (s.group slot).team, i ∈ (s.team (s.group slot).team).barArr ++ [(s.group slot).gidx]) :
    s.arriveTeam slot global = (s.arrived slot global).block slot .bar := by
  have live : ((s.arrived slot global).block slot .bar).liveGroups (s.group slot).team = s.liveGroups (s.group slot).team :=
    (State.liveGroups_block _ _ _ _).trans (s.liveGroups_updTeam _ _ rfl rfl rfl)
  have arr : (((s.arrived slot global).block slot .bar).team (s.group slot).team).barArr = _ := s.barArr_arrived slot global
  rw [← live, ← arr] at h
  exact State.barTest_holds h

/-- Settles O23: each arrival is an effect on the level of its group, and the team's barrier opens only when no group that is not gone is missing. -/
theorem barrierInstructionsAct : Obligations.BarrierInstructionsAct := by
  refine ⟨fun f s c => ⟨fun h => ?bar, fun h => ?barG, fun h => ?named, fun h => ?barrive, fun h => ?barwait⟩, ?parks⟩
  case bar =>
    rw [exec_bar, execBar]
    exact groupLevel_acts h fun c s => s.arriveTeam c.slot false
  case barG =>
    rw [exec_barG, execBarG]
    exact groupLevel_acts h fun c s => s.arriveTeam c.slot true
  case named =>
    rw [exec_barNamed, execBarNamed]
    exact groupLevel_acts h _
  case barrive =>
    rw [exec_barrive, execBarrive]
    exact groupLevel_acts h fun c s => s.barrive c.slot (c.e.func.toNat % 16) c.ua.toNat (s.spadOpen c.slot)
  case barwait =>
    rw [exec_barwait, execBarwait]
    exact groupLevel_acts h fun c s => s.barwait c.slot (c.e.func.toNat % 16)
  case parks =>
    intro s slot g t hmissing
    rw [State.arriveTeam_parks hmissing]
    exact ⟨((s.arrived slot false).block_parks slot .bar).1, s.barArr_arrived slot false⟩

end Sys2Proof.Machine
end

section
/-! Prefetch and cache control (R215, R275, R276): the access of a prefetch, the lines that cctl makes invalid or names, and those that a marker drops. -/

namespace Sys2Proof.Machine

open Sys2Proof

set_option Elab.async false

/-! ### prefetch (R275) -/

/-- The access of a prefetch that leaves in a state: a request of one word for each line, and nothing that it waits for. -/
def Ctx.prefetchAccess (c : Ctx) (chk : Lane → LaneChk) (s : State) : Access :=
  { c.access s .global .prefetch ((c.prefetchLines chk).map fun a => { addr := a, size := 4, parts := [] }) (c.gaddr c.xs) with
    cached := !c.e.func.getLsbD 0, after := [], behind := [] }

theorem Ctx.prefetchAccess_lines (c : Ctx) (chk : Lane → LaneChk) (s : State) :
    (c.prefetchAccess chk s).pieces.map Piece.addr = c.prefetchLines chk := by
  show ((s.routed c.cluster ((c.prefetchLines chk).map fun a => { addr := a, size := 4, parts := [] })).map Piece.addr) = _
  simp [State.routed, Function.comp_def]

section
variable {f : Enc} {s : State} {c : Ctx}

/-- The check of a lane's address by a prefetch. -/
def Ctx.prefetchChk (c : Ctx) (s : State) (l : Lane) : LaneChk := s.checkGlobal c.slot c.priv c.g.asid .load 4 1 (c.gaddr c.xs l)

theorem execPrefetch_idle (h : Issues (.prefetch f) noOwn s c) (hact : c.act = 0) : Acts c s (exec (.prefetch f) s) := by
  rw [exec_prefetch, execPrefetch, issue_next h]
  dsimp only
  rw [if_pos hact]
  exact acts_done _ _

section
variable (h : Issues (.prefetch f) noOwn s c) (hact : c.act ≠ 0) (hwait : ∀ l p, laneIn c.act l = true → c.prefetchChk s l ≠ .wait p)
  (hroom : s.requests c.core + (c.prefetchLines (c.prefetchChk s)).length ≤ 4096)
include h hact hwait hroom

/-- A prefetch whose lanes wait for no walk asks for the lines that it may, and for nothing where there are none. -/
theorem execPrefetch_eq : exec (.prefetch f) s = .next (done c
    (if c.prefetchLines (c.prefetchChk s) = [] then c.passed (c.prefetchChk s) s
      else ((c.passed (c.prefetchChk s) s).sendAccess (c.prefetchAccess (c.prefetchChk s) (c.passed (c.prefetchChk s) s))).2)) := by
  have lanes : (fun l => s.checkGlobal c.slot c.priv c.g.asid .load 4 1 (c.gaddr c.xs l)) = c.prefetchChk s := rfl
  rw [exec_prefetch, execPrefetch, issue_next h]
  dsimp only
  rw [if_neg hact, lanes, lanePages_of_noWait hwait]
  dsimp only
  rw [List.length_map, if_neg (Nat.not_lt.2 hroom), List.isEmpty_map]
  by_cases hnone : c.prefetchLines (c.prefetchChk s) = []
  · rw [if_pos hnone, if_pos (List.isEmpty_iff.2 hnone)]
    rfl
  · rw [if_neg hnone, if_neg (mt List.isEmpty_iff.1 hnone)]
    rfl

theorem execPrefetch_none (hnone : c.prefetchLines (c.prefetchChk s) = []) : Acts c (c.passed (c.prefetchChk s) s) (exec (.prefetch f) s) := by
  rw [execPrefetch_eq h hact hwait hroom, if_pos hnone]
  exact acts_done _ _

theorem execPrefetch_sends (hsome : c.prefetchLines (c.prefetchChk s) ≠ []) :
    Acts c ((c.passed (c.prefetchChk s) s).sendAccess (c.prefetchAccess (c.prefetchChk s) (c.passed (c.prefetchChk s) s))).2
      (exec (.prefetch f) s) := by
  rw [execPrefetch_eq h hact hwait hroom, if_neg hsome]
  exact acts_done _ _

end

/-! ### cctl (R215, R276) -/

theorem execCctl_idle (h : Issues (.cctl f) noOwn s c) (hact : c.act = 0) : Acts c s (exec (.cctl f) s) := by
  rw [exec_cctl, execCctl, issue_next h]
  dsimp only
  rw [if_pos hact]
  exact acts_done _ _

section
variable (h : Issues (.cctl f) noOwn s c) (hact : c.act ≠ 0)
include h hact

theorem execCctl_ivall (hf : c.e.func.toNat % 4 = 1) :
    Acts c (s.setCore c.core { s.core c.core with l1 := (s.core c.core).l1.map fun x => (x.1, invLine x.2) }) (exec (.cctl f) s) := by
  rw [exec_cctl, execCctl, issue_next h]
  dsimp only
  rw [if_neg hact, hf]
  exact acts_done _ _

theorem execCctl_iall (hf : c.e.func.toNat % 4 = 3) : Acts c (s.updGroup c.slot fun g => { g with icAll := true }) (exec (.cctl f) s) := by
  rw [exec_cctl, execCctl, issue_next h]
  dsimp only
  rw [if_neg hact, hf]
  exact acts_done _ _

section
variable (hpass : Passes c (c.cctlChk s) 0 s)
include hpass

theorem execCctl_ivl (hf : c.e.func.toNat % 4 = 0) : let t := c.passed (c.cctlChk s) s
    Acts c (t.setCore c.core { t.core c.core with
      l1 := (t.core c.core).l1.map fun x => if x.1 ∈ (lanesIn c.act).map (fun l => (c.cctlChk s l).pa / 128) then (x.1, invLine x.2) else x })
      (exec (.cctl f) s) := by
  intro t
  have lines (a : Nat) : ((c.cctlLines (c.cctlChk s)).contains a = true) = (a ∈ (lanesIn c.act).map fun l => (c.cctlChk s l).pa / 128) := by
    rw [Ctx.cctlLines, List.contains_iff_mem, List.mem_eraseDups]
  rw [exec_cctl, execCctl, issue_next h]
  dsimp only
  rw [if_neg hact, hf]
  show Acts c _ (c.checked 0 c.act (c.cctlChk s) 0 _ s)
  rw [checked_passes hpass]
  simp only [lines]
  exact acts_done _ _

theorem execCctl_il (hf : c.e.func.toNat % 4 = 2) : Acts c
    ((c.passed (c.cctlChk s) s).updGroup c.slot fun g => { g with icInv := g.icInv ++ c.cctlLines (c.cctlChk s) }) (exec (.cctl f) s) := by
  rw [exec_cctl, execCctl, issue_next h]
  dsimp only
  rw [if_neg hact, hf]
  show Acts c _ (c.checked 0 c.act (c.cctlChk s) 0 _ s)
  rw [checked_passes hpass]
  exact acts_done _ _

end
end
end

/-- A line that was filtered out of a map is not found. -/
theorem SMap.find_filter_none {α : Type} {m : SMap α} {p : Nat × α → Bool} {k : Nat} (h : ∀ a, p (k, a) = false) : SMap.find (m.filter p) k = none := by
  induction m with
  | nil => rfl
  | cons x m ih =>
    by_cases hx : p x = true
    · have hk : x.1 ≠ k := fun e => by rw [← e] at h; exact absurd (h x.2) (by rw [hx]; decide)
      rw [List.filter_cons_of_pos hx, SMap.find, if_neg hk]
      exact ih
    · rw [List.filter_cons_of_neg hx]
      exact ih

/-- A marker of the group drops the lines that its cctl named (R215). -/
theorem State.dropIcache_drops {s : State} {slot a : Nat} (h : (s.group slot).icAll = true ∨ a ∈ (s.group slot).icInv) :
    SMap.find ((s.dropIcache slot).core (slotCore slot)).icache a = none := by
  have core (k : Core) (f : Group → Group) : ((s.setCore (slotCore slot) k).updGroup slot f).core (slotCore slot) = k := State.core_setCore _ _ _
  unfold State.dropIcache
  dsimp only
  by_cases hall : (s.group slot).icAll = true
  · rw [if_pos hall, core]
    rfl
  · have ha := h.resolve_left hall
    rw [if_neg hall, if_neg (mt List.isEmpty_iff.1 (List.ne_nil_of_mem ha)), core]
    exact SMap.find_filter_none fun _ => by simpa using ha

/-- Settles O30: prefetch by the lines that it asks for, cctl by its four operations, and the marker by what it drops. -/
theorem prefetchAndCacheControl : Obligations.PrefetchAndCacheControl := by
  intro f s c
  refine ⟨execPrefetch_idle, fun h hact hwait hroom => ?prefetch, execCctl_idle, execCctl_ivall, execCctl_iall,
    fun h hact hf hpass => execCctl_ivl h hact hpass hf, fun h hact hf hpass => execCctl_il h hact hpass hf, fun slot a => State.dropIcache_drops⟩
  exact ⟨execPrefetch_none h hact hwait hroom, fun hsome => ⟨_, rfl, rfl, c.prefetchAccess_lines (c.prefetchChk s) (c.passed (c.prefetchChk s) s),
    execPrefetch_sends h hact hwait hroom hsome⟩⟩

end Sys2Proof.Machine
end

section
/-! Copies and their tags (R280 to R284): the pieces of an acp and of an acopy, what sending a copy leaves of its group's tags, and the instructions that
read them. -/

namespace Sys2Proof.Machine

open Sys2Proof

set_option Elab.async false

/-! ### Copies (R280 to R283) -/

theorem State.cacheStep_useTlbsIn (s : State) (cl : Nat) (es : List TlbEntry) : s.CacheStep (s.useTlbsIn cl es) := rfl

/-- The piece of each active lane of an acp (R281). -/
def Ctx.acpPieces (c : Ctx) (s : State) : List CopyPiece :=
  (lanesIn c.act).map fun l => { src := (c.acpChk s l).1.pa, dst := (c.acpChk s l).2.pa }

/-- The state in which the copy of an acp leaves: the translations of both ends of its lanes are used. -/
def Ctx.acpPassed (c : Ctx) (s : State) : State :=
  (s.dropX c.cluster c.req).useTlbsIn c.cluster
    ((laneEntries c.act fun l => (c.acpChk s l).1) ++ laneEntries c.act fun l => (c.acpChk s l).2)

/-- The pieces of an acopy: 16 bytes each, a swizzled one at the place that swz gives its offset (R282, R283). -/
def Ctx.acopyPieces (c : Ctx) (s : State) : List CopyPiece :=
  (pieceOffsets (c.ub.toNat % 2 ^ 32)).map fun k =>
    { src := (c.copyEnd s c.ssp .load (c.copySrc + BitVec.ofNat 64 k)).pa
      dst := (c.copyEnd s c.dsp .store (c.copyDst + BitVec.ofNat 64 (if optSwz c.uc then swz k (optSpan c.uc) else k))).pa }

/-- The state in which the copy of an acopy leaves: the translations that its checks found are used. -/
def Ctx.acopyPassed (c : Ctx) (es : List TlbEntry) (s : State) : State := (s.dropX c.cluster c.req).useTlbsIn c.cluster es

theorem Ctx.cacheStep_acpPassed (c : Ctx) (s : State) : s.CacheStep (c.acpPassed s) :=
  (s.cacheStep_dropX c.cluster c.req).trans (State.cacheStep_useTlbsIn _ _ _)

theorem Ctx.cacheStep_acopyPassed (c : Ctx) (es : List TlbEntry) (s : State) : s.CacheStep (c.acopyPassed es s) :=
  (s.cacheStep_dropX c.cluster c.req).trans (State.cacheStep_useTlbsIn _ _ _)

/-- A lane both of whose ends pass is checked with nothing found. -/
theorem joinChk_good {x y : LaneChk} (hx : x.good = true) (hy : y.good = true) : (joinChk [x, y]).good = true := by
  obtain ⟨p, d, rfl⟩ := LaneChk.good_iff.1 hx
  obtain ⟨q, e, rfl⟩ := LaneChk.good_iff.1 hy
  rfl

section
variable {f : Enc} {s : State} {c : Ctx}

theorem execAcp_idle (h : Issues (.acp f) noOwn s c) (hact : c.act = 0) : Acts c s (exec (.acp f) s) := by
  rw [exec_acp, execAcp, issue_next h, if_pos hact]
  exact acts_done _ _

/-- An acp both of whose ends pass in every lane sends its copy. -/
theorem execAcp_sends (h : Issues (.acp f) noOwn s c) (hact : c.act ≠ 0) (hroom : (s.copiesOf c.slot).length < 64)
    (hends : ∀ l, laneIn c.act l = true → (c.acpChk s l).1.good = true ∧ (c.acpChk s l).2.good = true) :
    Acts c (c.sendCopy (c.acpPassed s) (c.acpPieces s) none none) (exec (.acp f) s) := by
  have hfault : laneFault 5 c.pc c.act (fun l => joinChk [(c.acpChk s l).1, (c.acpChk s l).2]) = none :=
    good_fault fun l hl => joinChk_good (hends l hl).1 (hends l hl).2
  rw [exec_acp, execAcp, issue_next h, if_neg hact, if_neg (Nat.not_le.2 hroom)]
  dsimp only
  rw [good_pages fun l hl => (hends l hl).1, good_pages fun l hl => (hends l hl).2, hfault]
  exact acts_done _ _

theorem execAcopy_idle (h : Issues (.acopy f) noOwn s c) (hact : c.act = 0) : Acts c s (exec (.acopy f) s) := by
  rw [exec_acopy, execAcopy, issue_next h, if_pos hact]
  exact acts_done _ _

theorem execAcopy_sends (h : Issues (.acopy f) noOwn s c) (hact : c.act ≠ 0) (hroom : (s.copiesOf c.slot).length < 64) {es : List TlbEntry}
    (hes : c.acopyChks s = .ok es) :
    Acts c (c.sendCopy (c.acopyPassed es s) (c.acopyPieces s) (if optArv c.uc then some (optTgt c.uc) else none)
      (if optTdc c.uc then some (optTgt c.uc) else none)) (exec (.acopy f) s) := by
  rw [exec_acopy, execAcopy, issue_next h, if_neg hact, if_neg (Nat.not_le.2 hroom), hes]
  exact acts_done _ _

end

/-- The tags of a group that sends a copy: the copy's counts it and is not done, and no other changes (R280). -/
theorem Ctx.tag_sendCopy (c : Ctx) (u : State) (ps : List CopyPiece) (arv tdc : Option Word) (t : Nat) :
    ((c.sendCopy u ps arv tdc).group c.slot).tag t =
      if t = c.copyTag then
        { pend := ((u.group c.slot).tag t).pend + 1, done := false, psn := ((u.group c.slot).tag t).psn && ((u.group c.slot).tag t).pend != 0 }
      else (u.group c.slot).tag t := by
  unfold Ctx.sendCopy Group.tag
  dsimp only [State.fresh]
  rw [State.group_updGroup]
  split
  · next ht => rw [ht]; exact SMap.get_set_same _ _ _ _
  · next ht => exact SMap.get_set_ne _ _ _ _ _ ht

/-- Settles O31: each instruction sends its copy in the state that its checks leave, and a copy that is sent is listed and counted on its tag. -/
theorem copiesStart : Obligations.CopiesStart := by
  intro f s c
  refine ⟨execAcp_idle, fun h hact hroom hends => ?acp, execAcopy_idle, fun h hact hroom es hes => ?acopy, fun u ps arv tdc => ?sent⟩
  case acp =>
    have step := c.cacheStep_acpPassed s
    exact ⟨c.acpPassed s, c.acpPieces s, step.mem, by rw [step], by rw [step], List.map_map, execAcp_sends h hact hroom hends⟩
  case acopy =>
    have step := c.cacheStep_acopyPassed es s
    refine ⟨c.acopyPassed es s, c.acopyPieces s, step.mem, by rw [step], by rw [step], ?_, execAcopy_sends h hact hroom hes⟩
    rw [Ctx.acopyPieces, pieceOffsets, List.map_map, List.map_map]
    rfl
  case sent =>
    refine ⟨rfl, ?_, ?_, fun j hj => ?_, _, SMap.find_set_same _ _ _, rfl, rfl, rfl, rfl, rfl⟩
    · exact congrArg Tag.pend ((c.tag_sendCopy u ps arv tdc c.copyTag).trans (if_pos rfl))
    · exact congrArg Tag.done ((c.tag_sendCopy u ps arv tdc c.copyTag).trans (if_pos rfl))
    · exact (c.tag_sendCopy u ps arv tdc j).trans (if_neg hj)

/-! ### Tags (R284) -/

section
variable {m : BitVec 16} {p : Nat → Bool}

theorem mem_tagsIn {t : Nat} : t ∈ tagsIn m p ↔ t < 16 ∧ m.getLsbD t = true ∧ p t = true := by
  rw [tagsIn, List.mem_filter, List.mem_range, Bool.and_eq_true]

theorem tagsIn_eq_nil (h : ∀ t, ¬ (t < 16 ∧ m.getLsbD t = true ∧ p t = true)) : tagsIn m p = [] :=
  List.eq_nil_iff_forall_not_mem.2 fun t ht => h t (mem_tagsIn.1 ht)

/-- The tags of a mask that satisfy a condition begin with the lowest. -/
theorem tagsIn_eq_cons {t : Nat} (ht : t < 16 ∧ m.getLsbD t = true ∧ p t = true)
    (hlow : ∀ j, j < t → ¬ (j < 16 ∧ m.getLsbD j = true ∧ p j = true)) : ∃ ts, tagsIn m p = t :: ts := by
  obtain ⟨hlt, hm, hp⟩ := ht
  rw [← List.head?_eq_some_iff, tagsIn, List.head?_filter, List.find?_range_eq_some]
  refine ⟨by rw [hm, hp]; rfl, List.mem_range.2 hlt, fun j hj => ?_⟩
  have := hlow j hj
  simp only [hj.trans hlt, true_and, ← Bool.and_eq_true, Bool.not_eq_true] at this
  rw [this]
  rfl

end

/-- Bit `t` of a number built from bits is that bit. -/
theorem bitsOf_bits (n : Nat) (x : Nat → Bool) : bitsOf n x < 2 ^ n ∧ ∀ t, t < n → (bitsOf n x).testBit t = x t := by
  obtain ⟨hlt, hbit⟩ := mask_sum n fun i => x i.val
  have e : bitsOf n x = (List.finRange n).foldl (fun k l => if x l.val then k + 2 ^ l.val else k) 0 := by
    rw [bitsOf, ← List.map_coe_finRange_eq_range, List.foldl_map]
  rw [e]
  exact ⟨hlt, fun t ht => hbit ⟨t, ht⟩⟩

theorem Group.doneBits_bit (g : Group) (m : BitVec 16) (t : Nat) :
    (BitVec.ofNat 64 (g.doneBits m)).getLsbD t = true ↔ t < 16 ∧ m.getLsbD t = true ∧ (g.tag t).done = true := by
  obtain ⟨hlt, hbit⟩ := bitsOf_bits 16 fun t => m.getLsbD t && (g.tag t).done
  have inRange (h : t < 16) : (g.doneBits m).testBit t = (m.getLsbD t && (g.tag t).done) := hbit t h
  rw [BitVec.getLsbD_ofNat]
  by_cases ht : t < 16
  · rw [inRange ht, decide_eq_true (by omega), Bool.true_and, Bool.and_eq_true]
    exact (and_iff_right ht).symm
  · have above : (g.doneBits m).testBit t = false :=
      Nat.testBit_lt_two_pow (Nat.lt_of_lt_of_le hlt (Nat.pow_le_pow_right (by decide) (Nat.not_lt.1 ht)))
    simp [above, ht]

/-- Lanes that agree on A name its low half as the mask. -/
theorem Ctx.tagMask_agreed {c : Ctx} (s : State) (h : ∀ l, laneIn c.act l = true → c.a .int l = c.ua) : c.tagMask s = c.ua.setWidth 16 :=
  if_pos (List.all_eq_true.2 fun l hl => beq_iff_eq.2 (h l ((mem_lanesIn _ _).1 hl)))

section
variable {f : Enc} {s : State} {c : Ctx}

theorem execTffs_idle (h : Issues (.tffs f) noOwn s c) (hact : c.act = 0) : ComputesUniform c 0 s (exec (.tffs f) s) := by
  rw [exec_tffs, execTffs, issue_next h, if_pos hact]
  exact h.computesResult

theorem execTffs_takes {t : Nat} {ts : List Nat} (h : Issues (.tffs f) noOwn s c) (hact : c.act ≠ 0)
    (ht : (tagsIn (c.tagMask s) fun t => (c.g.tag t).done) = t :: ts) :
    ComputesUniform c (BitVec.ofNat 64 t) (s.takeTag c.slot t (c.e.func.getLsbD 0)) (exec (.tffs f) s) := by
  rw [exec_tffs, execTffs, issue_next h, if_neg hact, ht]
  exact h.computesResult

theorem execTffs_none (h : Issues (.tffs f) noOwn s c) (hact : c.act ≠ 0) (ht : (tagsIn (c.tagMask s) fun t => (c.g.tag t).done) = []) :
    ComputesUniform c noTag s (exec (.tffs f) s) := by
  rw [exec_tffs, execTffs, issue_next h, if_neg hact, ht]
  exact h.computesResult

theorem execTwaitany_idle (h : Issues (.twaitany f) noOwn s c) (hact : c.act = 0) : ComputesUniform c 0 s (exec (.twaitany f) s) := by
  rw [exec_twaitany, execTwaitany, issue_next h]
  dsimp only
  rw [if_pos hact]
  exact h.computesResult

theorem execTwaitany_takes {t : Nat} {ts : List Nat} (h : Issues (.twaitany f) noOwn s c) (hact : c.act ≠ 0)
    (ht : (tagsIn (c.tagMask s) fun t => (c.g.tag t).done) = t :: ts) :
    ComputesUniform c (BitVec.ofNat 64 t) (s.takeTag c.slot t (c.e.func.getLsbD 0)) (exec (.twaitany f) s) := by
  rw [exec_twaitany, execTwaitany, issue_next h]
  dsimp only
  rw [if_neg hact, ht]
  exact h.computesResult

section
variable (h : Issues (.twaitany f) noOwn s c) (hact : c.act ≠ 0) (ht : (tagsIn (c.tagMask s) fun t => (c.g.tag t).done) = [])
include h hact ht

theorem execTwaitany_none (hp : (tagsIn (c.tagMask s) fun t => (c.g.tag t).pend != 0) = []) :
    ComputesUniform c noTag s (exec (.twaitany f) s) := by
  rw [exec_twaitany, execTwaitany, issue_next h]
  dsimp only
  rw [if_neg hact, ht, hp]
  exact h.computesResult

theorem execTwaitany_parks (hp : (tagsIn (c.tagMask s) fun t => (c.g.tag t).pend != 0) ≠ []) :
    Acts c (s.block c.slot (.tagAny (c.tagMask s) (c.e.func.getLsbD 0) c.dest)) (exec (.twaitany f) s) := by
  rw [exec_twaitany, execTwaitany, issue_next h]
  dsimp only
  rw [if_neg hact, ht]
  dsimp only
  rw [if_neg (mt List.isEmpty_iff.1 hp)]
  exact acts_done _ _

end

theorem execTwaitall_idle (h : Issues (.twaitall f) noOwn s c) (hact : c.act = 0) : ComputesUniform c 0 s (exec (.twaitall f) s) := by
  rw [exec_twaitall, execTwaitall, issue_next h]
  dsimp only
  rw [if_pos hact]
  exact h.computesResult

theorem execTwaitall_done (h : Issues (.twaitall f) noOwn s c) (hact : c.act ≠ 0)
    (hp : (tagsIn (c.tagMask s) fun t => (c.g.tag t).pend != 0) = []) :
    ComputesUniform c (BitVec.ofNat 64 (c.g.doneBits (c.tagMask s))) (s.acquireInval c.core) (exec (.twaitall f) s) := by
  rw [exec_twaitall, execTwaitall, issue_next h]
  dsimp only
  rw [if_neg hact, hp]
  exact h.computesResult

theorem execTwaitall_parks (h : Issues (.twaitall f) noOwn s c) (hact : c.act ≠ 0)
    (hp : (tagsIn (c.tagMask s) fun t => (c.g.tag t).pend != 0) ≠ []) :
    Acts c (s.block c.slot (.tagAll (c.tagMask s) c.dest)) (exec (.twaitall f) s) := by
  rw [exec_twaitall, execTwaitall, issue_next h]
  dsimp only
  rw [if_neg hact, if_neg (mt List.isEmpty_iff.1 hp)]
  exact acts_done _ _

end

/-- Settles O32: the tags that are done, or have copies under way, by the lists that the instructions read. -/
theorem tagInstructionsAct : Obligations.TagInstructionsAct := by
  intro f s c m hagree hm done pend clr taken low
  have mask : c.tagMask s = m := (Ctx.tagMask_agreed s hagree).trans hm.symm
  have lowest (t : Nat) (ht : done t) (hlow : ∀ j, j < t → ¬ done j) : ∃ ts, (tagsIn (c.tagMask s) fun t => (c.g.tag t).done) = t :: ts :=
    mask ▸ tagsIn_eq_cons ht hlow
  have noneDone (h : ∀ t, ¬ done t) : (tagsIn (c.tagMask s) fun t => (c.g.tag t).done) = [] := mask ▸ tagsIn_eq_nil h
  have pending : (tagsIn (c.tagMask s) fun t => (c.g.tag t).pend != 0) ≠ [] ↔ pend := by
    rw [mask, ne_eq, List.eq_nil_iff_forall_not_mem, not_forall]
    simp only [not_not, mem_tagsIn, bne_iff_ne]
    rfl
  refine ⟨fun h => ⟨execTffs_idle h, fun hact t ht hlow => ?tffs⟩, fun h => ⟨execTwaitany_idle h, fun hact t ht hlow => ?twaitany⟩,
    fun h hact hnone => execTffs_none h hact (noneDone hnone),
    fun h hact hnone hp => execTwaitany_none h hact (noneDone hnone) (not_not.1 (mt pending.1 hp)),
    fun h hact hnone hp => mask ▸ execTwaitany_parks h hact (noneDone hnone) (pending.2 hp), execTwaitall_idle, fun h hact hp => ?all,
    fun h hact hp => mask ▸ execTwaitall_parks h hact (pending.2 hp)⟩
  case tffs =>
    obtain ⟨ts, e⟩ := lowest t ht hlow
    exact execTffs_takes h hact e
  case twaitany =>
    obtain ⟨ts, e⟩ := lowest t ht hlow
    exact execTwaitany_takes h hact e
  case all => exact ⟨_, mask ▸ c.g.doneBits_bit (c.tagMask s), execTwaitall_done h hact (not_not.1 (mt pending.1 hp))⟩

end Sys2Proof.Machine
end

section
/-! Tile instructions (R294 to R296, R308, R309): the operation that enters the queue of its core, and the token that it takes. -/

namespace Sys2Proof.Machine

open Sys2Proof

set_option Elab.async false

/-- An operation enters a queue behind what is there, and changes neither memory nor a group (R295). -/
theorem State.pushOp_enters (s : State) (k : Nat) (o : MatOp) :
    ((s.pushOp k o).core k).mq = (s.core k).mq ++ [o] ∧ (s.pushOp k o).mem = s.mem ∧ (s.pushOp k o).groups = s.groups :=
  ⟨by rw [State.pushOp, State.core_setCore], rfl, rfl⟩

/-- A token counts ISSUESEQ of its core on (R296). -/
theorem State.issue_bumpSeq (s : State) (tm j : Nat) :
    (((s.bumpSeq tm j).team tm).tileSeq j).issue = ((s.team tm).tileSeq j).issue + 1 := by
  rw [State.bumpSeq, State.team_updTeam]
  exact congrArg TileSeq.issue (SMap.get_set_same _ _ _ _)

/-- What the queue of its core holds when an operation has entered it. -/
def Enters (c : Ctx) (s u : State) (o : MatOp) : Prop :=
  (u.core c.core).mq = (s.core c.core).mq ++ [o] ∧ u.mem = s.mem ∧ u.groups = s.groups

/-- The next state number taken. -/
def State.numbered (s : State) : State := { s with nextId := s.nextId + 1 }

theorem Ctx.enters_numbered (c : Ctx) (s : State) (o : MatOp) : Enters c s (s.numbered.pushOp c.core o) o := s.numbered.pushOp_enters c.core o

/-! ### mzero, mrd and mwr (R308, R309) -/

section
variable {f : Enc} {s : State} {c : Ctx}

theorem execMzero_idle (h : Issues (.mzero f) tileOk s c) (hact : c.act = 0) : Acts c s (exec (.mzero f) s) := by
  rw [exec_mzero, execMzero, issue_next h, if_pos hact]
  exact acts_done _ _

theorem execMzero_waits (h : Issues (.mzero f) tileOk s c) (hact : c.act ≠ 0) (hroom : (s.core c.core).mqRoom = false) :
    exec (.mzero f) s = .next s := by
  rw [exec_mzero, execMzero, issue_next h, if_neg hact, hroom]
  rfl

theorem execMzero_enters (h : Issues (.mzero f) tileOk s c) (hact : c.act ≠ 0) (hroom : (s.core c.core).mqRoom = true) :
    Acts c (s.numbered.pushOp c.core (c.tileOp s.numbered 0xD1 s.nextId false)) (exec (.mzero f) s) := by
  rw [exec_mzero, execMzero, issue_next h, if_neg hact, hroom]
  exact acts_done _ _

/-- The operation of an mrd, whose row returns to D. -/
def Ctx.mrdOp (c : Ctx) (s : State) : MatOp :=
  { c.tileOp s.numbered 0xD4 s.nextId false with trow := c.ua.toNat, dest := some c.dest }

/-- The operation of an mwr, with the row that it writes. -/
def Ctx.mwrOp (c : Ctx) (s : State) : MatOp :=
  { c.tileOp s.numbered 0xD5 s.nextId false with trow := c.ua.toNat, vals := Vector.ofFn fun l => c.d .int l }

theorem Ctx.mwrOp_vals (c : Ctx) (s : State) (l : Lane) : (c.mwrOp s).vals[l] = c.d .int l := Vector.getElem_ofFn (h := l.isLt)

theorem execMrd_idle (h : Issues (.mrd f) tileOk s c) (hact : c.act = 0) : ComputesUniform c 0 s (exec (.mrd f) s) := by
  rw [exec_mrd, execMrd, issue_next h, if_pos hact]
  exact h.computesResult

section
variable (h : Issues (.mrd f) tileOk s c) (hact : c.act ≠ 0) (hrow : c.ua.toNat % 2 ^ 32 < 64)
include h hact hrow

theorem execMrd_waits (hroom : (s.core c.core).mqRoom = false) : exec (.mrd f) s = .next s := by
  rw [exec_mrd, execMrd, issue_next h, if_neg hact, if_neg (Nat.not_le.2 hrow), hroom]
  rfl

theorem execMrd_enters (hroom : (s.core c.core).mqRoom = true) :
    ActsPending c (c.mrdOp s).id (s.numbered.pushOp c.core (c.mrdOp s)) (exec (.mrd f) s) := by
  rw [exec_mrd, execMrd, issue_next h, if_neg hact, if_neg (Nat.not_le.2 hrow), hroom]
  exact acts_pending _ _ _

end

theorem execMwr_idle (h : Issues (.mwr f) mwrOwn s c) (hact : c.act = 0) : Acts c s (exec (.mwr f) s) := by
  rw [exec_mwr, execMwr, issue_next h, if_pos hact]
  exact acts_done _ _

section
variable (h : Issues (.mwr f) mwrOwn s c) (hact : c.act ≠ 0) (hrow : c.ua.toNat % 2 ^ 32 < 64)
include h hact hrow

theorem execMwr_waits (hroom : (s.core c.core).mqRoom = false) : exec (.mwr f) s = .next s := by
  rw [exec_mwr, execMwr, issue_next h, if_neg hact, if_neg (Nat.not_le.2 hrow), hroom]
  rfl

theorem execMwr_enters (hroom : (s.core c.core).mqRoom = true) : Acts c (s.numbered.pushOp c.core (c.mwrOp s)) (exec (.mwr f) s) := by
  rw [exec_mwr, execMwr, issue_next h, if_neg hact, if_neg (Nat.not_le.2 hrow), hroom]
  exact acts_done _ _

end
end

/-! ### mld, mst and mcvt (R308, R309) -/

/-- The operation of an mld, mst or mcvt, with its token. -/
def Ctx.tileMemOp (c : Ctx) (s : State) (op : Nat) : MatOp :=
  { c.tileOp s.numbered op s.nextId true with addr := c.ua, stride := BitVec.ofNat 32 (c.ub.toNat % 2 ^ 32) }

/-- The state in which an operation with a token has entered its core's queue. -/
def Ctx.tileMemSent (c : Ctx) (s : State) (op : Nat) : State :=
  (s.numbered.bumpSeq c.g.team (s.teamCore c.slot)).pushOp c.core (c.tileMemOp s op)

/-- The area of a tile operation is aligned, its rows do not overlap, and one in the scratchpad ends within it (R308). -/
structure Ctx.AreaOk (c : Ctx) (s : State) (w : Nat) : Prop where
  addr : c.ua.toNat % 16 = 0
  stride : c.ub.toNat % 2 ^ 32 % 16 = 0
  apart : 64 * w ≤ c.ub.toNat % 2 ^ 32
  fits : c.tileSp = true → c.ua.toNat % 2 ^ 32 + 63 * (c.ub.toNat % 2 ^ 32) + 64 * w ≤ (s.team c.g.team).spadSize

section
variable {i : Instr} {s : State} {c : Ctx} {op : Nat}

theorem tileMem_idle (h : Issues i tileOk s c) (hd : i.spec.map (fun p => p.d.used) = some true) (hact : c.act = 0) :
    ComputesUniform c 0 s (tileMem i op s) := by
  rw [tileMem, issue_next h]
  dsimp only
  rw [if_pos hact]
  exact h.computesResult hd

/-- A tile instruction whose area passes its checks enters the queue, or waits at issue for it and for the accesses of its group. -/
theorem tileMem_eq (h : Issues i tileOk s c) (hact : c.act ≠ 0) (hok : c.AreaOk s (tileWidth op c.e.ty)) : tileMem i op s =
    if s.holdAccess c.slot || !(s.core c.core).mqRoom then .next s
    else .next (result c false (uniform ((c.tileMemOp s op).tok.setWidth 64)) noFlags (c.tileMemSent s op)) := by
  obtain ⟨haddr, hstride, hapart, hfits⟩ := hok
  rw [tileMem, issue_next h]
  dsimp only
  rw [if_neg hact, if_neg (not_not.2 haddr), if_neg (not_or.2 ⟨not_not.2 hstride, Nat.not_lt.2 hapart⟩),
    if_neg (fun hsp => absurd (hfits hsp.1) (Nat.not_le.2 hsp.2))]
  rfl

theorem tileMem_waits (h : Issues i tileOk s c) (hact : c.act ≠ 0) (hok : c.AreaOk s (tileWidth op c.e.ty))
    (hwait : s.holdAccess c.slot = true ∨ (s.core c.core).mqRoom = false) : tileMem i op s = .next s := by
  rw [tileMem_eq h hact hok, if_pos (by simpa using hwait)]

theorem tileMem_enters (h : Issues i tileOk s c) (hd : i.spec.map (fun p => p.d.used) = some true) (hact : c.act ≠ 0)
    (hok : c.AreaOk s (tileWidth op c.e.ty)) (hhold : s.holdAccess c.slot = false) (hroom : (s.core c.core).mqRoom = true) :
    ComputesUniform c ((c.tileMemOp s op).tok.setWidth 64) (c.tileMemSent s op) (tileMem i op s) := by
  rw [tileMem_eq h hact hok, hhold, hroom]
  exact h.computesResult hd

end

theorem Ctx.tileMemSent_enters (c : Ctx) (s : State) (op : Nat) : Enters c s (c.tileMemSent s op) (c.tileMemOp s op) :=
  State.pushOp_enters _ _ _

theorem Ctx.tileMemSent_seq (c : Ctx) (s : State) (op : Nat) : let j := s.teamCore c.slot
    (((c.tileMemSent s op).team c.g.team).tileSeq j).issue = ((s.team c.g.team).tileSeq j).issue + 1 :=
  s.numbered.issue_bumpSeq _ _

theorem ofNat_toNat_mod (x : DWord) : BitVec.ofNat 32 (x.toNat % 2 ^ 32) = x.setWidth 32 := by
  apply BitVec.eq_of_toNat_eq
  rw [BitVec.toNat_ofNat, BitVec.toNat_setWidth, Nat.mod_mod]

/-- Settles O35: mzero, mrd and mwr by their operations; mld, mst and mcvt are forms of `tileMem`, whose operation takes a token. -/
theorem tileInstructionsQueue : Obligations.TileInstructionsQueue := by
  intro f s c j room row is enters mem
  have tokens (i : Instr) (op w : Nat) (hexec : exec i s = tileMem i op s) (hd : i.spec.map (fun p => p.d.used) = some true)
      (hw : tileWidth op c.e.ty = w) : mem i op w := by
    intro h
    rw [hexec]
    refine ⟨tileMem_idle h hd, fun hact haddr hstride hapart hfits => ?_⟩
    have ok : c.AreaOk s (tileWidth op c.e.ty) := hw ▸ ⟨haddr, hstride, hapart, hfits⟩
    have core : s.teamCore c.slot = j := by rw [State.teamCore, ← h.group]; rfl
    refine ⟨tileMem_waits h hact ok, fun hhold hroom => ⟨c.tileMemSent s op, c.tileMemOp s op, ⟨rfl, rfl, rfl, rfl, rfl, rfl, rfl⟩, rfl,
      ofNat_toNat_mod c.ub, rfl, ?_, c.tileMemSent_enters s op, ?_, tileMem_enters h hd hact ok hhold hroom⟩⟩
    · rw [← core]
      rfl
    · rw [← core]
      exact c.tileMemSent_seq s op
  refine ⟨fun h => ⟨execMzero_idle h, execMzero_waits h, fun hact hroom => ?mzero⟩, ?mld, ?mst, fun _ => ?mcvt,
    fun h => ⟨execMrd_idle h, execMrd_waits h, fun hact hrow hroom => ?mrd⟩, fun h => ⟨execMwr_idle h, execMwr_waits h, fun hact hrow hroom => ?mwr⟩⟩
  case mzero =>
    exact ⟨_, c.tileOp s.numbered 0xD1 s.nextId false, ⟨rfl, rfl, rfl, rfl, rfl, rfl, rfl⟩, rfl, c.enters_numbered s _, execMzero_enters h hact hroom⟩
  case mld => exact tokens _ 0xD2 4 (exec_mld f s) rfl rfl
  case mst => exact tokens _ 0xD3 4 (exec_mst f s) rfl rfl
  case mcvt => exact tokens _ 0xD6 _ (exec_mcvt f s) rfl rfl
  case mrd =>
    exact ⟨_, c.mrdOp s, ⟨rfl, rfl, rfl, rfl, rfl, rfl, rfl⟩, rfl, rfl, c.enters_numbered s _, execMrd_enters h hact hrow hroom⟩
  case mwr =>
    exact ⟨_, c.mwrOp s, ⟨rfl, rfl, rfl, rfl, rfl, rfl, rfl⟩, rfl, c.mwrOp_vals s, c.enters_numbered s _, execMwr_enters h hact hrow hroom⟩

end Sys2Proof.Machine
end

section
/-! The matrix unit's signs and waits (R301, R304, R305): mma by its register, mofence by the cores that it visits, mwait by its token. -/

namespace Sys2Proof.Machine

open Sys2Proof

set_option Elab.async false

/-! ### mma (R301) -/

/-- The operands of an mma: those of its lowest active lane. -/
def Ctx.mmaOps (c : Ctx) : MmaOps :=
  { a := c.e.a.val128 c.rc (lowLane c.act), b := c.e.b.val128 c.rc (lowLane c.act), c := c.uc.setWidth 32 }

/-- The token of the generation of a register in which an mma counts (R296). -/
def Ctx.mmaTok (c : Ctx) (s : State) : Nat :=
  (((s.team c.g.team).cvReg (c.e.func.toNat % 16)).signGen c.g.gidx c.act).toNat * 16 + c.e.func.toNat % 16

/-- The state in which an mma has signed, and its group knows the tile that it uses. -/
def Ctx.mmaSigned (c : Ctx) (s : State) : State :=
  let n := c.e.func.toNat % 16
  (s.cvSign c.slot n c.act (some c.mmaOps) c.pc c.next (s.allOpen c.slot)).updGroup c.slot fun g =>
    { g with mmaOut := g.mmaOut ++ [(BitVec.ofNat 32 (c.mmaTok s), s.mmaCore c.g.team n * 8 + c.mmaOps.c.toNat % 8, c.mmaOps)] }

theorem CvReg.signGen_new {r : CvReg} {gidx : Nat} {m : LaneMask} (h : m &&& r.signedOf gidx = 0) : r.signGen gidx m = r.gen := if_pos h

section
variable {f : Enc} {s : State} {c : Ctx}

theorem execMma_idle (h : Issues (.mma f) signOk s c) (hact : c.act = 0) : ComputesUniform c 0 s (exec (.mma f) s) := by
  rw [exec_mma, execMma, issue_next h]
  dsimp only
  rw [if_pos hact]
  exact h.computesResult

/-- An mma waits at issue for its group's accesses, and for the cycle in which its register was set to end. -/
theorem execMma_waits (h : Issues (.mma f) signOk s c) (hact : c.act ≠ 0)
    (hwait : ¬ (s.holdAccess c.slot = false ∧ ((s.team c.g.team).cvReg (c.e.func.toNat % 16)).justSet s.cycle = false)) :
    exec (.mma f) s = .next s := by
  rw [exec_mma, execMma, issue_next h]
  dsimp only
  rw [if_neg hact, if_pos (by rwa [← Bool.or_eq_false_iff, Bool.not_eq_false] at hwait)]

section
variable (h : Issues (.mma f) signOk s c) (hact : c.act ≠ 0) (hhold : s.holdAccess c.slot = false)
  (hset : ((s.team c.g.team).cvReg (c.e.func.toNat % 16)).justSet s.cycle = false) (hin : s.cvLate c.g.team (c.e.func.toNat % 16) = false)
include h hact hhold hset hin

theorem execMma_faulted (hst : ((s.team c.g.team).cvReg (c.e.func.toNat % 16)).st = .faulted) :
    Acts c (s.lateFault c.slot (syncFault (c.e.func.toNat % 16) 0x07 6 c.pc c.next c.act c.act)) (exec (.mma f) s) := by
  rw [exec_mma, execMma, issue_next h]
  dsimp only
  rw [if_neg hact, hhold, hset, State.cvCatch_inTime hin, if_pos hst]
  exact acts_done _ _

theorem execMma_signs (hst : ((s.team c.g.team).cvReg (c.e.func.toNat % 16)).st ≠ .faulted) :
    ComputesUniform c (BitVec.ofNat 64 (c.mmaTok s)) (c.mmaSigned s) (exec (.mma f) s) := by
  rw [exec_mma, execMma, issue_next h]
  dsimp only
  rw [if_neg hact, hhold, hset, State.cvCatch_inTime hin, if_neg hst]
  exact h.computesResult

end
end

/-! ### mofence (R304) -/

/-- A step at core `k` that leaves it as `P` says and no other core, no byte of memory and no group changed. -/
structure State.AtCore (k : Nat) (P : Core → Core → Prop) (s t : State) : Prop where
  core : P (s.core k) (t.core k)
  others : ∀ j, j ≠ k → t.core j = s.core j
  mem : t.mem = s.mem
  groups : t.groups = s.groups

theorem State.atCore_setCore {s : State} {k : Nat} {x : Core} {P : Core → Core → Prop} (h : P (s.core k) x) : s.AtCore k P (s.setCore k x) where
  core := by rwa [State.core_setCore]
  others _ hj := State.core_setCore_ne _ _ hj
  mem := rfl
  groups := rfl

/-- Cores visited one after the other: each is left as its own visit leaves it, and any other core is as it was. -/
theorem State.visit_cores {P : Nat → Core → Core → Prop} {step : State → Nat → State} {ks : List Nat} (hnodup : ks.Nodup) : ∀ s : State,
    (∀ k ∈ ks, ∀ t : State, t.core k = s.core k → t.AtCore k (P k) (step t k)) →
    let u := ks.foldl step s
    (∀ k ∈ ks, P k (s.core k) (u.core k)) ∧ (∀ k, k ∉ ks → u.core k = s.core k) ∧ u.mem = s.mem ∧ u.groups = s.groups := by
  induction ks with
  | nil => exact fun s _ => ⟨fun k hk => absurd hk List.not_mem_nil, fun _ _ => rfl, rfl, rfl⟩
  | cons j ks ih =>
    intro s hstep
    obtain ⟨hj, hks⟩ := List.nodup_cons.1 hnodup
    have first := hstep j List.mem_cons_self s rfl
    have ne {k : Nat} (hk : k ∈ ks) : k ≠ j := fun e => hj (e ▸ hk)
    obtain ⟨visited, kept, mem, groups⟩ := ih hks (step s j) fun k hk t ht =>
      hstep k (List.mem_cons_of_mem _ hk) t (ht.trans (first.others k (ne hk)))
    refine ⟨fun k hk => ?_, fun k hk => ?_, mem.trans first.mem, groups.trans first.groups⟩
    · rcases List.mem_cons.1 hk with rfl | hk
      · have := first.core
        rwa [← kept k hj] at this
      · have := visited k hk
        rwa [first.others k (ne hk)] at this
    · obtain ⟨hkj, hk⟩ := not_or.1 (mt List.mem_cons.2 hk)
      exact (kept k hk).trans (first.others k hkj)

theorem Team.mem_coreList {t : Team} {k : Nat} : k ∈ t.coreList ↔ t.core ≤ k ∧ k < t.core + t.cores := by
  rw [Team.coreList, List.mem_map]
  constructor
  · rintro ⟨j, hj, rfl⟩
    have := List.mem_range.1 hj
    omega
  · exact fun h => ⟨k - t.core, List.mem_range.2 (by omega), by omega⟩

theorem Team.nodup_coreList (t : Team) : t.coreList.Nodup := List.nodup_range.map fun _ _ h => Nat.add_left_cancel h

/-! ### mwait (R305) -/

section
variable {f : Enc} {s : State} {c : Ctx}

theorem execMwait_idle (h : Issues (.mwait f) noOwn s c) (hact : c.act = 0) : ComputesUniform c 0 s (exec (.mwait f) s) := by
  rw [exec_mwait, execMwait, issue_next h]
  dsimp only
  rw [if_pos hact]
  exact h.computesResult

theorem execMwait_invalid (h : Issues (.mwait f) noOwn s c) (hact : c.act ≠ 0) (ht : tokenInvalid (s.team c.g.team) (c.ua.setWidth 32) = true) :
    ComputesUniform c 2 s (exec (.mwait f) s) := by
  rw [exec_mwait, execMwait, issue_next h]
  dsimp only
  rw [if_neg hact, if_pos ht]
  exact h.computesResult

section
variable (h : Issues (.mwait f) noOwn s c) (hact : c.act ≠ 0) (ht : tokenInvalid (s.team c.g.team) (c.ua.setWidth 32) = false)
include h hact ht

theorem execMwait_finished (hd : (s.team c.g.team).tokenDone (c.ua.setWidth 32) = true) :
    ComputesUniform c (BitVec.ofNat 64 ((s.team c.g.team).tokenStatus (c.ua.setWidth 32)))
      ((s.updGroup c.slot fun g => g.mmaWaited (s.team c.g.team)).acquireInval c.core) (exec (.mwait f) s) := by
  rw [exec_mwait, execMwait, issue_next h]
  dsimp only
  rw [if_neg hact, if_neg (Bool.eq_false_iff.1 ht), if_pos hd]
  exact h.computesResult

theorem execMwait_parks (hd : (s.team c.g.team).tokenDone (c.ua.setWidth 32) = false) :
    Acts c (s.block c.slot (.mwait (c.ua.setWidth 32) c.dest)) (exec (.mwait f) s) := by
  rw [exec_mwait, execMwait, issue_next h]
  dsimp only
  rw [if_neg hact, if_neg (Bool.eq_false_iff.1 ht), if_neg (Bool.eq_false_iff.1 hd)]
  exact acts_done _ _

end
end

/-- Settles O36: mma by the state of its register, mofence by the cores that it visits, mwait by its token. -/
theorem mmaAndItsWaits : Obligations.MmaAndItsWaits := by
  intro f s c n t r ops gen goes inTime tok w
  refine ⟨execMma_idle, CvReg.signGen_new, execMma_waits, fun h hact ⟨⟨hhold, hset⟩, hin⟩ => execMma_faulted h hact hhold hset hin,
    fun h hact ⟨⟨hhold, hset⟩, hin⟩ => execMma_signs h hact hhold hset hin, fun h hact => ?idle, fun h hact => ?mofence,
    execMwait_idle, execMwait_invalid, execMwait_finished, execMwait_parks⟩
  case idle =>
    rw [exec_mofence, execMofence]
    exact (groupLevel_acts h _).1 hact
  case mofence =>
    obtain ⟨visited, kept, mem, groups⟩ := State.visit_cores (P := fun _ x y => y = { x with staged := [] }) t.nodup_coreList s
      fun k _ u _ => State.atCore_setCore (s := u) (k := k) rfl
    refine ⟨_, fun k => ?_, mem, groups, ?_⟩
    · split
      · next hk => exact visited k (Team.mem_coreList.2 hk)
      · next hk => exact kept k (mt Team.mem_coreList.1 hk)
    · rw [exec_mofence, execMofence]
      exact (groupLevel_acts h _).2 hact

end Sys2Proof.Machine
end

section
/-! Draining and refilling (R310, R311): mdrain, mfill and mresume visit the cores of their team one after the other. -/

namespace Sys2Proof.Machine

open Sys2Proof

set_option Elab.async false

/-- Areas that are multiples of 64 leave no fault. -/
theorem areaFault_none {as : List DWord} (h : ∀ a ∈ as, a.toNat % 64 = 0) : areaFault as = none :=
  List.find?_eq_none.2 fun a ha => by simp [h a ha]

/-- Checks none of which finds anything. -/
theorem copyChks_good {xs : List LaneChk} (h : ∀ x ∈ xs, x.good = true) : ∃ es, copyChks xs = .ok es := by
  induction xs with
  | nil => exact ⟨[], rfl⟩
  | cons x xs ih =>
    obtain ⟨p, e, rfl⟩ := LaneChk.good_iff.1 (h x List.mem_cons_self)
    obtain ⟨es, hes⟩ := ih fun y hy => h y (List.mem_cons_of_mem _ hy)
    exact ⟨e.toList ++ es, by rw [copyChks, hes]⟩

theorem State.atCore_pushOp (s : State) (k : Nat) (o : MatOp) : s.AtCore k (fun x y => y.mq = x.mq ++ [o]) (s.pushOp k o) :=
  State.atCore_setCore (x := { s.core k with mq := (s.core k).mq ++ [o], gated := false }) rfl

theorem State.core_dropX (s : State) (cl req k : Nat) : (s.dropX cl req).core k = s.core k := by
  unfold State.dropX
  dsimp only
  split <;> rfl

/-! ### mdrain (R310) -/

/-- The operation of an mdrain, with its token, before it is told which core's part it is. -/
def Ctx.drainOp (c : Ctx) (s : State) : MatOp :=
  { c.tileOp s.numbered 0xD9 s.nextId true with addr := c.ua, addr2 := c.uc, addr3 := c.ub }

/-- The part of an mdrain at a core of its team. -/
def Ctx.drainPart (c : Ctx) (s : State) (k : Nat) : MatOp :=
  { c.drainOp s with part := k - (s.team c.g.team).core, hasTok := (c.drainOp s).hasTok && k == c.core }

/-- The state in which an mdrain has entered the queue of every core of its team. -/
def Ctx.drained (c : Ctx) (s : State) : State :=
  (s.team c.g.team).coreList.foldl (fun u k => u.pushOp k (c.drainPart s k)) (s.numbered.bumpSeq c.g.team (s.teamCore c.slot))

theorem Ctx.drained_queues (c : Ctx) (s : State) :
    (∀ k ∈ (s.team c.g.team).coreList, ((c.drained s).core k).mq = (s.core k).mq ++ [c.drainPart s k]) ∧ (c.drained s).mem = s.mem ∧
    (c.drained s).groups = s.groups := by
  obtain ⟨visited, -, mem, groups⟩ := State.visit_cores (P := fun k x y => y.mq = x.mq ++ [c.drainPart s k]) (s.team c.g.team).nodup_coreList
    (s.numbered.bumpSeq c.g.team (s.teamCore c.slot)) fun k _ u _ => u.atCore_pushOp k _
  exact ⟨visited, mem, groups⟩

section
variable {f : Enc} {s : State} {c : Ctx}

theorem execMdrain_idle (h : Issues (.mdrain f) drainOwn s c) (hact : c.act = 0) : ComputesUniform c 0 s (exec (.mdrain f) s) := by
  rw [exec_mdrain, execMdrain, issue_next h]
  dsimp only
  rw [if_pos hact]
  exact h.computesResult

theorem execMdrain_enters (h : Issues (.mdrain f) drainOwn s c) (hact : c.act ≠ 0) (hareas : areaFault [c.ua, c.ub, c.uc] = none)
    (hhold : s.holdAccess c.slot = false) (hroom : ∀ k ∈ (s.team c.g.team).coreList, (s.core k).mqRoom = true) :
    ComputesUniform c ((c.drainOp s).tok.setWidth 64) (c.drained s) (exec (.mdrain f) s) := by
  have parts : (s.team c.g.team).coreList.foldl (fun u k => u.pushOp k (c.drainPart s k)) (s.numbered.bumpSeq c.g.team (s.teamCore c.slot)) =
      (List.range (s.team c.g.team).cores).foldl (fun u j => u.pushOp ((s.team c.g.team).core + j)
        { c.drainOp s with part := j, hasTok := (c.drainOp s).hasTok && (s.team c.g.team).core + j == c.core })
        (s.numbered.bumpSeq c.g.team (s.teamCore c.slot)) := by
    simp only [Team.coreList, List.foldl_map, Ctx.drainPart, Nat.add_sub_cancel_left]
  have free : ((s.team c.g.team).coreList.all fun k => (s.core k).mqRoom || (s.core k).stuckHead) = true :=
    List.all_eq_true.2 fun k hk => by rw [hroom k hk]; rfl
  rw [exec_mdrain, execMdrain, issue_next h]
  dsimp only
  rw [if_neg hact, hareas]
  dsimp only
  rw [hhold, free, Ctx.drained, parts]
  exact h.computesResult

end

/-! ### mfill (R311) -/

/-- The place of element `e` of a team's tiles in the store of a core. -/
def Core.tileKey (k : Core) (tm e : Nat) : Nat := k.physTile tm (e / 4096) * 4096 + e % 4096

/-- The first `n` elements of a team's tiles written to the store of a core. -/
def Core.fillTiles (k : Core) (tm : Nat) (w : Nat → Word) (n : Nat) : Core :=
  (List.range n).foldl (fun (k : Core) e => k.setTile (k.tileKey tm e) (w e)) k

theorem Core.fillTiles_succ (k : Core) (tm : Nat) (w : Nat → Word) (n : Nat) :
    k.fillTiles tm w (n + 1) = (k.fillTiles tm w n).setTile ((k.fillTiles tm w n).tileKey tm n) (w n) := by
  rw [Core.fillTiles, List.range_succ, List.foldl_append]
  rfl

theorem Core.tileAt_setTile_same (k : Core) (a : Nat) (x : Word) : (k.setTile a x).tileAt a = x := by
  unfold Core.setTile Core.tileAt
  dsimp only
  split
  · next hx => rw [SMap.get_del_same, hx]
  · exact SMap.get_set_same _ _ _ _

theorem Core.tileAt_setTile_ne (k : Core) {a b : Nat} (x : Word) (h : b ≠ a) : (k.setTile a x).tileAt b = k.tileAt b := by
  unfold Core.setTile Core.tileAt
  dsimp only
  split
  · exact SMap.get_del_ne _ _ _ _ h
  · exact SMap.get_set_ne _ _ _ _ _ h

/-- Filling tiles changes neither the queue of a core nor which tiles a team holds there. -/
theorem Core.fillTiles_keeps (k : Core) (tm : Nat) (w : Nat → Word) (n : Nat) :
    (k.fillTiles tm w n).mq = k.mq ∧ (k.fillTiles tm w n).tileOwner = k.tileOwner :=
  List.foldlRecOn (motive := fun (x : Core) => x.mq = k.mq ∧ x.tileOwner = k.tileOwner) _ _ ⟨rfl, rfl⟩ fun _ hx _ _ => hx

theorem Core.tileKey_fillTiles (k : Core) (tm : Nat) (w : Nat → Word) (n e : Nat) : (k.fillTiles tm w n).tileKey tm e = k.tileKey tm e := by
  rw [Core.tileKey, Core.physTile, (k.fillTiles_keeps tm w n).2]
  rfl

/-- Elements at places of their own are all read as written. -/
theorem Core.tileAt_fillTiles {k : Core} {tm : Nat} (w : Nat → Word) {n : Nat}
    (hinj : ∀ d e, d < n → e < n → k.tileKey tm d = k.tileKey tm e → d = e) :
    ∀ e, e < n → (k.fillTiles tm w n).tileAt (k.tileKey tm e) = w e := by
  induction n with
  | zero => exact fun e he => absurd he (Nat.not_lt_zero _)
  | succ n ih =>
    intro e he
    rw [Core.fillTiles_succ, Core.tileKey_fillTiles]
    by_cases hen : e = n
    · rw [hen, Core.tileAt_setTile_same]
    · have hlt : e < n := by omega
      rw [Core.tileAt_setTile_ne _ _ fun hk => hen (hinj e n he (Nat.lt_succ_self n) hk)]
      exact ih (fun a b ha hb => hinj a b (by omega) (by omega)) e hlt

/-- Tiles in stores of their own have elements at places of their own. -/
theorem Core.tileKey_injective {k : Core} {tm acc : Nat} (h : ∀ i j, i < acc → j < acc → k.physTile tm i = k.physTile tm j → i = j) :
    ∀ d e, d < acc * 4096 → e < acc * 4096 → k.tileKey tm d = k.tileKey tm e → d = e := by
  intro d e hd he hkey
  unfold Core.tileKey at hkey
  have tile : d / 4096 = e / 4096 := h _ _ (by omega) (by omega) (by omega)
  omega

/-- Element `e` of the tiles of a team core, as the tile areas hold it in a state. -/
def Ctx.areaElement (c : Ctx) (s : State) (j e : Nat) : Word :=
  (c.fillWord s (tileArea c.ua c.uc j + BitVec.ofNat 64 (4 * e / 8 * 8))).extractLsb' (32 * (e % 2)) 32

/-- The state in which the tiles of every core of the team are loaded. -/
def Ctx.refilled (c : Ctx) (s : State) (u : State) : State :=
  let t := s.team c.g.team
  t.coreList.foldl (fun u k => u.setCore k ((u.core k).fillTiles c.g.team (c.areaElement s (k - t.core)) (t.acc * 4096))) u

theorem Ctx.refilled_tiles (c : Ctx) (s u : State) : let t := s.team c.g.team
    (∀ k ∈ t.coreList, ((c.refilled s u).core k) = (u.core k).fillTiles c.g.team (c.areaElement s (k - t.core)) (t.acc * 4096)) ∧
    (c.refilled s u).mem = u.mem ∧ (c.refilled s u).groups = u.groups := by
  intro t
  obtain ⟨visited, -, mem, groups⟩ := State.visit_cores
    (P := fun k x y => y = x.fillTiles c.g.team (c.areaElement s (k - t.core)) (t.acc * 4096)) t.nodup_coreList u
    fun k _ u _ => State.atCore_setCore (s := u) (k := k) rfl
  exact ⟨visited, mem, groups⟩

/-- Without a record area there are no records (R311). -/
theorem Ctx.fillArea_none {c : Ctx} (s : State) (j : Nat) (h : c.ub = 0) : c.fillArea s j = ([], []) := if_pos h

section
variable {f : Enc} {s v : State} {c : Ctx}

theorem execMfill_idle (h : Issues (.mfill f) drainOwn s c) (hact : c.act = 0) : Acts c s (exec (.mfill f) s) := by
  rw [exec_mfill, execMfill, issue_next h]
  dsimp only
  rw [if_pos hact]
  exact acts_done _ _

/-- An mfill with no record area, whose blocks pass and can be read, loads the tiles. -/
theorem execMfill_loads (h : Issues (.mfill f) drainOwn s c) (hact : c.act ≠ 0) (hub : c.ub = 0) (hareas : areaFault [c.ua, c.ub, c.uc] = none)
    (hhold : s.holdAccess c.slot = false) (hopen : s.allOpen c.slot = []) {es : List TlbEntry}
    (hes : copyChks ((c.fillBlocks s (s.team c.g.team)).map (c.blockChk s)) = .ok es)
    (hv : s.lineReads c.cluster 64 ((c.fillBlocks s (s.team c.g.team)).map fun a => (c.blockChk s a).pa) = .ok v) :
    Acts c (c.refilled s ((v.dropX c.cluster c.req).useTlbsIn c.cluster es).bump) (exec (.mfill f) s) := by
  have good (n : Nat) : ((List.range n).any fun j => (c.fillArea s j).1.any recBad || recBad (c.fillArea s j).2) = false :=
    List.any_eq_false.2 fun j _ => by rw [Ctx.fillArea_none s j hub]; decide
  have cores (u : State) : c.refilled s u = (List.range (s.team c.g.team).cores).foldl (fun u j =>
      u.setCore ((s.team c.g.team).core + j) ((u.core ((s.team c.g.team).core + j)).fillTiles c.g.team (c.areaElement s j)
        ((s.team c.g.team).acc * 4096))) u := by
    simp only [Ctx.refilled, Team.coreList, List.foldl_map, Nat.add_sub_cancel_left]
  rw [exec_mfill, execMfill, issue_next h]
  dsimp only
  rw [if_neg hact, hareas]
  dsimp only
  rw [hhold, hopen, hes]
  dsimp only
  rw [hv]
  dsimp only
  rw [good, if_neg Bool.false_ne_true, cores]
  simp only [Ctx.fillArea_none s _ hub, List.foldl_nil, if_pos hub]
  exact acts_done _ _

end

/-! ### mresume (R311) -/

/-- The operations of the team that an mresume names. -/
def Ctx.resumes (c : Ctx) (o : MatOp) : Bool :=
  o.team == c.g.team && ((c.ua.setWidth 32 : Word) == 0xFFFFFFFF || (o.hasTok && o.tok == c.ua.setWidth 32))

/-- An operation that is not frozen visited by an mresume: it goes on if it is held. -/
def State.resumeOp (core : Nat) (s : State) (o : MatOp) : State :=
  match o.st with
  | .held => s.updOp core o.id fun o => { o with st := .queued }
  | .frozen => match (s.cluster (coreCluster core)).recordOf core o.id with
    | some i => s.answer (coreCluster core) i 0
    | none => s
  | _ => s

/-- An operation of this number is in the queue of a core. -/
def Core.hasOp (k : Core) (id : Nat) : Prop := ∃ p ∈ k.mq, p.id = id

/-- An operation of this number is in the queue of a core and is not held back. -/
def Core.goesOn (k : Core) (id : Nat) : Prop := ∃ p ∈ k.mq, p.id = id ∧ p.st = .queued

/-- What visiting operations that are not frozen leaves of a core: those that are held and in its queue go on, and none is lost. -/
structure Resumed (os : List MatOp) (x y : Core) : Prop where
  has : ∀ id, x.hasOp id → y.hasOp id
  going : ∀ id, x.goesOn id → y.goesOn id
  held : ∀ o ∈ os, o.st = .held → x.hasOp o.id → y.goesOn o.id

theorem Resumed.refl {os : List MatOp} (x : Core) (h : ∀ o ∈ os, o.st ≠ .held) : Resumed os x x where
  has _ h := h
  going _ h := h
  held o ho hst := absurd hst (h o ho)

theorem Resumed.cons {o : MatOp} {os : List MatOp} {x y z : Core} (h : Resumed [o] x y) (h' : Resumed os y z) : Resumed (o :: os) x z where
  has id hid := h'.has id (h.has id hid)
  going id hid := h'.going id (h.going id hid)
  held p hp hst hid := by
    rcases List.mem_cons.1 hp with rfl | hp
    · exact h'.going _ (h.held p (List.mem_singleton_self p) hst hid)
    · exact h'.held p hp hst (h.has _ hid)

/-- A core on which every operation of a number is made to go on. -/
theorem resumed_updOp (k : Core) (o : MatOp) :
    Resumed [o] k { k with mq := k.mq.map (fun p => if p.id == o.id then { p with st := .queued } else p), gated := false } where
  has id := by
    rintro ⟨p, hp, rfl⟩
    exact ⟨_, List.mem_map_of_mem hp, by split <;> rfl⟩
  going id := by
    rintro ⟨p, hp, rfl, hst⟩
    exact ⟨_, List.mem_map_of_mem hp, by split <;> rfl, by split; rfl; exact hst⟩
  held p hp _ := by
    obtain rfl := List.mem_singleton.1 hp
    rintro ⟨q, hq, hid⟩
    exact ⟨_, List.mem_map_of_mem hq, by simp [hid], by simp [hid]⟩

theorem State.AtCore.refl {s : State} {k : Nat} {P : Core → Core → Prop} (h : P (s.core k) (s.core k)) : s.AtCore k P s := ⟨h, fun _ _ => rfl, rfl, rfl⟩

theorem State.resumeOp_resumed (s : State) (core : Nat) (o : MatOp) (h : o.st ≠ .frozen) : s.AtCore core (Resumed [o]) (State.resumeOp core s o) := by
  have other (hst : o.st ≠ .held) : s.AtCore core (Resumed [o]) s := .refl (.refl _ fun p hp => by rwa [List.mem_singleton.1 hp])
  unfold State.resumeOp
  split
  · exact State.atCore_setCore (resumed_updOp (s.core core) o)
  · next hst => exact absurd hst h
  · next hheld _ => exact other hheld

/-- Operations that are not frozen visited one after the other. -/
theorem State.resumeOps_resumed (core : Nat) (os : List MatOp) : ∀ s : State, (∀ o ∈ os, o.st ≠ .frozen) →
    s.AtCore core (Resumed os) (os.foldl (State.resumeOp core) s) := by
  induction os with
  | nil => exact fun s _ => .refl (.refl _ fun o ho => absurd ho List.not_mem_nil)
  | cons o os ih =>
    intro s h
    have first := s.resumeOp_resumed core o (h o List.mem_cons_self)
    have rest := ih (State.resumeOp core s o) fun p hp => h p (List.mem_cons_of_mem _ hp)
    exact ⟨first.core.cons rest.core, fun j hj => (rest.others j hj).trans (first.others j hj), rest.mem.trans first.mem,
      rest.groups.trans first.groups⟩

/-- A core visited by an mresume that names some operations. -/
def State.resumeCore (names : MatOp → Bool) (s : State) (core : Nat) : State := ((s.core core).mq.filter names).foldl (State.resumeOp core) s

theorem State.resumeCore_resumed {names : MatOp → Bool} {s : State} {core : Nat} (h : ∀ o ∈ (s.core core).mq, names o = true → o.st ≠ .frozen) :
    s.AtCore core (fun x y => Resumed (x.mq.filter names) x y) (s.resumeCore names core) := by
  have visit := State.resumeOps_resumed core ((s.core core).mq.filter names) s fun o ho => h o (List.mem_filter.1 ho).1 (List.mem_filter.1 ho).2
  exact ⟨visit.core, visit.others, visit.mem, visit.groups⟩

/-- The state in which every core of the team has been visited. -/
def Ctx.resumed (c : Ctx) (s : State) : State := (s.team c.g.team).coreList.foldl (State.resumeCore c.resumes) s

theorem Ctx.resumed_queues {c : Ctx} {s : State} (h : ∀ k ∈ (s.team c.g.team).coreList, ∀ o ∈ (s.core k).mq, c.resumes o = true → o.st ≠ .frozen) :
    (∀ k ∈ (s.team c.g.team).coreList, ∀ o ∈ (s.core k).mq, c.resumes o = true → o.st = .held → ((c.resumed s).core k).goesOn o.id) ∧
    (c.resumed s).mem = s.mem ∧ (c.resumed s).groups = s.groups := by
  obtain ⟨visited, -, mem, groups⟩ := State.visit_cores (P := fun _ x y => Resumed (x.mq.filter c.resumes) x y) (step := State.resumeCore c.resumes)
    (s.team c.g.team).nodup_coreList s fun k hk u hu => State.resumeCore_resumed (hu ▸ h k hk)
  exact ⟨fun k hk o ho hn hst => (visited k hk).held o (List.mem_filter.2 ⟨ho, hn⟩) hst ⟨o, ho, rfl⟩, mem, groups⟩

/-- mresume's effect: each core of the team visited. -/
theorem execMresume_eq (f : Enc) (s : State) : exec (.mresume f) s = groupLevel (.mresume f) noOwn (fun c s => c.resumed s) s := by
  rw [exec_mresume, execMresume]
  rfl

/-- Settles O37: each of the three visits the cores of its team one after the other, and what it leaves of each is that of its own visit. -/
theorem drainingAndRefilling : Obligations.DrainingAndRefilling := by
  intro f s c tm t w named mine key
  have ofTeam {k : Nat} (hk : mine k) : k ∈ t.coreList := Team.mem_coreList.2 hk
  have areas (ha : c.ua.toNat % 64 = 0) (hb : c.ub.toNat % 64 = 0) (hc : c.uc.toNat % 64 = 0) : areaFault [c.ua, c.ub, c.uc] = none :=
    areaFault_none (by simp [ha, hb, hc])
  have names (o : MatOp) : c.resumes o = true ↔ named o := by simp [Ctx.resumes, named, w, tm]
  refine ⟨execMdrain_idle, fun h hact ha hb hc hhold hroom => ?mdrain, execMfill_idle,
    fun h hact hub ha hc hhold hopen hgood v hv hinj => ?mfill, fun h => ?idle, fun h hact hfrozen => ?mresume⟩
  case mdrain =>
    obtain ⟨queues, mem, groups⟩ := c.drained_queues s
    exact ⟨c.drained s, c.drainOp s, rfl, rfl, rfl, rfl, mem, groups, fun k hk => ⟨_, queues k (ofTeam hk), rfl⟩,
      execMdrain_enters h hact (areas ha hb hc) hhold fun k hk => hroom k (Team.mem_coreList.1 hk)⟩
  case mfill =>
    obtain ⟨es, hes⟩ := copyChks_good (List.forall_mem_map.2 hgood)
    have step : v.CacheStep ((v.dropX c.cluster c.req).useTlbsIn c.cluster es) :=
      (v.cacheStep_dropX c.cluster c.req).trans (State.cacheStep_useTlbsIn _ _ _)
    have cores (k : Nat) : ((v.dropX c.cluster c.req).useTlbsIn c.cluster es).bump.core k = v.core k := v.core_dropX _ _ k
    obtain ⟨tiles, mem, groups⟩ := c.refilled_tiles s ((v.dropX c.cluster c.req).useTlbsIn c.cluster es).bump
    refine ⟨_, mem.trans step.mem, groups.trans step.groups, fun k hk => ?_, execMfill_loads h hact hub (areas ha (by rw [hub]; rfl) hc) hhold hopen hes hv⟩
    rw [tiles k (ofTeam hk), cores]
    exact ⟨(Core.fillTiles_keeps _ _ _ _).1, Core.tileAt_fillTiles _ (Core.tileKey_injective (hinj k hk))⟩
  case idle =>
    rw [execMresume_eq]
    exact (groupLevel_acts h _).1
  case mresume =>
    obtain ⟨queues, mem, groups⟩ := Ctx.resumed_queues (c := c) (s := s)
      fun k hk o ho hn => hfrozen k (Team.mem_coreList.1 hk) o ho ((names o).1 hn)
    refine ⟨c.resumed s, mem, groups, fun k hk o ho hn => queues k (ofTeam hk) o ho ((names o).2 hn), ?_⟩
    rw [execMresume_eq]
    exact (groupLevel_acts h _).2 hact

end Sys2Proof.Machine
end

section
/-! Calls and traps (R329, R330): the call that a scall leaves with the call gate and the lanes that it parks, and the record of trap and bkpt. -/

namespace Sys2Proof.Machine

open Sys2Proof

set_option Elab.async false

/-- A map that holds a value of each key of a list. -/
theorem SMap.get_map_self {α : Type} (f : Nat → α) (d : α) {j : Nat} : ∀ {ks : List Nat}, j ∈ ks → SMap.get (ks.map fun k => (k, f k)) j d = f j
  | [], h => absurd h (by simp)
  | k :: ks, h => by
    show (if k = j then f k else SMap.get (ks.map fun k => (k, f k)) j d) = f j
    split
    next hk => rw [hk]
    next hk => exact SMap.get_map_self f d (List.mem_of_ne_of_mem (Ne.symm hk) h)

/-! ### scall (R329) -/

/-- The call of a scall. -/
def Ctx.call (c : Ctx) (s : State) : Call :=
  { slot := c.slot, uid := c.g.uid, lanes := c.act, left := c.act, all := c.e.func.getLsbD 0 || (s.team c.g.team).paired, pc := c.pc,
    args := (List.range 7).map fun k => (k, Vector.ofFn fun l => c.g.word c.rc.ctr (8 + k) l), after := s.allOpen c.slot }

/-- The state in which the call waits for its slot and its lanes are parked. -/
def Ctx.called (c : Ctx) (s : State) : State :=
  (s.setCluster c.cluster { s.cluster c.cluster with callWait := (s.cluster c.cluster).callWait ++ [c.call s] }).updGroup c.slot fun g =>
    { g with callParked := g.callParked ||| c.act }

/-- What a scall leaves: the call, and the group parked when no lane of it can go on or the group is one of a pair. -/
def Ctx.scallLeaves (c : Ctx) (s : State) : State :=
  if (c.g.exited ||| c.g.callParked ||| c.act) == ~~~ 0 || (s.team c.g.team).paired then (c.called s).block c.slot .scall else c.called s

section
variable (c : Ctx) (s : State)

theorem Ctx.call_args {j : Nat} (hj : j < 7) (l : Lane) : (SMap.get (c.call s).args j (lanesOf 0))[l] = c.g.word c.rc.ctr (8 + j) l := by
  rw [show SMap.get (c.call s).args j (lanesOf 0) = Vector.ofFn fun l => c.g.word c.rc.ctr (8 + j) l from
    SMap.get_map_self _ _ (List.mem_range.2 hj)]
  exact Vector.getElem_ofFn (h := l.isLt)

/-- A group that is no part of a pair lets FUNC decide whether its call waits for all lanes. -/
theorem Ctx.call_all {c : Ctx} {s : State} (halone : s.alone c.g = true) (hr : c.g.routine = false) : (c.call s).all = c.e.func.getLsbD 0 := by
  have hpair : (s.team c.g.team).paired = false := by
    rw [State.alone, hr] at halone
    simp_all
  show (c.e.func.getLsbD 0 || (s.team c.g.team).paired) = _
  rw [hpair, Bool.or_false]

theorem Ctx.called_group : (c.called s).group c.slot = { s.group c.slot with callParked := (s.group c.slot).callParked ||| c.act } :=
  State.group_updGroup _ _ _

theorem Ctx.scallLeaves_cluster : (c.scallLeaves s).cluster c.cluster = (c.called s).cluster c.cluster := by
  unfold Ctx.scallLeaves
  split <;> rfl

theorem Ctx.called_callWait : ((c.called s).cluster c.cluster).callWait = (s.cluster c.cluster).callWait ++ [c.call s] :=
  congrArg Cluster.callWait (State.cluster_setCluster _ _ _)

theorem Ctx.scallLeaves_mem : (c.scallLeaves s).mem = s.mem := by
  unfold Ctx.scallLeaves
  split <;> rfl

/-- Parking adds to the blocks of the group and changes nothing else of it. -/
theorem Ctx.scallLeaves_group : ∃ bs, (c.scallLeaves s).group c.slot =
    { s.group c.slot with callParked := (s.group c.slot).callParked ||| c.act, blocks := bs } := by
  unfold Ctx.scallLeaves
  split
  · exact ⟨_, by rw [State.block, State.group_updGroup, c.called_group s]⟩
  · exact ⟨_, c.called_group s⟩

theorem Ctx.scallLeaves_blocked (hall : c.g.exited ||| c.g.callParked ||| c.act = ~~~ 0) :
    Block.scall ∈ ((c.scallLeaves s).group c.slot).blocks := by
  rw [Ctx.scallLeaves, if_pos (by rw [hall]; rfl)]
  exact ((c.called s).block_parks c.slot .scall).1

end

/-- Settles O41: `Ctx.scallLeaves` is what a scall of active lanes leaves. -/
theorem scallParksItsLanes : Obligations.ScallParksItsLanes := by
  refine fun f s c h => ⟨fun hact => ?idle, fun hact => ?calls⟩
  case idle =>
    rw [exec_scall, execScall, issue_next h]
    dsimp only
    rw [if_pos hact]
    exact acts_ending c s
  case calls =>
    obtain ⟨bs, hgroup⟩ := c.scallLeaves_group s
    have hexec : exec (.scall f) s = .next (done c.ending (c.scallLeaves s)) := by
      rw [exec_scall, execScall, issue_next h]
      dsimp only
      rw [if_neg hact]
      rfl
    refine ⟨c.scallLeaves s, c.call s, rfl, rfl, rfl, rfl, rfl, Ctx.call_all h.alone, fun j hj l => c.call_args s hj l, ?_, ?_,
      c.scallLeaves_blocked s, c.scallLeaves_mem s, ?_, hexec ▸ acts_ending c (c.scallLeaves s)⟩
    · rw [c.scallLeaves_cluster s, c.called_callWait s]
    · rw [hgroup, h.group]
    · rw [hgroup, h.group]
      exact fun r l _ => rfl

/-! ### trap and bkpt (R330) -/

/-- The record of a trap. -/
def Ctx.trapInfo (c : Ctx) (k : BitVec 8) : FaultInfo :=
  { cls := k, lanes := c.act, kind := 7, space := 3, addr := (c.ua.setWidth 32 : Word).setWidth 64, pc := c.pc }

section
variable {i : Instr} {s : State} {c : Ctx} {k : BitVec 8} (h : Issues i noOwn s c)
include h

theorem trapOp_idle (hact : c.act = 0) : trapOp i k s = .next (done c s) := by
  rw [trapOp, issue_next h]
  dsimp only
  rw [if_pos hact]

/-- A trap of active lanes takes its exception; one that ends its run keeps no run. -/
theorem trapOp_raises (hact : c.act ≠ 0) : trapOp i k s = .next (if c.e.sw then
    (s.raise c.slot (.skip c.len) (c.trapInfo k)).updGroup c.slot fun g => { g with midRun := none }
    else s.raise c.slot (.skip c.len) (c.trapInfo k)) := by
  rw [trapOp, issue_next h]
  dsimp only
  rw [if_neg hact]
  rfl

/-- With no pre-emption requested the group parks on its record and keeps its registers and PCs. -/
theorem trapOp_parks (hk : k ≠ clsPoison) (hact : c.act ≠ 0) (hpre : (s.team c.g.team).pre = .none_) :
    ∃ t, trapOp i k s = .next t ∧ (t.group c.slot).st = .blocked ∧ Block.fault ∈ (t.group c.slot).blocks ∧ SameRegs c.g (t.group c.slot) ∧
      (t.group c.slot).pc = c.g.pc := by
  rw [h.group] at hpre
  have hraise : (s.raise c.slot (.skip c.len) (c.trapInfo k)).group c.slot =
      { s.group c.slot with st := .blocked, blocks := .fault :: (s.group c.slot).blocks, midRun := some (s.saveRun c.slot) } := by
    rw [State.raise_parks (show (c.trapInfo k).cls ≠ clsPoison from hk) hpre]
    exact State.group_updGroup _ _ _
  refine ⟨_, trapOp_raises h hact, ?_⟩
  rw [h.group]
  split
  · rw [State.group_updGroup, hraise]
    exact ⟨rfl, List.mem_cons_self, fun r l _ => rfl, rfl⟩
  · rw [hraise]
    exact ⟨rfl, List.mem_cons_self, fun r l _ => rfl, rfl⟩

end

/-- Settles O42: trap and bkpt are `trapOp` with their class. -/
theorem trapsTakeTheirException : Obligations.TrapsTakeTheirException := by
  intro f s c taken
  have takes (i : Instr) (k : BitVec 8) (hk : k ≠ clsPoison) (hexec : exec i s = trapOp i k s) : taken i k := by
    intro h
    rw [hexec]
    refine ⟨fun hact => trapOp_idle h hact ▸ acts_done c s, fun hact hsw => ?_, fun hact hsw => ?_, trapOp_parks h hk⟩
    · rw [trapOp_raises h hact, hsw]
      rfl
    · rw [trapOp_raises h hact, hsw]
      rfl
  exact ⟨takes _ _ (by decide) (exec_trap f s), takes _ _ (by decide) (exec_bkpt f s)⟩

end Sys2Proof.Machine
end

section
/-! The handler of a group (R331, R332): what a delivery makes of the group, and what uiret brings back. -/

namespace Sys2Proof.Machine

open Sys2Proof

set_option Elab.async false

/-! ### Delivery (R331) -/

section
variable (g : Group) (k : Option RunSave) (d : Delivery) (l : Lane)

theorem Group.deliver_pc : (g.deliver k d).pc[l] =
    if laneIn (~~~ (g.exited ||| g.callParked)) l then (if d.sync then g.trapvec else g.uivec) else g.pc[l] :=
  Vector.getElem_ofFn (h := l.isLt)

theorem Group.deliver_trapret : (g.deliver k d).trapret[l] = if laneIn (~~~ (g.exited ||| g.callParked)) l then d.ret[l] else g.trapret[l] :=
  Vector.getElem_ofFn (h := l.isLt)

theorem Group.deliver_trapSave : (g.deliver k d).trapSave = if d.sync then k else g.trapSave := rfl

theorem Group.deliver_sameRegs : SameRegs g (g.deliver k d) := fun _ _ _ => by simp only [Group.raw, Group.deliver]

theorem Group.deliver_exited : (g.deliver k d).exited = g.exited := by simp only [Group.deliver]

theorem Group.deliver_uimask : (g.deliver k d).uimask = g.uimask := by simp only [Group.deliver]

theorem Group.canDeliver_sync : g.canDeliver true = true ↔ g.inh = false ∧ g.trapvec ≠ 0 := by simp [Group.canDeliver]

theorem Group.canDeliver_interrupt : g.canDeliver false = true ↔ g.inh = false ∧ g.uivec ≠ 0 := by simp [Group.canDeliver]

end

/-- A synchronous delivery that cannot be made ends the domain. -/
theorem State.deliverSync_ends (s : State) (slot : Nat) (cls : BitVec 8) (a : DWord) (ret : Lanes DWord)
    (h : (s.group slot).canDeliver true = false) : s.deliverSync slot cls a ret = s.endDomain (s.group slot).rcb := by
  rw [State.deliverSync, h]
  rfl

/-- Settles O44: what `Group.deliver` sets, and when it may be made. -/
theorem deliveryToTheHandler : Obligations.DeliveryToTheHandler :=
  fun g k d => ⟨rfl, rfl, rfl, rfl, rfl, g.deliver_pc k d, g.deliver_trapret k d, g.deliver_trapSave k d, g.deliver_sameRegs k d,
    g.deliver_exited k d, g.deliver_uimask k d, g.canDeliver_sync, g.canDeliver_interrupt, State.deliverSync_ends⟩

/-! ### Return (R332) -/

/-- The lanes of the batch whose return target is misaligned. -/
def Ctx.badReturns (c : Ctx) : LaneMask := maskOf fun l => laneIn c.act l && misaligned c.g.trapret[l]

/-- The lanes that the handler keeps once those of the batch have returned. -/
def Ctx.trapLeft (c : Ctx) : LaneMask := c.g.traplanes &&& ~~~ c.g.batch

/-- The state in which the lanes of the batch have left the handler. -/
def Ctx.returned (c : Ctx) (s : State) : State := retire c LEntry.undef c.g.trapret (s.updGroup c.slot fun g => g.leaveTrap c.g.batch)

/-- The last-result file that a kept run holds comes back; an instruction that ends its run leaves it for the next one. -/
def Ctx.broughtBack (c : Ctx) (k : RunSave) (s : State) : State :=
  if c.e.sw then s
  else (s.setPart (slotPart c.slot) { s.part (slotPart c.slot) with l0 := k.l0, l1 := k.l1 }).updGroup c.slot fun g => { g with midRun := none }

/-- The state after uiret, whether or not the group has a run that comes back. -/
def Ctx.restored (c : Ctx) (s : State) : State :=
  match (s.group c.slot).midRun with
  | some k => c.broughtBack k s
  | none => s

theorem Ctx.restored_of_some {c : Ctx} {s : State} {k : RunSave} (h : (s.group c.slot).midRun = some k) : c.restored s = c.broughtBack k s := by
  rw [Ctx.restored, h]

theorem Ctx.restored_of_none {c : Ctx} {s : State} (h : (s.group c.slot).midRun = none) : c.restored s = s := by
  rw [Ctx.restored, h]

section
variable {g : Group} {m : LaneMask}

theorem Group.leaveTrap_some_left (h : g.traplanes &&& ~~~ m ≠ 0) : g.leaveTrap m = { g with traplanes := g.traplanes &&& ~~~ m } := by
  rw [Group.leaveTrap]
  exact if_pos (by rw [bne_iff_ne.2 h, Bool.or_true])

section
variable (hinh : g.inh = true) (hleft : g.traplanes &&& ~~~ m = 0)
include hinh hleft

/-- The last lanes leave with nothing to bring back. -/
theorem Group.leaveTrap_last (h : g.sync = false ∨ g.trapSave = none) :
    g.leaveTrap m = { g with traplanes := 0, inh := false, trapSave := none } := by
  rw [Group.leaveTrap, hinh, hleft]
  dsimp only
  rcases h with h | h <;> rw [h]
  · rfl
  · cases g.sync <;> rfl

/-- The last lanes leave after a synchronous delivery: the run of the group comes back. -/
theorem Group.leaveTrap_sync {k : RunSave} (hsync : g.sync = true) (hsave : g.trapSave = some k) :
    g.leaveTrap m = { g with traplanes := 0, inh := false, q := k.q, midRun := some { k with batch := 0, count := 0 }, trapSave := none } := by
  rw [Group.leaveTrap, hinh, hleft, hsync, hsave]
  rfl

end
end

theorem Group.rebatch_regs (g : Group) : g.rebatch.v = g.v ∧ g.rebatch.s = g.s ∧ g.rebatch.q = g.q := by
  unfold Group.rebatch
  dsimp only
  split <;> exact ⟨rfl, rfl, rfl⟩

/-- The register files are those of the group that issued. -/
theorem retire_regs (c : Ctx) (x : LEntry) (pcs : Lanes DWord) (s : State) : let h := (retire c x pcs s).group c.slot
    h.v = (s.group c.slot).v ∧ h.s = (s.group c.slot).s ∧ h.q = (s.group c.slot).q := by
  dsimp only
  rw [retire_group]
  exact Group.rebatch_regs _

section
variable {f : Enc} {s : State} {c : Ctx} (h : Issues (.uiret f) uiretOwn s c)
include h

theorem Issues.inHandler : c.g.inh = true := by
  have hown := h.own
  simp only [uiretOwn, encIf, ite_eq_right_iff, reduceCtorEq, imp_false, Bool.or_eq_true, Bool.not_eq_true', not_or] at hown
  simpa using hown.1

/-- A lane with a misaligned target traps. -/
theorem execUiret_misaligned (hbad : c.badReturns ≠ 0) : execUiret f s = .next (s.raise c.slot .retry
    { cls := clsAlignment, lanes := c.badReturns, kind := 4, space := 0, addr := c.g.trapret[lowLane c.badReturns], pc := c.pc }) := by
  rw [execUiret, issue_next h]
  exact if_pos hbad

/-- Aligned targets: the lanes leave the handler, and what the last one brings back is restored. -/
theorem execUiret_returns (hbad : c.badReturns = 0) : execUiret f s = .next (c.restored (c.returned s)) := by
  rw [execUiret, issue_next h]
  refine (if_neg (not_not.2 hbad)).trans ?_
  dsimp only
  split
  next k hk =>
    rw [Ctx.restored_of_some (s := c.returned s) hk, Ctx.broughtBack]
    split <;> rfl
  next hk => rw [Ctx.restored_of_none (s := c.returned s) hk]; rfl

end

theorem Ctx.returned_midRun (c : Ctx) (s : State) : ((c.returned s).group c.slot).midRun = ((s.group c.slot).leaveTrap c.g.batch).midRun := by
  have e := congrArg Group.midRun (retire_apart c LEntry.undef c.g.trapret (s.updGroup c.slot fun g => g.leaveTrap c.g.batch))
  rw [State.group_updGroup] at e
  exact e

/-- The lanes of the batch stand at their TRAPRET in a group that is changed as `leaveTrap` says. -/
theorem Ctx.returned_goes (c : Ctx) (s : State) {f : Group → Group} (hleave : (s.group c.slot).leaveTrap c.g.batch = f (s.group c.slot)) :
    Goes c (fun l => c.g.trapret[l]) (s.updGroup c.slot f) (.next (c.returned s)) := by
  have e : (s.updGroup c.slot fun g => g.leaveTrap c.g.batch) = s.updGroup c.slot f := congrArg (s.setGroup c.slot) hleave
  rw [Ctx.returned, e]
  exact goes_retire _ _

section
variable (c : Ctx) (k : RunSave) (s : State)

/-- What is brought back is the last-result file; of the group only its kept run changes. -/
theorem Ctx.broughtBack_group : ∃ r, (c.broughtBack k s).group c.slot = { s.group c.slot with midRun := r } := by
  unfold Ctx.broughtBack
  split
  · exact ⟨_, rfl⟩
  · exact ⟨_, State.group_updGroup _ _ _⟩

theorem Ctx.broughtBack_mem : (c.broughtBack k s).mem = s.mem := by
  unfold Ctx.broughtBack
  split <;> rfl

theorem Ctx.broughtBack_file (hmid : (s.group c.slot).midRun = some k) : if c.e.sw then
      ∃ r, ((c.broughtBack k s).group c.slot).midRun = some r ∧ r.l0 = k.l0 ∧ r.l1 = k.l1
    else ((c.broughtBack k s).part (slotPart c.slot)).l0 = k.l0 ∧ ((c.broughtBack k s).part (slotPart c.slot)).l1 = k.l1 := by
  unfold Ctx.broughtBack
  split
  next => exact ⟨k, hmid, rfl, rfl⟩
  next => simp

end

/-- After a synchronous delivery the last lanes bring back q0 to q7 and the last-result file. -/
theorem Ctx.broughtBack_returned (c : Ctx) (s : State) {k : RunSave}
    (hleave : (s.group c.slot).leaveTrap c.g.batch =
      { s.group c.slot with traplanes := 0, inh := false, q := k.q, midRun := some { k with batch := 0, count := 0 }, trapSave := none }) :
    let t := c.broughtBack { k with batch := 0, count := 0 } (c.returned s)
    let h := t.group c.slot
    Steps c (fun l => c.g.trapret[l]) (s.group c.slot) h ∧ h.inh = false ∧ h.traplanes = 0 ∧ h.q = k.q ∧ h.v = (s.group c.slot).v ∧
      h.s = (s.group c.slot).s ∧ t.mem = s.mem ∧
      (if c.e.sw then ∃ r, h.midRun = some r ∧ r.l0 = k.l0 ∧ r.l1 = k.l1
       else (t.part (slotPart c.slot)).l0 = k.l0 ∧ (t.part (slotPart c.slot)).l1 = k.l1) := by
  have hsteps := retire_steps c LEntry.undef c.g.trapret (s.updGroup c.slot fun g => g.leaveTrap c.g.batch)
  have hapart := retire_apart c LEntry.undef c.g.trapret (s.updGroup c.slot fun g => g.leaveTrap c.g.batch)
  obtain ⟨hv, hs, hq⟩ := retire_regs c LEntry.undef c.g.trapret (s.updGroup c.slot fun g => g.leaveTrap c.g.batch)
  have hfile := c.broughtBack_file { k with batch := 0, count := 0 } (c.returned s) (by rw [c.returned_midRun, hleave])
  obtain ⟨r, hgroup⟩ := c.broughtBack_group { k with batch := 0, count := 0 } (c.returned s)
  rw [State.group_updGroup, hleave] at hsteps hapart hv hs hq
  dsimp only
  refine ⟨?_, ?_, ?_, ?_, ?_, ?_, c.broughtBack_mem _ _, hfile⟩ <;> rw [hgroup]
  · exact ⟨hsteps.pc, hsteps.seq, hsteps.count⟩
  · exact congrArg Group.inh hapart
  · exact congrArg Group.traplanes hapart
  · exact hq
  · exact hv
  · exact hs

/-- Settles O45: the cases of `Group.leaveTrap`. -/
theorem returnFromTheHandler : Obligations.ReturnFromTheHandler := by
  intro f s c h hmid left back bad
  have hg := h.group
  have hinh := h.inHandler
  have ebad : bad = c.badReturns := by simp only [bad, back, Ctx.badReturns, misaligned_eq]
  rw [exec_uiret, ebad]
  rw [hg] at hinh hmid
  have eleft : left = (s.group c.slot).traplanes &&& ~~~ c.g.batch := by rw [← hg]
  refine ⟨fun hbad => execUiret_misaligned h hbad, fun hbad hleft => ?some, fun hbad hleft hsave => ?last, fun k hbad hleft hsync hsave => ?sync⟩
  case some =>
    have hleave := Group.leaveTrap_some_left (eleft ▸ hleft)
    rw [execUiret_returns h hbad, Ctx.restored_of_none (by rw [c.returned_midRun, hleave]; exact hmid), eleft]
    exact c.returned_goes s hleave
  case last =>
    have hleave := Group.leaveTrap_last hinh (eleft ▸ hleft) (hg ▸ hsave)
    rw [execUiret_returns h hbad, Ctx.restored_of_none (by rw [c.returned_midRun, hleave]; exact hmid)]
    exact c.returned_goes s hleave
  case sync =>
    have hleave := Group.leaveTrap_sync hinh (eleft ▸ hleft) (hg ▸ hsync) (hg ▸ hsave)
    rw [execUiret_returns h hbad, Ctx.restored_of_some (by rw [c.returned_midRun, hleave])]
    rw [hg]
    exact ⟨_, rfl, c.broughtBack_returned s hleave⟩

end Sys2Proof.Machine
end

section
/-! The parts of a saved group (R340): what a part loads from its own words is what it was. -/

namespace Sys2Proof.Machine

open Sys2Proof

set_option Elab.async false

/-! ### Registers as words -/

/-- A word of one block of a list of blocks of equal length. -/
theorem getD_flatMap_range {f : Nat → List DWord} {w : Nat} (hf : ∀ n, (f n).length = w) {n k : Nat} (hk : k < w) :
    ∀ {m : Nat}, n < m → ((List.range m).flatMap f).getD (w * n + k) 0 = (f n).getD k 0
  | 0, h => absurd h (Nat.not_lt_zero n)
  | m + 1, h => by
    have hlen : ((List.range m).flatMap f).length = w * m := by simp [List.length_flatMap, hf, Nat.mul_comm]
    rw [List.range_succ, List.flatMap_append]
    rcases Nat.lt_succ_iff_lt_or_eq.1 h with hn | rfl
    · have : w * n + w ≤ w * m := Nat.mul_le_mul_left w hn
      rw [List.getD_append _ _ _ _ (by rw [hlen]; omega), getD_flatMap_range hf hk hn]
    · rw [List.getD_append_right _ _ _ _ (by rw [hlen]; omega), hlen, Nat.add_sub_cancel_left, List.flatMap_singleton]

theorem laneWords_length (v : Lanes Word) : (laneWords v).length = 16 := by simp [laneWords]

theorem laneWords_getD (v : Lanes Word) {k : Nat} (hk : k < 16) :
    (laneWords v).getD k 0 = v[2 * k + 1]'(by omega) ++ v[2 * k]'(by omega) := by
  have h : 2 * k + 1 < 32 := by omega
  simp [laneWords, hk, h]

/-- The half of a word of two registers. -/
theorem extract_half {x y : Word} {n : Nat} (hn : n < 2) : (x ++ y : DWord).extractLsb' (32 * n) 32 = if n = 1 then x else y := by
  obtain rfl | rfl : n = 0 ∨ n = 1 := by omega
  · exact BitVec.extractLsb'_append_eq_right
  · exact BitVec.extractLsb'_append_eq_left

/-- A register comes back from words that agree with its own. -/
theorem wordsLane_eq {x : Nat → DWord} {v : Lanes Word} (h : ∀ k, k < 16 → x k = (laneWords v).getD k 0) : wordsLane x = v := by
  refine Vector.ext fun i hi => ?_
  rw [wordsLane, Vector.getElem_ofFn, h _ (show i / 2 < 16 by omega), laneWords_getD v (by omega), extract_half (Nat.mod_lt i (by omega))]
  split <;> congr 1 <;> omega

/-- Lane registers, as the words of many make them again. -/
theorem wordsLane_flatMap {f : Nat → Lanes Word} {m n : Nat} (hn : n < m) :
    (wordsLane fun k => ((List.range m).flatMap fun j => laneWords (f j)).getD (16 * n + k) 0) = f n :=
  wordsLane_eq fun _ hk => getD_flatMap_range (f := fun j => laneWords (f j)) (fun j => laneWords_length (f j)) hk hn

/-! ### The register parts -/

section
variable (g : Group)

/-- The group with a part that its own words have loaded. -/
def Group.backPart (part : Nat) : Group := g.setPart part fun k => (g.partWords part).getD k 0

theorem Group.backPart_v {r : Nat} (hr : r < 32 * g.vblk) : SMap.get (g.backPart 4).v r (lanesOf 0) = SMap.get g.v r (lanesOf 0) :=
  (SMap.get_map_self _ _ (List.mem_range.2 hr)).trans (wordsLane_flatMap (f := fun n => SMap.get g.v n (lanesOf 0)) hr)

theorem Group.backPart_q {r : Nat} (hr : r < 8) : SMap.get (g.backPart 2).q r (lanesOf 0) = SMap.get g.q r (lanesOf 0) :=
  (SMap.get_map_self _ _ (List.mem_range.2 hr)).trans (wordsLane_flatMap (f := fun n => SMap.get g.q n (lanesOf 0)) hr)

theorem Group.backPart_s {r : Nat} (hr : r < 256 * g.sblk) : SMap.get (g.backPart 3).s r 0 = SMap.get g.s r 0 := by
  have hword : ((List.range (128 * g.sblk)).map fun k => (SMap.get g.s (2 * k + 1) 0 : Word) ++ (SMap.get g.s (2 * k) 0 : Word)).getD (r / 2) 0 =
      (SMap.get g.s (2 * (r / 2) + 1) 0 : Word) ++ (SMap.get g.s (2 * (r / 2)) 0 : Word) := by
    have : r / 2 < 128 * g.sblk := by omega
    simp [this]
  refine (SMap.get_map_self _ _ (List.mem_range.2 hr)).trans ?_
  rw [show (fun k => (g.partWords 3).getD k 0) (r / 2) = _ from hword, extract_half (Nat.mod_lt r (by omega))]
  split <;> congr 1 <;> omega

end

/-! ### The control part -/

/-- A digit of a number. -/
theorem ofDigits_digit {b : Nat} {L : List Nat} (hL : ∀ x ∈ L, x < b) {j : Nat} (hj : j < L.length) : Nat.ofDigits b L / b ^ j % b = L[j] := by
  have hlt : L[j] < b := hL _ (List.getElem_mem hj)
  rw [Nat.ofDigits_div_pow_eq_ofDigits_drop j (by omega) L hL, List.drop_eq_getElem_cons hj, Nat.ofDigits_cons,
    Nat.add_mul_mod_self_left, Nat.mod_eq_of_lt hlt]

theorem half_pack2_low (a b : Nat) : half (pack2 a b) 0 = a % 2 ^ 32 := by
  rw [half, pack2, BitVec.toNat_ofNat]
  omega

theorem half_pack2_high (a b : Nat) : half (pack2 a b) 1 = b % 2 ^ 32 := by
  rw [half, pack2, BitVec.toNat_ofNat]
  omega

/-- A field of at most 32 bits comes back from its half. -/
theorem ofNat_toNat_mod32 {n : Nat} (x : BitVec n) (hn : n ≤ 32) : BitVec.ofNat n (x.toNat % 2 ^ 32) = x := by
  have : x.toNat < 2 ^ 32 := Nat.lt_of_lt_of_le x.isLt (Nat.pow_le_pow_right (by omega) hn)
  rw [Nat.mod_eq_of_lt this, BitVec.ofNat_toNat, BitVec.setWidth_eq]

section
variable (g : Group)

theorem Group.ctlWords_pc {l : Nat} (hl : l < 32) : g.ctlWords.getD l 0 = g.pc[l] := by
  simp [Group.ctlWords, List.getElem?_append, hl]

theorem Group.ctlWords_trapret {l : Nat} (hl : l < 32) : g.ctlWords.getD (32 + l) 0 = g.trapret[l] := by
  simp [Group.ctlWords, List.getElem?_append, hl]

theorem Group.ctlWords_exited : g.ctlWords.getD 68 0 = pack2 g.exited.toNat g.fstat.toNat := by
  simp [Group.ctlWords, List.getElem?_append]

theorem Group.ctlWords_fmode : g.ctlWords.getD 69 0 = pack2 g.fmode.toNat g.wakewhy.toNat := by
  simp [Group.ctlWords, List.getElem?_append]

theorem Group.ctlWords_trapvec : g.ctlWords.getD 71 0 = g.trapvec := by
  simp [Group.ctlWords, List.getElem?_append]

theorem Group.ctlWords_uimask : g.ctlWords.getD 73 0 = pack2 g.uimask.toNat g.uipend.toNat := by
  simp [Group.ctlWords, List.getElem?_append]

/-- The predicate byte of a lane, 0 past the last one. -/
def Group.pwByte (j : Nat) : Nat := if h : j < 32 then (g.pw[j]).toNat else 0

theorem Group.pwByte_lt (j : Nat) : g.pwByte j < 256 := by
  unfold Group.pwByte
  split
  · exact BitVec.isLt _
  · omega

/-- Eight predicate bytes are the digits of their word. -/
theorem Group.ctlWords_pw {i : Nat} (hi : i < 4) :
    g.ctlWords.getD (64 + i) 0 = BitVec.ofNat 64 (Nat.ofDigits 256 ((List.range 8).map fun k => g.pwByte (8 * i + k))) := by
  have hpc : ¬ 64 + i < 32 := by omega
  have hret : ¬ 64 + i - 32 < 32 := by omega
  have hat : 64 + i - 32 - 32 = i := by omega
  rw [Nat.ofDigits_eq_foldr, List.foldr_map]
  simp [Group.ctlWords, List.getElem?_append, hpc, hret, hat, hi, Group.pwByte]

theorem Group.pwWord_digit {i j : Nat} (hj : j < 8) :
    (BitVec.ofNat 64 (Nat.ofDigits 256 ((List.range 8).map fun k => g.pwByte (8 * i + k)))).toNat / 256 ^ j % 256 = g.pwByte (8 * i + j) := by
  have hbytes : ∀ x ∈ (List.range 8).map fun k => g.pwByte (8 * i + k), x < 256 := by
    intro x hx
    obtain ⟨k, _, rfl⟩ := List.mem_map.1 hx
    exact g.pwByte_lt _
  have hword := Nat.ofDigits_lt_base_pow_length (by omega) hbytes
  have hlen : ((List.range 8).map fun k => g.pwByte (8 * i + k)).length = 8 := by simp
  rw [hlen, show 256 ^ 8 = 2 ^ 64 by norm_num] at hword
  rw [BitVec.toNat_ofNat, Nat.mod_eq_of_lt hword, ofDigits_digit hbytes (by rw [hlen]; exact hj)]
  simp

theorem Group.backPart_pw : (g.backPart 0).pw = g.pw := by
  refine Vector.ext fun l hl => ?_
  have hword : (fun k => (g.partWords 0).getD k 0) (64 + l / 8) = _ := g.ctlWords_pw (show l / 8 < 4 by omega)
  have hdigit := g.pwWord_digit (i := l / 8) (Nat.mod_lt l (show 8 > 0 by omega))
  rw [Nat.div_add_mod, Group.pwByte, dif_pos hl] at hdigit
  refine (Vector.getElem_ofFn (h := hl)).trans (BitVec.eq_of_toNat_eq ?_)
  rw [BitVec.toNat_ofNat, ← hdigit]
  exact congrArg (fun x : DWord => x.toNat / 256 ^ (l % 8) % 256) hword

theorem Group.backPart_pc : (g.backPart 0).pc = g.pc :=
  Vector.ext fun _ hl => (Vector.getElem_ofFn (h := hl)).trans (g.ctlWords_pc hl)

theorem Group.backPart_trapret : (g.backPart 0).trapret = g.trapret :=
  Vector.ext fun _ hl => (Vector.getElem_ofFn (h := hl)).trans (g.ctlWords_trapret hl)

/-- A field comes back from the low half of a word of the control part. -/
theorem ofNat_half_low {n : Nat} {x : DWord} {a : BitVec n} {b : Nat} (h : x = pack2 a.toNat b) (hn : n ≤ 32) : BitVec.ofNat n (half x 0) = a := by
  rw [h, half_pack2_low, ofNat_toNat_mod32 a hn]

theorem ofNat_half_high {n : Nat} {x : DWord} {a : Nat} {b : BitVec n} (h : x = pack2 a b.toNat) (hn : n ≤ 32) : BitVec.ofNat n (half x 1) = b := by
  rw [h, half_pack2_high, ofNat_toNat_mod32 b hn]

end

/-- Settles O49: every field of a part comes back from its place among the words. -/
theorem savedPartsComeBack : Obligations.SavedPartsComeBack := by
  intro g
  have vec (r : Nat) (l : Lane) (hr : r < 256) (hv : r < 32 * g.vblk) : (g.backPart 4).raw r l = g.raw r l := by
    rw [Group.raw, if_pos hr, Group.raw, if_pos hr, g.backPart_v hv]
  have scalar (r : Nat) (l : Lane) (hr : r < 256 * g.sblk) : (g.backPart 3).raw (1024 + r) l = g.raw (1024 + r) l := by
    simp only [Group.raw, show ¬ 1024 + r < 256 by omega, show ¬ 1024 + r < 264 by omega, show ¬ 1024 + r = 264 by omega,
      show ¬ 1024 + r = 265 by omega, Nat.add_sub_cancel_left, if_false]
    exact g.backPart_s hr
  have pred (r : Nat) (l : Lane) (hlo : 256 ≤ r) (hhi : r < 264) : (g.backPart 2).raw r l = g.raw r l := by
    rw [Group.raw, if_neg (by omega), if_pos hhi, Group.raw, if_neg (by omega), if_pos hhi, g.backPart_q (by omega)]
  exact ⟨vec, scalar, pred, g.backPart_pc, ofNat_half_low g.ctlWords_exited (by decide), ofNat_half_high g.ctlWords_exited (by decide),
    ofNat_half_low g.ctlWords_fmode (by decide), ofNat_half_low g.ctlWords_uimask (by decide), g.ctlWords_trapvec, g.backPart_trapret,
    g.backPart_pw⟩

end Sys2Proof.Machine
end

section
/-! gsave and grest (R340): where the words of the part pass their checks, the part moves to or from its area. -/

namespace Sys2Proof.Machine

open Sys2Proof

set_option Elab.async false

theorem State.CacheStep.stash {s t : State} (h : s.CacheStep t) : t.stash = s.stash := by rw [h]

/-- What a routine reads of memory does not depend on the caches. -/
theorem State.CacheStep.seenDword {s t : State} (h : s.CacheStep t) (pa : Nat) : t.seenDword pa = s.seenDword pa := by
  rw [h]
  rfl

/-- The check of a word of a part. -/
abbrev Ctx.partChk (c : Ctx) (s : State) (r : Right) (k : Nat) : LaneChk :=
  s.checkGlobal c.slot c.priv c.g.asid r 8 8 (c.ua + BitVec.ofNat 64 (8 * k))

/-- The group that the routine of a slot saves or restores. -/
abbrev Ctx.saved (c : Ctx) (s : State) : Group := SMap.get s.stash c.slot {}

/-- The part that a gsave or grest names. -/
abbrev Ctx.part (c : Ctx) : Nat := c.e.func.toNat % 8

/-- The state in which a part moves, with the translations of its words. -/
def Ctx.partPassed (c : Ctx) (es : List TlbEntry) (s : State) : State := (s.dropX c.cluster c.req).useTlbs c.core es

theorem Ctx.cacheStep_partPassed (c : Ctx) (es : List TlbEntry) (s : State) : s.CacheStep (c.partPassed es s) :=
  (s.cacheStep_dropX c.cluster c.req).trans (State.cacheStep_useTlbs _ _ _)

/-- A gsave or grest of active lanes whose words pass, at an aligned area, with no access of the group outstanding. -/
structure Ctx.PartReady (c : Ctx) (s : State) (r : Right) : Prop where
  act : c.act ≠ 0
  aligned : c.ua.toNat % 64 = 0
  hold : s.holdAccess c.slot = false
  still : s.allOpen c.slot = []
  good : ∀ k, k < (c.saved s).partSize c.part → (c.partChk s r k).good = true

/-- The places of the words of a part. -/
def Ctx.partPlaces (c : Ctx) (s : State) (r : Right) : List Nat :=
  (List.range ((c.saved s).partSize c.part)).map fun k => (c.partChk s r k).pa

theorem Ctx.partChks_good {c : Ctx} {s : State} {r : Right} (h : ∀ k, k < (c.saved s).partSize c.part → (c.partChk s r k).good = true) :
    ∀ x ∈ (List.range ((c.saved s).partSize c.part)).map (c.partChk s r), x.good = true :=
  List.forall_mem_map.2 fun k hk => h k (List.mem_range.1 hk)

theorem Ctx.partPlaces_fst (c : Ctx) (s : State) (r : Right) : c.partPlaces s r =
    ((List.range ((c.saved s).partSize c.part)).map fun k => ((c.partChk s r k).pa, 8)).map Prod.fst := by
  rw [List.map_map]
  rfl

section
variable {i : Instr} {s : State} {c : Ctx} {r : Right} {eff : Ctx → Group → Nat → (Nat → Nat) → State → State} (h : Issues i routineOnly s c)
include h

theorem partOp_idle (hact : c.act = 0) : partOp i r eff s = .next (done c s) := by
  unfold partOp
  rw [issue_next h]
  exact if_pos hact

end

section
variable {i : Instr} {s : State} {c : Ctx} {eff : Ctx → Group → Nat → (Nat → Nat) → State → State} (h : Issues i routineOnly s c)
include h

/-- A part that is ready is stored once its places are free. -/
theorem partOp_stores (hready : c.PartReady s .store)
    (hfree : ∀ a ∈ c.partPlaces s .store, s.unitFree c.cluster a 8 true = true ∧ s.fateFrom c.cluster a ≠ .moved) :
    ∃ es, partOp i .store eff s = .next (done c (eff c (c.saved s) c.part (fun k => (c.partChk s .store k).pa) (c.partPassed es s))) := by
  obtain ⟨hact, halign, hhold, hstill, hgood⟩ := hready
  obtain ⟨es, hes⟩ := copyChks_good (c.partChks_good hgood)
  have hplace : ∀ p ∈ (List.range ((c.saved s).partSize c.part)).map fun k => ((c.partChk s .store k).pa, 8),
      s.unitFree c.cluster p.1 p.2 true = true ∧ s.fateFrom c.cluster p.1 ≠ .moved :=
    List.forall_mem_map.2 fun k hk => hfree _ (List.mem_map_of_mem hk)
  have hall : s.allFree c.cluster true ((List.range ((c.saved s).partSize c.part)).map fun k => ((c.partChk s .store k).pa, 8)) = true :=
    List.all_eq_true.2 fun p hp => (hplace p hp).1
  unfold partOp
  rw [issue_next h]
  dsimp only
  rw [if_neg hact, if_neg (not_not.2 halign), hhold, hstill, if_neg (by decide), hes]
  dsimp only
  rw [if_neg (by decide), hall, if_pos rfl]
  exact ⟨es, congrArg _ (State.sendAll_reached fun p hp => (hplace p hp).2)⟩

/-- A part that is ready is loaded once its places have been read. -/
theorem partOp_loads (hready : c.PartReady s .load) {v : State} (hv : s.lineReads c.cluster 8 (c.partPlaces s .load) = .ok v) :
    ∃ es, partOp i .load eff s = .next (done c (eff c (c.saved s) c.part (fun k => (c.partChk s .load k).pa) (c.partPassed es v))) := by
  obtain ⟨hact, halign, hhold, hstill, hgood⟩ := hready
  obtain ⟨es, hes⟩ := copyChks_good (c.partChks_good hgood)
  rw [Ctx.partPlaces_fst] at hv
  unfold partOp
  rw [issue_next h]
  dsimp only
  rw [if_neg hact, if_neg (not_not.2 halign), hhold, hstill, if_neg (by decide), hes]
  dsimp only
  rw [if_pos rfl, hv]
  exact ⟨es, rfl⟩

end

/-- The state in which a part has been loaded into the saved group. -/
def Ctx.partLoaded (c : Ctx) (s u : State) : State :=
  { u with stash := SMap.set u.stash c.slot ((c.saved s).setPart c.part fun k => u.seenDword (c.partChk s .load k).pa) }

/-- Settles O48: gsave and grest are the two forms of `partOp`. -/
theorem saveAndRestoreMoveAPart : Obligations.SaveAndRestoreMoveAPart := by
  intro f s c part g chk ready places
  refine ⟨fun h hact => ?saveIdle, fun h hready hfree => ?save, fun h hact => ?restIdle, fun v h hready hv => ?rest⟩
  case saveIdle =>
    rw [exec_gsave, execGsave, partOp_idle h hact]
    exact acts_done c s
  case save =>
    obtain ⟨hact, halign, hhold, hstill, hgood⟩ := hready
    obtain ⟨es, hexec⟩ := partOp_stores h ⟨hact, halign, hhold, hstill, hgood⟩ hfree
    have step := c.cacheStep_partPassed es s
    rw [exec_gsave, execGsave, hexec]
    exact ⟨c.partPassed es s, step.mem, step.groups, step.stash, acts_done c _⟩
  case restIdle =>
    rw [exec_grest, execGrest, partOp_idle h hact]
    exact acts_done c s
  case rest =>
    obtain ⟨hact, halign, hhold, hstill, hgood⟩ := hready
    obtain ⟨es, hexec⟩ := partOp_loads h ⟨hact, halign, hhold, hstill, hgood⟩ hv
    have step := c.cacheStep_partPassed es v
    rw [exec_grest, execGrest, hexec]
    refine ⟨c.partLoaded s (c.partPassed es v), step.mem, step.groups, ?_, acts_done c _⟩
    simp only [Ctx.partLoaded, step.stash, step.seenDword]
    rfl

end Sys2Proof.Machine
end

section
/-! Tasks (R315 to R328): spawning and arming, the decrements that a group sends, and what tdone, tlaunch and tget leave. -/

namespace Sys2Proof.Machine

open Sys2Proof

set_option Elab.async false

/-- An instruction that sends every lane of its batch to one place. -/
theorem goes_lanesOf (c : Ctx) (x : LEntry) (p : DWord) (u : State) : Goes c (fun _ => p) u (.next (retire c x (lanesOf p) u)) := by
  have e : (fun l : Lane => (lanesOf p : Lanes DWord)[l]) = fun _ => p := by
    funext l
    simp [lanesOf]
  rw [← e]
  exact goes_retire x (lanesOf p)

section
variable {i : Instr} {s v : State} {c : Ctx}

/-- A status is the result of an instruction that names a destination. -/
theorem Issues.computesStatus {own : Ctx → State → Option (BitVec 8)} (h : Issues i own s c)
    (hd : i.spec.map (fun p => p.d.used) = some true) (n : Nat) (u : State) : ComputesUniform c (BitVec.ofNat 64 n) u (statusOut c n u) :=
  h.computesResult hd

end

/-! ### tspawn (R321) -/

section
variable {f : Enc} {s v : State} {c : Ctx} {ws : List DWord} (h : Issues (.tspawn f) noOwn s c)
include h

theorem execTspawn_idle (hact : c.act = 0) : execTspawn f s = statusOut c 0 s := by
  rw [execTspawn, issue_next h]
  exact if_pos hact

theorem execTspawn_misaligned (hact : c.act ≠ 0) (halign : c.ua.toNat % 64 ≠ 0) : execTspawn f s = statusOut c 6 s := by
  rw [execTspawn, issue_next h]
  rw [if_neg hact, if_pos halign]

section
variable (hact : c.act ≠ 0) (halign : c.ua.toNat % 64 = 0) (hrec : c.readRec s c.ua 8 = .ok ws v)
include hact halign hrec

theorem execTspawn_refused (hst : v.taskStatus c.g.rcb ws ≠ 0) : execTspawn f s = statusOut c (v.taskStatus c.g.rcb ws) v := by
  obtain ⟨n, hn⟩ := Nat.exists_eq_succ_of_ne_zero hst
  rw [execTspawn, issue_next h]
  rw [if_neg hact, if_neg (not_not.2 halign), hrec]
  dsimp only
  rw [hn]
  rfl

theorem execTspawn_accepted (hst : v.taskStatus c.g.rcb ws = 0) : execTspawn f s =
    if v.room useTask c.g.rcb then statusOut c 0 ((v.charge useTask c.g.rcb 1).ready c.cluster (c.captureTask v c.ua ws true)) else statusOut c 3 v := by
  rw [execTspawn, issue_next h]
  rw [if_neg hact, if_neg (not_not.2 halign), hrec]
  dsimp only
  rw [hst]
  rfl

end
end

/-! ### tarm (R318, R322) -/

/-- The arm that a tarm sends to the home of its counter. -/
def Ctx.armOf (c : Ctx) (t : Task) (s : State) : PendArm :=
  { slot := c.slot, uid := c.g.uid, rcb := c.g.rcb, idx := c.ua.toNat % 2 ^ 32, init := (c.ub.setWidth 32 : Word).toInt,
    task := { t with spawned := false, rank := c.ua.toNat % 2 ^ 32 }, clr := c.e.func.getLsbD 0, dest := c.dest, pc := c.pc, after := s.allOpen c.slot }

/-- The state in which an arm is on its way. -/
def Ctx.armSent (c : Ctx) (t : Task) (s : State) : State :=
  { s with nextId := s.nextId + 1, arms := SMap.set s.arms s.nextId (c.armOf t s.fresh.2) }

section
variable {f : Enc} {s v : State} {c : Ctx} {ws : List DWord} (h : Issues (.tarm f) noOwn s c)
include h

theorem execTarm_idle (hact : c.act = 0) : execTarm f s = statusOut c 0 s := by
  rw [execTarm, issue_next h]
  exact if_pos hact

theorem execTarm_outside (hact : c.act ≠ 0) (hidx : s.ctrn c.g.rcb ≤ c.ua.toNat % 2 ^ 32) :
    execTarm f s = .next (s.raise c.slot .retry (c.counterFault c.ua c.act)) := by
  rw [execTarm, issue_next h]
  dsimp only
  rw [if_neg hact, if_pos hidx]

section
variable (hact : c.act ≠ 0) (hidx : c.ua.toNat % 2 ^ 32 < s.ctrn c.g.rcb)
include hact hidx

theorem execTarm_clears (hclr : c.e.func.getLsbD 0 = true) :
    execTarm f s = .next (retire c (c.pending s.nextId) c.nextPcs (c.armSent (c.noTask s) s)) := by
  rw [execTarm, issue_next h]
  dsimp only
  rw [if_neg hact, if_neg (Nat.not_le.2 hidx), if_pos hclr]
  rfl

theorem execTarm_arms (hclr : c.e.func.getLsbD 0 = false) (halign : c.uc.toNat % 64 = 0) (hrec : c.readRec s c.uc 8 = .ok ws v)
    (hst : v.taskStatus c.g.rcb ws = 0) :
    execTarm f s = .next (retire c (c.pending v.nextId) c.nextPcs (c.armSent (c.captureTask v c.uc ws false) v)) := by
  rw [execTarm, issue_next h]
  dsimp only
  rw [if_neg hact, if_neg (Nat.not_le.2 hidx), hclr, if_neg Bool.false_ne_true, if_neg (not_not.2 halign), hrec]
  dsimp only
  rw [hst]
  rw [Ctx.armSent, Ctx.armOf, hclr]
  rfl

end
end

/-! ### Decrements (R323) -/

/-- A decrement of a counter by some lanes of a group. -/
def Ctx.decOf (c : Ctx) (i : Nat) (m : LaneMask) (once : Bool) (after : List Nat) : PendDec :=
  { slot := c.slot, uid := c.g.uid, rcb := c.g.rcb, idx := i, lanes := m, pc := c.pc, aux := c.g.taskrec.setWidth 32, copy := false,
    once := once, after := after, waits := true }

/-- What sending decrements leaves: each is listed, those listed before stay, and memory and groups are what they were. -/
structure DecsSent (c : Ctx) (ks : List Nat) (m : Nat → LaneMask) (once : Bool) (after : List Nat) (s t : State) : Prop where
  mem : t.mem = s.mem
  groups : t.groups = s.groups
  kept : ∀ id, id < s.nextId → SMap.find t.decs id = SMap.find s.decs id
  sent : ∀ k ∈ ks, ∃ id, SMap.find t.decs id = some (c.decOf k (m k) once after)

theorem State.sendDecs_sent (c : Ctx) (m : Nat → LaneMask) (once : Bool) (after : List Nat) : ∀ (ks : List Nat) (s : State),
    DecsSent c ks m once after s (ks.foldl (fun s k => s.sendDec c k (m k) once after) s)
  | [], s => ⟨rfl, rfl, fun _ _ => rfl, fun _ h => absurd h (by simp)⟩
  | k :: ks, s => by
    have first : (s.sendDec c k (m k) once after).decs = SMap.set s.decs s.nextId (c.decOf k (m k) once after) := rfl
    have hid : (s.sendDec c k (m k) once after).nextId = s.nextId + 1 := rfl
    obtain ⟨hmem, hgroups, hkept, hsent⟩ := State.sendDecs_sent c m once after ks (s.sendDec c k (m k) once after)
    rw [hid] at hkept
    refine ⟨hmem, hgroups, fun id hlt => ?_, fun j hj => ?_⟩
    · exact (hkept id (by omega)).trans (by rw [first]; exact SMap.find_set_ne _ _ _ _ (by omega))
    · rcases List.mem_cons.1 hj with rfl | hj
      · exact ⟨s.nextId, (hkept _ (by omega)).trans (by rw [first]; exact SMap.find_set_same _ _ _)⟩
      · exact hsent j hj

/-- The counter that a lane of a tdec names. -/
def Ctx.decIdx (c : Ctx) (l : Lane) : Nat := (c.a .int l).toNat % 2 ^ 32

/-- The state in which the decrements of a tdec are on their way, those of one counter together. -/
def Ctx.decsSent (c : Ctx) (s : State) : State :=
  (((lanesIn c.act).map c.decIdx).eraseDups).foldl
    (fun u k => u.sendDec c k (maskOf fun l => laneIn c.act l && c.decIdx l == k) false (s.allOpen c.slot)) s

section
variable {f : Enc} {s : State} {c : Ctx} (h : Issues (.tdec f) noOwn s c)
include h

theorem execTdec_idle (hact : c.act = 0) : execTdec f s = .next (done c s) := by
  rw [execTdec, issue_next h]
  exact if_pos hact

theorem execTdec_sends (hact : c.act ≠ 0) (hidx : ∀ l, laneIn c.act l = true → c.decIdx l < s.ctrn c.g.rcb) :
    execTdec f s = .next (done c (c.decsSent s)) := by
  have hbad : maskOf (fun l => laneIn c.act l && decide (s.ctrn c.g.rcb ≤ c.decIdx l)) = 0 := by
    refine maskOf_eq_zero_iff.2 fun l => ?_
    cases hl : laneIn c.act l
    · rfl
    · exact decide_eq_false (Nat.not_le.2 (hidx l hl))
  rw [execTdec, issue_next h]
  dsimp only
  rw [if_neg hact]
  exact if_neg (not_not.2 hbad)

end

/-! ### tdone (R324) -/

/-- The check of the completion word of a task; a task without one has nothing to check. -/
def Ctx.doneChk (c : Ctx) (s : State) (t : Task) (_ : Lane) : LaneChk :=
  if t.cwaddr = 0 then .ok 0 none else s.checkGlobal c.slot c.priv c.g.asid .store 4 4 t.cwaddr

/-- The completion word of a task on its way. -/
def Ctx.wordSent (c : Ctx) (s : State) (t : Task) (u : State) : State :=
  if t.cwaddr = 0 then u
  else (u.sendAccess { c.access u .global .store (piecesOf (maskOf fun l => l == c.low) 4 fun l => (c.doneChk s t l).pa) (fun _ => t.cwaddr) with
    lanes := maskOf fun l => l == c.low, ord := 2, bits := 32, data := lanesOf (c.ua.setWidth 128), waits := true, after := u.allOpen c.slot }).2

/-- The state in which a task is done: its word and its decrements on their way, its unit of the quota returned. -/
def Ctx.taskDone (c : Ctx) (s : State) (t : Task) : State :=
  let u := c.wordSent s t (c.passed (c.doneChk s t) s)
  ((t.succs.foldl (fun v i => v.sendDec c i c.act true (u.allOpen c.slot)) u).charge useTask c.g.rcb (-1)).updGroup c.slot fun g =>
    { g with taskrec := 0, task := none }

theorem Ctx.wordSent_groups (c : Ctx) (s : State) (t : Task) (u : State) : (c.wordSent s t u).groups = u.groups := by
  unfold Ctx.wordSent
  split
  · rfl
  · exact (requestsCoverTheLanesAndAreSent.2 _ _).2.2.2.1

theorem Ctx.taskDone_group (c : Ctx) (s : State) (t : Task) :
    (c.taskDone s t).group c.slot = { s.group c.slot with taskrec := 0, task := none } := by
  have groups : ((t.succs.foldl (fun v i => v.sendDec c i c.act true ((c.wordSent s t (c.passed (c.doneChk s t) s)).allOpen c.slot))
      (c.wordSent s t (c.passed (c.doneChk s t) s))).charge useTask c.g.rcb (-1)).groups = s.groups :=
    (State.HeldStep.refl _).charge.groups.trans ((State.sendDecs_sent c (fun _ => c.act) true _ _ _).groups.trans
      ((c.wordSent_groups s t _).trans (c.cacheStep_passed _ s).groups))
  unfold Ctx.taskDone
  dsimp only
  rw [State.group_updGroup]
  simp only [State.group, groups]

theorem execTdone_completes {f : Enc} {s : State} {c : Ctx} {t : Task} (h : Issues (.tdone f) tdoneOwn s c) (htask : c.g.task = some t)
    (hsucc : ∀ i ∈ t.succs, i < s.ctrn c.g.rcb) (hpass : Passes c (c.doneChk s t) 1 s) :
    execTdone f s = .next (retire c LEntry.undef (lanesOf c.g.taskret) (c.taskDone s t)) := by
  have hfind : t.succs.find? (s.ctrn c.g.rcb ≤ ·) = none :=
    List.find?_eq_none.2 fun i hi => by simpa using hsucc i hi
  rw [execTdone, issue_next h]
  dsimp only
  rw [htask, Option.getD_some, hfind]
  exact checked_passes hpass

/-! ### tlaunch (R328) -/

/-- How deep a launch that a group submits stands below the launch of its team. -/
def Ctx.launchDepth (c : Ctx) (v : State) : Nat := (SMap.get v.launches (v.team c.g.team).launch {}).depth + 1

/-- The status of a launch record that a group submits. -/
def Ctx.launchStatus (c : Ctx) (v : State) (ws : List DWord) : Nat := v.submitStatus ws (some (c.g.rcb, v.descOf c.slot)) (c.launchDepth v)

section
variable {f : Enc} {s v : State} {c : Ctx} {ws : List DWord} (h : Issues (.tlaunch f) noOwn s c)
include h

theorem execTlaunch_idle (hact : c.act = 0) : execTlaunch f s = statusOut c 0 s := by
  rw [execTlaunch, issue_next h]
  exact if_pos hact

theorem execTlaunch_misaligned (hact : c.act ≠ 0) (halign : c.ua.toNat % 128 ≠ 0) : execTlaunch f s = statusOut c 6 s := by
  rw [execTlaunch, issue_next h]
  dsimp only
  rw [if_neg hact, if_pos halign]

section
variable (hact : c.act ≠ 0) (halign : c.ua.toNat % 128 = 0) (hrec : c.readRec s c.ua 16 = .ok ws v)
include hact halign hrec

theorem execTlaunch_refused (hst : c.launchStatus v ws ≠ 0) : execTlaunch f s = statusOut c (c.launchStatus v ws) v := by
  obtain ⟨n, hn⟩ := Nat.exists_eq_succ_of_ne_zero hst
  rw [execTlaunch, issue_next h, hn]
  rw [Ctx.launchStatus, Ctx.launchDepth] at hn
  rw [if_neg hact, if_neg (not_not.2 halign), hrec]
  dsimp only
  rw [hn]
  rfl

theorem execTlaunch_accepted (hst : c.launchStatus v ws = 0) : execTlaunch f s =
    statusOut c 0 (v.enqueueLaunch ws c.ua (c.launchDepth v) c.g.rcb (v.descOf c.slot) c.cluster false (v.allOpen c.slot)) := by
  rw [Ctx.launchStatus, Ctx.launchDepth] at hst
  rw [execTlaunch, issue_next h, if_neg hact, if_neg (not_not.2 halign), hrec]
  dsimp only
  rw [hst]
  rfl

end
end

/-! ### tget (R325) -/

/-- A group that is given a task: its special registers hold it, and its destination the address of the record. -/
theorem State.giveTask_group (s : State) (slot : Nat) (t : Task) (d : Dest) (ret : DWord) : let g := (s.giveTask slot t d ret).group slot
    g.taskrec = t.addr ∧ g.taskret = ret ∧ g.task = some t ∧ ∀ r l, g.raw r l = ((s.group slot).writeDest d (uniform t.addr)).raw r l := by
  have inval (u : State) (core : Nat) : (u.acquireInval core).group slot = u.group slot := rfl
  unfold State.giveTask
  dsimp only
  rw [inval, State.group_updGroup]
  exact ⟨rfl, rfl, rfl, fun _ _ => rfl⟩

/-- The state in which a group has taken a ready task. -/
def Ctx.taskTaken (c : Ctx) (s : State) (t : Task) : State :=
  (s.setCluster c.cluster { s.cluster c.cluster with ready := (s.cluster c.cluster).ready.erase t }).giveTask c.slot t c.dest c.next

section
variable (c : Ctx) (s : State) (t : Task)

theorem Ctx.taskTaken_mem : (c.taskTaken s t).mem = s.mem := rfl

theorem Ctx.taskTaken_ready : ((c.taskTaken s t).cluster c.cluster).ready = (s.cluster c.cluster).ready.erase t :=
  congrArg Cluster.ready (State.cluster_setCluster _ _ _)

theorem Ctx.taskTaken_group : let g := (c.taskTaken s t).group c.slot
    g.taskrec = t.addr ∧ g.taskret = c.next ∧ g.task = some t ∧ ∀ r l, g.raw r l = ((s.group c.slot).writeDest c.dest (uniform t.addr)).raw r l :=
  State.giveTask_group _ _ _ _ _

end

section
variable {f : Enc} {s : State} {c : Ctx} {t : Task} (h : Issues (.tget f) tgetOwn s c)
include h

theorem execTget_takes (hfirst : firstTask (s.takeable c.g.rcb s.cycle) (s.cluster c.cluster).ready = some t) :
    execTget f s = .next (retire c (c.entry (uniform t.addr)) (lanesOf t.entry) (c.taskTaken s t)) := by
  rw [execTget, issue_next h]
  dsimp only
  rw [hfirst]
  rfl

theorem execTget_parks (hfirst : firstTask (s.takeable c.g.rcb s.cycle) (s.cluster c.cluster).ready = none) :
    execTget f s = .next (done c (s.block c.slot (.tget c.dest s.cycle))) := by
  rw [execTget, issue_next h]
  dsimp only
  rw [hfirst]

end

/-- Settles O38: the statuses and the state of each instruction, case by case. -/
theorem taskInstructionsAct : Obligations.TaskInstructionsAct := by
  intro f s c rcb stat idx
  refine ⟨fun h hact => ?spawnIdle, fun h hact halign => ?spawnAlign, fun ws v h hact halign hrec => ⟨fun hst => ?spawnBad, fun hst hroom => ?spawnFull,
    fun hst hroom => ?spawns⟩, fun h hact => ?armIdle, fun h hact hidx => execTarm_outside h hact hidx, fun h hact hidx hclr => ?armClr,
    fun ws v h hact hidx hclr halign hrec hst => ?arms, fun h hact => ?decIdle, fun h hact hidx => ?decs, fun t h htask hsucc hpass => ?done,
    fun h hact => ?launchIdle, fun h hact halign => ?launchAlign, fun ws v h hact halign hrec => ⟨fun hst => ?launchBad, fun hst => ?launches⟩,
    fun t h hfirst => ?takes, fun h hfirst => ?waits⟩
  case spawnIdle =>
    rw [exec_tspawn, execTspawn_idle h hact]
    exact h.computesStatus rfl 0 s
  case spawnAlign =>
    rw [exec_tspawn, execTspawn_misaligned h hact halign]
    exact h.computesStatus rfl 6 s
  case spawnBad =>
    rw [exec_tspawn, execTspawn_refused h hact halign hrec hst]
    exact h.computesStatus rfl _ v
  case spawnFull =>
    rw [exec_tspawn, execTspawn_accepted h hact halign hrec hst, hroom]
    exact h.computesStatus rfl 3 v
  case spawns =>
    rw [exec_tspawn, execTspawn_accepted h hact halign hrec hst, if_pos hroom]
    exact h.computesStatus rfl 0 _
  case armIdle =>
    rw [exec_tarm, execTarm_idle h hact]
    exact h.computesStatus rfl 0 s
  case armClr =>
    rw [exec_tarm, execTarm_clears h hact hidx hclr]
    exact ⟨c.armOf (c.noTask s) s.fresh.2, rfl, hclr, rfl, rfl, acts_pending c s.nextId _⟩
  case arms =>
    rw [exec_tarm, execTarm_arms h hact hidx hclr halign hrec hst]
    exact ⟨c.armOf (c.captureTask v c.uc ws false) v.fresh.2, rfl, hclr, rfl, rfl, rfl, rfl, rfl, acts_pending c v.nextId _⟩
  case decIdle =>
    rw [exec_tdec, execTdec_idle h hact]
    exact acts_done c s
  case decs =>
    have sent := State.sendDecs_sent c (fun k => maskOf fun l => laneIn c.act l && c.decIdx l == k) false (s.allOpen c.slot)
      ((lanesIn c.act).map c.decIdx).eraseDups s
    rw [exec_tdec, execTdec_sends h hact hidx]
    refine ⟨c.decsSent s, sent.mem, sent.groups, fun l hl => ?_, acts_done c _⟩
    obtain ⟨id, hfind⟩ := sent.sent (c.decIdx l) (List.mem_eraseDups.2 (List.mem_map_of_mem ((mem_lanesIn _ l).2 hl)))
    exact ⟨id, _, hfind, rfl, rfl, rfl, fun k => laneIn_maskOf _ k⟩
  case done =>
    have hgroup := c.taskDone_group s t
    rw [exec_tdone, execTdone_completes h htask hsucc hpass]
    refine ⟨c.taskDone s t, ?_, ?_, ?_, goes_lanesOf c _ _ _⟩ <;> rw [hgroup]
    rw [h.group]
    exact fun r l _ => rfl
  case launchIdle =>
    rw [exec_tlaunch, execTlaunch_idle h hact]
    exact h.computesStatus rfl 0 s
  case launchAlign =>
    rw [exec_tlaunch, execTlaunch_misaligned h hact halign]
    exact h.computesStatus rfl 6 s
  case launchBad =>
    rw [exec_tlaunch, execTlaunch_refused h hact halign hrec hst]
    exact h.computesStatus rfl _ v
  case launches =>
    rw [exec_tlaunch, execTlaunch_accepted h hact halign hrec hst]
    exact h.computesStatus rfl 0 _
  case takes =>
    obtain ⟨hrec, hret, htask, hraw⟩ := c.taskTaken_group s t
    rw [exec_tget, execTget_takes h hfirst]
    refine ⟨c.taskTaken s t, hrec, hret, htask, c.taskTaken_ready s t, c.taskTaken_mem s t, ?_, goes_lanesOf c _ _ _⟩
    rw [h.group]
    exact hraw
  case waits =>
    rw [exec_tget, execTget_parks h hfirst]
    exact acts_done c _

end Sys2Proof.Machine
end

section
/-! What the shard of a service reaches (R347, R350 to R352, R357): the steps of a store at its home, ranges reached through the window, and an action of a
service by what its body answers. -/

namespace Sys2Proof.Machine

open Sys2Proof

set_option Elab.async false

/-! ### Stores at a home -/

/-- A state that differs from another in what homes change: memory, lines, slices, what service cores have been told, and wakes on their way. -/
def State.HomeFrame (s t : State) : Prop := t = { s with mem := t.mem, lines := t.lines, slices := t.slices, svc := t.svc, wakes := t.wakes }

section
variable {s t u : State}

theorem State.HomeFrame.refl (s : State) : s.HomeFrame s := rfl

theorem State.HomeFrame.trans (h : s.HomeFrame t) (h' : t.HomeFrame u) : s.HomeFrame u := by
  unfold State.HomeFrame at *
  rw [h', h]

theorem State.HomeFrame.groups (h : s.HomeFrame t) : t.groups = s.groups := by rw [h]
theorem State.HomeFrame.heap (h : s.HomeFrame t) : t.heap = s.heap := by rw [h]

theorem State.HomeFrame.ite {c : Prop} [Decidable c] (ht : s.HomeFrame t) (hu : s.HomeFrame u) : s.HomeFrame (if c then t else u) := by
  split <;> assumption

theorem State.HomeFrame.foldl {α : Type} {f : State → α → State} (hf : ∀ (t : State) (x : α), t.HomeFrame (f t x)) (l : List α) (s : State) :
    s.HomeFrame (l.foldl f s) :=
  List.foldlRecOn (motive := s.HomeFrame) l f (.refl s) fun t ht x _ => ht.trans (hf t x)

theorem State.HeldStep.frame (h : s.HeldStep t) : s.HomeFrame t := h.toHomeStep.rest

end

theorem State.homeFrame_afterWrite (s : State) (home pa n : Nat) : s.HomeFrame (s.afterWrite home pa n) := (State.HeldStep.refl s).afterWriteFor.frame

theorem State.homeFrame_poisonLine (s : State) (home pa cause : Nat) : s.HomeFrame (s.poisonLine home pa cause) :=
  State.HomeFrame.trans (t := s.setLine pa _) rfl (s.heldStep_poisonLine_set home pa cause).frame

theorem State.homeFrame_thresh (s : State) (home pa : Nat) : s.HomeFrame (s.thresh home pa) := by
  unfold State.thresh
  dsimp only
  split
  · rfl
  · refine .ite rfl ?_
    exact .ite (State.HomeFrame.trans (t := s.setLine _ _) rfl (State.homeFrame_poisonLine _ _ _ _)) rfl

theorem State.homeFrame_fillLine (s : State) (home pa : Nat) (bad : Bool) : s.HomeFrame (s.fillLine home pa bad) :=
  State.HomeFrame.trans (s.homeStep_fillHeldLine home pa).rest (s.heldStep_fillLine home pa bad).1.frame

theorem State.homeFrame_needLine (s : State) (pa : Nat) : s.HomeFrame (s.needLine pa) := .ite (.refl s) (s.homeFrame_fillLine _ _ _)

theorem State.homeFrame_homeWrite (s : State) (home pa : Nat) (bs : SMap Byte) (full : Bool) (who : Option Agent) :
    s.HomeFrame (s.homeWrite home pa bs full who) := by
  refine .ite (.refl s) ?_
  dsimp only
  refine .trans ?_ (State.homeFrame_afterWrite _ _ _ _)
  refine .ite (State.HomeFrame.trans (t := State.setLine _ _ _) ?_ (State.homeFrame_thresh _ _ _)) ?_ <;> rfl

theorem State.homeFrame_homeStore (s : State) (pa x n : Nat) : s.HomeFrame (s.homeStore pa x n) :=
  (s.homeFrame_homeWrite _ _ _ _ _).trans (.foldl (fun t h => t.homeFrame_afterWrite h pa n) _ _)

/-- HEAPUSED of a region and its ancestors is stored at its homes. -/
theorem State.homeFrame_heapCharge (s : State) (rcb : Nat) (d : Int) : s.HomeFrame (s.heapCharge rcb d) :=
  .foldl (fun t r => (t.homeFrame_needLine (r + 200)).trans (State.homeFrame_homeStore _ _ _ _)) _ _

end Sys2Proof.Machine
end

section
/-! Actions of the services of Linium (R347, R350 to R352, R355): what an action leaves by what its body answers. -/

namespace Sys2Proof.Machine

open Sys2Proof

set_option Elab.async false

/-! ### An action that may be made -/

/-- An action on good arguments that its quota covers (R352). -/
def State.Fits (s : State) (k : Nat) (l : Lane) (r : Rec) (v : Service) : Prop :=
  k < 28 ∧ s.recBadArgs r l v = false ∧
    s.overQuota r.rcb (if s.recBadArgs r l v then 320 else v.fixed + v.perLane * countLanes (s.actionLanes r l v)) = false

theorem State.takeRec_groups (s : State) (r : Rec) : (s.takeRec r).groups = s.groups := by
  obtain ⟨_, _, e⟩ := s.takeRec_parts r
  rw [e]

theorem State.takeRec_mem (s : State) (r : Rec) : (s.takeRec r).mem = s.mem := by
  obtain ⟨_, _, e⟩ := s.takeRec_parts r
  rw [e]

theorem State.takeRec_heap (s : State) (r : Rec) : (s.takeRec r).heap = s.heap := by
  obtain ⟨_, _, e⟩ := s.takeRec_parts r
  rw [e]

section
variable {num cl k : Nat} {l : Lane} {s u : State} {r : Rec} {v : Service} {body : Rec → Service → LaneMask → State → State} {st : Nat}
  {value : Lane → DWord} (h : s.serveDue num cl k l = some (r, v))
include h

theorem State.actionLanes_ne_zero : s.actionLanes r l v ≠ 0 := fun e => by
  have hl := State.actionLanes_mem h
  rw [e, laneIn_zero] at hl
  cases hl

section
variable (hf : s.Fits k l r v)
include hf

/-- An action leaves what the state in which its body answers held, and the answer. -/
theorem serve_answers (hu : body r v (s.actionLanes r l v) (s.takeRec r) = u.answerLanes r v (s.actionLanes r l v) st value) :
    ∃ t, serve num cl k l body s = .next t ∧ Answered t cl k (s.actionLanes r l v) st value ∧ t.groups = u.groups ∧ t.mem = u.mem ∧
      t.heap = u.heap := by
  obtain ⟨hk, hb, hq⟩ := hf
  rw [hb, if_neg Bool.false_ne_true] at hq
  exact serve_says h hk hb hq hu

/-- An action whose body answers at once changes no group and no memory. -/
theorem serve_tells (hu : body r v (s.actionLanes r l v) (s.takeRec r) = (s.takeRec r).answerLanes r v (s.actionLanes r l v) st value) :
    ∃ t, serve num cl k l body s = .next t ∧ Answered t cl k (s.actionLanes r l v) st value ∧ t.groups = s.groups ∧ t.mem = s.mem ∧
      t.heap = s.heap := by
  obtain ⟨t, hserve, hans, hg, hm, hh⟩ := serve_answers h hf hu
  exact ⟨t, hserve, hans, hg.trans (s.takeRec_groups r), hm.trans (s.takeRec_mem r), hh.trans (s.takeRec_heap r)⟩

theorem State.Fits.recArg (x : Lane) (i : Nat) : (s.takeRec r).recArg r x i = s.recArg r x i := by
  obtain ⟨-, rfl, -⟩ := State.serveDue_facts h
  exact s.takeRec_arg r hf.1 x i

theorem State.Fits.recArg2 (x : Lane) (i : Nat) : (s.takeRec r).recArg2 r x i = s.recArg2 r x i := by
  obtain ⟨-, rfl, -⟩ := State.serveDue_facts h
  exact s.takeRec_arg2 r hf.1 x i

end

/-- Refused arguments: EINVAL, whatever the service. -/
theorem serve_refuses (hk : k < 28) (hb : s.recBadArgs r l v = true) (hq : s.overQuota r.rcb 320 = false) :
    ∃ t, serve num cl k l body s = .next t ∧ Answered t cl k (s.actionLanes r l v) eInval (fun _ => 0) ∧ t.groups = s.groups ∧ t.mem = s.mem := by
  rw [← s.takeRec_quota r] at hq
  unfold serve
  rw [h]
  dsimp only
  rw [hb, if_pos rfl, if_neg (by rw [hq]; simp), if_pos rfl]
  have reply (u : State) := u.replyTo_spec cl k (s.actionLanes r l v) eInval (fun _ => 0) hk
  refine ⟨_, rfl, (reply _).2.1, ?_, ?_⟩
  · exact (reply _).1.1.trans (s.takeRec_groups r)
  · exact (reply _).1.2.1.trans (s.takeRec_mem r)

end

/-! ### Ranges through the window (R357) -/

/-- A range whose check passes and whose homes can take it is reached. -/
theorem State.throughWindow_reaches {s : State} {r : Rec} {v : Service} {m : LaneMask} {rt : Right} {va n : Nat} {go : State → State} {es : List TlbEntry}
    (hrange : s.winRange r.cl r.asid rt va n = .ok es) (hfree : s.allFree r.cl (rt != .load) (s.winPlaces r.cl r.asid rt va n) = true)
    (hreach : ∀ p ∈ s.winPlaces r.cl r.asid rt va n, s.fateFrom r.cl p.1 ≠ .moved) :
    s.throughWindow r v m rt va n go = go ((s.dropX r.cl winReq).useTlbsIn r.cl es) := by
  rw [State.throughWindow, hrange]
  dsimp only
  rw [if_pos hfree, State.sendAll_reached hreach]

section
variable {num cl k n st : Nat} {l : Lane} {s : State} {r : Rec} {v : Service} {data : List Byte} {es : List TlbEntry}

/-- The body of a service that brings data in. -/
def comesIn (l : Lane) (st : Nat) (data : List Byte) (r : Rec) (v : Service) (m : LaneMask) (s : State) : State :=
  s.serveIn st data (s.recArg2 r l 1) (s.recArg r l 3).toNat r v m

/-- The body of a service that takes data out. -/
def goesOut (l : Lane) (st n : Nat) (r : Rec) (v : Service) (m : LaneMask) (s : State) : State :=
  s.serveOutData st n (s.recArg2 r l 1) (s.recArg r l 3).toNat r v m

variable (h : s.serveDue num cl k l = some (r, v)) (hf : s.Fits k l r v)
include h hf

/-- Data that comes in: the lanes are told how much of it fitted. -/
theorem serve_comesIn (hrange : (s.takeRec r).winRange r.cl r.asid .store (s.recArg2 r l 1) (s.recArg r l 3).toNat = .ok es)
    (hfree : (s.takeRec r).allFree r.cl true ((s.takeRec r).winPlaces r.cl r.asid .store (s.recArg2 r l 1) (s.recArg r l 3).toNat) = true)
    (hreach : ∀ p ∈ (s.takeRec r).winPlaces r.cl r.asid .store (s.recArg2 r l 1) (s.recArg r l 3).toNat, (s.takeRec r).fateFrom r.cl p.1 ≠ .moved) :
    ∃ t, serve num cl k l (comesIn l 0 data) s = .next t ∧
      Answered t cl k (s.actionLanes r l v) 0 fun _ => BitVec.ofNat 64 (min (s.recArg r l 3).toNat data.length) := by
  rw [← List.length_take]
  obtain ⟨t, hserve, hans, -⟩ := serve_answers (body := comesIn l 0 data) h hf (by
    rw [comesIn, hf.recArg h, hf.recArg2 h, State.serveIn, if_neg (not_not.2 rfl)]
    exact State.throughWindow_reaches hrange hfree hreach)
  exact ⟨t, hserve, hans⟩

/-- Data that goes out: the lanes are told how much of it was taken. -/
theorem serve_goesOut (hrange : (s.takeRec r).winRange r.cl r.asid .load (s.recArg2 r l 1) (s.recArg r l 3).toNat = .ok es)
    (hfree : (s.takeRec r).allFree r.cl false ((s.takeRec r).winPlaces r.cl r.asid .load (s.recArg2 r l 1) (s.recArg r l 3).toNat) = true)
    (hreach : ∀ p ∈ (s.takeRec r).winPlaces r.cl r.asid .load (s.recArg2 r l 1) (s.recArg r l 3).toNat, (s.takeRec r).fateFrom r.cl p.1 ≠ .moved) :
    ∃ t, serve num cl k l (goesOut l 0 n) s = .next t ∧
      Answered t cl k (s.actionLanes r l v) 0 (fun _ => BitVec.ofNat 64 (min n (s.recArg r l 3).toNat)) ∧ t.groups = s.groups ∧ t.mem = s.mem := by
  have step : (s.takeRec r).CacheStep (((s.takeRec r).dropX r.cl winReq).useTlbsIn r.cl es) :=
    ((s.takeRec r).cacheStep_dropX r.cl winReq).trans (State.cacheStep_useTlbsIn _ _ _)
  obtain ⟨t, hserve, hans, hg, hm, -⟩ := serve_answers (body := goesOut l 0 n) h hf (by
    rw [goesOut, hf.recArg h, hf.recArg2 h, State.serveOutData, if_neg (not_not.2 rfl)]
    exact State.throughWindow_reaches hrange hfree hreach)
  exact ⟨t, hserve, hans, hg.trans (step.groups.trans (s.takeRec_groups r)), hm.trans (step.mem.trans (s.takeRec_mem r))⟩

end

end Sys2Proof.Machine
end

section
/-! The heap services and CALL_STATUS (R350, R351, R355): MEM_ALLOC, MEM_FREE, MEM_INFO and CALL_STATUS by the lanes of their action. -/

namespace Sys2Proof.Machine

open Sys2Proof

set_option Elab.async false

/-! ### Limits of the heap (R350, R351) -/

section
variable {s t : State} (h : t.mem = s.mem)
include h

theorem State.heapLim_congr (r : Nat) : t.heapLim r = s.heapLim r := by simp only [State.heapLim, State.rcbW, State.dword, h]

theorem State.heapUsed_congr (r : Nat) : t.heapUsed r = s.heapUsed r := by simp only [State.heapUsed, State.rcbW, State.dword, h]

theorem State.heapRoom_congr (rcb c n : Nat) : t.heapRoom rcb c n = s.heapRoom rcb c n := by
  simp only [State.heapRoom, State.regionChain_mem h, State.heapLim_congr h, State.heapUsed_congr h]

theorem State.heapLeft_congr (rcb : Nat) : t.heapLeft rcb = s.heapLeft rcb := by
  simp only [State.heapLeft, State.regionChain_mem h, State.heapLim_congr h, State.heapUsed_congr h]

end

/-! ### The lanes of an action (R347) -/

section
variable {s : State} {r : Rec} {l : Lane} {v : Service} (hb : s.recBadArgs r l v = false)
include hb

/-- A service that merges no lanes acts for the one that names the action. -/
theorem State.lowLane_actionLanes (hm : v.merge = .no) : lowLane (s.actionLanes r l v) = l := by
  have one (x : Lane) : laneIn (s.actionLanes r l v) x = (x == l) := by
    rw [State.actionLanes, hb, if_neg Bool.false_ne_true, hm]
    exact laneIn_maskOf _ x
  have hne : s.actionLanes r l v ≠ 0 := fun e => by
    have hl := one l
    rw [e, laneIn_zero, beq_self_eq_true] at hl
    cases hl
  simpa [one] using laneIn_lowLane hne

/-- The lanes of a bulk action ask for blocks of one class, zeroed or not. -/
theorem State.actionLanes_bulk (hm : v.merge = .bulk) {x : Lane} (hx : laneIn (s.actionLanes r l v) x = true) :
    s.recArg r x 2 = s.recArg r l 2 ∧ sizeClass (s.recArg2 r x 0) = sizeClass (s.recArg2 r l 0) := by
  rw [State.actionLanes, hb, if_neg Bool.false_ne_true, hm] at hx
  simp only [laneIn_maskOf, Bool.and_eq_true, beq_iff_eq] at hx
  exact ⟨hx.1.2, hx.2⟩

end

theorem maskOf_lanesIn (m : LaneMask) : (maskOf fun l => (lanesIn m).contains l) = m := by
  refine mask_ext fun l => ?_
  rw [laneIn_maskOf, List.contains_eq_mem]
  simp [mem_lanesIn]

/-! ### MEM_FREE (R350) -/

theorem service_two {v : Service} (h : service 2 = some v) : v.merge = .no := by
  obtain rfl : (⟨2, 2, .no, true, 1500, 200, []⟩ : Service) = v := Option.some.inj h
  rfl

section
variable {k : Nat} {s u : State} {r : Rec} {v : Service} {m : LaneMask} {b : HeapBlock}

/-- A block of the caller goes back once the words of HEAPUSED are free. -/
theorem State.memFree_returns (hfind : u.heap.find? (fun b => b.asid == r.asid && b.addr == u.recArg2 r (lowLane m) 0) = some b)
    (hfree : u.allFree r.cl true (u.heapWords b.rcb) = true) (hreach : ∀ p ∈ u.heapWords b.rcb, u.fateFrom r.cl p.1 ≠ .moved) :
    u.memFree r v m = ({ u.heapCharge b.rcb (-(b.size : Int)) with heap := u.heap.erase b }).answerLanes r v m 0 fun _ => 0 := by
  rw [State.memFree, hfind]
  dsimp only
  rw [hfree, State.sendAll_reached hreach]
  rfl

theorem State.memFree_refuses (hfind : u.heap.find? (fun b => b.asid == r.asid && b.addr == u.recArg2 r (lowLane m) 0) = none) :
    u.memFree r v m = u.answerLanes r v m eInval fun _ => 0 := by
  rw [State.memFree, hfind]

end

/-! ### MEM_ALLOC (R351) -/

theorem service_one {v : Service} (h : service 1 = some v) : v.merge = .bulk := by
  obtain rfl : (⟨1, 3, .bulk, true, 2400, 120, []⟩ : Service) = v := Option.some.inj h
  rfl

/-- The blocks of a run given to lanes in their order. -/
def heapRun (r : Rec) (base c : Nat) (ls : List Lane) : List HeapBlock := ls.map fun x => ⟨r.asid, base + ls.idxOf x * c, c, r.rcb⟩

/-- The state in which the bytes of the blocks of an action have been charged. -/
def State.allocCharged (u : State) (r : Rec) (n : Nat) : State := ((u.dropX r.cl winReq).useTlbsIn r.cl []).heapCharge r.rcb (n : Int)

theorem State.allocCharged_frame (u : State) (r : Rec) (n : Nat) : (u.allocCharged r n).groups = u.groups ∧ (u.allocCharged r n).heap = u.heap := by
  have step : u.CacheStep ((u.dropX r.cl winReq).useTlbsIn r.cl []) := (u.cacheStep_dropX r.cl winReq).trans (State.cacheStep_useTlbsIn _ _ _)
  have frame := ((u.dropX r.cl winReq).useTlbsIn r.cl []).homeFrame_heapCharge r.rcb (n : Int)
  exact ⟨frame.groups.trans step.groups, frame.heap.trans (by rw [step])⟩

theorem State.answerLanes_zero (s : State) (r : Rec) (v : Service) (st : Nat) (value : Lane → DWord) : s.answerLanes r v 0 st value = s := if_pos rfl

/-- Every lane of an action gets its block when the limits have room for all of them, no block is to be zeroed, and blocks are small enough to be answered
together. -/
theorem State.memAlloc_grants {u : State} {base c : Nat} {r : Rec} {v : Service} {m : LaneMask} (hc : sizeClass (u.recArg2 r (lowLane m) 0) = c)
    (hzero : u.recArg r (lowLane m) 2 = 0) (hroom : (lanesIn m).length ≤ u.heapRoom r.rcb c (lanesIn m).length) (hsmall : c ≤ 1024)
    (hfree : u.allFree r.cl true (u.heapWords r.rcb) = true) (hreach : ∀ p ∈ u.heapWords r.rcb, u.fateFrom r.cl p.1 ≠ .moved) :
    u.memAlloc base r v m = ({ u.allocCharged r (c * (lanesIn m).length) with
      heap := (u.allocCharged r (c * (lanesIn m).length)).heap ++ heapRun r base c (lanesIn m) }).answerLanes r v m 0 fun x =>
        BitVec.ofNat 64 (base + (lanesIn m).idxOf x * c) := by
  have noMiss {β : Type} (ls : List Lane) : (ls.flatMap fun _ => ([] : List β)) = [] := List.flatMap_eq_nil_iff.2 fun _ _ => rfl
  have noLane : maskOf (fun l => ([] : List Lane).contains l) = 0 := maskOf_eq_zero_iff.2 fun _ => rfl
  unfold State.memAlloc
  dsimp only
  rw [hzero, hc, List.take_of_length_le hroom, List.drop_of_length_le hroom]
  simp only [show (0 : Word).getLsbD 0 = false from rfl, Bool.false_eq_true, if_false, noMiss, List.append_nil, List.isEmpty_nil, Bool.not_true,
    Bool.not_false, List.filter_true, List.filter_false, noLane, State.answerLanes_zero, hfree, if_pos hsmall, maskOf_lanesIn]
  rw [State.sendAll_reached hreach]
  rfl

end Sys2Proof.Machine
end

section
/-! The call page and the calls of services (R345 to R355, R360): a call's slot, a load of the page, CALL_STATUS, and one action of each service. -/

namespace Sys2Proof.Machine

open Sys2Proof

set_option Elab.async false

/-! ### The call page (R345, R346) -/

/-- Words written one after the other: each is read back, and what lies before them stays. -/
theorem Cluster.putWords_from (a : Nat) : ∀ (ws : List Nat) (n : Nat) (c : Cluster),
    let d := (ws.zipIdx n).foldl (fun c w => c.pset (a + 8 * w.2) w.1 8) c
    (∀ b, b + 8 ≤ a + 8 * n → Memory.read d.page b 8 = Memory.read c.page b 8) ∧
      ∀ i (h : i < ws.length), Memory.read d.page (a + 8 * (n + i)) 8 = ws[i] % 256 ^ 8
  | [], n, c => ⟨fun _ _ => rfl, fun i h => absurd h (Nat.not_lt_zero i)⟩
  | w :: ws, n, c => by
    obtain ⟨before, inside⟩ := Cluster.putWords_from a ws (n + 1) (c.pset (a + 8 * n) w 8)
    refine ⟨fun b hb => ?_, fun i hi => ?_⟩
    · exact (before b (by omega)).trans (Memory.read_write_outside _ _ _ _ _ _ (by omega))
    · cases i with
      | zero => exact (before _ (by omega)).trans (Memory.read_write_same _ _ _ _)
      | succ i =>
        have hi' : i < ws.length := Nat.lt_of_succ_lt_succ hi
        have := inside i hi'
        rwa [Nat.add_assoc, Nat.add_comm 1 i] at this

theorem Cluster.pw_putWords (c : Cluster) (a : Nat) {ws : List Nat} {i : Nat} (h : i < ws.length) :
    (c.putWords a ws).pw (a + 8 * i) = BitVec.ofNat 64 ws[i] := by
  have hread := (Cluster.putWords_from a ws 0 c).2 i h
  rw [Nat.zero_add] at hread
  refine BitVec.eq_of_toNat_eq ?_
  rw [Cluster.pw, Memory.dword, show Memory.read (c.putWords a ws).page (a + 8 * i) 8 = _ from hread, BitVec.toNat_ofNat, BitVec.toNat_ofNat]
  exact Nat.mod_mod _ _

/-- Words written to the page change nothing else of the cluster. -/
theorem Cluster.putWords_page (c : Cluster) (a : Nat) (ws : List Nat) : ∃ p, c.putWords a ws = { c with page := p } :=
  List.foldlRecOn (motive := fun d => ∃ p, d = { c with page := p }) ws.zipIdx _ ⟨_, rfl⟩ fun _ hd _ _ => by
    obtain ⟨p, rfl⟩ := hd
    exact ⟨_, rfl⟩

/-- The lane entries of a call written. -/
def Cluster.putEntries (c : Cluster) (x : Call) (k : Nat) : Cluster :=
  (lanesIn x.lanes).foldl (fun (c : Cluster) l => c.putWords (callEntry k l.val) (x.entryWords l)) c

theorem Cluster.putEntries_page (c : Cluster) (x : Call) (k : Nat) : ∃ p, c.putEntries x k = { c with page := p } :=
  List.foldlRecOn (motive := fun d => ∃ p, d = { c with page := p }) (lanesIn x.lanes) _ ⟨_, rfl⟩ fun d hd l _ => by
    obtain ⟨p, rfl⟩ := hd
    obtain ⟨p', e⟩ := Cluster.putWords_page { c with page := p } (callEntry k l.val) (x.entryWords l)
    exact ⟨p', e⟩

/-- The first word of a header has V set: what stands below it does not reach bit 63. -/
theorem State.headerWords_valid (s : State) (x : Call) (seq : Nat) :
    ∃ y ws, y < 2 ^ 63 ∧ s.headerWords x seq = (2 ^ 63 + y) :: ((x.slot % 4 * 2 ^ 32 + x.lanes.toNat) :: 0 :: ws) := by
  refine ⟨b2n x.all 62 + (s.prog x.slot).ctx % 2 ^ 20 * 2 ^ 32 + (s.prog x.slot).asid % 2 ^ 16 * 2 ^ 16 + (s.prog x.slot).gidx % 256 * 256 +
    slotCore x.slot % 8 * 32 + slotPart x.slot % 32, [seq, x.pc.toNat, s.tstamp.toNat, (s.prog x.slot).rcb, 0], ?_, ?_⟩
  · have hall : b2n x.all 62 ≤ 2 ^ 62 := by unfold b2n; split <;> omega
    omega
  · simp only [State.headerWords, Nat.add_assoc]

/-- The page of a cluster once a call has been written to its slot. -/
def State.callWritten (s : State) (cl : Nat) (x : Call) (k : Nat) : Cluster :=
  ((s.cluster cl).putEntries x k).putWords (callHeader k) (s.headerWords x ((s.cluster cl).nextSeq cl))

section
variable (s : State) (cl : Nat) (x : Call) (k : Nat)

theorem State.callWritten_page : ∃ p, s.callWritten cl x k = { s.cluster cl with page := p } := by
  obtain ⟨p, hp⟩ := (s.cluster cl).putEntries_page x k
  obtain ⟨q, hq⟩ := ((s.cluster cl).putEntries x k).putWords_page (callHeader k) (s.headerWords x ((s.cluster cl).nextSeq cl))
  exact ⟨q, hq.trans (by rw [hp])⟩

theorem State.callWritten_valid : ((s.callWritten cl x k).pw (callHeader k)).getLsbD 63 = true := by
  obtain ⟨y, ws, hy, hws⟩ := s.headerWords_valid x ((s.cluster cl).nextSeq cl)
  have hword := ((s.cluster cl).putEntries x k).pw_putWords (callHeader k) (ws := (2 ^ 63 + y) :: (x.slot % 4 * 2 ^ 32 + x.lanes.toNat) :: 0 :: ws)
    (i := 0) (by simp)
  rw [Nat.mul_zero, Nat.add_zero] at hword
  rw [State.callWritten, hws, hword, List.getElem_cons_zero, BitVec.getLsbD_ofNat,
    Nat.testBit_two_pow_add_eq, Nat.testBit_lt_two_pow hy]
  rfl

theorem State.callWritten_done : (s.callWritten cl x k).doneBits k = 0 := by
  obtain ⟨y, ws, -, hws⟩ := s.headerWords_valid x ((s.cluster cl).nextSeq cl)
  have hword := ((s.cluster cl).putEntries x k).pw_putWords (callHeader k) (ws := (2 ^ 63 + y) :: (x.slot % 4 * 2 ^ 32 + x.lanes.toNat) :: 0 :: ws)
    (i := 2) (by simp)
  rw [Cluster.doneBits, State.callWritten, hws, show callHeader k + 16 = callHeader k + 8 * 2 from rfl, hword]
  rfl

theorem State.assignCall_cluster : (s.assignCall cl x k).cluster cl = { s.callWritten cl x k with
    calls := SMap.set (s.callWritten cl x k).calls k x, callWait := (s.callWritten cl x k).callWait.drop 1,
    callSeq := (s.callWritten cl x k).callSeq + 1 } := State.cluster_setCluster _ _ _

theorem State.assignCall_pw (a : Nat) : ((s.assignCall cl x k).cluster cl).pw a = (s.callWritten cl x k).pw a := by
  rw [s.assignCall_cluster cl x k, Cluster.pw, Cluster.pw]

/-- A call that takes its slot. -/
theorem State.assignCall_leaves : let t := s.assignCall cl x k
    SMap.find (t.cluster cl).calls k = some x ∧ (t.cluster cl).callWait = (s.cluster cl).callWait.tail ∧
      (t.cluster cl).callSeq = (s.cluster cl).callSeq + 1 ∧ (t.svcCore cl).callpend = (s.svcCore cl).callpend ||| BitVec.ofNat 28 (2 ^ k) ∧
      ((t.cluster cl).pw (callHeader k)).getLsbD 63 = true ∧ (t.cluster cl).doneBits k = 0 ∧ t.groups = s.groups ∧ t.mem = s.mem := by
  obtain ⟨p, hp⟩ := s.callWritten_page cl x k
  refine ⟨?_, ?_, ?_, congrArg SvcCore.callpend (State.svcCore_setSvc _ _ _), ?_, ?_, rfl, rfl⟩
  · rw [s.assignCall_cluster cl x k]
    exact SMap.find_set_same _ _ _
  · rw [s.assignCall_cluster cl x k, hp]
    exact List.drop_one
  · rw [s.assignCall_cluster cl x k, hp]
  · rw [s.assignCall_pw cl x k]
    exact s.callWritten_valid cl x k
  · rw [Cluster.doneBits, s.assignCall_pw cl x k]
    exact s.callWritten_done cl x k

end

/-- A service core's load of its call page. -/
theorem exec_callPageAccess_loads (s : State) (c : Nat) (m : Mode) (r : HartReq) (hr : r.agent = .service c m) (hc : c < 128) (hlo : callBase c ≤ r.pa)
    (hhi : r.pa + r.n ≤ callBase c + 0x10000) (hn : r.n = 4 ∨ r.n = 8) (halign : r.pa % r.n = 0) :
    exec (.callPageAccess .load r) s = .next (s.hartGot r.agent (s.pageLoad c (r.pa - callBase c) r.n)) := by
  have hsize : ((r.n != 4 && r.n != 8) || decide (r.pa % r.n ≠ 0)) = false := by
    rcases hn with h | h <;> rw [h] at halign ⊢ <;> simp [halign]
  have hdue : callPageDue r = true := by
    rw [callPageDue, hr]
    exact decide_eq_true ⟨hc, hlo, by omega⟩
  rw [exec_callPageAccess, execCallPageAccess, event_due hdue, State.callPage, hsize, hr]
  rfl

/-! ### CALL_STATUS (R355) -/

theorem State.serveDue_callRec {s : State} {num cl k : Nat} {l : Lane} {r : Rec} {v : Service} (h : s.serveDue num cl k l = some (r, v)) :
    s.callRec cl k = some r := by
  unfold State.serveDue at h
  split at h
  · next r' v' hrec _ =>
    simp only [Option.ite_none_right_eq_some, Option.some.injEq, Prod.mk.injEq] at h
    rw [hrec, h.2.1]
  · cases h

theorem service_zero {v : Service} (h : service 0 = some v) : v.merge = .no := by
  obtain rfl : (⟨0, 5, .no, false, 900, 300, []⟩ : Service) = v := Option.some.inj h
  rfl

section
variable {s u : State} {oldest : Nat} {r : Rec} {v : Service} {m : LaneMask}

theorem State.callStatus_going (h : u.inProgress (u.recArg2 r (lowLane m) 0) (u.recArg r (lowLane m) 2).toNat = true) :
    u.callStatus oldest r v m = u.answerLanes r v m eInprogress fun _ => 0 := if_pos h

theorem State.callStatus_stale (h : u.inProgress (u.recArg2 r (lowLane m) 0) (u.recArg r (lowLane m) 2).toNat = false)
    (hold : u.recArg2 r (lowLane m) 0 < oldest) : u.callStatus oldest r v m = u.answerLanes r v m eStale fun _ => 0 :=
  (if_neg (by rw [h]; exact Bool.false_ne_true)).trans (if_pos hold)

/-- The number is one of a service, and the range that the shard retains covers its journal. -/
theorem execCallStatus_serves {cl k : Nat} {l : Lane} (h : s.serveDue 0 cl k l = some (r, v)) (hlisted : s.unlisted cl k l = none)
    (hold : s.retains oldest (s.recArg2 r l 0) = true) :
    execCallStatus cl k l oldest s = serve 0 cl k l (fun r v m s => s.callStatus oldest r v m) s := by
  rw [execCallStatus, hlisted]
  dsimp only
  rw [State.serveDue_callRec h]
  exact if_pos hold

end

/-! ### Each service -/

/-- A service whose outcome comes from outside acts with a status that it may give. -/
theorem serveOut_serves {num cl k : Nat} {l : Lane} {st : Nat} {body : Rec → Service → LaneMask → State → State} {s : State}
    (h : (service num).any (·.allows st) = true) : serveOut num cl k l st body s = serve num cl k l body s := by
  unfold serveOut
  cases hv : service num with
  | none => rw [hv] at h; cases h
  | some v =>
    rw [hv] at h
    exact if_pos h

end Sys2Proof.Machine
end

section
/-! One action of each service of Linium (R350 to R355): heaps, user interrupts, and the calls and services together. -/

namespace Sys2Proof.Machine

open Sys2Proof

set_option Elab.async false

section
variable {cl k : Nat} {l : Lane} {s : State} {r : Rec} {v : Service}

/-! ### MEM_FREE and MEM_ALLOC (R350, R351) -/

theorem execMemFree_returns {b : HeapBlock} (h : s.serveDue 2 cl k l = some (r, v)) (hf : s.Fits k l r v)
    (hfind : s.heap.find? (fun b => b.asid == r.asid && b.addr == s.recArg2 r l 0) = some b)
    (hfree : (s.takeRec r).allFree r.cl true ((s.takeRec r).heapWords b.rcb) = true)
    (hreach : ∀ p ∈ (s.takeRec r).heapWords b.rcb, (s.takeRec r).fateFrom r.cl p.1 ≠ .moved) :
    ∃ t, execMemFree cl k l s = .next t ∧ Answered t cl k (s.actionLanes r l v) 0 (fun _ => 0) ∧ t.heap = s.heap.erase b ∧ t.groups = s.groups := by
  have hlow := State.lowLane_actionLanes hf.2.1 (service_two (State.serveDue_facts h).2.2.1)
  rw [← hf.recArg2 h, ← s.takeRec_heap r, ← hlow] at hfind
  obtain ⟨t, hserve, hans, hg, -, hh⟩ := serve_answers (body := fun r v m s => s.memFree r v m) h hf (State.memFree_returns hfind hfree hreach)
  have frame := (s.takeRec r).homeFrame_heapCharge b.rcb (-(b.size : Int))
  refine ⟨t, hserve, hans, hh.trans ?_, hg.trans (frame.groups.trans (s.takeRec_groups r))⟩
  show (s.takeRec r).heap.erase b = _
  rw [s.takeRec_heap r]

theorem execMemFree_refuses (h : s.serveDue 2 cl k l = some (r, v)) (hf : s.Fits k l r v)
    (hfind : s.heap.find? (fun b => b.asid == r.asid && b.addr == s.recArg2 r l 0) = none) :
    ∃ t, execMemFree cl k l s = .next t ∧ Answered t cl k (s.actionLanes r l v) 22 (fun _ => 0) ∧ t.heap = s.heap ∧ t.mem = s.mem ∧
      t.groups = s.groups := by
  have hlow := State.lowLane_actionLanes hf.2.1 (service_two (State.serveDue_facts h).2.2.1)
  rw [← hf.recArg2 h, ← s.takeRec_heap r, ← hlow] at hfind
  obtain ⟨t, hserve, hans, hg, hm, hh⟩ := serve_tells (body := fun r v m s => s.memFree r v m) h hf (State.memFree_refuses hfind)
  exact ⟨t, hserve, hans, hh, hm, hg⟩

theorem execMemAlloc_serves {base : Nat} (hok : s.allocOk cl k l base = true) :
    execMemAlloc cl k l base s = serve 1 cl k l (fun r v m s => s.memAlloc base r v m) s := if_pos hok

theorem execMemAlloc_grants {base : Nat} (h : s.serveDue 1 cl k l = some (r, v)) (hok : s.allocOk cl k l base = true) (hf : s.Fits k l r v)
    (hzero : s.recArg r l 2 = 0) {c : Nat} (hc : sizeClass (s.recArg2 r l 0) = c) {ls : List Lane} (hls : lanesIn (s.actionLanes r l v) = ls)
    (hroom : ls.length ≤ s.heapRoom r.rcb c ls.length) (hsmall : c ≤ 1024)
    (hfree : (s.takeRec r).allFree r.cl true ((s.takeRec r).heapWords r.rcb) = true)
    (hreach : ∀ p ∈ (s.takeRec r).heapWords r.rcb, (s.takeRec r).fateFrom r.cl p.1 ≠ .moved) :
    ∃ t, execMemAlloc cl k l base s = .next t ∧
      Answered t cl k (s.actionLanes r l v) 0 (fun x => BitVec.ofNat 64 (base + ls.idxOf x * c)) ∧ t.groups = s.groups ∧
      t.heap = s.heap ++ heapRun r base c ls := by
  subst hls
  obtain ⟨hzeros, hclass⟩ := State.actionLanes_bulk hf.2.1 (service_one (State.serveDue_facts h).2.2.1)
    (laneIn_lowLane (State.actionLanes_ne_zero h))
  rw [← State.heapRoom_congr (s.takeRec_mem r)] at hroom
  obtain ⟨t, hserve, hans, hg, -, hh⟩ := serve_answers (body := fun r v m s => s.memAlloc base r v m) h hf
    (State.memAlloc_grants (by rw [hf.recArg2 h, hclass, hc]) (by rw [hf.recArg h, hzeros, hzero]) hroom hsmall hfree hreach)
  obtain ⟨hgroups, hheap⟩ := (s.takeRec r).allocCharged_frame r (c * (lanesIn (s.actionLanes r l v)).length)
  rw [execMemAlloc_serves hok]
  refine ⟨t, hserve, hans, hg.trans (hgroups.trans (s.takeRec_groups r)), hh.trans ?_⟩
  show ((s.takeRec r).allocCharged r _).heap ++ _ = _
  rw [hheap, s.takeRec_heap r]

/-! ### UI_SEND and CALL_STATUS (R350, R355) -/

/-- A context that no region has: EPERM. -/
theorem execUiSend_refuses (h : s.serveDue 33 cl k l = some (r, v)) (hf : s.Fits k l r v)
    (hctx : (s.takeRec r).ctxRegion (s.recArg r (lowLane (s.actionLanes r l v)) 0).toNat = none) :
    ∃ t, execUiSend cl k l s = .next t ∧ Answered t cl k (s.actionLanes r l v) 1 fun _ => 0 := by
  obtain ⟨t, hserve, hans, -⟩ := serve_tells (body := fun r v m s => s.uiSend r v m) (st := ePerm) (value := fun _ => 0) h hf (by
    rw [State.uiSend]
    rw [hf.recArg h, hctx]
    rfl)
  exact ⟨t, hserve, hans⟩

section
variable {oldest : Nat} (h : s.serveDue 0 cl k l = some (r, v)) (hlisted : s.unlisted cl k l = none) (hold : s.retains oldest (s.recArg2 r l 0) = true)
  (hf : s.Fits k l r v)
include h hlisted hold hf

theorem execCallStatus_going (hgoing : (s.takeRec r).inProgress (s.recArg2 r l 0) (s.recArg r l 2).toNat = true) :
    ∃ t, execCallStatus cl k l oldest s = .next t ∧ Answered t cl k (s.actionLanes r l v) 115 (fun _ => 0) ∧ t.groups = s.groups ∧ t.mem = s.mem := by
  have hlow := State.lowLane_actionLanes hf.2.1 (service_zero (State.serveDue_facts h).2.2.1)
  obtain ⟨t, hserve, hans, hg, hm, -⟩ := serve_tells (body := fun r v m s => s.callStatus oldest r v m) h hf
    (State.callStatus_going (by rw [hlow, hf.recArg2 h, hf.recArg h, hgoing]))
  rw [execCallStatus_serves h hlisted hold]
  exact ⟨t, hserve, hans, hg, hm⟩

theorem execCallStatus_stale (hgoing : (s.takeRec r).inProgress (s.recArg2 r l 0) (s.recArg r l 2).toNat = false) (hstale : s.recArg2 r l 0 < oldest) :
    ∃ t, execCallStatus cl k l oldest s = .next t ∧ Answered t cl k (s.actionLanes r l v) 116 (fun _ => 0) ∧ t.groups = s.groups ∧ t.mem = s.mem := by
  have hlow := State.lowLane_actionLanes hf.2.1 (service_zero (State.serveDue_facts h).2.2.1)
  obtain ⟨t, hserve, hans, hg, hm, -⟩ := serve_tells (body := fun r v m s => s.callStatus oldest r v m) h hf
    (State.callStatus_stale (by rw [hlow, hf.recArg2 h, hf.recArg h, hgoing]) (by rw [hlow, hf.recArg2 h]; exact hstale))
  rw [execCallStatus_serves h hlisted hold]
  exact ⟨t, hserve, hans, hg, hm⟩

end
end

/-- Settles O57: each event by its function, each service by `serve` and what its body answers. -/
theorem callsAndServicesAct : Obligations.CallsAndServicesAct := by
  intro s cl k l cost fits free answered runs tells comes leaves
  have runsOf {i : Instr} {num : Nat} {body : Rec → Service → LaneMask → State → State} (hi : exec i s = serve num cl k l body s) : runs i num := by
    intro r v h
    unfold Gives
    rw [hi]
    exact serve_runs h
  have tellsOf {i : Instr} {num st : Nat} {val : Rec → DWord} {body : Rec → Service → LaneMask → State → State}
      (hi : exec i s = serve num cl k l body s)
      (hbody : ∀ r v m, body r v m (s.takeRec r) = (s.takeRec r).answerLanes r v m st fun _ => val r) : tells i num st val := by
    intro r v h hf
    unfold Gives
    rw [hi]
    obtain ⟨t, hserve, hans, hg, hm, -⟩ := serve_tells h hf (hbody r v (s.actionLanes r l v))
    exact ⟨t, hserve, hans, hg, hm⟩
  have comesOf {i : Instr} {num st : Nat} {data : List Byte} (hi : exec i s = serveOut num cl k l st (comesIn l st data) s)
      (hst : (service num).any (·.allows st) = true) : comes i num st data := by
    rw [serveOut_serves hst] at hi
    refine ⟨runsOf hi, fun hne => tellsOf hi fun r v m => if_pos hne, fun r v es h hf h0 hrange hfree => ?_⟩
    subst h0
    unfold Gives
    rw [hi]
    exact serve_comesIn h hf hrange hfree.1 hfree.2
  have leavesOf {i : Instr} {num st n : Nat} (hi : exec i s = serveOut num cl k l st (goesOut l st n) s)
      (hst : (service num).any (·.allows st) = true) : leaves i num st n := by
    rw [serveOut_serves hst] at hi
    refine ⟨runsOf hi, fun hne => tellsOf hi fun r v m => if_pos hne, fun r v es h hf h0 hrange hfree => ?_⟩
    subst h0
    unfold Gives
    rw [hi]
    exact serve_goesOut h hf hrange hfree.1 hfree.2
  have toldOf {i : Instr} {num st : Nat} (hi : exec i s = serveOut num cl k l st (fun r v m s => s.answerLanes r v m st fun _ => 0) s)
      (hst : (service num).any (·.allows st) = true) : runs i num ∧ tells i num st fun _ => 0 := by
    rw [serveOut_serves hst] at hi
    exact ⟨runsOf hi, tellsOf hi fun r v m => rfl⟩
  have allowed (num : Nat) (sts : List Nat) (h : sts.all (fun st => (service num).any (·.allows st)) = true) {st : Nat} (hst : st ∈ sts) :
      (service num).any (·.allows st) = true := List.all_eq_true.1 h st hst
  refine ⟨fun op r hdue => event_due hdue, fun c m pa n data op ty hc hlo hhi hn halign => ?load,
    fun x j hready => ?assign, fun x hreply => ?resume, fun hcl => event_due (decide_eq_true hcl),
    fun d hd => ?svcq, fun base hok => runsOf (execMemAlloc_serves hok), runsOf (exec_memFree cl k l s), fun st hst => ?protect,
    runsOf (exec_memInfo cl k l s), tellsOf (exec_memInfo cl k l s) fun r v m => ?info, fun st data hst => comesOf rfl (allowed 8 _ (by decide) hst),
    fun st n hst => leavesOf rfl (allowed 9 _ (by decide) hst), fun st hst => toldOf rfl (allowed 10 _ (by decide) hst),
    fun st n hst => leavesOf rfl (allowed 16 _ (by decide) hst), fun st data hst => comesOf rfl (allowed 17 _ (by decide) hst),
    fun st n hst => leavesOf rfl (allowed 18 _ (by decide) hst), fun st data hst => comesOf rfl (allowed 19 _ (by decide) hst),
    fun st hst => toldOf rfl (allowed 32 _ (by decide) hst), runsOf (exec_uiSend cl k l s),
    fun r v h hf hctx => execUiSend_refuses h hf hctx, fun st data hst => ?handle,
    fun r v h hf => ⟨fun b hfind hfree => execMemFree_returns h hf hfind hfree.1 hfree.2, fun hfind => execMemFree_refuses h hf hfind⟩,
    fun r v base h hok hf hzero hroom hsmall hfree => execMemAlloc_grants h hok hf hzero rfl rfl hroom hsmall hfree.1 hfree.2,
    fun r v oldest h hlisted hold => ⟨?status, fun hf => ⟨execCallStatus_going h hlisted hold hf, execCallStatus_stale h hlisted hold hf⟩⟩,
    fun r oldest hun => ?refuse, fun r v h hk hb hq => ?refuses⟩
  case load =>
    refine ⟨_, exec_callPageAccess_loads s c _ _ rfl hc hlo hhi hn halign, ?_, ?_, rfl, rfl, rfl⟩ <;> rw [State.svcCore_hartGot]
    rfl
  case assign =>
    refine ⟨s.assignCall cl x j, ?_, s.assignCall_leaves cl x j⟩
    rw [exec_callSlotAssign, execCallSlotAssign, hready]
  case resume => rw [exec_callReplyResume, execCallReplyResume, hreply]
  case svcq =>
    refine ⟨{ s with deferred := s.deferred.map fun e => if e = d then { e with go := true } else e }, ?_, rfl, rfl, rfl⟩
    rw [exec_svcqResume, execSvcqResume, hd]
  case protect =>
    have hi := (exec_memProtect cl k l st s).trans (serveOut_serves (allowed 3 _ (by decide) hst))
    exact ⟨runsOf hi, fun hne => tellsOf hi fun r v m => if_pos (Or.inl hne)⟩
  case info =>
    show (s.takeRec r).answerLanes r v m 0 (fun _ => BitVec.ofNat 64 ((s.takeRec r).heapLeft r.rcb)) = _
    rw [State.heapLeft_congr (s.takeRec_mem r)]
  case handle =>
    have hi := (exec_handleInfo cl k l st data s).trans (serveOut_serves (allowed 40 _ (by decide) hst))
    exact ⟨runsOf hi, fun hne => tellsOf hi fun r v m => if_pos hne⟩
  case status =>
    rw [exec_callStatus, execCallStatus_serves h hlisted hold]
    exact (serve_runs h).1
  case refuse => rw [exec_callStatus, execCallStatus, hun]
  case refuses =>
    obtain ⟨t, hserve, hans, hg, hm⟩ := serve_refuses
      (body := fun r v m s => s.answerLanes r v m 0 fun _ => BitVec.ofNat 64 (s.heapLeft r.rcb)) h hk hb hq
    obtain ⟨hdone, hst, -⟩ := hans l (State.actionLanes_mem h)
    exact ⟨t, hserve, hdone, hst, hg, hm⟩

end Sys2Proof.Machine
end
